-- ==== Sys2Proof/Word.lean ====
section
/-! DEFINITION. The words of the block and their plainest arithmetic: the widths of 00 R4 and the keyed
table in which State keeps sparse arrays. -/

namespace Sys2Proof

abbrev Byte := BitVec 8
/-- a 32-bit register word -/
abbrev W32 := BitVec 32
/-- a 64-bit register or host-memory word -/
abbrev W64 := BitVec 64
/-- an event ID (03 R50) -/
abbrev EventId := BitVec 21
/-- a count of strokes modulo 2^48 (08 R178) -/
abbrev Stroke := BitVec 48

/-- A sparse array: pairs of key and value, the first pair of a key holding its value. -/
abbrev Tbl (α : Type) := List (Nat × α)

/-- Bits [hi:lo] of a word, as a number. -/
def field {n : Nat} (w : BitVec n) (hi lo : Nat) : Nat := (w.toNat >>> lo) % 2 ^ (hi + 1 - lo)

/-- Bit i of a word. -/
def bitAt {n : Nat} (w : BitVec n) (i : Nat) : Bool := w.getLsbD i

/-- The word with bits [hi:lo] replaced by the low bits of v. -/
def setField {n : Nat} (w : BitVec n) (hi lo v : Nat) : BitVec n :=
  let m : BitVec n := BitVec.ofNat n ((2 ^ (hi + 1 - lo) - 1) <<< lo)
  (w &&& ~~~m) ||| (BitVec.ofNat n ((v % 2 ^ (hi + 1 - lo)) <<< lo))

/-- The word with bit i set to b. -/
def setBit {n : Nat} (w : BitVec n) (i : Nat) (b : Bool) : BitVec n := setField w i i b.toNat

/-- Saturating increment of an n-bit count. -/
def satInc {n : Nat} (w : BitVec n) : BitVec n := if w = BitVec.allOnes n then w else w + 1

/-- Event ID NONE (00 glossary, 03 R50). -/
def noneId : EventId := 0x1FFFFF

end Sys2Proof
end

