-- ==== Sys2Proof/Syntax.lean ====
section
/-! DEFINITION. The commands of the block: one constructor per row of spec/opcode_table.json, in the table's
order. A command's operands are what its happening brings from outside (an input's level, a written word, a
flit, the outcome of a host-memory access); what the block itself determines is no operand. -/

namespace Sys2Proof

/-- The source of a register write (16 R386): the register port, a Burin, the side-band. -/
inductive Src
  | port | burA | burB | side
  deriving DecidableEq, Repr

/-- A full-width 32-bit write of one register word, with its attributes (16 R382). -/
structure RegAcc where
  data : W32
  priv : Bool
  sec  : Bool
  src  : Src
  /-- on the register port: how many of the responses presented reg_rsp_ready_i has taken before it (02 R32) -/
  taken : Nat := 8
  /-- by a Burin: made in the cycle of the register-port access before it, behind which it is applied (01 R12) -/
  same : Bool := false
  deriving DecidableEq, Repr

/-- An access of any legal or illegal width (16 R377, R379): size 0 to 3 is 8 to 64 bits; data as on the byte lanes of
reg_req_wdata_i. A read is one of the register port; the table has no row of its own for it (log 67). -/
structure BusAcc where
  off  : BitVec 24
  size : BitVec 2
  data : W64
  priv : Bool
  sec  : Bool
  src  : Src
  read : Bool := false
  /-- on the register port: how many of the responses presented reg_rsp_ready_i has taken before it (02 R32) -/
  taken : Nat := 8
  /-- by a Burin: made in the cycle of the register-port access before it, behind which it is applied (01 R12) -/
  same : Bool := false
  deriving DecidableEq, Repr

/-- The rest of a frame access (09 R217): reg_req_priv_i; a 64-bit read of TGT_CLAIM with TGT_PEEK; and, on the register
port, how many of the responses presented reg_rsp_ready_i has taken before it (02 R32). -/
structure FrameAcc where
  priv  : Bool := true
  wide  : Bool := false
  taken : Nat := 8
  deriving DecidableEq, Repr

/-- How an operation reaches a target engine: over the channel with tp_req_ctx_i, or over the frame, with reg_req_sec_i and
the source of the access (09 R197, R217). -/
inductive Path
  | chan (ctx : BitVec 2)
  | frame (sec : Bool) (src : Src) (acc : FrameAcc := {})
  deriving DecidableEq, Repr

/-- The context code of a path (09 R217). -/
def Path.ctx : Path → BitVec 2
  | .chan c => c
  | .frame sec _ _ => if sec then 0 else 1

def Path.isFrame : Path → Bool
  | .chan _ => false
  | .frame _ _ _ => true

def Path.src : Path → Src
  | .chan _ => .port
  | .frame _ q _ => q

/-- The rest of a frame access; the channel has none. -/
def Path.acc : Path → FrameAcc
  | .chan _ => {}
  | .frame _ _ a => a

/-- How a set followed by a summary mark ends, after its retries: good, the set failed, or the mark failed. -/
inductive SetEnd
  | good | setFail | markFail
  deriving DecidableEq, Repr

/-- How a command's host-memory accesses end, after their retries: all good; a read it makes before any write fails;
or its write number k fails, the writes before it standing (06 R139, 11 R270). -/
inductive CmdMem
  | good | readFail
  | writeFail (k : BitVec 3)
  deriving DecidableEq, Repr

/-- One of the two Burins (14). -/
inductive Bur
  | a | b
  deriving DecidableEq, Repr

/-- What makes a host-memory access, as the tables of 01 R10 and R440 divide them. -/
inductive AccWho
  /-- a lead or a sweep of a target, of either kind -/
  | refill (t : BitVec 7) (virt : Bool)
  /-- the fill of a lookup's miss, by slice -/
  | lookup (slice : BitVec 3)
  /-- the set and mark of a slow-path write, by tracker entry -/
  | slowSet (n : BitVec 6)
  /-- the set of a spill, by lane -/
  | spill (l : BitVec 3)
  /-- another set or clear of a pending bit by a lane -/
  | laneBit (l : BitVec 3)
  /-- the summary tables written by a flush -/
  | sumFlush
  /-- the set and mark of a park -/
  | park (n : BitVec 7)
  /-- steps S3 and S4 of a residency switch -/
  | residency (t : BitVec 7)
  /-- the Panels' save area and vPE words -/
  | panelSave
  /-- the attributes of a doorbell raise -/
  | doorbell
  /-- a load or rebuild of the summaries -/
  | load
  /-- a descriptor fetch, and a completion-record write, by ring -/
  | desc (r : BitVec 3)
  | record (r : BitVec 3)
  /-- a table command's entry writes, a bit that a command sets or clears, and the reads that a command makes, by ring -/
  | table (r : BitVec 3)
  | bitCmd (r : BitVec 3)
  | cmdRead (r : BitVec 3)
  /-- the targets' save areas -/
  | tgtSave
  /-- table maintenance by a Burin -/
  | burin (u : Bur)
  deriving DecidableEq, Repr

/-- A host-memory access that waits for its line in the coherent agent (01 R10): what makes it, its line, whether it needs
the line unique, and whether it has waited 16 cycles. -/
structure CohAcc where
  who    : AccWho
  line   : BitVec 46
  unique : Bool
  waited : Bool
  deriving DecidableEq, Repr

/-- What arrives from the coherent system in the row ERR (13 R311, R321): the response ERR; another encoding of
coh_rsp_op_i; a data beat that answers no request; a snoop with another encoding of coh_snp_op_i. -/
inductive CohBad
  | err
  | rsp (op : BitVec 4)
  | beat
  | snp (op : BitVec 4) (line : BitVec 46)
  deriving DecidableEq, Repr

/-- A register number of a Burin. -/
abbrev RegNo := BitVec 4

/-- The three-operand functions of ALU (14 R332), CMP apart. -/
inductive AluFn
  | add | sub | and | or | xor | shl | shr | sar | mul | crc
  deriving DecidableEq, Repr

/-- The immediate forms that write a register (14 R332). -/
inductive ImmFn
  | addi | andi | ori | xori
  deriving DecidableEq, Repr

/-- Kinds of SHI. -/
inductive ShiftKind
  | left | right | arith
  deriving DecidableEq, Repr

/-- Widths of a one-register access. -/
inductive Width
  | byte | half | word
  deriving DecidableEq, Repr

/-- An instruction of a Burin, as 14 R331 to R333 read it from its word. -/
inductive BInstr
  | nop
  | alu (fn : AluFn) (rd ra rb : RegNo)
  | cmp (ra rb : RegNo)
  | imm (fn : ImmFn) (rd ra : RegNo) (imm : BitVec 18)
  | shi (k : ShiftKind) (rd ra : RegNo) (amt : BitVec 5)
  | lui (rd : RegNo) (imm : BitVec 18)
  | cmpi (ra : RegNo) (imm : BitVec 18)
  | load (w : Width) (rd ra : RegNo) (imm : BitVec 18)
  | ldd (rd ra : RegNo) (imm : BitVec 18)
  | ldwp (rd ra : RegNo) (imm : BitVec 18)
  | store (w : Width) (rd ra : RegNo) (imm : BitVec 18)
  | std (rd ra : RegNo) (imm : BitVec 18)
  | stwp (rd ra : RegNo) (imm : BitVec 18)
  | ator (rd ra rb : RegNo)
  | atclr (rd ra rb : RegNo)
  | b (cond : BitVec 4) (off : BitVec 22)
  | call (mask : Byte) (off : BitVec 18)
  | callr (mask : Byte) (rt : RegNo)
  | ret
  | rep (rc : RegNo)
  | sys (imm : BitVec 18)
  | rett
  /-- FLG sub 0; its ra field is not used -/
  | flgRead (rd ra : RegNo)
  /-- FLG sub 1; its rd field is not used -/
  | flgWrite (rd ra : RegNo)
  /-- FLG sub 2 and 3; neither field is used -/
  | flgIe (on : Bool) (rd ra : RegNo)
  | wait
  | undef (word : W32)
  deriving DecidableEq, Repr

/-- What asserts in WAKE_INPUT (17 R417): a wake input takes a level, or a wired line's pin shows one on so many consecutive
CLK_AON samples of the always-on filter (04 R92). -/
inductive WakeSrc
  | input (n : BitVec 4) (lvl : Bool)
  | line (n : BitVec 12) (lvl : Bool) (samples : BitVec 17)
  deriving DecidableEq, Repr

/-- A flit or an in-flight entry whose parity fails (18 R432): in the receive buffer or in the replay buffer of a port, by its
place; `resend`: one that the replay buffer has kept through a port reset (12 R287). -/
inductive WftAt
  | rx (p : BitVec 2) (k : BitVec 5)
  | replay (p : BitVec 2) (k : BitVec 6)
  | resend (p : BitVec 2) (k : BitVec 6)
  | inflight (i : BitVec 9)
  deriving DecidableEq, Repr

/-- An entry whose parity fails (18 R432), by its place: an operation that waits in a target's tree, a queued AGE operation, a spill in a lane's
buffers, a park, a flit or in-flight entry, a descriptor fetched by a ring, an entry of an active stack or split list. -/
inductive ParityAt
  | op (t : BitVec 7) (k : Byte)
  | age (t : BitVec 7) (k : BitVec 3)
  | spill (l : BitVec 3) (k : BitVec 9)
  | park (k : BitVec 7)
  | wft (w : WftAt)
  | desc (r k : BitVec 3)
  | active (t : BitVec 7) (virt split : Bool) (k : BitVec 4)
  deriving DecidableEq, Repr

/-- A word of the arrays that report through GLB_ECC (18 R431). Of a Panel, `share`: its live share cannot be read. Of a flit
or in-flight entry, `id`: what its ID field is read as, where that fails as well. -/
inductive ArrayAt
  | pool (k : BitVec 14)
  | tracker (k : BitVec 6)
  | summary (t : BitVec 7) (virt : Bool) (chunk : BitVec 11)
  | vpe (v : BitVec 16)
  | panel (p : BitVec 10) (share : Bool)
  | weft (w : WftAt) (id : Option (BitVec 21))
  | slot (n : BitVec 6)
  deriving DecidableEq, Repr

/-- An error that an SRAM or an internal path shows when it is read (07 R172, 13 R322, 14 R341, 18 R431, R432): in the table
cache, with the words of the line that fail; in a tree's entry, whose ID can be read or not; in an array of R431; in a Burin's SRAM, at the address of a fetch or a load; on a path with parity, with what the ID
field is read as where its own parity fails. `unc`: it cannot be corrected. -/
inductive Upset
  | line (l : BitVec 46) (words : Byte) (unc : Bool)
  | entry (t : BitVec 7) (virt : Bool) (ev : BitVec 21) (unc idOk : Bool)
  | array (a : ArrayAt) (unc : Bool)
  | burin (u : Bur) (addr : W32) (unc : Bool)
  | parity (a : ParityAt) (id : Option (BitVec 21))
  deriving DecidableEq, Repr

/-- The commands (spec/opcode_table.json). -/
inductive Instr
  | coldReset (inst smb : BitVec 7) (winBase : BitVec 41) (intact : Bool) -- COLD_RESET (R41)
  | sramInitDone -- SRAM_INIT_DONE (R41)
  | rstWarmFall -- RST_WARM_FALL (R43)
  | rstWarmRise -- RST_WARM_RISE (R44)
  | glbRstCtrlWarm (acc : RegAcc) -- GLB_RST_CTRL_WARM (R42)
  | warmFlushDone (badP : List (BitVec 10)) (badV : List (BitVec 16)) -- WARM_FLUSH_DONE (R43)
  | warmQuiet -- WARM_QUIET (R43)
  | warmDomainRelease -- WARM_DOMAIN_RELEASE (R43)
  | strokeBoundary (held : Bool) (ups : List Upset) -- STROKE_BOUNDARY (R17)
  | epochBoundary -- EPOCH_BOUNDARY (R188)
  | refcntSnapshot -- REFCNT_SNAPSHOT (R181)
  | refSnapAck (ref : W64) -- REF_SNAP_ACK (R36)
  | alignStroke -- ALIGN_STROKE (R193)
  | heartbeatWindowEnd -- HEARTBEAT_WINDOW_END (R350)
  | proofSweepComplete -- PROOF_SWEEP_COMPLETE (R397)
  | idleThreshold -- IDLE_THRESHOLD (R403)
  | wiredLineChange (n : BitVec 12) (lvl : Bool) (samples : BitVec 17) (shown : Bool) -- WIRED_LINE_CHANGE (R82)
  | wiredFilterAccept (n : BitVec 12) (samples : BitVec 17) -- WIRED_FILTER_ACCEPT (R82)
  | wiredConfigRead (k : BitVec 4) -- WIRED_CONFIG_READ (R85)
  | winCtlWrite (n : BitVec 12) (acc : RegAcc) -- WIN_CTL_WRITE (R89)
  | winRouteWrite (n : BitVec 12) (acc : RegAcc) -- WIN_ROUTE_WRITE (R88)
  | winXstatWrite (n : BitVec 12) (acc : RegAcc) -- WIN_XSTAT_WRITE (R87)
  | localInputChange (t : BitVec 7) (n : BitVec 4) (lvl : Bool) -- LOCAL_INPUT_CHANGE (R216)
  | tgtIcfgWrite (t : BitVec 7) (i : BitVec 5) (acc : RegAcc) -- TGT_ICFG_WRITE (R216)
  | msgWrite (addr : W64) (data : W32) (be : BitVec 4) (src : BitVec 24) -- MSG_WRITE (R96)
  | msgDecode -- MSG_DECODE (R101)
  | slowSetDone (n : BitVec 6) (fail : Bool) -- SLOW_SET_DONE (R103)
  | msgFenceReq (acc : RegAcc) -- MSG_FENCE_REQ (R110)
  | msgFenceDone -- MSG_FENCE_DONE (R110)
  | msgPqCfgWrite (acc : RegAcc) -- MSG_PQ_CFG_WRITE (R117)
  | lookupIssue (slice : BitVec 3) (idle : BitVec 2) -- LOOKUP_ISSUE (R125)
  | missFill (slice n : BitVec 3) -- MISS_FILL (R128)
  | ins (t : BitVec 7) -- INS (R154)
  | ext (t : BitVec 7) -- EXT (R155)
  | rem (t : BitVec 7) -- REM (R152)
  | rpr (t : BitVec 7) -- RPR (R152)
  | age (t : BitVec 7) -- AGE (R156)
  | mvo (t : BitVec 7) -- MVO (R141)
  | fls (t : BitVec 7) -- FLS (R152)
  | claimResponse (t : BitVec 7) -- CLAIM_RESPONSE (R201)
  | leadArrive (t : BitVec 7) (virt fail : Bool) -- LEAD_ARRIVE (R167)
  | sweepStart (t : BitVec 7) (virt : Bool) -- SWEEP_START (R168)
  | sweepLinesArrive (t : BitVec 7) (virt fail : Bool) -- SWEEP_LINES_ARRIVE (R168)
  | sweepAttrArrive (t : BitVec 7) (virt fail : Bool) -- SWEEP_ATTR_ARRIVE (R168)
  | backgroundSweep (t : BitVec 7) (virt : Bool) -- BACKGROUND_SWEEP (R169)
  | spillSetDone (l : BitVec 3) (fail : Bool) -- SPILL_SET_DONE (R165)
  | flushDone -- FLUSH_DONE (R172)
  | rnkCtrlWrite (acc : RegAcc) -- RNK_CTRL_WRITE (R175)
  | loadDone (t : Option (BitVec 7)) (bad : List (BitVec 7 × BitVec 11)) -- LOAD_DONE (R172)
  | claim (t : BitVec 7) (p : Path) -- CLAIM (R202)
  | complete (t : BitVec 7) (p : Path) (arg : W32) -- COMPLETE (R204)
  | deactivate (t : BitVec 7) (p : Path) (arg : W32) -- DEACTIVATE (R206)
  | send (t : BitVec 7) (p : Path) (arg : W32) -- SEND (R207)
  | setPmask (t : BitVec 7) (p : Path) (arg : W32) -- SET_PMASK (R210)
  | setSplit (t : BitVec 7) (p : Path) (arg : W32) -- SET_SPLIT (R210)
  | setVpe (t : BitVec 7) (p : Path) (arg : W32) -- SET_VPE (R211)
  | peek (t : BitVec 7) (p : Path) -- PEEK (R203)
  | undefinedOp (t : BitVec 7) (op : BitVec 4) (ctx : BitVec 2) (arg : W32) -- UNDEFINED_OP (R199)
  | park (fail : Bool) -- PARK (R231)
  | parkSetDone (n : BitVec 7) (e : SetEnd) -- PARK_SET_DONE (R231)
  | switchSave (t : BitVec 7) (ctxFail : Bool) (bad : List (BitVec 11)) -- SWITCH_SAVE (R235)
  | switchLoad (t : BitVec 7) (ctxFail : Bool) (bad : List (BitVec 11)) -- SWITCH_LOAD (R235)
  | switchDone (t : BitVec 7) -- SWITCH_DONE (R235)
  | quiesceDone (p : BitVec 10) -- QUIESCE_DONE (R239)
  | panelResetDone (p : BitVec 10) -- PANEL_RESET_DONE (R241)
  | panelDestroyDone (p : BitVec 10) -- PANEL_DESTROY_DONE (R241)
  | pnlCtrlWrite (acc : RegAcc) -- PNL_CTRL_WRITE (R246)
  | panelRestoreDone (badP : List (BitVec 10)) (badV : List (BitVec 16)) -- PANEL_RESTORE_DONE (R246)
  | cmdDbWrite (r : BitVec 3) (acc : RegAcc) -- CMD_DB_WRITE (R253)
  | descriptorFetch (r : BitVec 3) (fail : Bool) -- DESCRIPTOR_FETCH (R254)
  | completionRecordWrite (r : BitVec 3) (fail : Bool) -- COMPLETION_RECORD_WRITE (R260)
  | cmdRctrlWrite (r : BitVec 3) (acc : RegAcc) -- CMD_RCTRL_WRITE (R277)
  | cmdRstatClear (r : BitVec 3) (acc : RegAcc) -- CMD_RSTAT_CLEAR (R276)
  | mbxAck (acc : RegAcc) -- MBX_ACK (R274)
  | cmdNop (r : BitVec 3) -- CMD_NOP (R257)
  | sync (r : BitVec 3) -- SYNC (R267)
  | srcMap (r : BitVec 3) (c : CmdMem) -- SRC_MAP (R135)
  | srcUnmap (r : BitVec 3) (c : CmdMem) -- SRC_UNMAP (R135)
  | evMap (r : BitVec 3) (c : CmdMem) -- EV_MAP (R135)
  | evUnmap (r : BitVec 3) (c : CmdMem) -- EV_UNMAP (R135)
  | evAttr (r : BitVec 3) (c : CmdMem) -- EV_ATTR (R135)
  | evMove (r : BitVec 3) (c : CmdMem) -- EV_MOVE (R141)
  | moveTablesVisible (c : CmdMem) -- MOVE_TABLES_VISIBLE (R141)
  | moveRedirectRemove -- MOVE_REDIRECT_REMOVE (R141)
  | xltInv (r : BitVec 3) (fail : Bool) -- XLT_INV (R135)
  | evSetPend (r : BitVec 3) (c : CmdMem) -- EV_SET_PEND (R264)
  | evClrPend (r : BitVec 3) (c : CmdMem) -- EV_CLR_PEND (R264)
  | evQuery (r : BitVec 3) (c : CmdMem) -- EV_QUERY (R265)
  | panelCreate (r : BitVec 3) -- PANEL_CREATE (R224)
  | panelVattr (r : BitVec 3) (fail : Bool) -- PANEL_VATTR (R224)
  | panelShare (r : BitVec 3) -- PANEL_SHARE (R243)
  | panelQuiesce (r : BitVec 3) -- PANEL_QUIESCE (R239)
  | panelResume (r : BitVec 3) -- PANEL_RESUME (R241)
  | panelReset (r : BitVec 3) -- PANEL_RESET (R241)
  | panelDestroy (r : BitVec 3) -- PANEL_DESTROY (R241)
  | vpeCreate (r : BitVec 3) (c : CmdMem) -- VPE_CREATE (R228)
  | vpeDoorbell (r : BitVec 3) (c : CmdMem) -- VPE_DOORBELL (R228)
  | vpeDestroy (r : BitVec 3) (fail : Bool) -- VPE_DESTROY (R228)
  | safeExit (r : BitVec 3) -- SAFE_EXIT (R268)
  | safeLeave -- SAFE_LEAVE (R436)
  | wftPhyUp (p : BitVec 2) -- WFT_PHY_UP (R288)
  | wftPhyDown (p : BitVec 2) -- WFT_PHY_DOWN (R287)
  | wftCredit (p : BitVec 2) -- WFT_CREDIT (R285)
  | trainTimer (p : BitVec 2) -- TRAIN_TIMER (R288)
  | idleTimer (p : BitVec 2) -- IDLE_TIMER (R286)
  | replayTimeout (p : BitVec 2) -- REPLAY_TIMEOUT (R287)
  | portDownTimeout (p : BitVec 2) -- PORT_DOWN_TIMEOUT (R300)
  | idle (p : BitVec 2) (f : BitVec 256) -- IDLE (R286)
  | train (p : BitVec 2) (f : BitVec 256) -- TRAIN (R289)
  | hello (p : BitVec 2) (f : BitVec 256) -- HELLO (R290)
  | floodSettled -- FLOOD_SETTLED (R290)
  | routesComputed -- ROUTES_COMPUTED (R293)
  | route (p : BitVec 2) (f : BitVec 256) -- ROUTE (R295)
  | tmap (p : BitVec 2) (f : BitVec 256) -- TMAP (R290)
  | commit (p : BitVec 2) (f : BitVec 256) -- COMMIT (R291)
  | joinAtReached (us : BitVec 16) -- JOIN_AT_REACHED (R291)
  | align (p : BitVec 2) (f : BitVec 256) -- ALIGN (R193)
  | join (p : BitVec 2) (f : BitVec 256) -- JOIN (R303)
  | linkdn (p : BitVec 2) (f : BitVec 256) -- LINKDN (R300)
  | raise (p : BitVec 2) (f : BitVec 256) -- RAISE (R296)
  | level (p : BitVec 2) (f : BitVec 256) -- LEVEL (R298)
  | hstate (p : BitVec 2) (f : BitVec 256) -- HSTATE (R298)
  | dack (p : BitVec 2) (f : BitVec 256) -- DACK (R296)
  | crsp (p : BitVec 2) (f : BitVec 256) (m : CmdMem) -- CRSP (R299)
  | unknownFlit (p : BitVec 2) (f : BitVec 256) -- UNKNOWN_FLIT (R284)
  | wftSetPend (p : BitVec 2) (f : BitVec 256) -- WFT_SET_PEND (R299)
  | wftClrPend (p : BitVec 2) (f : BitVec 256) -- WFT_CLR_PEND (R299)
  | wftAttWrite (p : BitVec 2) (f : BitVec 256) (fail : Bool) -- WFT_ATT_WRITE (R299)
  | wftAttClaim (p : BitVec 2) (f : BitVec 256) (fail : Bool) -- WFT_ATT_CLAIM (R299)
  | wftAttRelease (p : BitVec 2) (f : BitVec 256) (fail : Bool) -- WFT_ATT_RELEASE (R299)
  | wftPendTest (p : BitVec 2) (f : BitVec 256) (fail : Bool) -- WFT_PEND_TEST (R299)
  | wftQuery (p : BitVec 2) (f : BitVec 256) (fail : Bool) -- WFT_QUERY (R266)
  | wftRedisc (acc : RegAcc) -- WFT_REDISC (R302)
  | wftPrst (acc : RegAcc) -- WFT_PRST (R47)
  | cohRequestIssue (accs : List CohAcc) (tag : Byte) -- COH_REQUEST_ISSUE (R10)
  | gnt (tag : Byte) (st : BitVec 3) -- GNT (R311)
  | gntD (tag : Byte) (st : BitVec 3) (data : BitVec 512) (poison : Bool) -- GNT_D (R313)
  | retry (tag : Byte) -- RETRY (R320)
  | retryReissue (tag : Byte) -- RETRY_REISSUE (R320)
  | wbGo (tag : Byte) -- WB_GO (R317)
  | evAck (tag : Byte) -- EV_ACK (R317)
  | err (tag : Byte) (k : CohBad) -- ERR (R321)
  | snS (line : BitVec 46) (tag : Byte) -- SN_S (R315)
  | snU (line : BitVec 46) (tag : Byte) -- SN_U (R315)
  | snI (line : BitVec 46) (tag : Byte) -- SN_I (R315)
  | cohFlushReq (acc : RegAcc) -- COH_FLUSH_REQ (R324)
  | cohFlushDone -- COH_FLUSH_DONE (R324)
  | nop (u : Bur) -- NOP (R332)
  | add (u : Bur) (rd ra rb : RegNo) -- ADD (R332)
  | sub (u : Bur) (rd ra rb : RegNo) -- SUB (R332)
  | and (u : Bur) (rd ra rb : RegNo) -- AND (R332)
  | or (u : Bur) (rd ra rb : RegNo) -- OR (R332)
  | xor (u : Bur) (rd ra rb : RegNo) -- XOR (R332)
  | shl (u : Bur) (rd ra rb : RegNo) -- SHL (R332)
  | shr (u : Bur) (rd ra rb : RegNo) -- SHR (R332)
  | sar (u : Bur) (rd ra rb : RegNo) -- SAR (R332)
  | mul (u : Bur) (rd ra rb : RegNo) -- MUL (R332)
  | cmp (u : Bur) (ra rb : RegNo) -- CMP (R332)
  | crc (u : Bur) (rd ra rb : RegNo) -- CRC (R332)
  | addi (u : Bur) (rd ra : RegNo) (imm : BitVec 18) -- ADDI (R332)
  | andi (u : Bur) (rd ra : RegNo) (imm : BitVec 18) -- ANDI (R332)
  | ori (u : Bur) (rd ra : RegNo) (imm : BitVec 18) -- ORI (R332)
  | xori (u : Bur) (rd ra : RegNo) (imm : BitVec 18) -- XORI (R332)
  | shiLeft (u : Bur) (rd ra : RegNo) (amt : BitVec 5) -- SHI_LEFT (R332)
  | shiRight (u : Bur) (rd ra : RegNo) (amt : BitVec 5) -- SHI_RIGHT (R332)
  | shiArith (u : Bur) (rd ra : RegNo) (amt : BitVec 5) -- SHI_ARITH (R332)
  | lui (u : Bur) (rd : RegNo) (imm : BitVec 18) -- LUI (R332)
  | cmpi (u : Bur) (ra : RegNo) (imm : BitVec 18) -- CMPI (R332)
  | ldb (u : Bur) (rd ra : RegNo) (imm : BitVec 18) (fail : Bool) -- LDB (R332)
  | ldh (u : Bur) (rd ra : RegNo) (imm : BitVec 18) (fail : Bool) -- LDH (R332)
  | ldw (u : Bur) (rd ra : RegNo) (imm : BitVec 18) (fail : Bool) -- LDW (R332)
  | ldd (u : Bur) (rd ra : RegNo) (imm : BitVec 18) (fail : Bool) -- LDD (R332)
  | ldwp (u : Bur) (rd ra : RegNo) (imm : BitVec 18) (fail : Bool) -- LDWP (R332)
  | stb (u : Bur) (rd ra : RegNo) (imm : BitVec 18) (fail : Bool) -- STB (R332)
  | sth (u : Bur) (rd ra : RegNo) (imm : BitVec 18) (fail : Bool) -- STH (R332)
  | stw (u : Bur) (rd ra : RegNo) (imm : BitVec 18) (fail : Bool) -- STW (R332)
  | std (u : Bur) (rd ra : RegNo) (imm : BitVec 18) (fail : Bool) -- STD (R332)
  | stwp (u : Bur) (rd ra : RegNo) (imm : BitVec 18) (fail : Bool) -- STWP (R332)
  | ator (u : Bur) (rd ra rb : RegNo) (fail : Bool) -- ATOR (R332)
  | atclr (u : Bur) (rd ra rb : RegNo) (fail : Bool) -- ATCLR (R332)
  | b (u : Bur) (cond : BitVec 4) (off : BitVec 22) -- B (R332)
  | call (u : Bur) (mask : Byte) (off : BitVec 18) (fail : Bool) -- CALL (R336)
  | callr (u : Bur) (mask : Byte) (rt : RegNo) (fail : Bool) -- CALLR (R336)
  | ret (u : Bur) (fail : Bool) -- RET (R337)
  | rep (u : Bur) (rc : RegNo) -- REP (R338)
  | sys (u : Bur) (imm : BitVec 18) -- SYS (R341)
  | rett (u : Bur) -- RETT (R342)
  | flgRead (u : Bur) (rd : RegNo) -- FLG_READ (R332)
  | flgWrite (u : Bur) (ra : RegNo) -- FLG_WRITE (R332)
  | flgIeSet (u : Bur) -- FLG_IE_SET (R332)
  | flgIeClear (u : Bur) -- FLG_IE_CLEAR (R332)
  | wait (u : Bur) -- WAIT (R343)
  | emul (u : Bur) (word : W32) -- EMUL (R333)
  | interruptTake (u : Bur) -- INTERRUPT_TAKE (R343)
  | timerExpire (u : Bur) -- TIMER_EXPIRE (R345)
  | hbWrite (u : Bur) -- HB_WRITE (R350)
  | peerOutWrite (u : Bur) (w : W32) -- PEER_OUT_WRITE (R345)
  | hostOutWrite (u : Bur) (w : W32) -- HOST_OUT_WRITE (R354)
  | burHold (acc : RegAcc) -- BUR_HOLD (R349)
  | burRst (acc : RegAcc) -- BUR_RST (R47)
  | bootReady (u : Bur) -- BOOT_READY (R348)
  | imageCopyDone (u : Bur) (fail : Bool) -- IMAGE_COPY_DONE (R348)
  | bootAuth (u : Bur) -- BOOT_AUTH (R348)
  | burLoadData (acc : RegAcc) -- BUR_LOAD_DATA (R349)
  | ping -- PING (R354)
  | handover -- HANDOVER (R354)
  | ident -- IDENT (R366)
  | sbOpen (d : List Byte) -- OPEN (R363)
  | sbClose (d : List Byte) -- CLOSE (R364)
  | sbStatus (d : List Byte) (later : Bool) -- SB_STATUS (R366)
  | regRead (d : List Byte) (later : Bool) -- REG_READ (R367)
  | regWrite (d : List Byte) (later : Bool) -- REG_WRITE (R367)
  | logRead (d : List Byte) (later : Bool) -- LOG_READ (R368)
  | fwBegin (d : List Byte) (later : Bool) -- FW_BEGIN (R369)
  | fwData (d : List Byte) (later : Bool) -- FW_DATA (R369)
  | fwEnd (d : List Byte) (later : Bool) -- FW_END (R369)
  | safeEnter (d : List Byte) (later : Bool) -- SAFE_ENTER (R370)
  | sbSafeExit (d : List Byte) (later : Bool) -- SB_SAFE_EXIT (R370)
  | sealClear (d : List Byte) (later : Bool) (lvl : Bool) -- SEAL_CLEAR (R370)
  | lockClear (d : List Byte) (later : Bool) -- LOCK_CLEAR (R389)
  | warmReset (d : List Byte) (later : Bool) -- WARM_RESET (R370)
  | fwCall (d : List Byte) -- FW_CALL (R370)
  | sbUndefinedCode (cmd : Byte) -- SB_UNDEFINED_CODE (R358)
  | sbQuickCommand -- SB_QUICK_COMMAND (R358)
  | sessionIdleTimeout -- SESSION_IDLE_TIMEOUT (R364)
  | smbusTimeout -- SMBUS_TIMEOUT (R47)
  | replyBusyTimeout -- REPLY_BUSY_TIMEOUT (R361)
  | stretchLimit -- STRETCH_LIMIT (R361)
  | mirrorClaim -- MIRROR_CLAIM (R365)
  | mirrorDone -- MIRROR_DONE (R365)
  | sbdCtrlClose (acc : RegAcc) -- SBD_CTRL_CLOSE (R364)
  | presenceWindowOpen -- PRESENCE_WINDOW_OPEN (R371)
  | presenceWindowExpire -- PRESENCE_WINDOW_EXPIRE (R371)
  | sealBreak -- SEAL_BREAK (R372)
  | registerWrite (a : BusAcc) -- REGISTER_WRITE (R385)
  | glbLockWrite (acc : RegAcc) -- GLB_LOCK_WRITE (R388)
  | prfRefWrite (acc : RegAcc) -- PRF_REF_WRITE (R398)
  | prfAdopt (acc : RegAcc) -- PRF_ADOPT (R399)
  | errorLogWrite -- ERROR_LOG_WRITE (R429)
  | deepPrepDone (badP : List (BitVec 10)) (badV : List (BitVec 16)) -- DEEP_PREP_DONE (R405)
  | consentPoint (ref : W64) (bad : List (BitVec 7)) -- CONSENT_POINT (R408)
  | clkMainStopAck (lvl : Bool) (ref : W64) -- CLK_MAIN_STOP_ACK (R35)
  | clkFastStopAck (lvl : Bool) -- CLK_FAST_STOP_ACK (R35)
  | pwrRetAck (lvl : Bool) (ref : W64) -- PWR_RET_ACK (R418)
  | pwrOffAck (lvl : Bool) -- PWR_OFF_ACK (R35)
  | deepDomainRestore (ref : W64) (bad : Option (BitVec 16)) (flips : List (BitVec 13 × Byte)) -- DEEP_DOMAIN_RESTORE (R418)
  | wakeInput (w : WakeSrc) -- WAKE_INPUT (R417)
  | deepCountdown -- DEEP_COUNTDOWN (R404)
  | switchBack -- SWITCH_BACK (R420)
  | targetRestoreDone (bad : List (BitVec 7)) -- TARGET_RESTORE_DONE (R421)
  | pwrToMain (acc : RegAcc) -- PWR_TO_MAIN (R420)
  | pwrHoldRelease (acc : RegAcc) -- PWR_HOLD_RELEASE (R416)
  | pwrDvfsReqWrite (acc : RegAcc) -- PWR_DVFS_REQ_WRITE (R424)
  | dvfsFreqAck (lvl : Bool) -- DVFS_FREQ_ACK (R424)
  | dvfsVoltAck (lvl : Bool) -- DVFS_VOLT_ACK (R424)
  | rstColdFall -- RST_COLD_FALL (R46)
  | refSnapAckFall -- REF_SNAP_ACK_FALL (R35)
  | presenceButtonRelease -- PRESENCE_BUTTON_RELEASE (R371)
  | portValidWithoutReady (t : Option (BitVec 7)) -- PORT_VALID_WITHOUT_READY (R402)
  | checkErrorFlit (p : BitVec 2) (f : BitVec 256) -- CHECK_ERROR_FLIT (R287)
  | sbMalformedTransaction (cmd : Option Byte) (d : List Byte) -- SB_MALFORMED_TRANSACTION (R358)
  | writebackLastBeatAccept -- WRITEBACK_LAST_BEAT_ACCEPT (R317)
  deriving DecidableEq, Repr

end Sys2Proof
end

