-- ==== Sys2Proof/Decode.lean ====
section
/-! DEFINITION. What words spell. The command table gives its rows no bits, so no word spells a command; the words of the
Burins' instructions are those of 14 R331 to R333. -/

namespace Sys2Proof

/-- The command that a word spells by the table's bits: the table gives none to any row. -/
def decodeTableWord (_nbits _w : Nat) : Option Instr := none

/-! ### The fields of R331 -/

def wordOp (w : W32) : BitVec 6 := w.extractLsb' 26 6
def wordRd (w : W32) : RegNo := w.extractLsb' 22 4
def wordRa (w : W32) : RegNo := w.extractLsb' 18 4
def wordRb (w : W32) : RegNo := w.extractLsb' 14 4
/-- [13:4] of format R. -/
def wordMid (w : W32) : BitVec 10 := w.extractLsb' 4 10
def wordFunc (w : W32) : BitVec 4 := w.extractLsb' 0 4
def wordImm (w : W32) : BitVec 18 := w.extractLsb' 0 18
def wordOff22 (w : W32) : BitVec 22 := w.extractLsb' 0 22
def wordMask (w : W32) : Byte := w.extractLsb' 18 8
/-- [13:0] of format CR. -/
def wordLow14 (w : W32) : BitVec 14 := w.extractLsb' 0 14
/-- Everything below the opcode. -/
def wordRest (w : W32) : BitVec 26 := w.extractLsb' 0 26
/-- [17:16] of format F, and what lies below. -/
def wordSub (w : W32) : BitVec 2 := w.extractLsb' 16 2
def wordLow16 (w : W32) : BitVec 16 := w.extractLsb' 0 16
/-- The shift's kind, its amount, and the reserved bits of imm18. -/
def wordKind (w : W32) : BitVec 2 := w.extractLsb' 5 2
def wordAmt (w : W32) : BitVec 5 := w.extractLsb' 0 5
def wordShiRsv (w : W32) : BitVec 11 := w.extractLsb' 7 11

/-- The three-operand function of a func code (R332). -/
def aluOf (f : BitVec 4) : Option AluFn :=
  if f = 0 then some .add else if f = 1 then some .sub else if f = 2 then some .and else if f = 3 then some .or
  else if f = 4 then some .xor else if f = 5 then some .shl else if f = 6 then some .shr else if f = 7 then some .sar
  else if f = 8 then some .mul else if f = 10 then some .crc else none

def shiftOf (k : BitVec 2) : Option ShiftKind :=
  if k = 0 then some .left else if k = 1 then some .right else if k = 2 then some .arith else none

/-! ### Decoding by format (R331 to R333): `none` is undefined -/

def decodeAlu (w : W32) : Option BInstr :=
  if wordMid w ≠ 0 then none
  else if wordFunc w = 9 then (if wordRd w = 0 then some (.cmp (wordRa w) (wordRb w)) else none)
  else (aluOf (wordFunc w)).map fun f => .alu f (wordRd w) (wordRa w) (wordRb w)

def decodeShi (w : W32) : Option BInstr :=
  if wordShiRsv w ≠ 0 then none else (shiftOf (wordKind w)).map fun k => .shi k (wordRd w) (wordRa w) (wordAmt w)

/-- LDD and STD: an odd rd is reserved. -/
def decodePair (w : W32) (i : RegNo → RegNo → BitVec 18 → BInstr) : Option BInstr :=
  if (wordRd w).getLsbD 0 then none else some (i (wordRd w) (wordRa w) (wordImm w))

/-- ATOR and ATCLR: func must be 0. -/
def decodeAt (w : W32) (i : RegNo → RegNo → RegNo → BInstr) : Option BInstr :=
  if wordMid w = 0 ∧ wordFunc w = 0 then some (i (wordRd w) (wordRa w) (wordRb w)) else none

/-- RET, RETT and WAIT: all other bits 0. -/
def decodeBare (w : W32) (i : BInstr) : Option BInstr := if wordRest w = 0 then some i else none

def decodeFlg (w : W32) : Option BInstr :=
  if wordLow16 w ≠ 0 then none
  else if wordSub w = 0 then some (.flgRead (wordRd w) (wordRa w))
  else if wordSub w = 1 then some (.flgWrite (wordRd w) (wordRa w))
  else some (.flgIe (decide (wordSub w = 2)) (wordRd w) (wordRa w))

/-- The opcodes of R332. -/
def decodeOp (w : W32) : Option BInstr :=
  let rd := wordRd w
  let ra := wordRa w
  let imm := wordImm w
  match (wordOp w).toNat with
  | 0x00 => decodeBare w .nop
  | 0x01 => decodeAlu w
  | 0x02 => some (.imm .addi rd ra imm)
  | 0x03 => some (.imm .andi rd ra imm)
  | 0x04 => some (.imm .ori rd ra imm)
  | 0x05 => some (.imm .xori rd ra imm)
  | 0x06 => decodeShi w
  | 0x07 => if ra = 0 then some (.lui rd imm) else none
  | 0x08 => if rd = 0 then some (.cmpi ra imm) else none
  | 0x09 => some (.load .byte rd ra imm)
  | 0x0A => some (.load .half rd ra imm)
  | 0x0B => some (.load .word rd ra imm)
  | 0x0C => decodePair w .ldd
  | 0x0D => if rd = ra then none else some (.ldwp rd ra imm)
  | 0x0E => some (.store .byte rd ra imm)
  | 0x0F => some (.store .half rd ra imm)
  | 0x10 => some (.store .word rd ra imm)
  | 0x11 => decodePair w .std
  | 0x12 => some (.stwp rd ra imm)
  | 0x13 => decodeAt w .ator
  | 0x14 => decodeAt w .atclr
  | 0x18 => if rd.toNat < 9 then some (.b rd (wordOff22 w)) else none
  | 0x19 => some (.call (wordMask w) imm)
  | 0x1A => if wordLow14 w = 0 then some (.callr (wordMask w) (wordRb w)) else none
  | 0x1B => decodeBare w .ret
  | 0x1C => if wordOff22 w = 0 then some (.rep rd) else none
  | 0x1D => if rd = 0 ∧ ra = 0 then some (.sys imm) else none
  | 0x1E => decodeBare w .rett
  | 0x1F => decodeFlg w
  | 0x20 => decodeBare w .wait
  | _ => none

/-- A Burin's instruction from its word. RETT is undefined while T is 0, which its execution tests (R333). -/
def burDecode (w : W32) : BInstr := (decodeOp w).getD (.undef w)

/-! ### Encoding -/

def aluCode : AluFn → BitVec 4
  | .add => 0 | .sub => 1 | .and => 2 | .or => 3 | .xor => 4 | .shl => 5 | .shr => 6 | .sar => 7 | .mul => 8 | .crc => 10

def shiftCode : ShiftKind → BitVec 2
  | .left => 0 | .right => 1 | .arith => 2

def immCode : ImmFn → BitVec 6
  | .addi => 2 | .andi => 3 | .ori => 4 | .xori => 5

def loadCode : Width → BitVec 6
  | .byte => 9 | .half => 10 | .word => 11
def storeCode : Width → BitVec 6
  | .byte => 14 | .half => 15 | .word => 16

/-- Format R. -/
def encR (op : BitVec 6) (rd ra rb : RegNo) (func : BitVec 4) : W32 := op ++ rd ++ ra ++ rb ++ (0 : BitVec 10) ++ func
/-- Format I. -/
def encI (op : BitVec 6) (rd ra : RegNo) (imm : BitVec 18) : W32 := op ++ rd ++ ra ++ imm
/-- Format F. -/
def encF (rd ra : RegNo) (sub : BitVec 2) : W32 := (0x1F : BitVec 6) ++ rd ++ ra ++ sub ++ (0 : BitVec 16)
def encBare (op : BitVec 6) : W32 := op ++ (0 : BitVec 26)

/-- The word of a Burin's instruction. -/
def burEncode : BInstr → W32
  | .nop => 0
  | .alu f rd ra rb => encR 1 rd ra rb (aluCode f)
  | .cmp ra rb => encR 1 0 ra rb 9
  | .imm f rd ra imm => encI (immCode f) rd ra imm
  | .shi k rd ra amt => encI 6 rd ra ((0 : BitVec 11) ++ shiftCode k ++ amt)
  | .lui rd imm => encI 7 rd 0 imm
  | .cmpi ra imm => encI 8 0 ra imm
  | .load w rd ra imm => encI (loadCode w) rd ra imm
  | .ldd rd ra imm => encI 12 rd ra imm
  | .ldwp rd ra imm => encI 13 rd ra imm
  | .store w rd ra imm => encI (storeCode w) rd ra imm
  | .std rd ra imm => encI 17 rd ra imm
  | .stwp rd ra imm => encI 18 rd ra imm
  | .ator rd ra rb => encR 19 rd ra rb 0
  | .atclr rd ra rb => encR 20 rd ra rb 0
  | .b cond off => (0x18 : BitVec 6) ++ cond ++ off
  | .call mask off => (0x19 : BitVec 6) ++ mask ++ off
  | .callr mask rt => (0x1A : BitVec 6) ++ mask ++ rt ++ (0 : BitVec 14)
  | .ret => encBare 0x1B
  | .rep rc => (0x1C : BitVec 6) ++ rc ++ (0 : BitVec 22)
  | .sys imm => encI 0x1D 0 0 imm
  | .rett => encBare 0x1E
  | .flgRead rd ra => encF rd ra 0
  | .flgWrite rd ra => encF rd ra 1
  | .flgIe on rd ra => encF rd ra (if on then 2 else 3)
  | .wait => encBare 0x20
  | .undef w => w

end Sys2Proof
end

