-- ==== Sys2Proof/Machine/Crc.lean ====
section
/-! DEFINITION. CRC-32C (16 R396): the polynomial 0x1EDC_6F41, reflected input and output, initial value and final
exclusive-or 0xFFFF_FFFF. -/

namespace Sys2Proof.Machine

/-- One bit of the reflected CRC: 0x82F6_3B78 is the polynomial reflected. -/
def crcBit (c : W32) : W32 := if bitAt c 0 then (c >>> 1) ^^^ 0x82F63B78 else c >>> 1

/-- One byte. -/
def crcByte (c : W32) (b : Byte) : W32 :=
  crcBit (crcBit (crcBit (crcBit (crcBit (crcBit (crcBit (crcBit (c ^^^ b.zeroExtend 32))))))))

/-- The n bytes of a number from the least significant, onto a running register. -/
def crcBytes (c : W32) (v : Nat) : Nat → W32
  | 0 => c
  | n + 1 => crcBytes (crcByte c (BitVec.ofNat 8 v)) (v / 256) n

/-- One step of the CRC for the 4 bytes of a word, little-endian, from a running value: who uses it supplies the initial
value and the final exclusive-or (16 R396, 14 R332). -/
def crcWord (run w : W32) : W32 := crcBytes run w.toNat 4

/-- The CRC of the n low bytes of a number. -/
def crc32c (v n : Nat) : W32 := ~~~(crcBytes (BitVec.allOnes 32) v n)

end Sys2Proof.Machine
end

