-- ==== Sys2Proof/Machine/Flags.lean ====
section
/-! DEFINITION. The Burins' arithmetic and the flags it sets (14 R328, R332). -/

namespace Sys2Proof.Machine

/-! ### FLAGS (R328) -/

def flagZ (f : W32) : Bool := bitAt f 0
def flagN (f : W32) : Bool := bitAt f 1
def flagC (f : W32) : Bool := bitAt f 2
def flagV (f : W32) : Bool := bitAt f 3
def flagIE (f : W32) : Bool := bitAt f 4
def flagT (f : W32) : Bool := bitAt f 5

/-- Z and N of a result. -/
def setZN (f v : W32) : W32 := setBit (setBit f 0 (decide (v = 0))) 1 (bitAt v 31)
def setCV (f : W32) (c v : Bool) : W32 := setBit (setBit f 2 c) 3 v

/-- The signed value of a word falls outside 32 bits. -/
def overflows (x : Int) : Bool := decide (x < -(2 ^ 31)) || decide (2 ^ 31 ≤ x)

/-- Flags of an addition: C is the carry out. -/
def addFlags (f a b : W32) : W32 :=
  setCV (setZN f (a + b)) (decide (2 ^ 32 ≤ a.toNat + b.toNat)) (overflows (a.toInt + b.toInt))
/-- Flags of a subtraction or comparison: C is no borrow. -/
def subFlags (f a b : W32) : W32 :=
  setCV (setZN f (a - b)) (decide (b.toNat ≤ a.toNat)) (overflows (a.toInt - b.toInt))

/-- SHI and the shifts of ALU: the amount is five bits. -/
def shiftVal (k : ShiftKind) (a : W32) (n : Nat) : W32 :=
  match k with
  | .left => a <<< n
  | .right => a >>> n
  | .arith => a.sshiftRight n

/-- ra func rb. -/
def aluVal (fn : AluFn) (a b : W32) : W32 :=
  match fn with
  | .add => a + b
  | .sub => a - b
  | .and => a &&& b
  | .or => a ||| b
  | .xor => a ^^^ b
  | .shl => shiftVal .left a (field b 4 0)
  | .shr => shiftVal .right a (field b 4 0)
  | .sar => shiftVal .arith a (field b 4 0)
  | .mul => a * b
  | .crc => crcWord a b

/-- FLAGS after ra func rb: only ADD and SUB change C and V. -/
def aluFlags (fn : AluFn) (f a b : W32) : W32 :=
  match fn with
  | .add => addFlags f a b
  | .sub => subFlags f a b
  | _ => setZN f (aluVal fn a b)

/-- The value an immediate form works with. -/
def immArg (fn : ImmFn) (i : BitVec 18) : W32 :=
  match fn with
  | .addi => i.signExtend 32
  | _ => i.zeroExtend 32

/-- ADDI, ANDI, ORI and XORI are the ALU functions on the extended immediate. -/
def immFn : ImmFn → AluFn
  | .addi => .add | .andi => .and | .ori => .or | .xori => .xor

/-- The conditions of B; 0x9 to 0xF are reserved. -/
def condHolds (c : BitVec 4) (f : W32) : Bool :=
  match c.toNat with
  | 0 => true
  | 1 => flagZ f
  | 2 => !flagZ f
  | 3 => flagN f != flagV f
  | 4 => flagN f == flagV f
  | 5 => !flagC f
  | 6 => flagC f
  | 7 => flagN f
  | 8 => !flagN f
  | _ => false

/-- FLG sub 1: bit [5] is ignored, and the reserved bits read 0. -/
def flagsWrite (f v : W32) : W32 := (v &&& 0x1F) ||| (f &&& 0x20)

/-- Trap entry: T to 1, IE to 0 (R342). -/
def trapFlags (f : W32) : W32 := setBit (setBit f 5 true) 4 false

end Sys2Proof.Machine
end

