-- ==== Sys2Proof/Config.lean ====
section
/-! DEFINITION. What an implementation fixes and the spec leaves open: opaque constants, so that no proof can
see a value of them (each one is named in the assumption log). -/

namespace Sys2Proof

/-- The byte at an offset of the Burins' boot ROM: the spec gives the ROM's place and duties (14 R329, R348),
not its contents. Free value (log 7). -/
opaque Config.bootRom : Nat → Byte

/-- The side-band TOKEN drawn by the n-th OPEN, less one: 15 R363 says a nonzero byte from an LFSR whose
polynomial it does not give. Free value (log 8). -/
opaque Config.sbToken : Nat → Fin 255

/-- The n-th value that the LFSR of 13 R320 gives after step C5, from the INSTANCE_ID that seeds it: the spec gives neither
its polynomial nor the seeding. Free value (log 9). -/
opaque Config.retryLfsr : BitVec 7 → Nat → BitVec 16

/-- How far a Burin's TIMER has counted down since its last read or write, from its value then and the instructions executed:
the cycles of 14 R345 are not counted here. Free value (log 20). -/
opaque Config.timerNow : W32 → Nat → W32

/-- What the boot ROM leaves in g3 to g15, by number, and in Z, N, C, V (as number 16), at the n-th boot into RUN: 14 R348
names g0 to g2 alone. Free value (log 21). -/
opaque Config.romLeaves : Nat → Nat → W32

/-- The whole seconds by which SBD_PRES.REMAIN has fallen at a stroke boundary or a wake, from its value before and the stroke
count: 15 R376 counts it in seconds, which no command does. Free value (log 22). -/
opaque Config.secondsGone : Nat → Nat → Nat

/-- A data byte of a side-band reply whose STATUS is not OK, from the requests answered and the byte's number: 15 R366 fixes
how many there are, not what they hold. Free value (log 25). -/
opaque Config.sbPad : Nat → Nat → Byte

/-- DATA of the answer to a host message other than PING, from the stroke count: 14 R354 gives DATA for PING alone. Free value (log 26). -/
opaque Config.handoverData : Nat → BitVec 22

end Sys2Proof
end

