-- ==== Sys2Proof/Machine/RegMap.lean ====
section
/-! DEFINITION. The register map: the offset of every register of the spec and, for each 32-bit word of it,
its Reset value and the masks of its access codes, read field by field from the register tables of spec/
(04 to 18) with the access codes of 00 R6. -/

namespace Sys2Proof.Machine

/-- One 32-bit word of a register. Every mask is a set of bits of the word; a bit in no mask is RSV
(reads 0, ignores writes; 00 R6). A 64-bit register is two rows, its low word first (R381). -/
structure RegRow where
  /-- offset of the word, within its region for replicated registers -/
  off  : Nat
  /-- Reset value (00 R5) -/
  rst  : BitVec 32 := 0
  /-- bits a read returns (RW, RO, W1C, W1S; not WO) -/
  rd   : BitVec 32 := 0
  /-- RW and WOL bits -/
  rw   : BitVec 32 := 0
  /-- W1C bits -/
  w1c  : BitVec 32 := 0
  /-- W1S bits -/
  w1s  : BitVec 32 := 0
  /-- WO bits -/
  wo   : BitVec 32 := 0
  /-- PRIV bits (R382) -/
  priv : BitVec 32 := 0
  /-- SEC bits (R382) -/
  sec  : BitVec 32 := 0
  /-- bits that keep their value through warm reset (R45 and each chapter's own list) -/
  keep : BitVec 32 := 0
  deriving DecidableEq, Repr

/-! Offsets. Registers of a replicated region (WIN entry, target frame, ring, share row) carry the offset
inside their entry. -/

/-! 04_wired_inputs R95 -/
abbrev Reg.WIN_CTL : Nat := 0x0 -- in the entry
abbrev Reg.WIN_ROUTE : Nat := 0x4 -- in the entry
abbrev Reg.WIN_FILT : Nat := 0x8 -- in the entry
abbrev Reg.WIN_XSTAT : Nat := 0xC -- in the entry
/-! 05_message_ingress R118 -/
abbrev Reg.MSG_CTRL : Nat := 0x39000
abbrev Reg.MSG_PQ_CFG : Nat := 0x39004
abbrev Reg.MSG_PQ_BUDGET : Nat := 0x39008
abbrev Reg.MSG_POOL_STAT : Nat := 0x3900C
abbrev Reg.MSG_PQ_STAT : Nat := 0x39010
abbrev Reg.MSG_PNL_SEL : Nat := 0x39018
abbrev Reg.MSG_PNL_STAT : Nat := 0x39020
abbrev Reg.MSG_SLOW_STAT : Nat := 0x39028
abbrev Reg.MSG_FENCE : Nat := 0x3902C
abbrev Reg.MSG_ADMIT_CNT : Nat := 0x39030
abbrev Reg.MSG_SLOW_CNT : Nat := 0x39038
abbrev Reg.MSG_BP_CNT : Nat := 0x39040
abbrev Reg.MSG_ERR : Nat := 0x39048
abbrev Reg.MSG_ERR_CNT : Nat := 0x3904C
abbrev Reg.MSG_ERR_LOG0 : Nat := 0x39050
abbrev Reg.MSG_ERR_LOG1 : Nat := 0x39054
abbrev Reg.MSG_ERR_LOG2 : Nat := 0x39058
/-! 06_translation_tables -/
abbrev Reg.XLT_CTRL : Nat := 0x30000
abbrev Reg.XLT_SRC_BASE : Nat := 0x30008
abbrev Reg.XLT_ATT_BASE : Nat := 0x30010
abbrev Reg.XLT_PQ_SLOTS : Nat := 0x30018
abbrev Reg.XLT_STAT : Nat := 0x30020
abbrev Reg.XLT_FAULT : Nat := 0x30028
abbrev Reg.XLT_FAULT_CNT : Nat := 0x3002C
abbrev Reg.XLT_FLOG0 : Nat := 0x30030
abbrev Reg.XLT_FLOG1 : Nat := 0x30034
abbrev Reg.XLT_LOOKUP_CNT : Nat := 0x30038
abbrev Reg.XLT_MISS_CNT : Nat := 0x30040
/-! 07_ranking_hatch_trees R173 -/
abbrev Reg.RNK_CTRL : Nat := 0x31000
abbrev Reg.RNK_STAT : Nat := 0x31004
abbrev Reg.RNK_PT_BASE : Nat := 0x31008
abbrev Reg.RNK_SUM_BASE : Nat := 0x31010
abbrev Reg.RNK_CLASS : Nat := 0x31020
abbrev Reg.RNK_REFILL : Nat := 0x31040
abbrev Reg.RNK_TSEL : Nat := 0x31048
abbrev Reg.RNK_TSTAT : Nat := 0x31050
abbrev Reg.RNK_TROOT : Nat := 0x31058
abbrev Reg.RNK_TSUM : Nat := 0x31060
abbrev Reg.RNK_SPILL_CNT : Nat := 0x31080
abbrev Reg.RNK_DIRECT_CNT : Nat := 0x31088
abbrev Reg.RNK_LEAD_CNT : Nat := 0x31090
abbrev Reg.RNK_SWEEP_CNT : Nat := 0x31098
abbrev Reg.RNK_ERR : Nat := 0x310A0
abbrev Reg.RNK_ERR_LOG : Nat := 0x310A4
/-! 08_stroke_timebase R194 -/
abbrev Reg.STK_LEN : Nat := 0x32000
abbrev Reg.STK_CATCH : Nat := 0x32004
abbrev Reg.STK_EPOCH : Nat := 0x32008
abbrev Reg.STK_FAST_MHZ : Nat := 0x3200C
abbrev Reg.STK_ALIGN : Nat := 0x32010
abbrev Reg.STK_COUNT : Nat := 0x32018
abbrev Reg.STK_REF_PER : Nat := 0x32020
abbrev Reg.STK_ORIGIN_REF : Nat := 0x32028
abbrev Reg.STK_ORIGIN_CNT : Nat := 0x32030
abbrev Reg.STK_STAT : Nat := 0x32038
abbrev Reg.STK_SLEEP_ADV : Nat := 0x32040
abbrev Reg.STK_ERR : Nat := 0x32068
/-! 09_target_interface R220 -/
abbrev Reg.TGT_CLAIM : Nat := 0x0 -- in the frame
abbrev Reg.TGT_PEEK : Nat := 0x4 -- in the frame
abbrev Reg.TGT_EOI : Nat := 0x8 -- in the frame
abbrev Reg.TGT_DEACT : Nat := 0xC -- in the frame
abbrev Reg.TGT_SEND : Nat := 0x10 -- in the frame
abbrev Reg.TGT_OPSTAT : Nat := 0x14 -- in the frame
abbrev Reg.TGT_PMASK : Nat := 0x18 -- in the frame
abbrev Reg.TGT_SPLIT : Nat := 0x1C -- in the frame
abbrev Reg.TGT_RP : Nat := 0x20 -- in the frame
abbrev Reg.TGT_VSTAT : Nat := 0x24 -- in the frame
abbrev Reg.TGT_VPE : Nat := 0x28 -- in the frame
abbrev Reg.TGT_ERR : Nat := 0x40 -- in the frame
abbrev Reg.TGT_BADC_CNT : Nat := 0x44 -- in the frame
abbrev Reg.TGT_ICFG : Nat := 0x100 -- in the frame
/-! 10_panels_virtualisation -/
abbrev Reg.PNL_CTRL : Nat := 0x35000
abbrev Reg.PNL_VPE_BASE : Nat := 0x35008
abbrev Reg.PNL_SAVE_BASE : Nat := 0x35010
abbrev Reg.PNL_STAT : Nat := 0x35018
abbrev Reg.PNL_PSEL : Nat := 0x35020
abbrev Reg.PNL_PSTAT : Nat := 0x35028
abbrev Reg.PNL_VSEL : Nat := 0x35030
abbrev Reg.PNL_VSTAT : Nat := 0x35034
abbrev Reg.PNL_ERR : Nat := 0x35040
abbrev Reg.PNL_ERR_LOG : Nat := 0x35044
abbrev Reg.PNL_SHR_REQ0 : Nat := 0x0 -- in the row
abbrev Reg.PNL_SHR_REQ1 : Nat := 0x4 -- in the row
abbrev Reg.PNL_SHR_LIVE0 : Nat := 0x8 -- in the row
abbrev Reg.PNL_SHR_LIVE1 : Nat := 0xC -- in the row
abbrev Reg.PNL_SHR_STAT : Nat := 0x10 -- in the row
/-! 11_command_rings R280 -/
abbrev Reg.CMD_RCTRL : Nat := 0x0 -- in the ring
abbrev Reg.CMD_RBASE : Nat := 0x8 -- in the ring
abbrev Reg.CMD_CBASE : Nat := 0x10 -- in the ring
abbrev Reg.CMD_DB : Nat := 0x18 -- in the ring
abbrev Reg.CMD_TAIL : Nat := 0x1C -- in the ring
abbrev Reg.CMD_HEAD : Nat := 0x20 -- in the ring
abbrev Reg.CMD_RSTAT : Nat := 0x24 -- in the ring
abbrev Reg.CMD_RIRQ : Nat := 0x28 -- in the ring
abbrev Reg.CMD_CNT : Nat := 0x30 -- in the ring
abbrev Reg.CMD_GSTAT : Nat := 0x20800
abbrev Reg.MBX_DATA : Nat := 0x21000
abbrev Reg.MBX_STAT : Nat := 0x21020
abbrev Reg.MBX_ACK : Nat := 0x21028
/-! 12_weft_link R307 -/
abbrev Reg.WFT_CTRL : Nat := 0x34000
abbrev Reg.WFT_STAT : Nat := 0x34004
abbrev Reg.WFT_DISC_TIME : Nat := 0x34008
abbrev Reg.WFT_PSTAT : Nat := 0x34010
abbrev Reg.WFT_PRST : Nat := 0x34020
abbrev Reg.WFT_ISEL : Nat := 0x34024
abbrev Reg.WFT_INST : Nat := 0x34028
abbrev Reg.WFT_IFT : Nat := 0x34030
abbrev Reg.WFT_ERR : Nat := 0x34038
abbrev Reg.WFT_ERR_CNT : Nat := 0x3403C
abbrev Reg.WFT_ERR_LOG : Nat := 0x34040
/-! 13_coherent_port R325 -/
abbrev Reg.COH_MODE : Nat := 0x33000
abbrev Reg.COH_FLUSH : Nat := 0x33004
abbrev Reg.COH_STAT : Nat := 0x33008
abbrev Reg.COH_ERR : Nat := 0x33010
abbrev Reg.COH_ERR_LOG : Nat := 0x33018
abbrev Reg.COH_RETRY_MAX : Nat := 0x33020
/-! 14_burin_sequencers R356 -/
abbrev Reg.BUR_CTL : Nat := 0x37000
abbrev Reg.BUR_STAT : Nat := 0x37004
abbrev Reg.BUR_FW_VERSION : Nat := 0x37008
abbrev Reg.BUR_LOAD_CTL : Nat := 0x3700C
abbrev Reg.BUR_LOAD_DATA : Nat := 0x37010
abbrev Reg.BUR_IMG_BASE : Nat := 0x37018
abbrev Reg.BUR_HOST_MSG : Nat := 0x37020
abbrev Reg.BUR_HOST_RSP : Nat := 0x37024
abbrev Reg.BUR_TAKE_LOG : Nat := 0x37028
abbrev Reg.BUR_ERR : Nat := 0x37030
abbrev Reg.BUR_TAKE_CNT : Nat := 0x37038
/-! 15_sideband_presence R376 -/
abbrev Reg.SBD_STAT : Nat := 0x38000
abbrev Reg.SBD_PRES : Nat := 0x38004
abbrev Reg.SBD_CTRL : Nat := 0x38008
abbrev Reg.SBD_ERR : Nat := 0x3800C
abbrev Reg.SBD_CNT : Nat := 0x38010
abbrev Reg.SBD_MCTL : Nat := 0x38100
abbrev Reg.SBD_MREQ : Nat := 0x38110
abbrev Reg.SBD_MRSP : Nat := 0x38130
/-! 16_register_interface -/
abbrev Reg.GLB_VERSION : Nat := 0x0
abbrev Reg.GLB_PARAM : Nat := 0x8
abbrev Reg.GLB_ID : Nat := 0x10
abbrev Reg.GLB_WIN_BASE : Nat := 0x18
abbrev Reg.GLB_STATUS : Nat := 0x20
abbrev Reg.GLB_RST_CAUSE : Nat := 0x24
abbrev Reg.GLB_RST_CTRL : Nat := 0x28
abbrev Reg.GLB_REFCNT_HZ : Nat := 0x30
abbrev Reg.GLB_LOCK : Nat := 0x38
abbrev Reg.GLB_ERR : Nat := 0x40
abbrev Reg.GLB_ERR_ADDR : Nat := 0x48
abbrev Reg.PRF_CTRL : Nat := 0x3A000
abbrev Reg.PRF_STAT : Nat := 0x3A004
abbrev Reg.PRF_REF : Nat := 0x3A008
abbrev Reg.PRF_LAST : Nat := 0x3A00C
abbrev Reg.PRF_SEG : Nat := 0x3A010
abbrev Reg.PRF_ERR : Nat := 0x3A020
abbrev Reg.PRF_MIS_CNT : Nat := 0x3A024
abbrev Reg.PRF_SWEEP_CNT : Nat := 0x3A028
/-! 17_power R425 -/
abbrev Reg.PWR_CTRL : Nat := 0x36000
abbrev Reg.PWR_IDLE_CNT : Nat := 0x36010
abbrev Reg.PWR_STAT : Nat := 0x36014
abbrev Reg.PWR_LAST_ABORT : Nat := 0x36018
abbrev Reg.PWR_ABORT_CNT : Nat := 0x36020
abbrev Reg.PWR_LAST_WAKE : Nat := 0x36024
abbrev Reg.PWR_WAKE_CFG : Nat := 0x36028
abbrev Reg.PWR_WAKE_STAT : Nat := 0x3602C
abbrev Reg.PWR_HOLD_RELEASE : Nat := 0x36030
abbrev Reg.PWR_TSAVE_BASE : Nat := 0x36038
abbrev Reg.PWR_DVFS_REQ : Nat := 0x36040
abbrev Reg.PWR_DVFS_STATUS : Nat := 0x36044
abbrev Reg.PWR_OVR : Nat := 0x36048
abbrev Reg.PWR_OPP : Nat := 0x36050
abbrev Reg.PWR_ERR : Nat := 0x36070
abbrev Reg.PWR_ERR_LOG : Nat := 0x36074
/-! 18_errors_recovery R438 -/
abbrev Reg.GLB_ESUM : Nat := 0x100
abbrev Reg.GLB_EMASK : Nat := 0x104
abbrev Reg.GLB_EIRQ : Nat := 0x108
abbrev Reg.GLB_SAFE : Nat := 0x10C
abbrev Reg.GLB_ECC : Nat := 0x110
abbrev Reg.GLB_ECC_LOG : Nat := 0x114
abbrev Reg.GLB_DPAR : Nat := 0x118
abbrev Reg.GLB_DPAR_LOG : Nat := 0x120
abbrev Reg.GLB_ELOG_STAT : Nat := 0x128
abbrev Reg.GLB_ELOG_SEL : Nat := 0x12C
abbrev Reg.GLB_ELOG_DATA : Nat := 0x130
/-! 08_stroke_timebase R194 -/
abbrev Reg.STK_LATE_CNT : Nat := 0x32048
abbrev Reg.STK_CATCH_CNT : Nat := 0x32050
abbrev Reg.STK_JUMP_CNT : Nat := 0x32058
abbrev Reg.STK_SLIP_CNT : Nat := 0x32060
/-! 10_panels_virtualisation -/
abbrev Reg.PNL_PARK_CNT : Nat := 0x35048
abbrev Reg.PNL_DB_CNT : Nat := 0x35050
abbrev Reg.PNL_SWITCH_CNT : Nat := 0x35058
/-! 12_weft_link R307 -/
abbrev Reg.WFT_TX_CNT : Nat := 0x34048
abbrev Reg.WFT_RX_CNT : Nat := 0x34050
/-! 13_coherent_port R325 -/
abbrev Reg.COH_FILL_CNT : Nat := 0x33028
abbrev Reg.COH_RETRY_CNT : Nat := 0x33030
abbrev Reg.COH_SNOOP_CNT : Nat := 0x33038
abbrev Reg.COH_SNOOP_HIT_CNT : Nat := 0x33040
abbrev Reg.COH_EVICT_CNT : Nat := 0x33048
/-! 17_power R425 -/
abbrev Reg.PWR_IDLE_DOZE : Nat := 0x36004
abbrev Reg.PWR_IDLE_NAP : Nat := 0x36008
abbrev Reg.PWR_IDLE_DEEP : Nat := 0x3600C

/-- The GLB region (R390). -/
def regRowsGlb : List RegRow := [
  { off := 0x0, rst := 0x30002, rd := 0xFFFFFF, keep := 0xFFFFFF }, -- GLB_VERSION
  { off := 0x8, rst := 0x80100080, rd := 0xFFFFFFFF, keep := 0xFFFFFFFF }, -- GLB_PARAM
  { off := 0xC, rst := 0x90000, rd := 0xFFFFF, keep := 0xFFFFF }, -- GLB_PARAM.hi
  { off := 0x10, rd := 0x7F7F, keep := 0x7F7F }, -- GLB_ID
  { off := 0x18, rd := 0xFF800000, keep := 0xFF800000 }, -- GLB_WIN_BASE
  { off := 0x1C, rd := 0xFFFFFFFF, keep := 0xFFFFFFFF }, -- GLB_WIN_BASE.hi
  { off := 0x20, rd := 0x7 }, -- GLB_STATUS
  { off := 0x24, rst := 0x1, rd := 0xF, keep := 0xF }, -- GLB_RST_CAUSE
  { off := 0x28, rd := 0x1, w1s := 0x1, priv := 0x1 }, -- GLB_RST_CTRL
  { off := 0x30, rd := 0x3FFFFFFF, rw := 0x3FFFFFFF, priv := 0x3FFFFFFF, keep := 0x3FFFFFFF }, -- GLB_REFCNT_HZ
  { off := 0x38, rd := 0x1F, w1s := 0x1F, priv := 0x1F, sec := 0x1F, keep := 0x1F }, -- GLB_LOCK
  { off := 0x40, rd := 0x3, w1c := 0x3, keep := 0x3 }, -- GLB_ERR
  { off := 0x48, rd := 0x7FFFFFF, keep := 0x7FFFFFF }, -- GLB_ERR_ADDR
  { off := 0x4C, rd := 0xFFFFFFFF, keep := 0xFFFFFFFF }, -- GLB_ERR_ADDR.hi
  { off := 0x100, rd := 0x3FFFF, keep := 0x3FFFF }, -- GLB_ESUM
  { off := 0x104, rst := 0x3FFFF, rd := 0x3FFFF, rw := 0x3FFFF, priv := 0x3FFFF, keep := 0x3FFFF }, -- GLB_EMASK
  { off := 0x108, rd := 0xFFF, rw := 0xFFF, priv := 0xFFF, keep := 0xFFF }, -- GLB_EIRQ
  { off := 0x10C, rd := 0xFFF, keep := 0xFFF }, -- GLB_SAFE
  { off := 0x110, rd := 0x3, w1c := 0x3, keep := 0x3 }, -- GLB_ECC
  { off := 0x114, rd := 0x800FFFFF, w1c := 0x80000000, keep := 0x800FFFFF }, -- GLB_ECC_LOG
  { off := 0x118, rd := 0x1F, w1c := 0x1F, keep := 0x1F }, -- GLB_DPAR
  { off := 0x120, rd := 0xFFFFFFFF, keep := 0xFFFFFFFF }, -- GLB_DPAR_LOG
  { off := 0x124, rd := 0x8000001F, w1c := 0x80000000, keep := 0x8000001F }, -- GLB_DPAR_LOG.hi
  { off := 0x128, rd := 0xFF7F, keep := 0xFF7F }, -- GLB_ELOG_STAT
  { off := 0x12C, rd := 0x3F, rw := 0x3F, priv := 0x3F, keep := 0x3F }, -- GLB_ELOG_SEL
  { off := 0x130, rd := 0xFFFFFFFF, priv := 0xFFFFFFFF, keep := 0xFFFFFFFF }, -- GLB_ELOG_DATA0
  { off := 0x134, rd := 0xFFFFFFFF, priv := 0xFFFFFFFF, keep := 0xFFFFFFFF }, -- GLB_ELOG_DATA0.hi
  { off := 0x138, rd := 0xFFFFFFFF, priv := 0xFFFFFFFF }, -- GLB_ELOG_DATA1
  { off := 0x13C, rd := 0xFFFFFFFF, priv := 0xFFFFFFFF }, -- GLB_ELOG_DATA1.hi
  { off := 0x140, rd := 0xFFFFFFFF, priv := 0xFFFFFFFF }, -- GLB_ELOG_DATA2
  { off := 0x144, rd := 0xFFFFFFFF, priv := 0xFFFFFFFF } -- GLB_ELOG_DATA2.hi
]

/-- The CMD region (R390). -/
def regRowsCmd : List RegRow := [
  { off := 0x20800, rd := 0x1FF, priv := 0x1FF } -- CMD_GSTAT
]

/-- The MBX region (R390). -/
def regRowsMbx : List RegRow := [
  { off := 0x21000, rd := 0xFFFFFFFF, priv := 0xFFFFFFFF }, -- MBX_DATA0
  { off := 0x21004, rd := 0xFFFFFFFF, priv := 0xFFFFFFFF }, -- MBX_DATA0.hi
  { off := 0x21008, rd := 0xFFFFFFFF, priv := 0xFFFFFFFF }, -- MBX_DATA1
  { off := 0x2100C, rd := 0xFFFFFFFF, priv := 0xFFFFFFFF }, -- MBX_DATA1.hi
  { off := 0x21010, rd := 0xFFFFFFFF, priv := 0xFFFFFFFF }, -- MBX_DATA2
  { off := 0x21014, rd := 0xFFFFFFFF, priv := 0xFFFFFFFF }, -- MBX_DATA2.hi
  { off := 0x21018, rd := 0xFFFFFFFF, priv := 0xFFFFFFFF }, -- MBX_DATA3
  { off := 0x2101C, rd := 0xFFFFFFFF, priv := 0xFFFFFFFF }, -- MBX_DATA3.hi
  { off := 0x21020, rd := 0xFFFF000F, priv := 0xFFFF000F }, -- MBX_STAT
  { off := 0x21024, rd := 0xFFFF, priv := 0xFFFF }, -- MBX_STAT.hi
  { off := 0x21028, wo := 0x1, priv := 0x1 } -- MBX_ACK
]

/-- The XLT region (R390). -/
def regRowsXlt : List RegRow := [
  { off := 0x30000, rd := 0x1, rw := 0x1, priv := 0x1 }, -- XLT_CTRL
  { off := 0x30008, rst := 0x10, rd := 0xFFFFF01F, rw := 0xFFFFF01F, priv := 0xFFFFF01F, keep := 0xFFFFF01F }, -- XLT_SRC_BASE
  { off := 0x3000C, rd := 0xFFFFF, rw := 0xFFFFF, priv := 0xFFFFF, keep := 0xFFFFF }, -- XLT_SRC_BASE.hi
  { off := 0x30010, rst := 0xD, rd := 0xFFFFF01F, rw := 0xFFFFF01F, priv := 0xFFFFF01F, keep := 0xFFFFF01F }, -- XLT_ATT_BASE
  { off := 0x30014, rd := 0xFFFFF, rw := 0xFFFFF, priv := 0xFFFFF, keep := 0xFFFFF }, -- XLT_ATT_BASE.hi
  { off := 0x30018, rst := 0x20, rd := 0x7F, rw := 0x7F, priv := 0x7F }, -- XLT_PQ_SLOTS
  { off := 0x30020, rd := 0x3FFF }, -- XLT_STAT
  { off := 0x30028, rd := 0x1FF, w1c := 0x1FF, keep := 0x1FF }, -- XLT_FAULT
  { off := 0x3002C, rd := 0xFFFFFFFF, keep := 0xFFFFFFFF }, -- XLT_FAULT_CNT
  { off := 0x30030, rd := 0xFFFFFFFF, w1c := 0x80000000, keep := 0xFFFFFFFF }, -- XLT_FLOG0
  { off := 0x30034, rd := 0xFFFFFFFF, keep := 0xFFFFFFFF }, -- XLT_FLOG1
  { off := 0x30038, rd := 0xFFFFFFFF, keep := 0xFFFFFFFF }, -- XLT_LOOKUP_CNT
  { off := 0x3003C, rd := 0xFFFFFFFF, keep := 0xFFFFFFFF }, -- XLT_LOOKUP_CNT.hi
  { off := 0x30040, rd := 0xFFFFFFFF, keep := 0xFFFFFFFF }, -- XLT_MISS_CNT
  { off := 0x30044, rd := 0xFFFFFFFF, keep := 0xFFFFFFFF } -- XLT_MISS_CNT.hi
]

/-- The RNK region (R390). -/
def regRowsRnk : List RegRow := [
  { off := 0x31000, rd := 0x3, rw := 0x3, priv := 0x3 }, -- RNK_CTRL
  { off := 0x31004, rd := 0x7, keep := 0x2 }, -- RNK_STAT
  { off := 0x31008, rd := 0xFFFC0000, rw := 0xFFFC0000, priv := 0xFFFC0000, keep := 0xFFFC0000 }, -- RNK_PT_BASE
  { off := 0x3100C, rd := 0xFFFFF, rw := 0xFFFFF, priv := 0xFFFFF, keep := 0xFFFFF }, -- RNK_PT_BASE.hi
  { off := 0x31010, rd := 0xFFFFE000, rw := 0xFFFFE000, priv := 0xFFFFE000, keep := 0xFFFFE000 }, -- RNK_SUM_BASE
  { off := 0x31014, rd := 0xFFFFF, rw := 0xFFFFF, priv := 0xFFFFF, keep := 0xFFFFF }, -- RNK_SUM_BASE.hi
  { off := 0x31020, rd := 0xFFFFFF, rw := 0xFFFFFF, priv := 0xFFFFFF, keep := 0xFFFFFF }, -- RNK_CLASS0
  { off := 0x31024, rd := 0xFFFFFF, rw := 0xFFFFFF, priv := 0xFFFFFF, keep := 0xFFFFFF }, -- RNK_CLASS1
  { off := 0x31028, rd := 0xFFFFFF, rw := 0xFFFFFF, priv := 0xFFFFFF, keep := 0xFFFFFF }, -- RNK_CLASS2
  { off := 0x3102C, rd := 0xFFFFFF, rw := 0xFFFFFF, priv := 0xFFFFFF, keep := 0xFFFFFF }, -- RNK_CLASS3
  { off := 0x31030, rd := 0xFFFFFF, rw := 0xFFFFFF, priv := 0xFFFFFF, keep := 0xFFFFFF }, -- RNK_CLASS4
  { off := 0x31034, rd := 0xFFFFFF, rw := 0xFFFFFF, priv := 0xFFFFFF, keep := 0xFFFFFF }, -- RNK_CLASS5
  { off := 0x31038, rd := 0xFFFFFF, rw := 0xFFFFFF, priv := 0xFFFFFF, keep := 0xFFFFFF }, -- RNK_CLASS6
  { off := 0x3103C, rd := 0xFFFFFF, rw := 0xFFFFFF, priv := 0xFFFFFF, keep := 0xFFFFFF }, -- RNK_CLASS7
  { off := 0x31040, rst := 0x8000100, rd := 0x1FFF1FFF, rw := 0x1FFF1FFF, priv := 0x1FFF1FFF, keep := 0x1FFF1FFF }, -- RNK_REFILL
  { off := 0x31048, rd := 0x7F, rw := 0x7F, priv := 0x7F }, -- RNK_TSEL
  { off := 0x31050, rd := 0x1FFF1FFF, priv := 0x1FFF1FFF }, -- RNK_TSTAT
  { off := 0x31054, rd := 0x3FF, priv := 0x3FF }, -- RNK_TSTAT.hi
  { off := 0x31058, rst := 0x1FFFFFFF, rd := 0x3FFFFFFF, priv := 0x3FFFFFFF }, -- RNK_TROOT
  { off := 0x3105C, rst := 0x1FFFFFFF, rd := 0x1FFFFFFF, priv := 0x1FFFFFFF }, -- RNK_TROOT.hi
  { off := 0x31060, rd := 0x7FFFFFFF, priv := 0x7FFFFFFF }, -- RNK_TSUM
  { off := 0x31080, rd := 0xFFFFFFFF, keep := 0xFFFFFFFF }, -- RNK_SPILL_CNT
  { off := 0x31084, rd := 0xFFFFFFFF, keep := 0xFFFFFFFF }, -- RNK_SPILL_CNT.hi
  { off := 0x31088, rd := 0xFFFFFFFF, keep := 0xFFFFFFFF }, -- RNK_DIRECT_CNT
  { off := 0x3108C, rd := 0xFFFFFFFF, keep := 0xFFFFFFFF }, -- RNK_DIRECT_CNT.hi
  { off := 0x31090, rd := 0xFFFFFFFF, keep := 0xFFFFFFFF }, -- RNK_LEAD_CNT
  { off := 0x31094, rd := 0xFFFFFFFF, keep := 0xFFFFFFFF }, -- RNK_LEAD_CNT.hi
  { off := 0x31098, rd := 0xFFFFFFFF, keep := 0xFFFFFFFF }, -- RNK_SWEEP_CNT
  { off := 0x3109C, rd := 0xFFFFFFFF, keep := 0xFFFFFFFF }, -- RNK_SWEEP_CNT.hi
  { off := 0x310A0, rd := 0x1F, w1c := 0x1F, keep := 0x1F }, -- RNK_ERR
  { off := 0x310A4, rd := 0xFFFFFFFF, w1c := 0x80000000, keep := 0xFFFFFFFF } -- RNK_ERR_LOG
]

/-- The STK region (R390). -/
def regRowsStk : List RegRow := [
  { off := 0x32000, rst := 0x20, rd := 0x7F, rw := 0x7F, priv := 0x7F, keep := 0x7F }, -- STK_LEN
  { off := 0x32004, rst := 0x1000018, rd := 0xFFF007F, rw := 0xFFF007F, priv := 0xFFF007F, keep := 0xFFF007F }, -- STK_CATCH
  { off := 0x32008, rst := 0x4, rd := 0xF, rw := 0xF, priv := 0xF, keep := 0xF }, -- STK_EPOCH
  { off := 0x3200C, rst := 0x190, rd := 0x1FF, rw := 0x1FF, priv := 0x1FF, keep := 0x1FF }, -- STK_FAST_MHZ
  { off := 0x32010, rst := 0xC, rd := 0xF }, -- STK_ALIGN
  { off := 0x32018, rd := 0xFFFFFFFF }, -- STK_COUNT
  { off := 0x3201C, rd := 0xFFFF }, -- STK_COUNT.hi
  { off := 0x32020, rd := 0xFFFFFFFF }, -- STK_REF_PER
  { off := 0x32024, rd := 0xFFFF }, -- STK_REF_PER.hi
  { off := 0x32028, rd := 0xFFFFFFFF }, -- STK_ORIGIN_REF
  { off := 0x3202C, rd := 0xFFFFFFFF }, -- STK_ORIGIN_REF.hi
  { off := 0x32030, rd := 0xFFFFFFFF }, -- STK_ORIGIN_CNT
  { off := 0x32034, rd := 0xFFFF }, -- STK_ORIGIN_CNT.hi
  { off := 0x32038, rst := 0x8000, rd := 0xFFFFFF }, -- STK_STAT
  { off := 0x32040, rd := 0xFFFFFFFF }, -- STK_SLEEP_ADV
  { off := 0x32044, rd := 0xFFFF }, -- STK_SLEEP_ADV.hi
  { off := 0x32048, rd := 0xFFFFFFFF, keep := 0xFFFFFFFF }, -- STK_LATE_CNT
  { off := 0x3204C, rd := 0xFFFFFFFF, keep := 0xFFFFFFFF }, -- STK_LATE_CNT.hi
  { off := 0x32050, rd := 0xFFFFFFFF, keep := 0xFFFFFFFF }, -- STK_CATCH_CNT
  { off := 0x32054, rd := 0xFFFFFFFF, keep := 0xFFFFFFFF }, -- STK_CATCH_CNT.hi
  { off := 0x32058, rd := 0xFFFFFFFF, keep := 0xFFFFFFFF }, -- STK_JUMP_CNT
  { off := 0x3205C, rd := 0xFFFFFFFF, keep := 0xFFFFFFFF }, -- STK_JUMP_CNT.hi
  { off := 0x32060, rd := 0xFFFFFFFF, keep := 0xFFFFFFFF }, -- STK_SLIP_CNT
  { off := 0x32064, rd := 0xFFFFFFFF, keep := 0xFFFFFFFF }, -- STK_SLIP_CNT.hi
  { off := 0x32068, rd := 0x3, w1c := 0x3, keep := 0x3 } -- STK_ERR
]

/-- The COH region (R390). -/
def regRowsCoh : List RegRow := [
  { off := 0x33000, rd := 0x1, rw := 0x1, priv := 0x1, keep := 0x1 }, -- COH_MODE
  { off := 0x33004, rst := 0x2, rd := 0x3, w1s := 0x1, priv := 0x1 }, -- COH_FLUSH
  { off := 0x33008, rd := 0xFFFFFFF }, -- COH_STAT
  { off := 0x33010, rd := 0x3F, w1c := 0x3F, keep := 0x3F }, -- COH_ERR
  { off := 0x33018, rd := 0xFFFFFFFF, keep := 0xFFFFFFFF }, -- COH_ERR_LOG
  { off := 0x3301C, rd := 0x800FFFFF, w1c := 0x80000000, keep := 0x800FFFFF }, -- COH_ERR_LOG.hi
  { off := 0x33020, rd := 0xFFFF, keep := 0xFFFF }, -- COH_RETRY_MAX
  { off := 0x33028, rd := 0xFFFFFFFF, keep := 0xFFFFFFFF }, -- COH_FILL_CNT
  { off := 0x3302C, rd := 0xFFFFFFFF, keep := 0xFFFFFFFF }, -- COH_FILL_CNT.hi
  { off := 0x33030, rd := 0xFFFFFFFF, keep := 0xFFFFFFFF }, -- COH_RETRY_CNT
  { off := 0x33034, rd := 0xFFFFFFFF, keep := 0xFFFFFFFF }, -- COH_RETRY_CNT.hi
  { off := 0x33038, rd := 0xFFFFFFFF, keep := 0xFFFFFFFF }, -- COH_SNOOP_CNT
  { off := 0x3303C, rd := 0xFFFFFFFF, keep := 0xFFFFFFFF }, -- COH_SNOOP_CNT.hi
  { off := 0x33040, rd := 0xFFFFFFFF, keep := 0xFFFFFFFF }, -- COH_SNOOP_HIT_CNT
  { off := 0x33044, rd := 0xFFFFFFFF, keep := 0xFFFFFFFF }, -- COH_SNOOP_HIT_CNT.hi
  { off := 0x33048, rd := 0xFFFFFFFF, keep := 0xFFFFFFFF }, -- COH_EVICT_CNT
  { off := 0x3304C, rd := 0xFFFFFFFF, keep := 0xFFFFFFFF } -- COH_EVICT_CNT.hi
]

/-- The WFT region (R390). -/
def regRowsWft : List RegRow := [
  { off := 0x34000, rst := 0xCF, rd := 0xFF, rw := 0xFF, wo := 0x100, priv := 0x1FF, keep := 0xFF }, -- WFT_CTRL
  { off := 0x34004, rst := 0x800, rd := 0x7FFFFFF }, -- WFT_STAT
  { off := 0x34008, rd := 0xFFFF }, -- WFT_DISC_TIME
  { off := 0x34010, rd := 0xFFFFFFFF, keep := 0xFF000000 }, -- WFT_PSTAT0
  { off := 0x34014, rd := 0xFFFFFFFF, keep := 0xFF000000 }, -- WFT_PSTAT1
  { off := 0x34018, rd := 0xFFFFFFFF, keep := 0xFF000000 }, -- WFT_PSTAT2
  { off := 0x3401C, rd := 0xFFFFFFFF, keep := 0xFF000000 }, -- WFT_PSTAT3
  { off := 0x34020, wo := 0xF, priv := 0xF }, -- WFT_PRST
  { off := 0x34024, rd := 0x7F, rw := 0x7F, priv := 0x7F }, -- WFT_ISEL
  { off := 0x34028, rd := 0x1FFFFF, priv := 0x1FFFFF }, -- WFT_INST
  { off := 0x3402C }, -- WFT_INST.hi
  { off := 0x34030, rd := 0x7FFF }, -- WFT_IFT
  { off := 0x34038, rd := 0x1FF, w1c := 0x1FF, keep := 0x1FF }, -- WFT_ERR
  { off := 0x3403C, rd := 0xFFFFFFFF, keep := 0xFFFFFFFF }, -- WFT_ERR_CNT
  { off := 0x34040, rd := 0xFFFFFFFF, keep := 0xFFFFFFFF }, -- WFT_ERR_LOG
  { off := 0x34044, rd := 0x8001FFFF, w1c := 0x80000000, keep := 0x8001FFFF }, -- WFT_ERR_LOG.hi
  { off := 0x34048, rd := 0xFFFFFFFF, keep := 0xFFFFFFFF }, -- WFT_TX_CNT
  { off := 0x3404C, rd := 0xFFFFFFFF, keep := 0xFFFFFFFF }, -- WFT_TX_CNT.hi
  { off := 0x34050, rd := 0xFFFFFFFF, keep := 0xFFFFFFFF }, -- WFT_RX_CNT
  { off := 0x34054, rd := 0xFFFFFFFF, keep := 0xFFFFFFFF } -- WFT_RX_CNT.hi
]

/-- The PNL region (R390). -/
def regRowsPnl : List RegRow := [
  { off := 0x35000, rd := 0x3, rw := 0x3, priv := 0x3 }, -- PNL_CTRL
  { off := 0x35008, rd := 0xFFFFF000, rw := 0xFFFFF000, priv := 0xFFFFF000, keep := 0xFFFFF000 }, -- PNL_VPE_BASE
  { off := 0x3500C, rd := 0xFFFFF, rw := 0xFFFFF, priv := 0xFFFFF, keep := 0xFFFFF }, -- PNL_VPE_BASE.hi
  { off := 0x35010, rd := 0xFFFFF000, rw := 0xFFFFF000, priv := 0xFFFFF000, keep := 0xFFFFF000 }, -- PNL_SAVE_BASE
  { off := 0x35014, rd := 0xFFFFF, rw := 0xFFFFF, priv := 0xFFFFF, keep := 0xFFFFF }, -- PNL_SAVE_BASE.hi
  { off := 0x35018, rd := 0xFFFF07FF }, -- PNL_STAT
  { off := 0x3501C, rd := 0x7FF, keep := 0x400 }, -- PNL_STAT.hi
  { off := 0x35020, rd := 0x3FF, rw := 0x3FF, priv := 0x3FF }, -- PNL_PSEL
  { off := 0x35028, rd := 0xFFFF01F7, priv := 0xFFFF01F7 }, -- PNL_PSTAT
  { off := 0x3502C, rd := 0x1FF, priv := 0x1FF }, -- PNL_PSTAT.hi
  { off := 0x35030, rd := 0xFFFF, rw := 0xFFFF, priv := 0xFFFF }, -- PNL_VSEL
  { off := 0x35034, rst := 0xFF000, rd := 0x3FFFF7FF, priv := 0x3FFFF7FF }, -- PNL_VSTAT
  { off := 0x35040, rd := 0x3F, w1c := 0x3F, keep := 0x3F }, -- PNL_ERR
  { off := 0x35044, rd := 0x8007FFFF, w1c := 0x80000000, keep := 0x8007FFFF }, -- PNL_ERR_LOG
  { off := 0x35048, rd := 0xFFFFFFFF, keep := 0xFFFFFFFF }, -- PNL_PARK_CNT
  { off := 0x3504C, rd := 0xFFFFFFFF, keep := 0xFFFFFFFF }, -- PNL_PARK_CNT.hi
  { off := 0x35050, rd := 0xFFFFFFFF, keep := 0xFFFFFFFF }, -- PNL_DB_CNT
  { off := 0x35054, rd := 0xFFFFFFFF, keep := 0xFFFFFFFF }, -- PNL_DB_CNT.hi
  { off := 0x35058, rd := 0xFFFFFFFF, keep := 0xFFFFFFFF }, -- PNL_SWITCH_CNT
  { off := 0x3505C, rd := 0xFFFFFFFF, keep := 0xFFFFFFFF } -- PNL_SWITCH_CNT.hi
]

/-- The PWR region (R390). -/
def regRowsPwr : List RegRow := [
  { off := 0x36000, rst := 0x1, rd := 0x3, rw := 0x1, w1s := 0x2, priv := 0x3, keep := 0x3 }, -- PWR_CTRL
  { off := 0x36004, rd := 0xFFFFFFFF, rw := 0xFFFFFFFF, priv := 0xFFFFFFFF, keep := 0xFFFFFFFF }, -- PWR_IDLE_DOZE
  { off := 0x36008, rd := 0xFFFFFFFF, rw := 0xFFFFFFFF, priv := 0xFFFFFFFF, keep := 0xFFFFFFFF }, -- PWR_IDLE_NAP
  { off := 0x3600C, rd := 0xFFFFFFFF, rw := 0xFFFFFFFF, priv := 0xFFFFFFFF, keep := 0xFFFFFFFF }, -- PWR_IDLE_DEEP
  { off := 0x36010, rd := 0xFFFFFFFF, keep := 0xFFFFFFFF }, -- PWR_IDLE_CNT
  { off := 0x36014, rst := 0x40, rd := 0x7F, keep := 0x7F }, -- PWR_STAT
  { off := 0x36018, rd := 0xFFFFFF, keep := 0xFFFFFF }, -- PWR_LAST_ABORT
  { off := 0x3601C, rd := 0xFFFFFFFF, keep := 0xFFFFFFFF }, -- PWR_LAST_ABORT.hi
  { off := 0x36020, rd := 0xFFFFFFFF, keep := 0xFFFFFFFF }, -- PWR_ABORT_CNT
  { off := 0x36024, rd := 0x3FFFF, keep := 0x3FFFF }, -- PWR_LAST_WAKE
  { off := 0x36028, rd := 0xFFFFFFFF, rw := 0xFFFFFFFF, priv := 0xFFFFFFFF, keep := 0xFFFFFFFF }, -- PWR_WAKE_CFG
  { off := 0x3602C, rd := 0xFFFF, keep := 0xFFFF }, -- PWR_WAKE_STAT
  { off := 0x36030, rd := 0x1, w1s := 0x1, priv := 0x1, keep := 0x1 }, -- PWR_HOLD_RELEASE
  { off := 0x36038, rd := 0xFFFFF000, rw := 0xFFFFF000, priv := 0xFFFFF000, keep := 0xFFFFF000 }, -- PWR_TSAVE_BASE
  { off := 0x3603C, rd := 0xFFFFF, rw := 0xFFFFF, priv := 0xFFFFF, keep := 0xFFFFF }, -- PWR_TSAVE_BASE.hi
  { off := 0x36040, rd := 0x77, rw := 0x77, priv := 0x77, keep := 0x77 }, -- PWR_DVFS_REQ
  { off := 0x36044, rd := 0xF77, keep := 0xF77 }, -- PWR_DVFS_STATUS
  { off := 0x36048, rst := 0x3, rd := 0x3, rw := 0x3, priv := 0x3, sec := 0x3, keep := 0x3 }, -- PWR_OVR
  { off := 0x36050, rst := 0x3207D0, rd := 0xFFFFFF, rw := 0xFFFFFF, priv := 0xFFFFFF, sec := 0xFFFFFF, keep := 0xFFFFFF }, -- PWR_OPP0
  { off := 0x36054, rst := 0x3207D0, rd := 0xFFFFFF, rw := 0xFFFFFF, priv := 0xFFFFFF, sec := 0xFFFFFF, keep := 0xFFFFFF }, -- PWR_OPP1
  { off := 0x36058, rst := 0x3207D0, rd := 0xFFFFFF, rw := 0xFFFFFF, priv := 0xFFFFFF, sec := 0xFFFFFF, keep := 0xFFFFFF }, -- PWR_OPP2
  { off := 0x3605C, rst := 0x3207D0, rd := 0xFFFFFF, rw := 0xFFFFFF, priv := 0xFFFFFF, sec := 0xFFFFFF, keep := 0xFFFFFF }, -- PWR_OPP3
  { off := 0x36060, rst := 0x3207D0, rd := 0xFFFFFF, rw := 0xFFFFFF, priv := 0xFFFFFF, sec := 0xFFFFFF, keep := 0xFFFFFF }, -- PWR_OPP4
  { off := 0x36064, rst := 0x3207D0, rd := 0xFFFFFF, rw := 0xFFFFFF, priv := 0xFFFFFF, sec := 0xFFFFFF, keep := 0xFFFFFF }, -- PWR_OPP5
  { off := 0x36068, rst := 0x3207D0, rd := 0xFFFFFF, rw := 0xFFFFFF, priv := 0xFFFFFF, sec := 0xFFFFFF, keep := 0xFFFFFF }, -- PWR_OPP6
  { off := 0x3606C, rst := 0x3207D0, rd := 0xFFFFFF, rw := 0xFFFFFF, priv := 0xFFFFFF, sec := 0xFFFFFF, keep := 0xFFFFFF }, -- PWR_OPP7
  { off := 0x36070, rd := 0x7, w1c := 0x7, keep := 0x7 }, -- PWR_ERR
  { off := 0x36074, rd := 0x800001FF, w1c := 0x80000000, keep := 0x800001FF } -- PWR_ERR_LOG
]

/-- The BUR region (R390). -/
def regRowsBur : List RegRow := [
  { off := 0x37000, rd := 0x3, rw := 0x3, wo := 0xC, priv := 0xF, sec := 0xF }, -- BUR_CTL
  { off := 0x37004, rst := 0x9, rd := 0x7FFFF }, -- BUR_STAT
  { off := 0x37008, rd := 0xFFFFFF }, -- BUR_FW_VERSION
  { off := 0x3700C, rd := 0x1FFFF, rw := 0x1FFFF, priv := 0x1FFFF, sec := 0x1FFFF }, -- BUR_LOAD_CTL
  { off := 0x37010, wo := 0xFFFFFFFF, priv := 0xFFFFFFFF, sec := 0xFFFFFFFF }, -- BUR_LOAD_DATA
  { off := 0x37018, rd := 0xFFFFF001, rw := 0xFFFFF001, priv := 0xFFFFF001, sec := 0xFFFFF001, keep := 0xFFFFF001 }, -- BUR_IMG_BASE
  { off := 0x3701C, rd := 0xFFFFF, rw := 0xFFFFF, priv := 0xFFFFF, sec := 0xFFFFF, keep := 0xFFFFF }, -- BUR_IMG_BASE.hi
  { off := 0x37020, rd := 0xFFFFFFFF, rw := 0xFFFFFFFF, priv := 0xFFFFFFFF }, -- BUR_HOST_MSG
  { off := 0x37024, rd := 0xFFFFFFFF, priv := 0xFFFFFFFF }, -- BUR_HOST_RSP
  { off := 0x37028, rd := 0xFFFFFFFF, keep := 0xFFFFFFFF }, -- BUR_TAKE_LOG
  { off := 0x3702C, rd := 0x3FFFF, keep := 0x3FFFF }, -- BUR_TAKE_LOG.hi
  { off := 0x37030, rd := 0xFF, w1c := 0xFF, keep := 0xFF }, -- BUR_ERR
  { off := 0x37038, rd := 0xFFFFFFFF, keep := 0xFFFFFFFF } -- BUR_TAKE_CNT
]

/-- The SBD region (R390). -/
def regRowsSbd : List RegRow := [
  { off := 0x38000, rd := 0xF }, -- SBD_STAT
  { off := 0x38004, rd := 0x7FF, keep := 0x7FF }, -- SBD_PRES
  { off := 0x38008, rd := 0x1, w1s := 0x1, priv := 0x1, sec := 0x1 }, -- SBD_CTRL
  { off := 0x3800C, rd := 0x7F, w1c := 0x7F, keep := 0x7F }, -- SBD_ERR
  { off := 0x38010, rd := 0xFFFFFFFF, keep := 0xFFFFFFFF }, -- SBD_CNT
  { off := 0x38014, rd := 0xFFFFFFFF, keep := 0xFFFFFFFF }, -- SBD_CNT.hi
  { off := 0x38100, rd := 0x7, w1s := 0x6 }, -- SBD_MCTL
  { off := 0x38110, rd := 0xFFFFFFFF }, -- SBD_MREQ0
  { off := 0x38114, rd := 0xFFFFFFFF }, -- SBD_MREQ1
  { off := 0x38118, rd := 0xFFFFFFFF }, -- SBD_MREQ2
  { off := 0x3811C, rd := 0xFFFFFFFF }, -- SBD_MREQ3
  { off := 0x38120, rd := 0xFFFFFFFF }, -- SBD_MREQ4
  { off := 0x38124, rd := 0xFFFFFFFF }, -- SBD_MREQ5
  { off := 0x38128, rd := 0xFFFFFFFF }, -- SBD_MREQ6
  { off := 0x3812C, rd := 0xFFFFFFFF }, -- SBD_MREQ7
  { off := 0x38130, rd := 0xFFFFFFFF, rw := 0xFFFFFFFF }, -- SBD_MRSP0
  { off := 0x38134, rd := 0xFFFFFFFF, rw := 0xFFFFFFFF }, -- SBD_MRSP1
  { off := 0x38138, rd := 0xFFFFFFFF, rw := 0xFFFFFFFF }, -- SBD_MRSP2
  { off := 0x3813C, rd := 0xFFFFFFFF, rw := 0xFFFFFFFF }, -- SBD_MRSP3
  { off := 0x38140, rd := 0xFFFFFFFF, rw := 0xFFFFFFFF }, -- SBD_MRSP4
  { off := 0x38144, rd := 0xFFFFFFFF, rw := 0xFFFFFFFF }, -- SBD_MRSP5
  { off := 0x38148, rd := 0xFFFFFFFF, rw := 0xFFFFFFFF } -- SBD_MRSP6
]

/-- The MSG region (R390). -/
def regRowsMsg : List RegRow := [
  { off := 0x39000, rst := 0x1, rd := 0x1, rw := 0x1, priv := 0x1 }, -- MSG_CTRL
  { off := 0x39004, rst := 0x40000400, rd := 0x7FFF7FFF, rw := 0x7FFF7FFF, priv := 0x7FFF7FFF }, -- MSG_PQ_CFG
  { off := 0x39008, rd := 0xFFFF, rw := 0xFFFF, priv := 0xFFFF }, -- MSG_PQ_BUDGET
  { off := 0x3900C, rst := 0x3C000400, rd := 0x7FFF7FFF }, -- MSG_POOL_STAT
  { off := 0x39010, rd := 0xFFFF }, -- MSG_PQ_STAT
  { off := 0x39014, rd := 0xFFFF }, -- MSG_PQ_STAT.hi
  { off := 0x39018, rd := 0x3FF, rw := 0x3FF, priv := 0x3FF }, -- MSG_PNL_SEL
  { off := 0x39020, rd := 0x1FFFF, priv := 0x1FFFF }, -- MSG_PNL_STAT
  { off := 0x39024, rd := 0xFFFF, priv := 0xFFFF }, -- MSG_PNL_STAT.hi
  { off := 0x39028, rd := 0xFF }, -- MSG_SLOW_STAT
  { off := 0x3902C, rst := 0x2, rd := 0x3, w1s := 0x1 }, -- MSG_FENCE
  { off := 0x39030, rd := 0xFFFFFFFF, keep := 0xFFFFFFFF }, -- MSG_ADMIT_CNT
  { off := 0x39034, rd := 0xFFFFFFFF, keep := 0xFFFFFFFF }, -- MSG_ADMIT_CNT.hi
  { off := 0x39038, rd := 0xFFFFFFFF, keep := 0xFFFFFFFF }, -- MSG_SLOW_CNT
  { off := 0x3903C, rd := 0xFFFFFFFF, keep := 0xFFFFFFFF }, -- MSG_SLOW_CNT.hi
  { off := 0x39040, rd := 0xFFFFFFFF, keep := 0xFFFFFFFF }, -- MSG_BP_CNT
  { off := 0x39044, rd := 0xFFFFFFFF, keep := 0xFFFFFFFF }, -- MSG_BP_CNT.hi
  { off := 0x39048, rd := 0x7F, w1c := 0x7F, keep := 0x7F }, -- MSG_ERR
  { off := 0x3904C, rd := 0xFFFFFFFF, keep := 0xFFFFFFFF }, -- MSG_ERR_CNT
  { off := 0x39050, rd := 0x83FFFFFF, w1c := 0x80000000, keep := 0x83FFFFFF }, -- MSG_ERR_LOG0
  { off := 0x39054, rd := 0xFFFFFF, keep := 0xFFFFFF }, -- MSG_ERR_LOG1
  { off := 0x39058, rd := 0xFFFFFFFF, keep := 0xFFFFFFFF } -- MSG_ERR_LOG2
]

/-- The PRF region (R390). -/
def regRowsPrf : List RegRow := [
  { off := 0x3A000, rst := 0x1, rd := 0x3, rw := 0x1, w1s := 0x2, priv := 0x3, sec := 0x3, keep := 0x1 }, -- PRF_CTRL
  { off := 0x3A004, rst := 0x1, rd := 0x7FFFF }, -- PRF_STAT
  { off := 0x3A008, rd := 0xFFFFFFFF, rw := 0xFFFFFFFF, priv := 0xFFFFFFFF, sec := 0xFFFFFFFF, keep := 0xFFFFFFFF }, -- PRF_REF
  { off := 0x3A00C, rd := 0xFFFFFFFF, priv := 0xFFFFFFFF }, -- PRF_LAST
  { off := 0x3A010, rd := 0xFFFFFFFF, priv := 0xFFFFFFFF }, -- PRF_SEG0
  { off := 0x3A014, rd := 0xFFFFFFFF, priv := 0xFFFFFFFF }, -- PRF_SEG1
  { off := 0x3A018, rd := 0xFFFFFFFF, priv := 0xFFFFFFFF }, -- PRF_SEG2
  { off := 0x3A01C, rd := 0xFFFFFFFF, priv := 0xFFFFFFFF }, -- PRF_SEG3
  { off := 0x3A020, rd := 0x1, w1c := 0x1, keep := 0x1 }, -- PRF_ERR
  { off := 0x3A024, rd := 0xFFFFFFFF, keep := 0xFFFFFFFF }, -- PRF_MIS_CNT
  { off := 0x3A028, rd := 0xFFFFFFFF, keep := 0xFFFFFFFF }, -- PRF_SWEEP_CNT
  { off := 0x3A02C, rd := 0xFFFFFFFF, keep := 0xFFFFFFFF } -- PRF_SWEEP_CNT.hi
]

/-- A WIN entry (R95). -/
def regRowsWin : List RegRow := [
  { off := 0x0, rst := 0xFF, rd := 0x1FFFF, rw := 0x1FFFF, priv := 0x1FFFF, sec := 0x8000 }, -- WIN_CTL
  { off := 0x4, rd := 0xFFFFFFFF, rw := 0xFFFFFFFF, priv := 0xFFFFFFFF }, -- WIN_ROUTE
  { off := 0x8, rst := 0x60000, rd := 0xFFFFF, rw := 0x1FFFF, priv := 0x1FFFF, keep := 0xE0000 }, -- WIN_FILT
  { off := 0xC, rd := 0xFFFFFFFF, rw := 0x1FFFFF, priv := 0x1FFFFF } -- WIN_XSTAT
]

/-- A target frame (R220), without its TGT_ICFG words. -/
def regRowsTgt : List RegRow := [
  { off := 0x0, rst := 0x1FFFFF, rd := 0xBFFFFFFF, priv := 0xBFFFFFFF }, -- TGT_CLAIM
  { off := 0x4, rst := 0x1FFFFF, rd := 0xBFFFFFFF, priv := 0xBFFFFFFF }, -- TGT_PEEK
  { off := 0x8, wo := 0x1FFFFF, priv := 0x1FFFFF }, -- TGT_EOI
  { off := 0xC, wo := 0x1FFFFF, priv := 0x1FFFFF }, -- TGT_DEACT
  { off := 0x10, wo := 0xFFFFF, priv := 0xFFFFF }, -- TGT_SEND
  { off := 0x14, rd := 0x1FF, priv := 0x1FF }, -- TGT_OPSTAT
  { off := 0x18, rst := 0x8000, rd := 0xFFFF, rw := 0xFFFF, priv := 0xFFFF, sec := 0xFF00 }, -- TGT_PMASK
  { off := 0x1C, rd := 0xFF, rw := 0xFF, priv := 0xFF, sec := 0xF0 }, -- TGT_SPLIT
  { off := 0x20, rst := 0x100, rd := 0x7FFFF, priv := 0x7FFFF }, -- TGT_RP
  { off := 0x24, rst := 0x100, rd := 0x7FFFFFF, priv := 0x7FFFFFF }, -- TGT_VSTAT
  { off := 0x28, rd := 0x4001FFFF, rw := 0x1FFFF, priv := 0x4001FFFF }, -- TGT_VPE
  { off := 0x40, rd := 0x3F, w1c := 0x3F, keep := 0x3F }, -- TGT_ERR
  { off := 0x44, rd := 0xFFFFFFFF, keep := 0xFFFFFFFF } -- TGT_BADC_CNT
]

/-- TGT_ICFGi (R220), the same for each of the 32 words at frame offset 0x100 + 4i. -/
def regRowIcfg (off : Nat) : RegRow :=
  { off := off, rst := 0xFF, rd := 0x7FFF, rw := 0x1FFF, priv := 0x1FFF, sec := 0x100 }

/-- A ring (R280), before the SEC of ring 1. -/
def regRowsRing : List RegRow := [
  { off := 0x0, rst := 0x60, rd := 0x1F1, rw := 0x1F1, priv := 0x1F1, keep := 0x1F0 }, -- CMD_RCTRL
  { off := 0x8, rd := 0xFFFFF000, rw := 0xFFFFF000, priv := 0xFFFFF000, keep := 0xFFFFF000 }, -- CMD_RBASE
  { off := 0xC, rd := 0xFFFFF, rw := 0xFFFFF, priv := 0xFFFFF, keep := 0xFFFFF }, -- CMD_RBASE.hi
  { off := 0x10, rd := 0xFFFFF000, rw := 0xFFFFF000, priv := 0xFFFFF000, keep := 0xFFFFF000 }, -- CMD_CBASE
  { off := 0x14, rd := 0xFFFFF, rw := 0xFFFFF, priv := 0xFFFFF, keep := 0xFFFFF }, -- CMD_CBASE.hi
  { off := 0x18, wo := 0xFFFF, priv := 0xFFFF }, -- CMD_DB
  { off := 0x1C, rd := 0xFFFF, priv := 0xFFFF, keep := 0xFFFF }, -- CMD_TAIL
  { off := 0x20, rst := 0x10000, rd := 0x1FFFF, priv := 0x1FFFF, keep := 0x1FFFF }, -- CMD_HEAD
  { off := 0x24, rd := 0x1F, w1c := 0x1C, priv := 0x1F, keep := 0x1C }, -- CMD_RSTAT
  { off := 0x28, rd := 0xFFF, rw := 0xFFF, priv := 0xFFF }, -- CMD_RIRQ
  { off := 0x30, rd := 0xFFFFFFFF, priv := 0xFFFFFFFF, keep := 0xFFFFFFFF }, -- CMD_CNT
  { off := 0x34, rd := 0xFFFFFFFF, priv := 0xFFFFFFFF, keep := 0xFFFFFFFF } -- CMD_CNT.hi
]

/-- A share row (R250). -/
def regRowsShare : List RegRow := [
  { off := 0x0, rd := 0x7FFF7FFF, rw := 0x7FFF7FFF, priv := 0x7FFF7FFF }, -- PNL_SHR_REQ0
  { off := 0x4, rd := 0xFF7FFFFF, rw := 0xFF7FFFFF, priv := 0xFF7FFFFF }, -- PNL_SHR_REQ1
  { off := 0x8, rd := 0x7FFF7FFF, priv := 0x7FFF7FFF }, -- PNL_SHR_LIVE0
  { off := 0xC, rd := 0xFF7FFFFF, priv := 0xFF7FFFFF }, -- PNL_SHR_LIVE1
  { off := 0x10, rd := 0x1FFFFF, priv := 0x1FFFFF } -- PNL_SHR_STAT
]

end Sys2Proof.Machine
end

