-- ==== Sys2Proof/Machine/State.lean ====
section
/-! DEFINITION. The state of the block: plain data, one structure per subsystem of 01 R8, and the state
after reset. Software-visible registers stand in ONE register file keyed by register-port offset
(an unlisted offset holds the Reset value of the spec's table, RegMap.lean); fields that the spec
derives from a structure below (an occupancy, a depth) are read from that structure and are not
stored twice. -/

namespace Sys2Proof.Machine

/-- The integration parameters of 01 R20; the state after reset holds the reference implementation's, which
GLB_PARAM's Reset column gives (16 R393). No command changes them. -/
structure Par where
  targets   : Nat
  wired     : Nat
  panels    : Nat
  vpes      : Nat
  weftPorts : Nat
  deriving DecidableEq, Repr

/-- Where the block stands in the reset sequences of 02 R41 and R43. -/
inductive Phase
  /-- rst_cold_n_i is low -/
  | cold
  /-- from C3 to C4: SRAM initialisation -/
  | init
  /-- after C5 -/
  | run
  /-- W1 done, W2 running (a flushing trigger) -/
  | w2
  /-- W3 running -/
  | w3
  /-- W5: CLK_FAST and CLK_MAIN domains held in reset, warm_quiet_o high -/
  | w5
  deriving DecidableEq, Repr

/-- Reset control (02 R41 to R46). -/
structure Rst where
  phase    : Phase
  /-- level of rst_warm_n_i low -/
  warmLow  : Bool
  /-- the running warm reset was triggered, or taken over, by rst_warm_n_i -/
  byPin    : Bool
  /-- rst_warm_n_i rose before warm_quiet_o: W5 is the 16-cycle hold (R44) -/
  earlyRise : Bool
  /-- warm_quiet_o -/
  quiet    : Bool
  /-- the C3 of the running initialisation belongs to a warm reset (R43 W6) -/
  warmInit : Bool
  /-- a flushing trigger, with its cause, that waits for a consent round to abort (R46), for RUN (log 80) or for C5 (log 23) -/
  pendingTrig : Option (BitVec 4)
  /-- rst_warm_n_i fell in NAP or DEEP, or in the initialisation of a cold reset (log 81): the warm reset runs from W1 once
  RUN is reached (R46) -/
  pinAfterWake : Bool
  /-- a register-port write has started this warm reset and its cycle may still last: a Burin's write in the same cycle is part
  of the trigger (R46) -/
  trig     : Bool
  deriving DecidableEq, Repr

/-! ### Events and trees (03, 07) -/

/-- Attributes of an event: base priority, group (true: group 1), latency class. -/
structure Attr where
  prio  : Byte
  group : Bool
  cls   : BitVec 3
  deriving DecidableEq, Repr

/-- A resident entry (07 R150). For a virtual entry the vPE is the one resident on the target. -/
structure Entry where
  ev    : EventId
  virt  : Bool
  group : Bool
  base  : Byte
  arr   : Stroke
  eff   : Byte
  cls   : BitVec 3
  deriving DecidableEq, Repr

/-- Kinds of Hatch-tree operation (07 R152); EXT is held apart, in `Tg.ext`. -/
inductive OpKind
  | ins
  /-- removal for a drop (tests the latch, R57) -/
  | drop
  /-- removal for a clear-pending command (R441) -/
  | clr
  | rpr
  | age
  | mvo
  | fls
  deriving DecidableEq, Repr

/-- An operation of a Hatch tree: queued, admitted, carried over or urgent. -/
structure TOp where
  kind   : OpKind
  ev     : EventId
  virt   : Bool
  attr   : Attr
  arr    : Stroke
  /-- a level assertion: no effect on an active event (R61) -/
  level  : Bool
  /-- a refill: its arrival is the stroke in which it issues (R74) -/
  refill : Bool
  /-- a swept insert (counted by RNK_SWEEP_CNT) -/
  swept  : Bool
  /-- the vPE of a virtual operation -/
  vpe    : BitVec 16
  /-- the message write that it carries, for the ingress fence (05 R110) -/
  wid    : Option Nat
  /-- queued before its Panel's Q0 (10 R239) -/
  pre    : Bool := false
  /-- re-entry of a pending part at deactivation: the event is already pending (R61) -/
  reent  : Bool := false
  /-- formed while the reserve was not free: the insert is a REPLACE (R168 step 3) -/
  repl   : Bool := false
  /-- a set-pending command: it sets the software latch of a level event (03 R57) -/
  setp   : Bool := false
  deriving DecidableEq, Repr

/-- A live summary entry (07 R163). -/
structure Sum where
  prio   : Byte
  lead   : BitVec 10
  leadOk : Bool
  v      : Bool
  deriving DecidableEq, Repr

/-- A sweep of one chunk (07 R168). -/
structure Sweep where
  chunk  : Nat
  /-- the two lines have arrived and the snapshot is taken -/
  taken  : Bool
  /-- snapshot bits not yet visited, ascending -/
  snap   : List EventId
  /-- the empty result of step 1, with the marks of step 3 and those received during the sweep (step 4) -/
  result : Sum
  /-- its second line has not been read, for want of SHT_RATE (10 R234) -/
  due    : Bool := false
  deriving DecidableEq, Repr

/-- A sweep engine (07 R168): the waiting chunks and the running sweep; its buffer of formed inserts is in `Tg.sbuf`. -/
structure SweepEng where
  waiting : List Nat
  run     : Option Sweep
  deriving DecidableEq, Repr

/-- An active event: an entry of an active stack or of a split list (09 R196). In the split list EFF and
PV have no further use. -/
structure Act where
  ev    : EventId
  group : Bool
  eff   : Byte
  pv    : Byte
  /-- the pending part of active-and-pending: attributes and arrival stroke of the raise that set it; `none`
  inside: loaded from a vPE context, which keeps no record of the raise (10 R443) -/
  pend  : Option (Option (Attr × Stroke))
  deriving DecidableEq, Repr

/-- Physical or virtual state of a target engine (09 R196): SPLIT0 and SPLITC0 have no use in the virtual one,
whose VSPLIT and VSPLITC are `split1` and `splitc1`. -/
structure Ctx where
  stack   : List Act   -- top first, at most 16
  split   : List Act   -- at most 16
  pmask   : Byte
  split0  : BitVec 3
  split1  : BitVec 3
  splitc0 : Bool
  splitc1 : Bool
  deriving DecidableEq, Repr

/-- A claim that took an event and whose response is not yet presented (09 R201, R214). -/
structure ClaimWait where
  virt  : Bool
  ev    : EventId
  /-- the EXT has issued -/
  done  : Bool
  resp  : W32
  /-- the claim came over the frame, from this source; `none`: over the channel -/
  src   : Option Src
  /-- over the register port: the access that waits for the response, with reg_req_sec_i and whether it peeks as well (R217) -/
  slot  : Nat := 0
  sec   : Bool := false
  wide  : Bool := false
  deriving DecidableEq, Repr

/-- Steps of a residency switch (10 R235). -/
inductive SwStep
  | s1 | s2 | s3 | s4
  deriving DecidableEq, Repr

/-- A residency switch in progress on a target (10 R235). -/
structure Switch where
  step : SwStep
  /-- the vPE that leaves -/
  old  : Option (BitVec 16)
  /-- the vPE that arrives -/
  new  : Option (BitVec 16)
  deriving DecidableEq, Repr

/-- One target: its Hatch tree, live summaries, sweep engines and target engine (07 R149, R163; 09 R196). -/
structure Tg where
  entries  : List Entry
  /-- the operation queue, at most 64 (R149) -/
  opq      : List TOp
  /-- operations other than INS that wait at their sources for a free entry of the queue (R160) -/
  src      : List TOp
  /-- direct spills that wait for a free entry of the spill buffer (R165) -/
  dsp      : List TOp
  /-- operations admitted to the stroke and not yet issued, in issue order -/
  adm      : List TOp
  /-- operations carried over at their issue cycles of this stroke (R159, R165), and those of earlier strokes that found no
  slot at its admission (R158 item 3) -/
  skip     : List TOp
  carry    : List TOp
  /-- urgent refill inserts that wait for an issue cycle (R159) -/
  urgent   : List TOp
  /-- the EXT of an accepted claim, not yet issued (R155): kind and event -/
  ext      : Option (Bool × EventId)
  /-- group of the event whose claim holds the physical outputs, while its EXT waits (09 R214) -/
  hold     : Bool
  /-- issue cycles left in the stroke (R153) -/
  slots    : Nat
  /-- AGE operations queued and not admitted, by class, oldest first (R156, R158) -/
  ages     : List (BitVec 3)
  sumP     : Tbl Sum
  sumV     : Tbl Sum
  /-- chunk of the physical lead in flight, its event -/
  leadP    : Option EventId
  leadV    : Option EventId
  swpP     : SweepEng
  swpV     : SweepEng
  /-- formed sweep inserts that are not urgent, of both engines, in the order of their arrival; at most 16 of each (R168) -/
  sbuf     : List TOp
  /-- a vPE has become resident since the last boundary: its refills begin at the next (10 R235 S5) -/
  fresh    : Bool
  phys     : Ctx
  nsfloor  : Byte
  virt     : Ctx
  vpe      : BitVec 16
  vpeV     : Bool
  sw       : Option Switch
  wait     : Option ClaimWait
  /-- tp_rsp_data_o of the last response presented on the channel -/
  rsp      : W32
  deriving DecidableEq, Repr

/-- A write that a Shuttle lane has to apply to a pending table (07 R165), in the order it reached the lane. -/
structure LaneW where
  /-- true: set (a spill); false: clear (of a REM) -/
  set    : Bool
  t      : Nat
  ev     : EventId
  /-- the virtual table of this vPE, or the physical table of the target -/
  vpe    : Option (BitVec 16)
  prio   : Byte
  /-- a clear for a drop tests the latch when it is applied (R57) -/
  drop   : Bool
  wid    : Option Nat
  /-- a clear made because the event has entered the tree (R162) -/
  entered : Bool := false
  /-- begun before its Panel's Q0 (10 R239) -/
  pre    : Bool := false
  /-- the slow-path sets of the same table that reached the lane before it, by the numbers of their writes -/
  after  : List Nat := []
  deriving DecidableEq, Repr

/-! ### Wired inputs (04) -/

/-- The holder of a line's occurrence (04 R86): a global target number. -/
abbrev Holder := BitVec 14

/-- What the front end keeps per line beyond its WIN entry (04 R79 to R88). -/
structure Line where
  /-- synchronised level of wired_i[n] -/
  pin    : Bool
  /-- a glitch-filter count is in progress -/
  count  : Bool
  /-- samples of the counted state, before the line's last change, that the count has seen (R82) -/
  seen   : Nat
  /-- the unprocessed change: raise (true) or drop, with its arrival stroke (R81, R74) -/
  change : Option (Bool × Stroke)
  /-- member chosen last (R85) -/
  rot    : Option (BitVec 4)
  holder : Option Holder
  /-- a reset has kept the holder record (R86): true, the occurrence lies in the holder's pending table; false, it was
  discarded -/
  kept   : Option Bool
  /-- WIN_XSTAT.XID as the raise that chose the holder found it: a later XID applies from the next one (R90) -/
  xid    : EventId
  /-- the target on another instance that was last told the state of this level line, and that state (03 R58, 12 R298) -/
  told   : Option (Holder × Bool)
  /-- the unrouted raise (R88), with its arrival stroke -/
  unr    : Option Stroke
  deriving DecidableEq, Repr

/-! ### Message ingress (05) -/

/-- A write of the inbound port, with its arrival stroke (R102) and its number for the fence (R110). -/
structure MWrite where
  addr : W64
  data : W32
  be   : BitVec 4
  src  : BitVec 24
  arr  : Stroke
  wid  : Nat
  deriving DecidableEq, Repr

/-- An admitted write: its queue (0 physical, p + 1 Panel p) and the slice it steers to. -/
structure QWrite where
  q     : Nat
  slice : Nat
  w     : MWrite
  deriving DecidableEq, Repr

/-- The result of a lookup (06 R129): a raise. -/
structure XRes where
  ev   : EventId
  virt : Bool
  attr : Attr
  /-- global target number, or vPE -/
  dest : BitVec 16
  deriving DecidableEq, Repr

/-- Where a slow-path write stands (05 R103). -/
inductive SlowStage
  /-- waits for its lookup -/
  | lookup
  /-- its lookup waits in a miss slot, or its result is held -/
  | busy
  /-- waits for its atomic set -/
  | set (r : XRes)
  deriving DecidableEq, Repr

/-- A slow-path tracker entry (05 R103). -/
structure Slow where
  q     : Nat
  slice : Nat
  w     : MWrite
  stage : SlowStage
  deriving DecidableEq, Repr

/-- Message ingress (05). -/
structure Msg where
  stage  : List MWrite      -- input stage, oldest first, at most 4
  q      : List QWrite      -- every queue, in admission order
  slow   : List Slow        -- tracker, in the order of entry, at most 64
  /-- number of the next write -/
  nextW  : Nat
  /-- decode holds the oldest write of the input stage for a tracker entry (R107) -/
  held   : Bool
  /-- cycles since the last slow-path lookup of a slice, up to 3 (R105) -/
  slowAge : Tbl Nat
  /-- an open fence covers the writes below this number (R110); `none`: DONE is 1 -/
  fence  : Option Nat
  /-- live reservation, cap and budget of the physical queue (R111: the registers are staged) -/
  pqMin  : Nat
  pqCap  : Nat
  pqBudget : Nat
  /-- budget_left by queue (R101) -/
  left   : Tbl Nat
  /-- slots_left by queue * 8 + slice (06 R130) -/
  slots  : Tbl Nat
  deriving DecidableEq, Repr

/-! ### Translation (06) -/

/-- A lookup in a miss slot, one held for want of a slot, or one whose result is held behind a miss of its sub-queue
(06 R128). -/
structure Miss where
  slice : Nat
  q     : Nat
  w     : MWrite
  slow  : Bool
  /-- false: waits for its source entry, true: for its map entry -/
  atMap : Bool
  /-- XLT_CTRL.EN when the lookup issued (R126, R145) -/
  en    : Bool
  /-- the line that it misses -/
  line  : Nat := 0
  /-- it has one of the slice's 8 slots -/
  slot  : Bool := false
  /-- its fill has been granted -/
  filled : Bool := false
  /-- the miss was found in the cycle after the slice's last issue: a lookup behind it may have issued -/
  new   : Bool := false
  /-- its fault or result, held -/
  res   : Option (Nat ⊕ XRes) := none
  deriving DecidableEq, Repr

/-- Where an event is, or goes (06 R140): a global target, or a vPE. -/
inductive Dest
  | tgt (g : BitVec 14)
  | vpe (v : BitVec 16)
  deriving DecidableEq, Repr

/-- Steps of a move (06 R141). -/
inductive MvStep
  | v1 | v3 | v5
  deriving DecidableEq, Repr

/-- The move in progress (06 R141): at most one. -/
structure Move where
  step    : MvStep
  /-- the ring whose command runs the move -/
  ring    : Nat
  ev      : EventId
  /-- a wired event -/
  wired   : Bool
  old     : Dest
  new     : Dest
  /-- the Panel of a virtual event -/
  panel   : Nat
  attr    : Attr
  /-- V1 found the entry resident (V4 is skipped) -/
  found   : Bool
  /-- the redirect stands on the old tree (R142) -/
  redir   : Bool
  /-- address of the map entry and of the old attribute entry, for V3 -/
  mapA    : Nat
  attA    : Nat
  /-- the move belongs to an EV_MAP, whose own entry writes V3 makes (R137) -/
  mapping : Bool
  /-- the move-out of V1 failed the check of 10 R230: V1 runs without a tree (R143) -/
  off     : Bool := false
  /-- a remote holder has been tested for what was still on its way there (R142) -/
  tested  : Bool := false
  /-- writes issued before V3 became visible that have not delivered (R141 V5) -/
  waits   : List Nat
  deriving DecidableEq, Repr

/-! ### Errors (18) -/

/-- An occurrence that waits for the sticky log (18 R427, R429). -/
structure Occ where
  src    : Nat
  flag   : Nat
  unit   : Nat
  stroke : Stroke
  fresh  : Bool
  deriving DecidableEq, Repr

/-- A slot of the sticky log (18 R430). -/
structure Slot where
  w0 : W64
  w1 : W64
  w2 : W64
  deriving DecidableEq, Repr

/-- SAFE (18 R434 to R437), in the always-on fallback state machine. -/
inductive SafeState
  | out
  | safe
  /-- an exit is accepted, blk_safe_o still high; the ring that asked, if one did; a cause that arrived since (R437) -/
  | leaving (ring : Option Nat) (again : Option (BitVec 2))
  deriving DecidableEq, Repr

/-- The error path (18). -/
structure Err where
  queue : List Occ      -- at most 16
  slots : Tbl Slot      -- 64 slots
  seq   : W32           -- SEQ of the last entry written
  safe  : SafeState
  deriving DecidableEq, Repr

/-! ### Proof (16 R394 to R400) -/

/-- A sweep whose position has wrapped (16 R397): its result, the segments', whether it is compared, and whether it may be
adopted. -/
structure SweepEnd where
  crc   : W32
  segs  : List W32
  cmp   : Bool
  adopt : Bool
  deriving DecidableEq, Repr

/-- The proof sweep (16 R397 to R399); PRF_REF, PRF_LAST and the counters stand in the register file. -/
structure Prf where
  pos      : Nat        -- the next slot to be sampled
  crc      : W32        -- running CRC of the sweep
  seg      : W32        -- running CRC of the segment
  segs     : List W32   -- finished segments of the running sweep
  hold     : Bool
  adopting : Bool
  /-- the running sweep began after the adoption was asked for, and no proofed slot has changed since -/
  adoptOk  : Bool
  /-- PRF_CTRL.EN was 1 and HOLD was 0 since the first slot of the running sweep (PRF_STAT.CMP) -/
  cmp      : Bool
  /-- PROOF_SWEEP_COMPLETE is due for this sweep -/
  done     : Option SweepEnd
  deriving DecidableEq, Repr

/-! ### Burins (14) -/

/-- States of a Burin (14 R327). -/
inductive BState
  | held | boot | empty | run | authFail | halted | off
  deriving DecidableEq, Repr

/-- Where the boot ROM of a Burin in BOOT stands (14 R348). -/
inductive BootStep
  /-- B2: waits for READY -/
  | ready
  /-- B3: copies the image from host memory -/
  | copy
  /-- B5: checks the image -/
  | check
  deriving DecidableEq, Repr

/-- A running REP (14 R338, R340): iterations left, this one included, the latched instruction, the REP's address, and
whether an iteration has completed. -/
structure Rep where
  left  : Nat
  instr : BInstr
  addr  : W32
  began : Bool
  deriving DecidableEq, Repr

/-- A Burin (14 R326 to R345). -/
structure BurCore where
  st    : BState
  boot  : BootStep
  /-- AUTH code of R348 -/
  auth  : Nat
  /-- general registers by number; an unlisted one holds 0 -/
  g     : Tbl W32
  pc    : W32
  flags : W32
  tpc   : W32
  tflags : W32
  tcause : W32
  taddr : W32
  trep  : W32
  ipend : W32
  imask : W32
  spLo  : W32
  spHi  : W32
  hwin  : W32
  peerIn : W32
  timer : W32
  veto  : W32
  hostIn : W32
  /-- code and data SRAM by word -/
  code  : Tbl W32
  data  : Tbl W32
  /-- the results of a load whose delay slot comes next (R335) -/
  slot  : List (RegNo × W32)
  rep   : Option Rep
  /-- WAIT has begun and has not ended -/
  waiting : Bool
  /-- HB written in this window; consecutive misses (R350) -/
  beat  : Bool
  miss  : Nat
  /-- boots that have ended in RUN, for the registers the boot ROM leaves (log 21) -/
  boots : Nat
  /-- instructions executed since TIMER was last written, for its free value (log 20) -/
  ran   : Nat
  deriving DecidableEq, Repr

/-- Both Burins, the role and the watchdog (14 R326, R350). -/
structure BurSt where
  a : BurCore
  b : BurCore
  /-- Burin B is primary -/
  primB : Bool
  /-- strokes that have run in the heartbeat window; the window has ended -/
  win   : Nat
  due   : Bool
  /-- a host message is unanswered (R354) -/
  asked : Bool
  deriving DecidableEq, Repr

/-! ### The side-band port (15) -/

/-- A request in the mirror (15 R361, R365): command, SEQ, write-half data without CHK, whether it is claimed, whether
the controller waits for its reply on the bus, and whether a presence window was open at check 4 (R371). -/
structure SbReq where
  cmd     : Byte
  seq     : Byte
  data    : List Byte
  claimed : Bool
  onBus   : Bool
  win     : Bool
  deriving DecidableEq, Repr

/-- The side-band port (15), beside its registers. -/
structure Sbd where
  /-- the TOKEN of the open session -/
  token  : Option Byte
  /-- sessions opened so far (R363) -/
  opens  : Nat
  /-- SEQ and reply of the last request answered in the session (R362) -/
  last   : Option (Byte × List Byte)
  mirror : Option SbReq
  /-- a close is requested while a request is in service (R364) -/
  closing : Bool
  /-- read-half data of the last reply on the bus -/
  reply  : List Byte
  /-- the SMBus PEC that ends that read half; 0xFF where the port has released SDA (R357 to R359) -/
  pec    : Byte
  /-- SBD_PRES.REMAIN while a window is open (R376) -/
  left   : Nat
  /-- SEL of the last FW_BEGIN (R369) -/
  fwSel  : BitVec 2
  deriving DecidableEq, Repr

/-! ### Panels and vPEs (10) -/

/-- Panel states, with the codes of 10 R222. -/
inductive PState
  | free | active | quiescing | quiesced | resetting | reset | destroying
  deriving DecidableEq, Repr

/-- A Panel (10 R222 to R247); its staged and live share words stand in the register file. -/
structure Panel where
  state    : PState
  vbits    : Nat
  vattBase : Nat
  /-- an accepted change of the share: the staged words REQ0 and REQ1 at acceptance, applied at order 3 of the next
  boundary (R243) -/
  pend     : Option (W32 × W32)
  /-- the Panel becomes ACTIVE at the next boundary (PANEL_CREATE, PANEL_RESUME) -/
  toActive : Bool
  closed   : Bool
  /-- ring whose Panel command is running on it (R223) -/
  ring     : Option Nat
  /-- tracker writes that entered before the close (R112), for the drain of R239 -/
  drain    : List Nat
  /-- the conditions of QUIESCE_DONE or PANEL_RESET_DONE held at the last boundary -/
  due      : Bool
  deriving DecidableEq, Repr

/-- The on-chip word of a vPE (10 R225). -/
structure VWord where
  v         : Bool
  res       : Bool
  switching : Bool
  dbarm     : Bool
  target    : Nat
  best      : Byte
  panel     : Nat
  deriving DecidableEq, Repr

/-- A virtual raise to park (10 R231). -/
structure Park where
  v    : BitVec 16
  ev   : EventId
  prio : Byte
  wid  : Option Nat
  /-- it began before its Panel's Q0 (R239) -/
  pre  : Bool := false
  /-- the slice and queue whose lookup it comes from: that sub-queue waits with it -/
  src  : Option (Nat × Nat) := none
  deriving DecidableEq, Repr

/-- The Panel manager (10). -/
structure Pnl where
  panels    : Tbl Panel
  vpes      : Tbl VWord
  /-- raises that wait for a park to start (sources of R231) -/
  parkQ     : List Park
  /-- parks in progress: context read, bit not yet set; at most 128 -/
  parks     : List Park
  restoring : Bool
  /-- a restore is done and no Panel or vPE command has started since (R246) -/
  restored  : Bool
  saved     : Bool
  /-- non-urgent virtual sweep reads of this epoch, by lane * 1024 + Panel (10 R234) -/
  sht       : Tbl Nat
  deriving DecidableEq, Repr

/-! ### Weft link (12): what other subsystems touch -/

/-- A remote line's event held here (12 R298). -/
structure RLine where
  origin : BitVec 7
  lineNo : BitVec 12
  /-- the event has level sense -/
  level  : Bool
  state  : Bool
  /-- a LEVEL flit of the asserted state has come since the last RAISE: the raise that follows is a level line's -/
  fresh  : Bool
  latch  : Bool
  /-- the code last sent in an HSTATE; `none`: released -/
  code   : Option (BitVec 2)
  deriving DecidableEq, Repr

/-- A flit that waits for a port: its header fields and payload bits [223:64] (12 R282, R283). -/
structure OutFlit where
  ty   : Byte
  dst  : BitVec 7
  pay  : BitVec 160
  src  : BitVec 7
  bc   : Bool
  hops : BitVec 4
  /-- the port of a flooded, tree or neighbour's flit; `none`: by route -/
  port : Option Nat
  deriving DecidableEq, Repr

/-- States of a port, with the codes of WFT_PSTAT.LSTATE (12 R307). -/
inductive LState
  | down | training | up | disabled
  deriving DecidableEq, Repr

/-- A flit in a port's receive buffer, with how its host-memory accesses end (12 R285). -/
structure RxFlit where
  flit : BitVec 256
  mem  : CmdMem
  deriving DecidableEq, Repr

/-- A Weft port (12 R285 to R289). -/
structure WPort where
  st       : LState
  /-- level of wft_phy_up_i -/
  phy      : Bool
  /-- found looped back: disabled until cold reset -/
  loop     : Bool
  nbr      : BitVec 7
  nbrPort  : BitVec 2
  gotTrain : Bool
  gotAck   : Bool
  credits  : Nat
  /-- the next SEQ to send, and the next expected -/
  txSeq    : Byte
  rxSeq    : Byte
  /-- a sequenced flit has been received -/
  rxAny    : Bool
  /-- flits sent and not acknowledged, oldest first, at most 64 -/
  replay   : List (Byte × OutFlit)
  /-- flits to be sent again after retraining -/
  resend   : List OutFlit
  /-- failed, and not yet up again or reported; the neighbour lost -/
  failed   : Option (BitVec 7)
  /-- credits returned on wft_rx_credit_o that no flit has used yet -/
  rxCred   : Nat
  /-- flits that wait in the receive buffer, oldest first, at most 32 -/
  rxq      : List RxFlit
  /-- wft_tx_flit_o of the last flit sent -/
  sent     : BitVec 256
  deriving DecidableEq, Repr

/-- An entry of the instance table: TAG and neighbours by port (12 R290). -/
structure Hello where
  tag   : W32
  ports : List (Option (BitVec 7))
  deriving DecidableEq, Repr

/-- ROUTE flits of a new GEN received so far (12 R295). -/
structure GenIn where
  gen    : Byte
  src    : BitVec 7
  groups : Tbl (BitVec 128)
  parent : BitVec 2
  child  : BitVec 4
  deriving DecidableEq, Repr

/-- An in-flight entry (12 R296): a RAISE not yet acknowledged, with the queue of the write it came from; of one that waits
for an entry also the number of the write or command, and the slice whose sub-queue waits. -/
structure Ift where
  dst : BitVec 7
  pay : BitVec 160
  q   : Nat
  wid   : Option Nat := none
  slice : Option Nat := none
  deriving DecidableEq, Repr

/-- A route entry (12 R283, R293). -/
structure Route where
  port  : BitVec 2
  hops  : BitVec 4
  deriving DecidableEq, Repr

/-- What an instance's TMAP told (12 R290). -/
structure TMap where
  targets : Nat
  attBits : Nat
  xltEn   : Bool
  deriving DecidableEq, Repr

/-- Join states, with the codes of WFT_STAT.STATE (12 R307). -/
inductive JState
  | standalone | training | discovery | joined | isolated | joining
  deriving DecidableEq, Repr

/-- A move that another instance makes from a target here (06 R141; log 19): who asked, under which REQ, and what V1 needs. -/
structure Redir where
  inst : Nat
  req  : Nat
  move : Move
  deriving DecidableEq, Repr

/-- What a CRSP continues (12 R299). -/
inductive Cont
  | setClr | query | map | unmap | attr | doorbell
  /-- the checks of an EV_UNMAP, before anything is written -/
  | unmapCheck
  /-- the claim of a move's new entry; V1 at a remote holder; the release of the old entry; V4 at a remote holder; the last
  test there (06 R141, R142) -/
  | moveClaim | moveOut | moveRelease | movePend | moveLast
  /-- an answer that nothing waits for: the other CRSP of a query that has completed (11 R266), the undoing of a claim -/
  | rest
  deriving DecidableEq, Repr

/-- A CMD request that waits for its CRSP (12 R299). For a query: word 0 once PART 0 has come. -/
structure Req where
  ring  : Nat
  inst  : Nat
  cont  : Cont
  part0 : Option W64
  /-- PART 1, when it has come first: ARRIVAL and the MAPPED and BIT bits -/
  part1 : Option (W64 × Nat)
  deriving DecidableEq, Repr

/-- A request that waits while 16 are outstanding: with the CODE, EVENT, TARGET and attribute word of its CMD (12 R299). -/
structure CmdOut where
  req    : Req
  code   : Nat
  ev     : EventId
  target : Nat
  att    : W64
  deriving DecidableEq, Repr

/-- A request of another instance whose operation has been applied: the operation's number, the instance, REQ and the
status so far. -/
structure Owed where
  wid    : Nat
  inst   : Nat
  req    : Nat
  status : Nat
  deriving DecidableEq, Repr

structure Wft where
  jst    : JState
  ports  : Tbl WPort
  /-- instance table (R290), this instance included -/
  itab   : Tbl Hello
  /-- phase P2 runs: the flood has not settled -/
  disc   : Bool
  /-- the Anchor, once P2 has settled or a ROUTE has come -/
  anchor : Option (BitVec 7)
  gen    : Byte
  genIn  : Option GenIn
  /-- PARENT and CHILD ports of the tree (R293, R294) -/
  parent : BitVec 2
  child  : BitVec 4
  /-- at the Anchor: routes are to be computed; instances whose TMAP is awaited; instances committed -/
  compute : Bool
  tmapWait : List Nat
  members  : List Nat
  joinAt : Option Stroke
  /-- the instance rejoins after DEEP: it keeps the count of 08 R189 (R305) -/
  keepCount : Bool
  /-- TAG of step C5 (R288) -/
  tag    : W32
  /-- valid route entries by INSTANCE_ID, of the generation in use -/
  routes : Tbl Route
  tmaps  : Tbl TMap
  rl   : Tbl RLine
  outq : List OutFlit
  /-- in-flight table, by index below 512 -/
  ift  : Tbl Ift
  /-- raises whose source waits for an in-flight entry (R296) -/
  rwait : List Ift
  /-- CMD requests outstanding, by REQ: at most 16 (R299) -/
  cmds  : Tbl Req
  /-- requests that wait for one of the 16 -/
  reqWait : List CmdOut
  /-- commands of other instances applied and not yet answered (R264) -/
  owed  : List Owed
  /-- REQ of the next CMD -/
  nextReq : Nat
  /-- last LSEQ sent for a line of this instance, and last applied, by origin * 4096 + line (R298) -/
  lseq  : Tbl Nat
  lseqIn : Tbl Byte
  /-- message events that a set-pending command has set pending while no LEVEL flit of theirs had come (03 R57) -/
  early : List EventId
  /-- redirects that stand here for moves of other instances (06 R142) -/
  redirs : List Redir
  /-- what an attribute entry held before another instance claimed it, by event: a move that ends with BUSY puts it back
  (06 R141 V1) -/
  claims : Tbl W64
  deriving DecidableEq, Repr

/-- Ranking beside the trees (07). -/
structure Rnk where
  /-- the load in progress is a rebuild (R172) -/
  rebuild : Bool
  /-- the targets whose table this load has read (R172) -/
  loaded  : List Nat
  /-- RNK_CLASSc written since the last boundary, bit c (R156) -/
  classW  : Byte
  /-- RNK_CLASSc in force, by class: a write takes effect at the next boundary (R176) -/
  classes : Tbl W32
  deriving DecidableEq, Repr

/-- An access accepted on the register port whose response has not been taken: its number, and the response once it is
answered, reg_rsp_err_o and reg_rsp_rdata_o (02 R32). -/
structure PortAcc where
  id  : Nat
  rsp : Option (Bool × W64)
  deriving DecidableEq, Repr

/-- The register port (02 R32): the response presented last, the accesses whose responses have not been taken, oldest first
and at most 8, the number of the next, and the one of them stalled during initialisation (02 R41). -/
structure Port where
  err     : Bool
  data    : W64
  q       : List PortAcc
  next    : Nat
  stalled : List (Nat × BusAcc)
  deriving DecidableEq, Repr

/-! ### Power (17) -/

/-- The save set in the save SRAM (17 R412): its bytes, from offset 0 on. -/
structure Save where
  img : List Byte
  deriving DecidableEq, Repr

/-- One request and acknowledge pair (02 R35). -/
structure Pair where
  req : Bool
  ack : Bool
  deriving DecidableEq, Repr

/-- Power, clock and retention controller (17), beside its registers: PWR_STAT holds STATE and PHASE. -/
structure Pwr where
  /-- target state of the preparation, round or commit -/
  target  : BitVec 2
  /-- the next abort point, 1 to 5 (R407) -/
  point   : Nat
  /-- the groups of A1 to Ak have stopped (R408) -/
  stopped : Nat
  /-- a wake cause has arrived since STOP (R406) -/
  wakeSeen : Bool
  /-- a wake cause that arrived during the commit: code and index (R410) -/
  latched : Option (Nat × Nat)
  /-- activity in the present stroke (R403) -/
  act     : Bool
  /-- order 7 of the last boundary ran with a choice to make: IDLE_THRESHOLD is due -/
  due     : Bool
  /-- the preparation is done: STOP is raised at the next boundary (R405) -/
  ready   : Bool
  /-- a DEEP preparation begins at the first boundary after the switch back (R404) -/
  prepNext : Bool
  /-- the DEEP countdown in CLK_AON periods (R404) -/
  countdown : Option Nat
  /-- the present step of the commit (R411) or of the wake (R418) -/
  step    : Nat
  main    : Pair
  fast    : Pair
  ret     : Pair
  off     : Pair
  freq    : Pair
  freqPt  : BitVec 3
  volt    : Pair
  voltPt  : BitVec 3
  fHeld   : Option (BitVec 3)
  vHeld   : Option (BitVec 3)
  save    : Option Save
  /-- targets whose save area could not be written (17 R413) -/
  tsaveBad : List Nat
  /-- step 1 of the preparation is over: the vPEs are out and the Panels saved (R405) -/
  prepSaved : Bool
  /-- blk_err_o as it stood when clk_main_i stopped, or at step 3 of the DEEP commit (R415) -/
  errKept : Bool
  /-- PWR_HOLD_RELEASE.REL written while TREST was 0 (R416) -/
  relWait : Bool
  /-- the switch back falls on the last boundary (R420) -/
  switchDue : Bool
  /-- the restore of R421 waits for the save areas of the targets -/
  restore : Bool
  /-- a warm reset has come before that restore: PWR_STAT keeps HOLD and TREST through it, and the restore that ends it then
  puts nothing back (02 R45) -/
  restoreCut : Bool
  /-- the wired line that woke the block raises its event at the restart (R93) -/
  wokeLine : Option Nat
  /-- wake_i levels -/
  wakeIn  : BitVec 16
  /-- since STOP: msg_valid_i, or a tp_req_valid_i, has been high without ready; a doorbell write has been accepted -/
  msgWait : Bool
  tgtWait : Bool
  dbStop  : Bool
  deriving DecidableEq, Repr

/-! ### Strokes and time (08) -/

/-- What a REFCNT snapshot is taken for (08 R181 to R183, R192; 12 R288); those of sleep stand inside their commands. -/
inductive SnapUse
  /-- the lag is measured -/
  | measure
  /-- the first legal rate: the origin is set (R183) -/
  | anchor
  /-- a loaded common count: the origin is set (R192) -/
  | load
  /-- the TAG of step C5 (12 R288) -/
  | tag
  deriving DecidableEq, Repr

/-- What set the length of a stroke (08 R178). -/
inductive StrokeKind
  | normal | catchUp | stretch | fast
  deriving DecidableEq, Repr

/-- The stroke scheduler (08), beside its registers. -/
structure Stk where
  /-- kind of the stroke in progress -/
  kind     : StrokeKind
  /-- length of the stroke in progress, in cycles of its clock -/
  cur      : Nat
  /-- STK_LEN.LEN in force (R179) -/
  len      : Nat
  /-- P in force with its origin, in 2^-32 ticks (R180, R182) -/
  per      : Nat
  /-- catch-up strokes still to run (R185) -/
  catchN   : Nat
  /-- stretched strokes still to run (R193) -/
  stretchN : Nat
  /-- the decision of a measured lag, for the next boundary: catch-up strokes and jump -/
  dec      : Option (Nat × Nat)
  /-- the stroke in progress is held: the scheduler stopped in it (R184) -/
  held     : Bool
  /-- a frequency request was outstanding in the stroke in progress (R184) -/
  freqOut  : Bool
  /-- dvfs_freq_ack_i rose since the last boundary -/
  freqAck  : Bool
  /-- a legal GLB_REFCNT_HZ was written since the last boundary (R183) -/
  anchorNext : Bool
  /-- a snapshot that the last boundary asks for -/
  snapDue  : Option SnapUse
  snap     : Pair
  /-- use of the outstanding snapshot, and STK_COUNT at its boundary -/
  snapUse  : SnapUse
  snapAt   : Stroke
  /-- the previous snapshot -/
  lastRef  : Option W64
  /-- epoch length in force, as its shift (R188) -/
  shift    : Nat
  epochDue : Bool
  /-- the next boundary is an epoch boundary whatever the count (R188) -/
  epochNext : Bool
  /-- ALIGN_STROKE is due at this Anchor -/
  alignDue : Bool
  /-- an ALIGN flit for order 8: its count and hops -/
  alignIn  : Option (Stroke × Nat)
  /-- a COMMIT flit for order 8: its count and hops (12 R291) -/
  commitIn : Option (Stroke × Nat)
  /-- fast_len of R190, and the CLK_MAIN rate at entry -/
  fastLen  : Nat
  fEntry   : Nat
  deriving DecidableEq, Repr

/-! ### The coherent agent (13) -/

/-- MOESI states of a cached line; an unlisted line is I. -/
inductive Moesi
  | m | o | e | s
  deriving DecidableEq, Repr

/-- Requests (13 R311). -/
inductive CohOp
  | rdS | rdU | upg | wbD | evC
  deriving DecidableEq, Repr

/-- Snoops (13 R311). -/
inductive SnpOp
  | snS | snU | snI
  deriving DecidableEq, Repr

/-- An outstanding request (13 R314), or one that waits to be issued again. -/
structure CReq where
  op      : CohOp
  line    : Nat
  /-- what asked for the line; `none`: an eviction -/
  who     : Option AccWho
  /-- class of 01 R10; 0 for an eviction -/
  cls     : Nat
  /-- the access needs E or M, and leaves the line M -/
  unique  : Bool
  retries : Nat
  /-- cycles to wait before it is issued again -/
  delay   : Option Nat
  /-- a UPG whose line a snoop has taken (R319) -/
  lost    : Bool
  /-- the held snoop: operation and tag (R318) -/
  held    : Option (SnpOp × Byte)
  /-- the Panels on whose behalf it reads (10 R239 Q7) -/
  pnls    : List Nat := []
  /-- those of them that it was outstanding for at their Q0 -/
  pre     : List Nat := []
  deriving DecidableEq, Repr

/-- An eviction-buffer entry, with the buffered data of an M or O line (13 R308, R317). -/
structure EvEnt where
  line    : Nat
  dirty   : Bool
  snooped : Bool
  tag     : Nat
  data    : BitVec 512
  deriving DecidableEq, Repr

/-- Data on its way out: tag, coh_dout_dirty_o and the line. -/
structure DOut where
  tag   : Byte
  dirty : Bool
  data  : BitVec 512
  deriving DecidableEq, Repr

/-- The last snoop response presented: its code, its tag, and its data (13 R311). -/
structure SRsp where
  op   : BitVec 4
  tag  : Byte
  data : Option DOut
  deriving DecidableEq, Repr

/-- The last request presented (13 R311): coh_req_op_o, its line and its tag. -/
structure ReqOut where
  op   : BitVec 4
  line : Nat
  tag  : Byte
  deriving DecidableEq, Repr

/-- Why a line is to leave the cache: a flush (R324, 02 R43), the XLT_INV of a ring (06 R135), or an error in it (R322). -/
inductive DropWhy
  | flush
  | ring (r : Nat)
  | upset
  deriving DecidableEq, Repr

/-- The coherent agent (13); the data of a cached line are those of the memory image. -/
structure Coh where
  lines : Tbl Moesi
  /-- the way of each line in its set: a line of the cache, or one that an outstanding request fills (R308, R309) -/
  ways  : Tbl Nat
  /-- pseudo-LRU bits by set, 15 each (R309) -/
  plru  : Tbl (BitVec 15)
  /-- accesses that have failed, each until what asked for it has taken it in (R321) -/
  failed : List (AccWho × Nat)
  out   : Option ReqOut
  /-- outstanding requests by tag -/
  reqs  : Tbl CReq
  evb   : List EvEnt
  /-- writeback data that WB_GO has released, in order -/
  wbq   : List DOut
  /-- lines that are to leave the cache, each with why -/
  drop  : List (Nat × DropWhy)
  srsp  : Option SRsp
  /-- the last writeback item that went out -/
  dout  : Option DOut
  /-- retry delays drawn so far (R320) -/
  draws : Nat
  /-- the model's own: lines that the row at work needs and has not found in the state that the access needs (R313). A row that
  adds one waits, and changes nothing, so that none stands between rows. -/
  missed : List Nat := []
  deriving DecidableEq, Repr

/-! ### Command rings (11) -/

/-- A fetched descriptor: its index and its eight words (11 R255). -/
structure Desc where
  index : Nat
  w     : List W64
  deriving DecidableEq, Repr

/-- A completion record that is not yet visible (11 R259). -/
structure Rec where
  index  : Nat
  status : Nat
  tag    : Nat
  op     : Nat
  cev    : Bool
  result : W64
  stroke : Stroke
  deriving DecidableEq, Repr

/-- What a running command waits for. -/
inductive RunKind
  /-- the operation or bit access that carries its number (11 R264) -/
  | ops
  /-- the lookups that issued before its writes became visible (06 R134) -/
  | lookups (wids : List Nat)
  /-- SYNC: rings with the value of CMD_CNT to be reached, and the fence (11 R267) -/
  | sync (goals : List (Nat × Nat)) (fence : Bool)
  /-- a Panel command: the boundary or drain of its Panel -/
  | panel (p : Nat)
  /-- the move (06 R141) -/
  | move
  /-- the answer of another instance (12 R299) -/
  | remote
  /-- XLT_INV: its lines have left the cache (13) -/
  | inv
  /-- SAFE_EXIT: the fall of blk_safe_o -/
  | safeExit
  deriving DecidableEq, Repr

structure Run where
  desc   : Desc
  /-- the status with which it will complete -/
  status : Nat
  kind   : RunKind
  deriving DecidableEq, Repr

/-- A command ring (11), beside its registers. -/
structure Ring where
  /-- descriptors fetched and not started, in index order, at most 8 -/
  fetched : List Desc
  run     : Option Run
  /-- completed commands whose records are not yet visible, in index order -/
  recs    : List Rec
  /-- the fetch of the next descriptor has failed after its retries: the ring halts when HEAD reaches it (R276) -/
  bad     : Bool
  deriving DecidableEq, Repr

/-! ### The block -/

/-- Why a step stops with a fault. The model raises none: the spec gives every command of the table an effect
(NOTES.md, Stops). -/
inductive Fault
  /-- Raised by no meaning of the model; kept so that the type is inhabited. Safe. -/
  | stuck
  deriving DecidableEq, Repr

/-- Why a command has no meaning. -/
inductive Refusal
  /-- The command has no meaning in the model yet; raised by Dispatch alone. Safe: the model stops. -/
  | notModelled (mnemonic : String)
  deriving DecidableEq, Repr

/-- The state of the block and the queue of the commands that wait. -/
@[ext]
structure State where
  par   : Par
  rst   : Rst
  /-- the register file: 32-bit words by register-port offset -/
  regs  : Tbl W32
  /-- host memory as the coherent system shows it, in canonical form (Ops.Memory.wf) -/
  mem   : List Host.Cell
  /-- targets by local number -/
  tg    : Tbl Tg
  /-- Shuttle lane writes waiting, by lane -/
  lanes : Tbl (List LaneW)
  /-- lines by number -/
  win   : Tbl Line
  /-- the lines of tp_local_i that are high, by target (09 R216) -/
  localPins : Tbl (BitVec 16)
  msg   : Msg
  miss  : List Miss
  move  : Option Move
  err   : Err
  prf   : Prf
  bur   : BurSt
  sbd   : Sbd
  pnl   : Pnl
  rnk   : Rnk
  port  : Port
  pwr   : Pwr
  stk   : Stk
  rings : Tbl Ring
  /-- the ring of 2 to 7 whose command started last (11 R271) -/
  cmdRot : BitVec 3
  wft   : Wft
  coh   : Coh
  /-- offsets of the WOL registers that have locked (00 R6) -/
  wol   : List Nat
  /-- STK_COUNT (08 R178) -/
  count : Stroke
  pending : List Instr
  deriving DecidableEq, Repr

/-! ### Reset

The block held in cold reset: every register at its Reset value (00 R5), every SRAM empty, every lock clear (02 R41).
What the spec leaves open is named in the log. -/

/-- The integration parameters of the reference implementation, as GLB_PARAM's Reset column gives them (16 R393). -/
def parReset : Par := { targets := 128, wired := 4096, panels := 1024, vpes := 65536, weftPorts := 4 }

/-- A Burin at step B1 (14 R328, R345, R348). -/
def burReset0 : BurCore :=
  { st := .boot, boot := .ready, auth := 0, g := [], pc := 0x00080000, flags := 0, tpc := 0, tflags := 0, tcause := 0,
    taddr := 0, trep := 0, ipend := 0, imask := 0, spLo := 0x00100000, spHi := 0x00108000, hwin := 0, peerIn := 0,
    timer := 0, veto := 0, hostIn := 0, code := [], data := [], slot := [], rep := none, waiting := false,
    beat := true, miss := 0, boots := 0, ran := 0 }

def msgReset : Msg :=
  { stage := [], q := [], slow := [], nextW := 0, held := false, slowAge := [], fence := none, pqMin := 0x400, pqCap := 0x4000, pqBudget := 0, left := [],
    slots := [] }

def prfReset : Prf :=
  { pos := 0, crc := 0xFFFFFFFF, seg := 0xFFFFFFFF, segs := [], hold := true, adopting := false, adoptOk := false,
    cmp := false, done := none }

def sbdReset : Sbd :=
  { token := none, opens := 0, last := none, mirror := none, closing := false, reply := [], pec := 0xFF, left := 0, fwSel := 0 }

def pnlReset : Pnl :=
  { panels := [], vpes := [], parkQ := [], parks := [], restoring := false, restored := false, saved := false, sht := [] }

def wftReset : Wft :=
  { jst := .standalone, ports := [], itab := [], disc := false, anchor := none, gen := 0, genIn := none, parent := 0,
    child := 0, compute := false, tmapWait := [], members := [], joinAt := none, keepCount := false, tag := 0, routes := [], tmaps := [],
    rl := [], outq := [], ift := [], rwait := [], cmds := [], reqWait := [], owed := [], nextReq := 0, lseq := [], lseqIn := [], early := [], redirs := [], claims := [] }

def pairReset : Pair := { req := false, ack := false }

def pwrReset : Pwr :=
  { target := 0, point := 0, stopped := 0, wakeSeen := false, latched := none, act := false, due := false, ready := false,
    prepNext := false, countdown := none, step := 0, main := pairReset, fast := pairReset, ret := pairReset,
    off := pairReset, freq := pairReset, freqPt := 0, volt := pairReset, voltPt := 0, fHeld := none, vHeld := none,
    save := none, tsaveBad := [], prepSaved := false, errKept := false, relWait := false, switchDue := false, restore := false, restoreCut := false, wokeLine := none, wakeIn := 0, msgWait := false,
    tgtWait := false, dbStop := false }

def stkReset : Stk :=
  { kind := .normal, cur := 32, len := 32, per := 0, catchN := 0, stretchN := 0, dec := none, held := false, freqOut := false,
    freqAck := false, anchorNext := false, snapDue := none, snap := pairReset, snapUse := .measure, snapAt := 0,
    lastRef := none, shift := 4, epochDue := false, epochNext := false, alignDue := false, alignIn := none,
    commitIn := none, fastLen := 0, fEntry := 0 }

def cohReset : Coh :=
  { lines := [], ways := [], plru := [], failed := [], out := none, reqs := [], evb := [], wbq := [], drop := [], srsp := none, dout := none, draws := 0, missed := [] }

def errReset : Err := { queue := [], slots := [], seq := 0, safe := .out }

def rstReset : Rst :=
  { phase := .cold, warmLow := false, byPin := false, earlyRise := false, quiet := false, warmInit := false,
    pendingTrig := none, pinAfterWake := false, trig := false }

/-- The block held in cold reset, with nothing in memory and no command waiting. -/
def State.reset : State :=
  { par := parReset, rst := rstReset, regs := [], mem := [], tg := [], lanes := [], win := [], msg := msgReset, miss := [],
    move := none, err := errReset, prf := prfReset,
    bur := { a := burReset0, b := burReset0, primB := false, win := 0, due := false, asked := false },
    sbd := sbdReset, pnl := pnlReset, rnk := { rebuild := false, loaded := [], classW := 0, classes := [] },
    localPins := [], port := { err := false, data := 0, q := [], next := 0, stalled := [] }, pwr := pwrReset, stk := stkReset, rings := [], cmdRot := 7, wft := wftReset,
    coh := cohReset, wol := [], count := 0, pending := [] }

end Sys2Proof.Machine
end

