-- ==== Sys2Proof/Machine/Ops.lean ====
section
/-! DEFINITION. The named operations that every meaning shares: sparse tables, host memory, the register
file with the proof's watch over it, the Hatch-tree operation queue, and the error path. -/

namespace Sys2Proof.Machine

/-! ### Sparse tables -/

/-- The value of a key, or d. -/
def Tbl.get {α : Type} (d : α) : Tbl α → Nat → α
  | [], _ => d
  | (k, v) :: r, i => if k = i then v else Tbl.get d r i

def Tbl.find {α : Type} : Tbl α → Nat → Option α
  | [], _ => none
  | (k, v) :: r, i => if k = i then some v else Tbl.find r i

/-- The table without a key. -/
def Tbl.del {α : Type} : Tbl α → Nat → Tbl α
  | [], _ => []
  | (k, v) :: r, i => if k = i then Tbl.del r i else (k, v) :: Tbl.del r i

/-- The table with a key set. -/
def Tbl.put {α : Type} (m : Tbl α) (i : Nat) (v : α) : Tbl α := (i, v) :: Tbl.del m i

/-! ### Host memory (02: 52-bit physical addresses, 00 R4: little-endian) -/

/-- What a byte of host memory reads as that nothing has written: the spec gives host memory no contents
(log 2, DESIGN CHOICE). -/
def memDefault : Byte := 0

/-- Canonical form: addresses strictly rising, no byte equal to what an unlisted address reads as. -/
def memSorted : List Host.Cell → Bool
  | [] => true
  | [(_, v)] => v ≠ memDefault
  | (a, v) :: (b, w) :: r => v ≠ memDefault && decide (a < b) && memSorted ((b, w) :: r)

def Memory.wf (m : List Host.Cell) : Bool := memSorted m

def Memory.read : List Host.Cell → Nat → Byte
  | [], _ => memDefault
  | (a, v) :: r, i => if a = i then v else Memory.read r i

/-- Put a byte that differs from the default into a sorted list. -/
def Memory.insert : List Host.Cell → Nat → Byte → List Host.Cell
  | [], i, v => [(i, v)]
  | (a, w) :: r, i, v =>
    if i < a then (i, v) :: (a, w) :: r
    else if i = a then (i, v) :: r
    else (a, w) :: Memory.insert r i v

/-- Take a byte back to the default. -/
def Memory.erase : List Host.Cell → Nat → List Host.Cell
  | [], _ => []
  | (a, w) :: r, i => if i = a then r else (a, w) :: Memory.erase r i

def Memory.write (m : List Host.Cell) (i : Nat) (v : Byte) : List Host.Cell :=
  if v = memDefault then Memory.erase m i else Memory.insert m i v

/-- A host-memory address: the coherent port carries 52 bits (02). -/
def haddr (a : Nat) : Nat := a % 2 ^ 52

/-- The n bytes at an address, as one little-endian number. -/
def memLoad (m : List Host.Cell) (a : Nat) : Nat → Nat
  | 0 => 0
  | n + 1 => memLoad m a n + ((Memory.read m (haddr (a + n))).toNat <<< (8 * n))

/-- Store the low n bytes of v at an address, little-endian. -/
def memStore (m : List Host.Cell) (a : Nat) : Nat → Nat → List Host.Cell
  | 0, _ => m
  | n + 1, v => Memory.write (memStore m a n v) (haddr (a + n)) (BitVec.ofNat 8 (v >>> (8 * n)))

/-- A line has a byte of the n at lo. -/
def lineIn (l lo n : Nat) : Bool := decide (lo < (l + 1) * 64) && decide (l * 64 < lo + n)

/-! The table cache's pseudo-LRU tree (13 R309): node 0 is the root, 2k + 1 and 2k + 2 are the halves below node k, the left
one holding the lower ways, and a bit tells the half that is the less recently used (log 10, PRESUMED). -/

/-- The nodes of a way's path from the root, each with the half that the way lies in. -/
def plruPath (w : Nat) : List (Nat × Bool) :=
  [(0, decide (8 ≤ w)), (1 + w / 8, decide (4 ≤ w % 8)), (3 + w / 4, decide (2 ≤ w % 4)), (7 + w / 2, decide (w % 2 = 1))]

/-- The tree after a use of a way: every node on its path points to the other half. -/
def plruUse (b : BitVec 15) (w : Nat) : BitVec 15 :=
  (plruPath w).foldl (fun b e =>
    if e.2 then b &&& ~~~(BitVec.ofNat 15 (2 ^ e.1)) else b ||| BitVec.ofNat 15 (2 ^ e.1)) b

/-- The way that the tree gives among those that may be chosen, below node k whose ways start at lo: where the half pointed to
has none, the other is taken. -/
def plruWalk (b : BitVec 15) (ok : Nat → Bool) : Nat → Nat → Nat → Option Nat
  | 0, _, lo => if ok lo then some lo else none
  | d + 1, k, lo =>
    let l := plruWalk b ok d (2 * k + 1) lo
    let r := plruWalk b ok d (2 * k + 2) (lo + 2 ^ d)
    if b.getLsbD k then r <|> l else l <|> r

/-- An access uses a line of the cache. -/
def cohUse (c : Coh) (l : Nat) : Coh :=
  match Tbl.find c.ways l with
  | some w => { c with plru := Tbl.put c.plru (l % 256) (plruUse (Tbl.get 0 c.plru (l % 256)) w) }
  | none => c

/-- The lines of n bytes. -/
def linesAt (a n : Nat) : List Nat := (List.range ((haddr a % 64 + n + 63) / 64)).map (haddr a / 64 + ·)

/-- The table cache holds a line in a state that a read needs. -/
def Coh.holds (c : Coh) (l : Nat) : Bool := (Tbl.find c.lines l).isSome
/-- The table cache holds a line in a state that a write needs. -/
def Coh.owns (c : Coh) (l : Nat) : Bool := Tbl.find c.lines l = some .m || Tbl.find c.lines l = some .e

/-- A read is served on lines that the table cache holds (13 R313). -/
def cohRead (c : Coh) (a n : Nat) : Coh :=
  (linesAt a n).foldl (fun c l => if c.holds l then cohUse c l else { c with missed := c.missed ++ [l] }) c

/-- A write, or another atomic access, is served on lines held E or M, which it leaves M (13 R313). -/
def cohWrote (c : Coh) (a n : Nat) : Coh :=
  (linesAt a n).foldl (fun c l =>
    let d := if c.holds l then cohUse { c with lines := Tbl.put c.lines l .m } l else c
    if c.owns l then d else { d with missed := d.missed ++ [l] }) c

/-- A run of writes within its row (log 86): the lines of it that are held become M; those that sit in the eviction buffer are
missed. -/
def cohRun (c : Coh) (a n : Nat) : Coh :=
  let d := c.lines.foldl (fun c e => if lineIn e.1 a n then cohUse { c with lines := Tbl.put c.lines e.1 .m } e.1 else c) c
  { d with missed := d.missed ++ (c.evb.map (·.line)).filter fun l => lineIn l a n }

namespace State

def load32 (s : State) (a : Nat) : W32 := BitVec.ofNat 32 (memLoad s.mem a 4)
def load64 (s : State) (a : Nat) : W64 := BitVec.ofNat 64 (memLoad s.mem a 8)

/-- Put n bytes in host memory: a write that the block makes. -/
def storeBytes (s : State) (a n v : Nat) : State :=
  { s with mem := memStore s.mem a n v, coh := cohWrote s.coh a n }

def store32 (s : State) (a : Nat) (v : W32) : State := s.storeBytes a 4 v.toNat
def store64 (s : State) (a : Nat) (v : W64) : State := s.storeBytes a 8 v.toNat

/-- The table cache holds a line, in any state but I. -/
def held (s : State) (l : Nat) : Bool := s.coh.holds l

/-- The block reads n bytes of host memory. -/
def reads (s : State) (a n : Nat) : State := { s with coh := cohRead s.coh a n }
/-- Every line of n bytes is held in the state that an atomic access needs. -/
def owns (s : State) (a n : Nat) : Bool := (linesAt a n).all s.coh.owns

/-- A row's accesses are served on cached lines (13 R313): while the cache lacks one, the row waits for its line. -/
def served (s t : State) : State := if t.coh.missed = s.coh.missed then t else s

/-- Accesses whose requests are made within the row (log 86). What they write to a line in the eviction buffer goes out with it. -/
def ran (s t : State) : State :=
  let new := t.coh.missed.drop s.coh.missed.length
  { t with coh := { t.coh with
      missed := s.coh.missed,
      evb := t.coh.evb.map fun e => if new.contains e.line then { e with data := BitVec.ofNat 512 (memLoad t.mem (e.line * 64) 64) } else e } }

/-- A row that stands for a longer run of accesses than the cache may hold at once makes their requests within itself (log 86);
it waits for a line that sits in the eviction buffer (13 R310). -/
def servedRun (s t : State) : State :=
  if (t.coh.missed.drop s.coh.missed.length).any (fun l => s.coh.evb.any fun e => decide (e.line = l)) then s
  else s.ran t

/-- How often an access of w has failed since w took its failures in (13 R321). -/
def failures (s : State) (w : AccWho) : Nat := (s.coh.failed.filter fun e => decide (e.1 = w)).length
def forget (s : State) (w : AccWho) : State :=
  { s with coh := { s.coh with failed := s.coh.failed.filter fun e => decide (e.1 ≠ w) } }

/-- The access of w to the line of an address has failed. -/
def lost (s : State) (w : AccWho) (a : Nat) : Bool := s.coh.failed.contains (w, a % 2 ^ 52 / 64)

/-- An access of w to one of n bytes has failed as often as it is tried: three times beyond the first (10 R233, 17 R413, R421). -/
def lostIn (s : State) (w : AccWho) (a n : Nat) : Bool :=
  (linesAt a n).any fun l => decide (4 ≤ (s.coh.failed.filter (· = (w, l))).length)

/-- The end of an access of w, which fails by its row's operand or once the coherent agent has failed it n times. -/
def withFail (s : State) (w : AccWho) (n : Nat) (fail : Bool) (act : State → Bool → State) : State :=
  if s.failures w = 0 then act s fail else act (s.forget w) (fail || decide (n ≤ s.failures w))

/-! ### The register file -/

end State

/-- The line of a byte address. -/
def lineOf (a : Nat) : Nat := haddr a / 64

/-- Is off one of the offsets 0x100000 + t * 0x1000 + ... of the target frames? -/
def isTgtOff (off : Nat) : Bool := decide (0x100000 ≤ off) && decide (off < 0x180000)
def isWinOff (off : Nat) : Bool := decide (0x10000 ≤ off) && decide (off < 0x20000)
def isRingOff (off : Nat) : Bool := decide (0x20000 ≤ off) && decide (off < 0x20800)
def isShareOff (off : Nat) : Bool := decide (0x200000 ≤ off) && decide (off < 0x210000)

def winOff (n r : Nat) : Nat := 0x10000 + n * 0x10 + r
def tgtOff (t r : Nat) : Nat := 0x100000 + t * 0x1000 + r
def icfgOff (t i : Nat) : Nat := 0x100100 + t * 0x1000 + 4 * i
def ringOff (n r : Nat) : Nat := 0x20000 + n * 0x100 + r
def shareOff (p r : Nat) : Nat := 0x200000 + p * 0x40 + r

/-- The rows of a region that is not replicated (16 R390). -/
def regionRows (off : Nat) : List RegRow :=
  if off < 0x10000 then regRowsGlb
  else if off < 0x21000 then regRowsCmd
  else if off < 0x30000 then regRowsMbx
  else if off < 0x31000 then regRowsXlt
  else if off < 0x32000 then regRowsRnk
  else if off < 0x33000 then regRowsStk
  else if off < 0x34000 then regRowsCoh
  else if off < 0x35000 then regRowsWft
  else if off < 0x36000 then regRowsPnl
  else if off < 0x37000 then regRowsPwr
  else if off < 0x38000 then regRowsBur
  else if off < 0x39000 then regRowsSbd
  else if off < 0x3A000 then regRowsMsg
  else if off < 0x3B000 then regRowsPrf
  else []

def findRow (rows : List RegRow) (o : Nat) : Option RegRow := rows.find? (fun r => r.off = o)

/-- The row of an implemented 32-bit word; `none` is reserved or unimplemented space (16 R384). -/
def regRow (p : Par) (off : Nat) : Option RegRow :=
  if off % 4 ≠ 0 then none
  else if isWinOff off then
    if (off - 0x10000) / 0x10 < p.wired then findRow regRowsWin (off % 0x10) else none
  else if isRingOff off then findRow regRowsRing (off % 0x100)
  else if isTgtOff off then
    if (off - 0x100000) / 0x1000 < p.targets then
      if 0x100 ≤ off % 0x1000 ∧ off % 0x1000 < 0x180 then some (regRowIcfg off)
      else findRow regRowsTgt (off % 0x1000)
    else none
  else if isShareOff off then
    if (off - 0x200000) / 0x40 < p.panels then findRow regRowsShare (off % 0x40) else none
  else findRow (regionRows off) off

/-- Reset value of a word (00 R5). -/
def regReset (p : Par) (off : Nat) : W32 := (regRow p off).elim 0 RegRow.rst

/-- The mask with which a register word stands in the proofed set (16 R394, R395); 0 outside the set. -/
def proofMask (off : Nat) : W32 :=
  if isWinOff off then
    if off % 0x10 = Reg.WIN_FILT then 0x1FFFF
    else if off % 0x10 = Reg.WIN_XSTAT then 0x1FFFFF else 0xFFFFFFFF
  else if isTgtOff off then
    if 0x100 ≤ off % 0x1000 ∧ off % 0x1000 < 0x180 then 0x1FFF else 0
  else if isShareOff off then
    if off % 0x40 = Reg.PNL_SHR_LIVE0 ∨ off % 0x40 = Reg.PNL_SHR_LIVE1 then 0xFFFFFFFF else 0
  else if isRingOff off then
    if off % 0x100 < 0x18 ∨ off % 0x100 = Reg.CMD_RIRQ then 0xFFFFFFFF else 0
  else if off ∈ [Reg.GLB_REFCNT_HZ, Reg.GLB_LOCK, Reg.XLT_CTRL, Reg.XLT_SRC_BASE, Reg.XLT_SRC_BASE + 4,
      Reg.XLT_ATT_BASE, Reg.XLT_ATT_BASE + 4, Reg.XLT_PQ_SLOTS, Reg.RNK_CTRL, Reg.RNK_PT_BASE,
      Reg.RNK_PT_BASE + 4, Reg.RNK_SUM_BASE, Reg.RNK_SUM_BASE + 4, Reg.RNK_REFILL, Reg.STK_LEN,
      Reg.STK_CATCH, Reg.STK_EPOCH, Reg.STK_FAST_MHZ, Reg.MSG_CTRL, Reg.MSG_PQ_CFG, Reg.MSG_PQ_BUDGET,
      Reg.COH_MODE, Reg.PNL_CTRL, Reg.PNL_VPE_BASE, Reg.PNL_VPE_BASE + 4, Reg.PNL_SAVE_BASE,
      Reg.PNL_SAVE_BASE + 4, Reg.WFT_CTRL, Reg.BUR_IMG_BASE, Reg.BUR_IMG_BASE + 4] then 0xFFFFFFFF
  else if 0x31020 ≤ off ∧ off < 0x31040 then 0xFFFFFFFF
  else 0

namespace State

/-- The stored word at a register-port offset. -/
def rd (s : State) (off : Nat) : W32 := (Tbl.find s.regs off).getD (regReset s.par off)

/-- Store a word. A change of the masked value of a proofed slot sets HOLD, ends the comparison of the sweep in
progress and spoils it for an adoption (16 R398, R399). -/
def wr (s : State) (off : Nat) (v : W32) : State :=
  let s' := { s with regs := Tbl.put s.regs off v }
  if s.rd off &&& proofMask off = v &&& proofMask off then s'
  else { s' with prf := { s'.prf with hold := true, cmp := false, adoptOk := false } }

def rd64 (s : State) (off : Nat) : W64 := (s.rd (off + 4)) ++ (s.rd off)
def wr64 (s : State) (off : Nat) (v : W64) : State :=
  (s.wr off (v.truncate 32)).wr (off + 4) ((v >>> 32).truncate 32)

/-- A field of a register word. -/
def fld (s : State) (off hi lo : Nat) : Nat := field (s.rd off) hi lo
def bit (s : State) (off i : Nat) : Bool := bitAt (s.rd off) i
def setFld (s : State) (off hi lo v : Nat) : State := s.wr off (setField (s.rd off) hi lo v)
def setBitR (s : State) (off i : Nat) (b : Bool) : State := s.wr off (setBit (s.rd off) i b)

/-- Count up: 64-bit counts wrap, 32-bit counts saturate. -/
def cnt64 (s : State) (off : Nat) (n : Nat := 1) : State := s.wr64 off (s.rd64 off + BitVec.ofNat 64 n)
def cnt32 (s : State) (off : Nat) : State := s.wr off (satInc (s.rd off))

/-! ### Parameters, targets -/

def instId (s : State) : BitVec 7 := BitVec.ofNat 7 (s.fld Reg.GLB_ID 6 0)

end State

def Ctx.empty : Ctx :=
  { stack := [], split := [], pmask := 0, split0 := 0, split1 := 0, splitc0 := false, splitc1 := false }

def SweepEng.empty : SweepEng := { waiting := [], run := none }

/-- A target at its reset value (03 R69, 09 R221). -/
def Tg.empty : Tg :=
  { entries := [], opq := [], src := [], dsp := [], adm := [], skip := [], carry := [], urgent := [], ext := none, hold := false, slots := 0, ages := [], sumP := [], sumV := [],
    leadP := none, leadV := none, swpP := SweepEng.empty, swpV := SweepEng.empty, sbuf := [], fresh := false, phys := Ctx.empty,
    nsfloor := 0x80, virt := Ctx.empty, vpe := 0, vpeV := false, sw := none, wait := none, rsp := 0 }

def Line.empty : Line :=
  { pin := false, count := false, seen := 0, change := none, rot := none, holder := none, kept := none, xid := 0, told := none, unr := none }

namespace State

def tgt (s : State) (t : Nat) : Tg := Tbl.get Tg.empty s.tg t
def setTgt (s : State) (t : Nat) (x : Tg) : State := { s with tg := Tbl.put s.tg t x }
def modTgt (s : State) (t : Nat) (f : Tg → Tg) : State := s.setTgt t (f (s.tgt t))

def line (s : State) (n : Nat) : Line := Tbl.get Line.empty s.win n
def setLine (s : State) (n : Nat) (x : Line) : State := { s with win := Tbl.put s.win n x }
def modLine (s : State) (n : Nat) (f : Line → Line) : State := s.setLine n (f (s.line n))

def lane (s : State) (l : Nat) : List LaneW := Tbl.get [] s.lanes l
def setLane (s : State) (l : Nat) (x : List LaneW) : State := { s with lanes := Tbl.put s.lanes l x }

/-- RNK_CTRL.EN: the physical pending tables are in use (07 R173). -/
def rnkEn (s : State) : Bool := s.bit Reg.RNK_CTRL 0

end State

/-! ### What runs (02 R41, R43; 17 R401, R402, R408, R419) -/

/-- PWR_STAT.STATE: 0 RUN, 1 DOZE, 2 NAP, 3 DEEP. -/
def pwrState (s : State) : Nat := s.fld Reg.PWR_STAT 1 0
/-- PWR_STAT.PHASE: 0 steady, 1 DEEP preparation, 2 consent round, 3 commit, 4 asleep, 5 fast running. -/
def pwrPhase (s : State) : Nat := s.fld Reg.PWR_STAT 4 2
def setPwrState (s : State) (v : Nat) : State := s.setFld Reg.PWR_STAT 1 0 v
def setPwrPhase (s : State) (v : Nat) : State := s.setFld Reg.PWR_STAT 4 2 v

/-- The subsystems whose stop point is Ak have not stopped, and the CLK_MAIN domain is clocked, out of reset and
initialised; during warm-reset step W2 it still runs (02 R43). -/
def grpOn (s : State) (k : Nat) : Bool :=
  (decide (s.rst.phase = .run) || decide (s.rst.phase = .w2)) &&
  (match pwrPhase s with
   | 3 => false
   | 4 => false
   | 2 => decide (s.pwr.stopped < k)
   | _ => true)

/-- A part that runs in DOZE works on through a round for DOZE (17 R402, R408). -/
def liveOn (s : State) (k : Nat) : Bool :=
  grpOn s k || (grpOn s 6 && decide (pwrPhase s = 2) && decide (s.pwr.target = 1))

/-- The Hatch trees run: in every state but NAP and DEEP (17 R402, R419). -/
def treesOn (s : State) : Bool := liveOn s 3

/-- An engine that is clock-gated in DOZE and transfers nothing in fast running works (17 R402, R419). In DOZE it
works for a DEEP preparation. -/
def engOn (s : State) (k : Nat) : Bool :=
  grpOn s k && decide (pwrPhase s ≠ 5) && (decide (pwrState s ≠ 1) || decide (pwrPhase s = 1))

/-- The ports of the CLK_MAIN domain take transfers: running, no STOP, not asleep (02 R41, R43; 17 R402, R408). In
DOZE the offer itself wakes the block first (R402). -/
def portsOpen (s : State) : Bool :=
  decide (s.rst.phase = .run) && decide (pwrState s = 0) && (decide (pwrPhase s = 0) || decide (pwrPhase s = 1))

/-- An abandoned DEEP preparation (17 R405, R410). -/
def abandonPrep (s : State) : State :=
  if pwrPhase s = 1 then
    let s := (setPwrPhase s 0).wr Reg.PWR_IDLE_CNT 0
    { s with pwr := { s.pwr with ready := false } }
  else s

/-- Activity of 17 R403. -/
def activity (s : State) : State :=
  let s := abandonPrep s
  { s with pwr := { s.pwr with act := true } }

/-- PWR_LAST_WAKE (17 R425). -/
def lastWake (s : State) (code idx : Nat) : State :=
  s.wr Reg.PWR_LAST_WAKE (BitVec.ofNat 32 (code + idx % 4096 * 16 + pwrState s * 2 ^ 16))

/-- The states from which a cause wakes (17 R417). -/
def wakesFrom (code st : Nat) : Bool :=
  if code = 1 ∨ code = 2 ∨ code = 7 then st = 2 || st = 3
  else if code = 3 ∨ code = 4 ∨ code = 6 then st = 2 else st = 1

def byteN (n : Nat) : Byte := BitVec.ofNat 8 n
/-- The n low bytes of a number, the least significant first, and the number that a list of bytes spells. -/
def bytesOf (v n : Nat) : List Byte := (List.range n).map fun k => byteN (v >>> (8 * k))
def numOf (l : List Byte) : Nat := l.foldr (fun b n => b.toNat + 256 * n) 0

/-- n bytes of the save set from offset i, little-endian, and its time part (17 R412). -/
def Save.num (v : Save) (i n : Nat) : Nat := numOf ((v.img.drop i).take n)
def Save.snap (v : Save) : W64 := BitVec.ofNat 64 (v.num 16 8)
def Save.count (v : Save) : Stroke := BitVec.ofNat 48 (v.num 24 8)
def Save.refPer (v : Save) : Nat := v.num 32 8

/-- Time has passed: REMAIN of an open presence window has fallen by some seconds, and not to 0 before it expires (15 R371,
R376; log 22). -/
def secondsPass (s : State) : State :=
  { s with sbd := { s.sbd with left := max 1 (s.sbd.left - Config.secondsGone s.sbd.left s.count.toNat) } }

/-- Wake step 2 (17 R418): the first request falls. -/
def beginWake (s : State) (code idx : Nat) : State :=
  let s := lastWake (secondsPass s) code idx
  let s := { s with pwr := { s.pwr with wokeLine := if code = 2 then some idx else none } }
  if pwrState s = 2 then
    { s with pwr := { s.pwr with step := 12, ret := { s.pwr.ret with req := false }, countdown := none } }
  else { s with pwr := { s.pwr with step := 12, off := { s.pwr.off with req := false } } }

/-- A wake cause arrives (17 R402, R406, R410, R417): in DOZE the block returns to RUN with cause 0x5; a preparation is
abandoned; a round will be refused; in the commit it is latched; asleep, the wake begins. -/
def wake (s : State) (code idx : Nat) : State :=
  let s := abandonPrep s
  match pwrPhase s with
  | 2 => { s with pwr := { s.pwr with wakeSeen := true } }
  | 3 =>
    if wakesFrom code s.pwr.target.toNat then
      { s with pwr := { s.pwr with latched := s.pwr.latched <|> some (code, idx) } }
    else s
  | 4 => if wakesFrom code (pwrState s) && decide (s.pwr.step < 12) then beginWake s code idx else s
  | 5 => s
  | _ => if pwrState s = 1 then setPwrState (lastWake s 5 0) 0 else s

/-! ### Ranking (03 R75, R78) -/

/-- Effective priority at stroke n (03 R75). -/
def effPrio (s : State) (cls : BitVec 3) (base : Byte) (arr n : Stroke) : Byte :=
  let w := Tbl.get 0 s.rnk.classes cls.toNat
  let i := field w 15 0
  let c := field w 23 16
  let b := base.toNat
  if i = 0 ∨ b ≤ c ∨ b = 0xFF then base
  else
    let age := min (n - arr).toNat (2 ^ 47 - 1)
    BitVec.ofNat 8 (max c (b - age / i))

/-- The age of an entry at stroke n, saturated (03 R75). -/
def ageAt (arr n : Stroke) : Nat := min (n - arr).toNat (2 ^ 47 - 1)

/-- a ranks above b at stroke n (03 R78). -/
def ranksAbove (n : Stroke) (a b : Entry) : Bool :=
  if a.eff ≠ b.eff then decide (a.eff < b.eff)
  else if ageAt a.arr n ≠ ageAt b.arr n then decide (ageAt b.arr n < ageAt a.arr n)
  else decide (a.ev < b.ev)

/-- The highest-ranked entry of a list (07 R151). -/
def bestOf (n : Stroke) : List Entry → Option Entry
  | [] => none
  | e :: r =>
    match bestOf n r with
    | none => some e
    | some f => if ranksAbove n e f then some e else some f

/-- The lowest-ranked entry of a list (07 R151). R78 orders the entries of one kind; of a physical and a virtual entry that
tie in EFF, age and ID the one listed earlier counts as the worse (DESIGN CHOICE, log 70). -/
def worstOf (n : Stroke) : List Entry → Option Entry
  | [] => none
  | e :: r =>
    match worstOf n r with
    | none => some e
    | some f => if ranksAbove n e f then some f else some e

/-- Every operation that tree t has not issued: urgent, admitted, carried over, queued, waiting at a source, and formed by
its sweep engines. -/
def Tg.ops (x : Tg) : List TOp := x.urgent ++ x.skip ++ x.adm ++ x.carry ++ x.opq ++ x.src ++ x.sbuf

/-- Rewrite every list of operations of a tree that have not acted. -/
def Tg.mapOps (x : Tg) (f : List TOp → List TOp) : Tg :=
  { x with urgent := f x.urgent, skip := f x.skip, adm := f x.adm, carry := f x.carry, opq := f x.opq, src := f x.src,
           sbuf := f x.sbuf, dsp := f x.dsp }

/-- Formed sweep inserts of one engine. -/
def Tg.buf (x : Tg) (virt : Bool) : List TOp := x.sbuf.filter fun o => o.virt = virt

/-- The head entry of a kind (03 R71). -/
def headOf (s : State) (t : Nat) (virt : Bool) : Option Entry :=
  bestOf s.count ((s.tgt t).entries.filter (fun e => e.virt = virt))

def Entry.same (e : Entry) (virt : Bool) (ev : EventId) : Bool := e.virt = virt && decide (e.ev = ev)

/-- The resident entry of an event; an entry whose claim waits for its EXT counts as absent (07 R155). -/
def residentIn (x : Tg) (virt : Bool) (ev : EventId) : Option Entry :=
  if x.ext = some (virt, ev) then none else x.entries.find? (·.same virt ev)

def Tg.ctx (x : Tg) (virt : Bool) : Ctx := if virt then x.virt else x.phys
def Tg.setCtx (x : Tg) (virt : Bool) (c : Ctx) : Tg := if virt then { x with virt := c } else { x with phys := c }

/-- The event is active on the target, or on its resident vPE (03 R59). -/
def activeIn (x : Tg) (virt : Bool) (ev : EventId) : Bool :=
  ((x.ctx virt).stack ++ (x.ctx virt).split).any (fun a => decide (a.ev = ev))

/-- Set the pending part of an active event (03 R61): the first raise's attributes and arrival stand. -/
def setPendPart (x : Tg) (virt : Bool) (ev : EventId) (at' : Attr) (arr : Stroke) : Tg :=
  let f := fun (a : Act) => if a.ev = ev ∧ a.pend = none then { a with pend := some (some (at', arr)) } else a
  x.setCtx virt { x.ctx virt with stack := (x.ctx virt).stack.map f, split := (x.ctx virt).split.map f }

def minByte (a b : Byte) : Byte := if a < b then a else b

/-! ### Spills (07 R165) and the operation queue (07 R149, R160) -/

/-- Spills that occupy the lane's buffer. -/
def spillCount (l : List LaneW) : Nat := (l.filter (·.set)).length

/-- The buffer of 32 is full (07 R165). -/
def spillFull (s : State) (t : Nat) : Bool := decide (32 ≤ spillCount (s.lane (t / 16)))

/-- Hand a write to the target's Shuttle lane. -/
def laneAdd (s : State) (w : LaneW) : State := s.setLane (w.t / 16) (s.lane (w.t / 16) ++ [w])

/-- Spill an event: physical, or virtual of the resident vPE (07 R165). -/
def spill (s : State) (t : Nat) (virt : Bool) (ev : EventId) (base : Byte) (wid : Option Nat) : State :=
  laneAdd s { set := true, t := t, ev := ev, vpe := if virt then some (s.tgt t).vpe else none, prio := base,
              drop := false, wid := wid }

/-! ### Tables in host memory -/

/-- Byte address of the bit of event e in the pending table of target t (07 R162). -/
def ptAddr (s : State) (t : Nat) (ev : EventId) : Nat :=
  (s.rd64 Reg.RNK_PT_BASE).toNat + t * 0x40000 + ev.toNat / 8

/-- Address of a vPE's context (10 R226). -/
def vctx (s : State) (v : BitVec 16) : Nat := (s.rd64 Reg.PNL_VPE_BASE).toNat + v.toNat * 0x100

/-- Bits [51:12] of a word, as an address. -/
def base4k (w : W64) : Nat := (w &&& 0x000FFFFFFFFFF000).toNat

def vptBase (s : State) (v : BitVec 16) : Nat := base4k (s.load64 (vctx s v + 8))
def vsumBase (s : State) (v : BitVec 16) : Nat := base4k (s.load64 (vctx s v + 16))

/-- Address of the byte of a pending bit: the physical table of t, or the virtual table of v (10 R227). -/
def bitAddr (s : State) (t : Nat) (vpe : Option (BitVec 16)) (ev : EventId) : Nat :=
  match vpe with
  | none => ptAddr s t ev
  | some v => vptBase s v + ev.toNat / 8

def bitMask (ev : EventId) : Byte := BitVec.ofNat 8 (1 <<< (ev.toNat % 8))

def pendBit (s : State) (t : Nat) (vpe : Option (BitVec 16)) (ev : EventId) : Bool :=
  (Memory.read s.mem (haddr (bitAddr s t vpe ev)) &&& bitMask ev) ≠ 0

/-! ### Holders (03 R52) -/

/-- A set of the event's bit still waits in the lane. -/
def laneSet (s : State) (t : Nat) (ev : EventId) : Bool :=
  (s.lane (t / 16)).any (fun w => w.set && decide (w.t = t) && w.vpe.isNone && decide (w.ev = ev))

/-- An insert that carries an event which is pending already: a formed refill, whose bit has been cleared, or the re-entry
of a pending part (R61). -/
def TOp.carries (o : TOp) (virt : Bool) (ev : EventId) : Bool :=
  decide (o.kind = .ins) && (o.refill || o.reent) && o.virt = virt && decide (o.ev = ev)

/-- Such an insert has not issued, or waits as a direct spill. -/
def carriedIn (x : Tg) (virt : Bool) (ev : EventId) : Bool := (x.ops ++ x.dsp).any fun o => o.carries virt ev

/-- An INS that meets the event resident or active on target t (07 R154, first two cases), or a raise that meets an insert
carrying it: the event is pending, and the two merge (03 R61). -/
def meetsAt (s : State) (t : Nat) (o : TOp) (arr : Stroke) : Option State :=
  let x := s.tgt t
  if (residentIn x o.virt o.ev).isSome then some s
  else if activeIn x o.virt o.ev then
    if o.level then some s else some (s.setTgt t (setPendPart x o.virt o.ev o.attr arr))
  else if !o.refill && !o.reent && carriedIn x o.virt o.ev then some s
  else none

/-- The physical event is resident, active, spilled, or on its way from one to the other, on local target u. -/
def heldAt (s : State) (u : Nat) (ev : EventId) : Bool :=
  (residentIn (s.tgt u) false ev).isSome || activeIn (s.tgt u) false ev || carriedIn (s.tgt u) false ev ||
  laneSet s u ev || (s.rnkEn && pendBit s u none ev)

/-- The other local target that holds the physical event of a raise (03 R52): IDs 0 to 31 are each target's own. -/
def heldElse (s : State) (t : Nat) (o : TOp) : Option Nat :=
  if o.virt || o.refill || o.reent || decide (o.ev.toNat < 32) then none
  else (List.range s.par.targets).find? fun u => decide (u ≠ t) && heldAt s u o.ev

def VWord.empty : VWord :=
  { v := false, res := false, switching := false, dbarm := false, target := 0, best := 0xFF, panel := 0 }
def Panel.empty : Panel :=
  { state := .free, vbits := 0, vattBase := 0, pend := none, toActive := false, closed := false, ring := none, drain := [], due := false }

/-- Where the context of v that is not resident saves an active event: the address of its word and its PEND bit (10 R226). -/
def savedAt (s : State) (v : BitVec 16) (ev : EventId) : Option (Nat × Nat) :=
  let hit := fun (k : Nat × Nat × Nat) =>
    let w := s.load64 k.1
    bitAt w (k.2.1 + 22) && decide (field w (k.2.1 + 20) k.2.1 = ev.toNat)
  let stack := (List.range 16).find? fun i =>
    bitAt (s.load64 (vctx s v + 8 * (8 + i))) 38 &&
      decide (field (s.load64 (vctx s v + 8 * (8 + i))) 20 0 = ev.toNat)
  match stack with
  | some i => some (vctx s v + 8 * (8 + i), 37)
  | none =>
    ((List.range 16).map fun k => (vctx s v + 8 * (24 + k / 2), 32 * (k % 2), 0)).find? hit |>.map fun k => (k.1, k.2.1 + 21)

/-- v has the virtual event in its tables or its target: resident there, active, on its way, its bit set, or a set of it
waiting in a lane or among the parks given (03 R53, R59). -/
def vHeldBy (s : State) (v : BitVec 16) (ev : EventId) (parks : List Park) : Bool :=
  let w := Tbl.get VWord.empty s.pnl.vpes v.toNat
  let x := s.tgt w.target
  (w.res && ((residentIn x true ev).isSome || activeIn x true ev || carriedIn x true ev)) ||
  (s.lanes.any fun p => p.2.any fun k => k.set && decide (k.vpe = some v) && decide (k.ev = ev)) ||
  pendBit s 0 (some v) ev ||
  (parks.any fun p => decide (p.v = v) && decide (p.ev = ev)) ||
  (!w.res && (savedAt s v ev).isSome)

/-- The other vPE of the Panel that holds a virtual message event (03 R53); inter-target events are each vPE's own. `parks`: those
that come before. -/
def vHeldElse (s : State) (v : BitVec 16) (ev : EventId) (parks : List Park := s.pnl.parks ++ s.pnl.parkQ) :
    Option (BitVec 16) :=
  if ev.toNat < 4128 then none
  else
    let p := (Tbl.get VWord.empty s.pnl.vpes v.toNat).panel
    ((s.pnl.vpes.filter fun e => e.2.v && decide (e.2.panel = p) && decide (e.1 ≠ v.toNat)).map fun e =>
      BitVec.ofNat 16 e.1).find? fun u => vHeldBy s u ev parks

/-- A raise merges into the state of the vPE that holds the event: an active one takes the pending part, on its target or in
its saved context (03 R52, R53, R61; 10 R226). -/
def vMerge (s : State) (u : BitVec 16) (ev : EventId) (a : Attr) (arr : Stroke) : State :=
  let w := Tbl.get VWord.empty s.pnl.vpes u.toNat
  if w.res then s.modTgt w.target fun x => setPendPart x true ev a arr
  else match savedAt s u ev with
  | some (adr, i) => s.ran (s.store64 adr (setBit (s.load64 adr) i true))
  | none => s

/-- An INS that meets the event resident or active (07 R154, first two cases), or held by another target or vPE, into whose
state it merges (03 R52, R53); `none` in every other case. -/
def insMeets (s : State) (t : Nat) (o : TOp) (arr : Stroke) : Option State :=
  match meetsAt s t o arr with
  | some s' => some s'
  | none =>
    if o.virt && !o.refill && !o.reent then (vHeldElse s o.vpe o.ev).map fun u => vMerge s u o.ev o.attr arr
    else (heldElse s t o).map fun u => (meetsAt s u o arr).getD s

/-- A direct spill (07 R160, R165): it waits while the spill buffer is full. -/
def directSpill (s : State) (t : Nat) (o : TOp) : State :=
  let s := s.cnt64 Reg.RNK_DIRECT_CNT
  if spillFull s t then s.modTgt t fun x => { x with dsp := x.dsp ++ [o] }
  else spill s t o.virt o.ev o.attr.prio o.wid

/-- An operation arrives at a tree's queue (07 R158, R160). An INS that finds 64 operations is handled at once: merged, or
spilled directly; any other operation waits at its source for a free entry. -/
def treePut (s : State) (t : Nat) (o : TOp) : State :=
  let x := s.tgt t
  if x.opq.length < 64 ∧ (x.src = [] ∨ o.kind = .ins) then s.setTgt t { x with opq := x.opq ++ [o] }
  else if o.kind = .ins then
    match insMeets s t o o.arr with
    | some s' => s'
    | none => directSpill s t o
  else s.setTgt t { x with src := x.src ++ [o] }

/-- The queue has no free entry for an operation that is not an INS (07 R160). -/
def opqFull (s : State) (t : Nat) : Bool := decide (64 ≤ (s.tgt t).opq.length) || !(s.tgt t).src.isEmpty

def mkOp (k : OpKind) (virt : Bool) (ev : EventId) (a : Attr) (arr : Stroke) : TOp :=
  { kind := k, ev := ev, virt := virt, attr := a, arr := arr, level := false, refill := false, swept := false,
    vpe := 0, wid := none }

/-- Attributes of IDs 0 to 31 on a target (09 R196). -/
def icfgAttr (s : State) (t i : Nat) : Attr :=
  let w := s.rd (icfgOff t i)
  { prio := BitVec.ofNat 8 (field w 7 0), group := bitAt w 8, cls := BitVec.ofNat 3 (field w 11 9) }

/-- Attributes of a wired line's event (04 R95). -/
def winAttr (s : State) (n : Nat) : Attr :=
  let w := s.rd (winOff n Reg.WIN_CTL)
  { prio := BitVec.ofNat 8 (field w 7 0), group := bitAt w 15, cls := BitVec.ofNat 3 (field w 14 12) }

/-! ### The error path (18 R426 to R430) -/

/-- An interrupt set in both IPEND and IMASK of a Burin is a wake cause (17 R417): in a round or a commit where it has come since
`old` (17 R406, R410), in NAP where it stands. -/
def burWake (old s : State) : State :=
  let now := fun (c : BurCore) => c.ipend &&& c.imask
  let fresh : Bool := decide (now s.bur.a &&& ~~~(now old.bur.a) ≠ 0) || decide (now s.bur.b &&& ~~~(now old.bur.b) ≠ 0)
  let stands : Bool := decide (now s.bur.a ≠ 0) || decide (now s.bur.b ≠ 0)
  if ((pwrPhase s = 2 ∨ pwrPhase s = 3) ∧ fresh = true) ∨ (pwrPhase s = 4 ∧ pwrState s = 2 ∧ stands = true) then wake s 3 0
  else s

/-- Set bit c - 8 of IPEND in both Burins (14 R345): 0 HBEAT, 1 TAKEOVER, 2 PEER, 3 HOST, 4 SBD, 5 ERROR, 6 PWR, 7 TIMER. -/
def ipendBit (s : State) (i : Nat) : State :=
  let m : W32 := BitVec.ofNat 32 (1 <<< i)
  burWake s { s with bur := { s.bur with a := { s.bur.a with ipend := s.bur.a.ipend ||| m },
                                         b := { s.bur.b with ipend := s.bur.b.ipend ||| m } } }

/-- An occurrence enters the queue of 16, or is dropped, counted and still signalled to the Burins (18 R427, R429). -/
def occQuiet (s : State) (src flag unit : Nat) (fresh : Bool) : State :=
  if s.err.queue.length < 16 then
    { s with err := { s.err with queue := s.err.queue ++
      [{ src := src, flag := flag, unit := unit, stroke := s.count, fresh := fresh }] } }
  else
    ipendBit (s.setFld Reg.GLB_ELOG_STAT 15 8 (min 255 (s.fld Reg.GLB_ELOG_STAT 15 8 + 1))) 5

/-- Set bit i of a flag register; going from 0 to 1 is an occurrence (18 R427), here without its event. -/
def flagQuiet (s : State) (src off i unit : Nat) (fresh : Bool) : State :=
  if s.bit off i then s else occQuiet (s.setBitR off i true) src i unit fresh

/-- The raise of inter-target event `id` on local target t under the context's group rule (09 R208): from context
0b01 an event of group 0 is discarded and SEC_SEND sets at the destination. `quiet` is how that flag is recorded. -/
def sendRaise (flag : State → Nat → Nat → Nat → Nat → Bool → State)
    (s : State) (t id : Nat) (nonsec : Bool) (arr : Stroke) : State :=
  let a := icfgAttr s t id
  if nonsec && !a.group then flag s 5 (tgtOff t Reg.TGT_ERR) 3 t false
  else treePut s t (mkOp .ins false (BitVec.ofNat 21 id) a arr)

/-- The error event of R427: when GLB_EIRQ.EN and the source's GLB_EMASK bit are 1, a SEND from context 0b01 of
GLB_EIRQ.INTID to GLB_EIRQ.TARGET. -/
def errEvent (s : State) (src : Nat) : State :=
  if s.bit Reg.GLB_EIRQ 0 && s.bit Reg.GLB_EMASK src then
    sendRaise flagQuiet s (s.fld Reg.GLB_EIRQ 11 5) (s.fld Reg.GLB_EIRQ 4 1) true s.count
  else s

/-- An occurrence (18 R427): queued; one that finds the queue full still raises the error event. -/
def occ (s : State) (src flag unit : Nat) (fresh : Bool) : State :=
  let s' := occQuiet s src flag unit fresh
  if s.err.queue.length < 16 then s' else errEvent s' src

/-- Set bit i of a flag register of source `src` of R426. -/
def setFlag (s : State) (src off i unit : Nat) (fresh : Bool) : State :=
  if s.bit off i then s else occ (s.setBitR off i true) src i unit fresh

/-- Send an inter-target event to a local target (09 R208, R439). -/
def sendTo (s : State) (t id : Nat) (nonsec : Bool) (arr : Stroke) : State := sendRaise setFlag s t id nonsec arr

/-- Code of GLB_ERR_ADDR.SRC (16 R393). -/
def srcCode : Src → Nat
  | .port => 0 | .burA => 1 | .burB => 2 | .side => 3

/-- GLB_ERR_ADDR captures a flagged access: GLB_ERR.LOCK_WRITE (kind 0) or RSV_VALUE (kind 1) (16 R386). -/
def glbCapture (s : State) (off : Nat) (src : Src) (kind : Nat) : State :=
  (s.wr Reg.GLB_ERR_ADDR (BitVec.ofNat 32 (off + srcCode src * 2 ^ 24 + kind * 2 ^ 26))).wr (Reg.GLB_ERR_ADDR + 4)
    (s.count.truncate 32)

/-- A flagged access. -/
def glbErr (s : State) (off : Nat) (src : Src) (kind : Nat) : State :=
  setFlag (glbCapture s off src kind) 0 Reg.GLB_ERR kind 0 true

/-- A bit of GLB_LOCK (16 R388). -/
def locked (s : State) (b : Nat) : Bool := s.bit Reg.GLB_LOCK b

/-- A first-error log under R115: captured only while its VALID bit (`vbit` of `voff`) is 0. Answers the state and
whether the log took this error. -/
def capture (s : State) (voff vbit : Nat) (put : State → State) : State × Bool :=
  if s.bit voff vbit then (s, false) else ((put s).setBitR voff vbit true, true)

/-- Capture and flag one error: the log first, then the flag with FRESH telling whether the log took it. -/
def logErr (s : State) (src off i unit voff vbit : Nat) (put : State → State) : State :=
  let c := capture s voff vbit put
  setFlag c.1 src off i unit c.2

/-! ### The commands' numbers -/

/-- The number that the operations of a ring's command carry in place of a message write's: message writes number
from 0, and the ring's is above every one of a run (log 16). -/
def cmdWid (ring : Nat) : Nat := 2 ^ 64 + ring

/-- The number that the operation of another instance's request carries. -/
def reqWid (inst req : Nat) : Nat := 2 ^ 65 + inst * 256 + req

def Ring.empty : Ring := { fetched := [], run := none, recs := [], bad := false }
def State.ring (s : State) (n : Nat) : Ring := Tbl.get Ring.empty s.rings n
def State.setRing (s : State) (n : Nat) (x : Ring) : State := { s with rings := Tbl.put s.rings n x }
def State.modRing (s : State) (n : Nat) (f : Ring → Ring) : State := s.setRing n (f (s.ring n))

/-- A host-memory access made for a command has failed: the command will complete with MEM_ERROR (11 R270). -/
def cmdFail (s : State) (wid : Option Nat) : State :=
  match wid with
  | none => s
  | some w =>
    if 2 ^ 65 ≤ w then
      { s with wft := { s.wft with owed := s.wft.owed.map fun o => if o.wid = w then { o with status := 7 } else o } }
    else if w < 2 ^ 64 ∨ 2 ^ 64 + 8 ≤ w then s
    else s.modRing (w - 2 ^ 64) fun x => { x with run := x.run.map fun r => { r with status := 7 } }

end Sys2Proof.Machine
end

