-- ==== Sys2Proof/Machine/Tree.lean ====
section
/-! DEFINITION. The Hatch trees: issue of the operations of 07 R152, admission (R158, R159), the pending
tables and live summaries (R162 to R165), refills and sweeps (R166 to R171), flush and load (R172). -/

namespace Sys2Proof.Machine

/-! ### Pending bits (07 R165) -/

/-- Set or clear a pending bit: the atomic access of 07 R165. -/
def putBit (s : State) (t : Nat) (vpe : Option (BitVec 16)) (ev : EventId) (b : Bool) : State :=
  let a := haddr (bitAddr s t vpe ev)
  let o := Memory.read s.mem a
  s.storeBytes a 1 (if b then o ||| bitMask ev else o &&& ~~~(bitMask ev)).toNat

/-! ### Summaries (07 R163, R164) -/

def Sum.empty : Sum := { prio := 0, lead := 0, leadOk := false, v := false }

def chunkOf (ev : EventId) : Nat := ev.toNat / 1024
def leadOff (ev : EventId) : BitVec 10 := BitVec.ofNat 10 ev.toNat

/-- The mark of 07 R164. -/
def Sum.mark (k : Sum) (p : Byte) (off : BitVec 10) : Sum :=
  if !k.v || decide (p < k.prio) || (decide (p = k.prio) && k.leadOk && decide (off < k.lead)) then
    { prio := p, lead := off, leadOk := true, v := true }
  else { k with v := true }

/-- The word of a summary table (07 R163). -/
def Sum.word (k : Sum) : W32 :=
  BitVec.ofNat 32 (k.prio.toNat + k.lead.toNat * 256 + k.leadOk.toNat * 2 ^ 18 + k.v.toNat * 2 ^ 19)

/-- A summary word as read; a nonzero reserved field answers none (07 R172). -/
def Sum.ofWord (w : W32) : Option Sum :=
  if field w 31 20 ≠ 0 then none
  else some { prio := BitVec.ofNat 8 (field w 7 0), lead := BitVec.ofNat 10 (field w 17 8),
              leadOk := bitAt w 18, v := bitAt w 19 }

/-- The entry of a summary word that cannot be used (07 R172). -/
def Sum.sweepAll : Sum := { prio := 0, lead := 0, leadOk := false, v := true }

def Tg.sums (x : Tg) (virt : Bool) : Tbl Sum := if virt then x.sumV else x.sumP
def Tg.setSums (x : Tg) (virt : Bool) (m : Tbl Sum) : Tg := if virt then { x with sumV := m } else { x with sumP := m }
def Tg.swp (x : Tg) (virt : Bool) : SweepEng := if virt then x.swpV else x.swpP
def Tg.setSwp (x : Tg) (virt : Bool) (e : SweepEng) : Tg := if virt then { x with swpV := e } else { x with swpP := e }
def Tg.lead (x : Tg) (virt : Bool) : Option EventId := if virt then x.leadV else x.leadP
def Tg.setLead (x : Tg) (virt : Bool) (l : Option EventId) : Tg := if virt then { x with leadV := l } else { x with leadP := l }

/-- Mark a live summary; a running sweep of the chunk merges the mark into its result (07 R168 step 4). -/
def markLive (s : State) (t : Nat) (virt : Bool) (ev : EventId) (p : Byte) : State :=
  s.modTgt t fun x =>
    let m := x.sums virt
    let x := x.setSums virt (Tbl.put m (chunkOf ev) ((Tbl.get Sum.empty m (chunkOf ev)).mark p (leadOff ev)))
    let e := x.swp virt
    match e.run with
    | some r => if r.chunk = chunkOf ev then
        x.setSwp virt { e with run := some { r with result := r.result.mark p (leadOff ev) } } else x
    | none => x

/-- The chunk that the order of 07 R166 puts first: V 1, lowest PRIO, then lowest number. -/
def bestChunk (skip : Nat → Bool) : Tbl Sum → Option (Nat × Sum)
  | [] => none
  | (k, v) :: r =>
    match bestChunk skip r with
    | none => if v.v && !skip k then some (k, v) else none
    | some (j, w) =>
      if v.v && !skip k && (decide (v.prio < w.prio) || (decide (v.prio = w.prio) && decide (k < j)))
      then some (k, v) else some (j, w)

/-- Does a priority beat the root of its kind (07 R166)? -/
def beatsRoot (s : State) (t : Nat) (virt : Bool) (p : Byte) : Bool :=
  match headOf s t virt with
  | none => true
  | some h => decide (p < h.eff)

/-! ### vPEs -/

def State.vword (s : State) (v : BitVec 16) : VWord := Tbl.get VWord.empty s.pnl.vpes v.toNat
def State.setVword (s : State) (v : BitVec 16) (w : VWord) : State :=
  { s with pnl := { s.pnl with vpes := Tbl.put s.pnl.vpes v.toNat w } }
def State.panel (s : State) (p : Nat) : Panel := Tbl.get Panel.empty s.pnl.panels p
def State.setPanel (s : State) (p : Nat) (x : Panel) : State :=
  { s with pnl := { s.pnl with panels := Tbl.put s.pnl.panels p x } }

/-- v is resident, not switching, and its Panel is ACTIVE (10 R229). -/
def vpeInsertable (s : State) (v : BitVec 16) : Bool :=
  let w := s.vword v
  w.v && w.res && !w.switching && decide ((s.panel w.panel).state = .active)

/-- The check of 10 R230 on a virtual operation of tree t. -/
def vpeOk (s : State) (t : Nat) (v : BitVec 16) : Bool :=
  vpeInsertable s v && decide ((s.vword v).target = t)

/-- A virtual raise goes to the Panel manager to be parked (10 R229). -/
def parkReq (s : State) (v : BitVec 16) (ev : EventId) (p : Byte) (wid : Option Nat) : State :=
  { s with pnl := { s.pnl with parkQ := s.pnl.parkQ ++ [{ v := v, ev := ev, prio := p, wid := wid }] } }

/-- An insert of a virtual event for vPE v (10 R229): on the target where v is resident, or parked. -/
def virtPut (s : State) (o : TOp) : State :=
  if vpeInsertable s o.vpe then treePut s (s.vword o.vpe).target o else parkReq s o.vpe o.ev o.attr.prio o.wid

def virtOp (v : BitVec 16) (ev : EventId) (a : Attr) (arr : Stroke) (wid : Option Nat) : TOp :=
  { mkOp .ins true ev { a with group := true } arr with vpe := v, wid := wid }

/-! ### State of an event on its target, holders (03 R59, 04 R86, 12 R298) -/

/-- Some operation not yet issued would enter the event in the tree of t. -/
def queuedIns (x : Tg) (virt : Bool) (ev : EventId) : Bool :=
  (x.ops ++ x.dsp).any (fun o => o.kind = .ins && o.virt = virt && decide (o.ev = ev))

/-- The global number of a local target (01 R19). -/
def globalT (s : State) (t : Nat) : BitVec 14 := BitVec.ofNat 14 (s.instId.toNat * 128 + t)

/-- An insert of the event stands in the old tree of a move to target t (06 R142). -/
def movingTo (s : State) (t : Nat) (ev : EventId) : Bool :=
  s.move.any fun m => m.redir && decide (m.ev = ev) && decide (m.new = .tgt (globalT s t)) &&
    match m.old with
    | .tgt g => decide (g.toNat / 128 = s.instId.toNat) && queuedIns (s.tgt (g.toNat % 128)) false ev
    | .vpe _ => false

/-- The event is being moved away from target t. -/
def movingFrom (s : State) (t : Nat) (ev : EventId) : Bool :=
  s.move.any fun m => m.redir && decide (m.ev = ev) && decide (m.old = .tgt (globalT s t))

/-- A physical event is pending on target t: resident, its bit set, or on its way between the two or to it. -/
def isPending (s : State) (t : Nat) (ev : EventId) : Bool :=
  (residentIn (s.tgt t) false ev).isSome || queuedIns (s.tgt t) false ev || laneSet s t ev ||
  (s.rnkEn && pendBit s t none ev) || movingTo s t ev

/-- The pending part of an active event is set. -/
def pendPart (x : Tg) (virt : Bool) (ev : EventId) : Bool :=
  ((x.ctx virt).stack ++ (x.ctx virt).split).any (fun a => decide (a.ev = ev) && a.pend.isSome)

/-- State code of a physical event on target t, as HSTATE carries it (12 R283); `none`: inactive. -/
def evCode (s : State) (t : Nat) (ev : EventId) : Option (BitVec 2) :=
  if activeIn (s.tgt t) false ev then some (if pendPart (s.tgt t) false ev then 2 else 1)
  else if isPending s t ev then some 0 else none

/-- Queue a flit for the Weft link. -/
def sendFlit (s : State) (ty : Byte) (dst : BitVec 7) (pay : BitVec 160) : State :=
  { s with wft := { s.wft with outq := s.wft.outq ++ [{ ty := ty, dst := dst, pay := pay, src := s.instId, bc := false, hops := 1, port := none }] } }

/-- Is ev the event of a wired line of this instance? -/
def wiredEv (s : State) (ev : EventId) : Bool := decide (32 ≤ ev.toNat) && decide (ev.toNat < 32 + s.par.wired)

/-- A reset has kept the line's holder, whose occurrence has not yet come back: it lies in a table that is not in use, or was
discarded (04 R86). -/
def keptHolder (s : State) (n : Nat) : Bool :=
  match (s.line n).kept with
  | none => false
  | some inTable => !inTable || !s.rnkEn

/-- What follows a change of state of a physical event on target t: a wired line's holder is released when the event
becomes inactive (04 R86); the origin of a remote line is told in an HSTATE flit (12 R298). -/
def noteState (s : State) (t : Nat) (virt : Bool) (ev : EventId) : State :=
  if virt then s
  else if wiredEv s ev then
    let n := ev.toNat - 32
    if (s.line n).holder = some (globalT s t) ∧ evCode s t ev = none ∧ keptHolder s n = false ∧ movingFrom s t ev = false then
      s.modLine n fun l => { l with holder := none, kept := none }
    else s
  else match Tbl.find s.wft.rl ev.toNat with
  | none => s
  | some r =>
    let c := evCode s t ev
    if c = r.code then s
    else
      let s := { s with wft := { s.wft with rl := Tbl.put s.wft.rl ev.toNat { r with code := c } } }
      sendFlit s 0x12 r.origin (BitVec.ofNat 160 (r.lineNo.toNat + (c.getD 3).toNat * 2 ^ 12))

/-- Does the event have level sense on target t (03 R50, 04 R84)? -/
def isLevel (s : State) (virt : Bool) (ev : EventId) : Bool :=
  if virt then false
  else if ev.toNat < 16 then false
  else if ev.toNat < 32 then true
  else if wiredEv s ev then s.bit (winOff (ev.toNat - 32) Reg.WIN_CTL) 9
  else ((Tbl.find s.wft.rl ev.toNat).map (·.level)).getD false

/-- The line of a level event as the block sees it (03 R57, R58). -/
def lineOn (s : State) (t : Nat) (virt : Bool) (ev : EventId) : Bool :=
  if !isLevel s virt ev then false
  else if ev.toNat < 32 then s.bit (icfgOff t ev.toNat) 12 && s.bit (icfgOff t ev.toNat) 13
  else if wiredEv s ev then s.bit (winOff (ev.toNat - 32) Reg.WIN_XSTAT) 30
  else ((Tbl.find s.wft.rl ev.toNat).map (·.state)).getD false

/-- The software latch of a level event (03 R57). -/
def latchOn (s : State) (t : Nat) (virt : Bool) (ev : EventId) : Bool :=
  if !isLevel s virt ev then false
  else if ev.toNat < 32 then s.bit (icfgOff t ev.toNat) 14
  else if wiredEv s ev then s.bit (winOff (ev.toNat - 32) Reg.WIN_XSTAT) 31
  else ((Tbl.find s.wft.rl ev.toNat).map (·.latch)).getD false

/-- A message event of which no LEVEL flit has come: should one come, the event's latch is as a set-pending command has left it
(03 R57, 12 R298). -/
def setEarly (s : State) (ev : EventId) (b : Bool) : State :=
  if b then { s with wft := { s.wft with early := if s.wft.early.contains ev then s.wft.early else ev :: s.wft.early } }
  else { s with wft := { s.wft with early := s.wft.early.filter (· ≠ ev) } }

def setLatch (s : State) (t : Nat) (virt : Bool) (ev : EventId) (b : Bool) : State :=
  if !virt && decide (4128 ≤ ev.toNat) && (Tbl.find s.wft.rl ev.toNat).isNone then setEarly s ev b
  else if !isLevel s virt ev then s
  else if ev.toNat < 32 then s.setBitR (icfgOff t ev.toNat) 14 b
  else if wiredEv s ev then s.setBitR (winOff (ev.toNat - 32) Reg.WIN_XSTAT) 31 b
  else match Tbl.find s.wft.rl ev.toNat with
  | none => s
  | some r => { s with wft := { s.wft with rl := Tbl.put s.wft.rl ev.toNat { r with latch := b } } }

/-! ### Attributes of a refill (07 R167) -/

/-- A physical attribute entry (06 R123). -/
def attAddr (s : State) (ev : EventId) : Nat := base4k (s.rd64 Reg.XLT_ATT_BASE) + ev.toNat * 16
def attBits (s : State) : Nat := s.fld Reg.XLT_ATT_BASE 4 0
def attrOf (w : W64) : Attr :=
  { prio := BitVec.ofNat 8 (field w 7 0), group := bitAt w 8, cls := BitVec.ofNat 3 (field w 11 9) }

/-- Address of a virtual event's attribute entry in its Panel's table (10 R224). -/
def vattAddr (s : State) (v : BitVec 16) (ev : EventId) : Nat :=
  (s.panel (s.vword v).panel).vattBase + ev.toNat * 16

/-- The event has no attributes: it can never be raised (07 R167). -/
def noAttrs (s : State) (vpe : Option (BitVec 16)) (ev : EventId) : Bool :=
  match vpe with
  | none => ev = noneId || (decide (32 + s.par.wired ≤ ev.toNat) && decide (ev.toNat ≤ 4127)) ||
      decide (2 ^ attBits s ≤ ev.toNat)
  | some v => ev = noneId || (decide (16 ≤ ev.toNat) && decide (ev.toNat ≤ 4127)) ||
      decide (2 ^ (s.panel (s.vword v).panel).vbits ≤ ev.toNat)

/-- Attributes with which a refilled event enters (07 R167, R168; 10 R234). -/
def refillAttr (s : State) (t : Nat) (vpe : Option (BitVec 16)) (ev : EventId) : Attr :=
  match vpe with
  | some v => { attrOf (s.load64 (vattAddr s v ev)) with group := true }
  | none =>
    if ev.toNat < 32 then icfgAttr s t ev.toNat
    else if wiredEv s ev then winAttr s (ev.toNat - 32)
    else attrOf (s.load64 (attAddr s ev))

/-- Those attributes are read, where they stand in host memory. -/
def readAttr (s : State) (vpe : Option (BitVec 16)) (ev : EventId) : State :=
  match vpe with
  | some v => s.reads (vattAddr s v ev) 16
  | none => if decide (ev.toNat < 32) || wiredEv s ev then s else s.reads (attAddr s ev) 16

/-! ### Lane writes (07 R165) -/

/-- The tables of a write are in use: the physical ones while RNK_CTRL.EN is 1 (07 R172). -/
def tableOn (s : State) (vpe : Option (BitVec 16)) : Bool := vpe.isSome || s.rnkEn

/-- Clear a bit of a table that is in use. -/
def clearBit (s : State) (t : Nat) (vpe : Option (BitVec 16)) (ev : EventId) : State :=
  if tableOn s vpe && pendBit s t vpe ev then putBit s t vpe ev false else s

/-- Apply a clear: of an event that has entered the tree, the bit alone (07 R162); of a drop, only while the latch is clear
(03 R57); of a clear command on a level event whose line is asserted, the bit stays set (03 R441). A clear clears the
latch. -/
def applyClear (s : State) (w : LaneW) : State :=
  let virt := w.vpe.isSome
  if w.entered then clearBit s w.t w.vpe w.ev
  else if w.drop then
    if latchOn s w.t virt w.ev || !isLevel s virt w.ev then s else noteState (clearBit s w.t w.vpe w.ev) w.t virt w.ev
  else
    let s' := if lineOn s w.t virt w.ev then s else clearBit s w.t w.vpe w.ev
    noteState (setLatch s' w.t virt w.ev false) w.t virt w.ev

/-- Where a redirect sends an event of a destination: that of the move in progress, or of another instance's (06 R142). -/
def redirOf (s : State) (d : Dest) (ev : EventId) : Option Move :=
  (s.move.toList ++ s.wft.redirs.map (·.move)).find? fun m => m.redir && decide (m.ev = ev) && decide (m.old = d)

def redirDest (s : State) (d : Dest) (ev : EventId) : Dest := ((redirOf s d ev).map (·.new)).getD d

def destOf (r : XRes) : Dest := if r.virt then .vpe r.dest else .tgt (r.dest.truncate 14)

/-- The target whose table takes a set for target t: the one that holds the event, where another does (03 R52). -/
def slowHolder (s : State) (t : Nat) (ev : EventId) : Nat :=
  (heldElse s t (mkOp .ins false ev { prio := 0, group := false, cls := 0 } s.count)).getD t

/-- The event of a slow-path set that has reached this table's lane and is not made yet (05 R103, 07 R165). -/
def slowSetTo (s : State) (t : Nat) (vpe : Option (BitVec 16)) (e : Slow) : Option EventId :=
  match e.stage with
  | .set r =>
    let here := match redirDest s (destOf r) r.ev with
      | .vpe v => decide (vpe = some v)
      | .tgt g => vpe.isNone && decide (g.toNat / 128 = s.instId.toNat) && decide (slowHolder s (g.toNat % 128) r.ev = t)
    if here && tableOn s vpe then some r.ev else none
  | _ => none

/-- The slow-path sets ahead of a lane's next write. -/
def slowAhead (s : State) (w : LaneW) : List Nat :=
  (s.msg.slow.filter fun e => (slowSetTo s w.t w.vpe e).isSome).map (·.w.wid)

/-- One of these slow-path sets has not been made. -/
def slowLeft (s : State) (l : List Nat) : Bool :=
  s.msg.slow.any fun e => l.contains e.w.wid && (match e.stage with
    | .set _ => true
    | _ => false)

/-- A set of the same pending table stands earlier in the lane. -/
def setBefore (l : List LaneW) (w : LaneW) : Bool :=
  l.any fun k => k.set && decide (k.vpe = w.vpe) && (w.vpe.isSome || decide (k.t = w.t))

/-- The bit that a clear finds set stands in a line that the cache does not hold E or M: the clear waits for it, in class 4
(01 R440, 13 R313). -/
def lineWaits (s : State) (w : LaneW) : Bool :=
  tableOn s w.vpe && pendBit s w.t w.vpe w.ev && !s.owns (bitAddr s w.t w.vpe w.ev) 1

/-- The clears of a lane are applied but for those behind a set of the same table, of a spill or of the slow path, and those
that wait for their line; `kept`: the writes that stay. -/
def applyClears (s : State) (kept : List LaneW) : List LaneW → State × List LaneW
  | [] => (s, kept)
  | w :: r => if w.set || setBefore kept w || slowLeft s w.after || lineWaits s w then applyClears s (kept ++ [w]) r else applyClears (applyClear s w) kept r

/-- Let the lane apply every clear that nothing holds back. -/
def laneDrain (s : State) (l : Nat) : State :=
  let c := applyClears s [] (s.lane l)
  c.1.setLane l c.2

/-- The lanes go on, where a slow-path set has been made or a line has come. -/
def lanesDrain (s : State) : State := ((s.lanes.filter fun p => p.2.any fun w => !w.set).map (·.1)).foldl laneDrain s

/-- A clear reaches the lane (07 R165): it is applied, or waits behind a set of the same table, or for its line. -/
def laneHand (s : State) (w : LaneW) : State :=
  let l := slowAhead s w
  if setBefore (s.lane (w.t / 16)) w || !l.isEmpty || lineWaits s w then laneAdd s { w with after := l } else applyClear s w

/-- Clear the bit of an event through the lane (07 R152 REM, R165). -/
def laneClear (s : State) (t : Nat) (vpe : Option (BitVec 16)) (ev : EventId) (drop : Bool) (wid : Option Nat) : State :=
  laneHand s { set := false, t := t, ev := ev, vpe := vpe, prio := 0, drop := drop, wid := wid }

/-- The event enters the tree: its bit is cleared (07 R162). -/
def enterClear (s : State) (t : Nat) (vpe : Option (BitVec 16)) (ev : EventId) : State :=
  laneHand s { set := false, t := t, ev := ev, vpe := vpe, prio := 0, drop := false, wid := none, entered := true }

/-- An earlier write of the lane for this bit, a slow-path set among them, has not been applied (07 R165 order). -/
def laneHas (s : State) (t : Nat) (vpe : Option (BitVec 16)) (ev : EventId) : Bool :=
  ((s.lane (t / 16)).any fun w => decide (w.t = t) && decide (w.vpe = vpe) && decide (w.ev = ev)) ||
  s.msg.slow.any fun e => decide (slowSetTo s t vpe e = some ev)

/-- A lane holds a write for this bit of a vPE's table. -/
def vpeLaneHas (s : State) (v : BitVec 16) (ev : EventId) : Bool :=
  s.lanes.any fun p => p.2.any fun w => decide (w.vpe = some v) && decide (w.ev = ev)

/-! ### Issue of operations (07 R152 to R156) -/

/-- A free leaf exists. -/
def Tg.hasLeaf (x : Tg) : Bool := decide (x.entries.length < 4096)

/-- The vPE of a virtual entry of the tree: the one resident on its target (R150). -/
def entryVpe (s : State) (t : Nat) (virt : Bool) : Option (BitVec 16) := if virt then some (s.tgt t).vpe else none

/-- Enter an entry on a leaf, and clear the event's bit (R162). The next insert ends FLUSHED (07 R173). -/
def enter (s : State) (t : Nat) (e : Entry) : State :=
  enterClear ((s.modTgt t fun x => { x with entries := x.entries ++ [e] }).setBitR Reg.RNK_STAT 2 false)
    t (entryVpe s t e.virt) e.ev

/-- The new entry of an INS at the present stroke. -/
def entryOf (s : State) (o : TOp) : Entry :=
  let arr := if o.refill then s.count else o.arr
  { ev := o.ev, virt := o.virt, group := o.attr.group, base := o.attr.prio, arr := arr,
    eff := effPrio s o.attr.cls o.attr.prio arr s.count, cls := o.attr.cls }

/-- The insert takes a free leaf: not one formed as a REPLACE, while an entry stands to be replaced (R154, R168 step 3). -/
def takesLeaf (x : Tg) (o : TOp) : Bool := x.hasLeaf && (!o.repl || x.entries.isEmpty)

/-- An INS spills when it issues and meets no earlier case of R154: it needs a place in the spill buffer. -/
def insSpills (s : State) (t : Nat) (o : TOp) : Bool :=
  (insMeets s t o s.count).isNone && !takesLeaf (s.tgt t) o

/-- The target on which an INS meets its event. -/
def meetsOn (s : State) (t : Nat) (o : TOp) : Nat :=
  if (meetsAt s t o s.count).isSome then t else (heldElse s t o).getD t

/-- The bit of an event that an INS has met resident or active: the raise has merged with it (R56, R61, R162). -/
def mergeBit (s : State) (t : Nat) (o : TOp) : State :=
  if (residentIn (s.tgt t) o.virt o.ev).isSome || pendPart (s.tgt t) o.virt o.ev then
    enterClear s t (entryVpe s t o.virt) o.ev
  else s

/-- The outcome of an INS (07 R154). -/
def insDo (s : State) (t : Nat) (o : TOp) : State :=
  let arr := if o.refill then s.count else o.arr
  let s := if o.swept then s.cnt64 Reg.RNK_SWEEP_CNT else s
  let latched := fun (s : State) => if o.setp then setLatch s t o.virt o.ev true else s
  match insMeets s t o arr with
  | some s' => noteState (mergeBit (latched s') (meetsOn s t o) o) (meetsOn s t o) o.virt o.ev
  | none =>
    let s := latched s
    let x := s.tgt t
    let e := entryOf s o
    if takesLeaf x o then noteState (enter s t e) t o.virt o.ev
    else match worstOf s.count x.entries with
    | none => s
    | some w =>
      if ranksAbove s.count e w then
        let s := s.setTgt t { x with entries := x.entries.filter (fun f => !f.same w.virt w.ev) }
        let s := (spill s t w.virt w.ev w.base none).cnt64 Reg.RNK_SPILL_CNT
        noteState (enter s t e) t o.virt o.ev
      else noteState ((spill s t o.virt o.ev o.attr.prio o.wid).cnt64 Reg.RNK_SPILL_CNT) t o.virt o.ev

/-- Rewrite every resident entry. -/
def mapEntries (s : State) (t : Nat) (f : Entry → Entry) : State :=
  s.modTgt t fun x => { x with entries := x.entries.map f }

/-- Take a resident entry out. -/
def takeOut (s : State) (t : Nat) (virt : Bool) (ev : EventId) : State :=
  s.modTgt t fun x => { x with entries := x.entries.filter (fun f => !f.same virt ev) }

/-- Take the inserts that carry the pending event out of tree t. -/
def pullCarried (s : State) (t : Nat) (virt : Bool) (ev : EventId) : State :=
  if carriedIn (s.tgt t) virt ev then
    s.modTgt t fun x => x.mapOps fun l => l.filter fun o => !o.carries virt ev
  else s

/-- The event is pending in tree t: resident, or carried by an insert that has not issued. -/
def inTree (s : State) (t : Nat) (virt : Bool) (ev : EventId) : Bool :=
  (residentIn (s.tgt t) virt ev).isSome || carriedIn (s.tgt t) virt ev

/-- A removal for a drop (03 R57, R61): an active event is not affected, nor one that has edge sense by now; a set latch keeps a
pending one. The pending state is that of the entry and of the bit (R162), and of an insert that carries the event: all of it
goes. -/
def dropDo (s : State) (t : Nat) (virt : Bool) (ev : EventId) (vpe : BitVec 16) : State :=
  let v := if virt then some vpe else none
  if activeIn (s.tgt t) virt ev || !isLevel s virt ev then s
  else if inTree s t virt ev then
    if latchOn s t virt ev then s else laneClear (pullCarried (takeOut s t virt ev) t virt ev) t v ev true none
  else laneClear s t v ev true none

/-- The pending part of an active event is cleared (03 R61, Clear). -/
def clearPendPart (s : State) (t : Nat) (virt : Bool) (ev : EventId) : State :=
  s.modTgt t fun x =>
    let f := fun (a : Act) => if a.ev = ev then { a with pend := none } else a
    x.setCtx virt { x.ctx virt with stack := (x.ctx virt).stack.map f, split := (x.ctx virt).split.map f }

/-- A removal for a clear-pending command (03 R61, R441). An event whose line is asserted is pending again in the same
cycle: its entry, or the insert that carries it, takes the present stroke as arrival. -/
def clearDo (s : State) (t : Nat) (virt : Bool) (ev : EventId) (vpe : BitVec 16) (wid : Option Nat) : State :=
  let v := if virt then some vpe else none
  if activeIn (s.tgt t) virt ev then
    noteState (enterClear (setLatch (clearPendPart s t virt ev) t virt ev false) t v ev) t virt ev
  else if inTree s t virt ev then
    if lineOn s t virt ev then
      let again := fun (l : List TOp) => l.map fun o => if o.carries virt ev then { o with arr := s.count } else o
      setLatch ((mapEntries s t (fun e => if e.same virt ev then { e with arr := s.count, eff := e.base } else e)).modTgt t
        fun x => x.mapOps again) t virt ev false
    else laneClear (setLatch (pullCarried (takeOut s t virt ev) t virt ev) t virt ev false) t v ev false wid
  else laneClear s t v ev false wid

/-- A re-prioritise (07 R152): BASE, GROUP and CLASS of a resident entry are rewritten, EFF recomputed. -/
def rprDo (s : State) (t : Nat) (o : TOp) : State :=
  mapEntries s t fun e =>
    if e.same o.virt o.ev then
      { e with base := o.attr.prio, group := o.attr.group, cls := o.attr.cls,
               eff := effPrio s o.attr.cls o.attr.prio e.arr s.count }
    else e

/-- ARRIVAL rewritten where the age has reached 2^47 - 1 (03 R75, 07 R156). -/
def keepAge (n : Stroke) (a : Stroke) : Stroke :=
  if ageAt a n = 2 ^ 47 - 1 then n - BitVec.ofNat 48 (2 ^ 47 - 1) else a

/-- An age operation (07 R156). -/
def ageDo (s : State) (t : Nat) (c : BitVec 3) : State :=
  mapEntries s t fun e =>
    if e.cls = c then { e with eff := effPrio s c e.base e.arr s.count, arr := keepAge s.count e.arr } else e

/-- An FLS (07 R152): the entry is written to its pending table as a spill is. -/
def flsDo (s : State) (t : Nat) (virt : Bool) (ev : EventId) : State :=
  match residentIn (s.tgt t) virt ev with
  | none => s
  | some e => (spill (takeOut s t virt ev) t virt ev e.base none).cnt64 Reg.RNK_SPILL_CNT

/-- An operation that failed the check of 10 R230: an insert or an FLS entry is parked, a removal clears the bit, a
re-prioritise has no effect. A move-out that fails it finds no tree: the move goes on as for a vPE that is not resident
(06 R143). -/
def offTree (s : State) (t : Nat) (o : TOp) : State :=
  match o.kind with
  | .ins => parkReq s o.vpe o.ev o.attr.prio o.wid
  | .fls =>
    match residentIn (s.tgt t) true o.ev with
    | some e => parkReq (takeOut s t true o.ev) o.vpe o.ev e.base none
    | none => s
  | .drop => laneClear s t (some o.vpe) o.ev true none
  | .clr => laneClear s t (some o.vpe) o.ev false o.wid
  | .mvo => { s with move := s.move.map fun m => { m with off := true } }
  | _ => s

/-- The FLS of the switch in which the vPE leaves (10 R235 S2). -/
def switchFls (s : State) (t : Nat) (o : TOp) : Bool :=
  decide (o.kind = .fls) && (s.tgt t).sw.any fun k => decide (k.old = some o.vpe)

/-- A virtual operation that may not act in the tree (10 R230); the FLS of a residency switch acts (R235 S2). -/
def offTreeNow (s : State) (t : Nat) (o : TOp) : Bool :=
  o.virt && decide (o.kind ≠ .age) && !switchFls s t o && !vpeOk s t o.vpe

/-- The event of an operation is under a redirect on the old local tree (06 R142); an FLS writes what its own tree holds. -/
def redirected (s : State) (t : Nat) (o : TOp) : Option Move :=
  if o.kind = .age ∨ o.kind = .mvo ∨ o.kind = .fls then none
  else redirOf s (if o.virt then .vpe o.vpe else .tgt (globalT s t)) o.ev

/-- Payload of a RAISE flit (12 R283). -/
def raisePay (ev : EventId) (tl : Nat) (a : Attr) (kind ctx ift : Nat) (w : Bool) (arr : Stroke) (lineNo src : Nat) :
    BitVec 160 :=
  BitVec.ofNat 160 (ev.toNat + tl * 2 ^ 21 + a.prio.toNat * 2 ^ 28 + a.cls.toNat * 2 ^ 36 + a.group.toNat * 2 ^ 39 +
    kind * 2 ^ 40 + ctx * 2 ^ 42 + ift * 2 ^ 44 + w.toNat * 2 ^ 53 +
    arr.toNat * 2 ^ 64 + lineNo * 2 ^ 112 + src * 2 ^ 128)

end Sys2Proof.Machine
end

