-- ==== Sys2Proof/Machine/TreeOps.lean ====
section
/-! DEFINITION. The meanings of the Hatch-tree rows of the command table (07): INS, EXT, REM, RPR, AGE, FLS, the
refill and sweep rows, SPILL_SET_DONE, FLUSH_DONE, LOAD_DONE; and the trees' part of a stroke boundary. -/

namespace Sys2Proof.Machine

abbrev Out := Host.Outcome State Fault Refusal

/-! ### Raises for another instance (12 R296) -/

/-- The lowest free in-flight index. -/
def iftFree (s : State) : Option Nat := (List.range 512).find? fun i => (Tbl.find s.wft.ift i).isNone

/-- Take a write's entry out of the slow-path tracker. -/
def freeSlow (s : State) (wid : Nat) : State :=
  { s with msg := { s.msg with slow := s.msg.slow.filter fun e => decide (e.w.wid ≠ wid) } }

/-- Send a RAISE: it takes an in-flight entry, and a slow-path write's tracker entry is freed with that (05 R103), or its
source waits for one; the payload comes with its IFT field 0. -/
def iftSend (s : State) (e : Ift) : State :=
  match iftFree s with
  | some i =>
    let pay := e.pay ||| BitVec.ofNat 160 (i * 2 ^ 44)
    let s := e.wid.elim s (freeSlow s)
    sendFlit { s with wft := { s.wft with ift := Tbl.put s.wft.ift i { e with pay := pay } } } 0x10 e.dst pay
  | none => { s with wft := { s.wft with rwait := s.wft.rwait ++ [e] } }

/-- Raise a physical event on global target g of another instance; `wid` is the message write, or the ring's command, it
comes from, and `slice` the slice whose sub-queue waits with it. -/
def remoteRaise (s : State) (g : BitVec 14) (ev : EventId) (a : Attr) (kind ctx : Nat) (w : Bool) (arr : Stroke)
    (lineNo src q : Nat) (wid slice : Option Nat := none) : State :=
  iftSend s { dst := BitVec.ofNat 7 (g.toNat / 128),
              pay := raisePay ev (g.toNat % 128) a kind ctx 0 w arr lineNo src, q := q, wid := wid, slice := slice }

/-! ### Requests to another instance (12 R283, R299) -/

/-- A free REQ number. -/
def freeReq (s : State) : Nat :=
  ((List.range 256).find? fun i => (Tbl.find s.wft.cmds ((s.wft.nextReq + i) % 256)).isNone).elim 0
    fun i => (s.wft.nextReq + i) % 256

/-- Send a request's CMD flit: its code, event, target and attribute word. -/
def reqSend (s : State) (o : CmdOut) : State :=
  let q := freeReq s
  let s := { s with wft := { s.wft with cmds := Tbl.put s.wft.cmds q o.req, nextReq := (q + 1) % 256 } }
  sendFlit s 0x20 (BitVec.ofNat 7 o.req.inst)
    (BitVec.ofNat 160 (o.code + q * 2 ^ 4 + o.ev.toNat * 2 ^ 12 + o.target % 128 * 2 ^ 33 + o.att.toNat * 2 ^ 64))

/-- A request to another instance: it goes out, or waits while 16 are outstanding (12 R299). -/
def sendReq (s : State) (ring inst code : Nat) (ev : EventId) (target : Nat) (att : W64) (k : Cont) : State :=
  let o : CmdOut := { req := { ring := ring, inst := inst, cont := k, part0 := none, part1 := none }, code := code, ev := ev,
                      target := target, att := att }
  if s.wft.cmds.length < 16 then reqSend s o
  else { s with wft := { s.wft with reqWait := s.wft.reqWait ++ [o] } }

/-- Requests that wait take what has become free. -/
def pumpReq (s : State) : Nat → State
  | 0 => s
  | n + 1 =>
    match s.wft.reqWait with
    | [] => s
    | o :: r =>
      if s.wft.cmds.length < 16 then pumpReq (reqSend { s with wft := { s.wft with reqWait := r } } o) n else s

/-- Word 0 of an attribute entry (06 R123). -/
def attWord (a : Attr) (mapped used : Bool) (dest : BitVec 16) : W64 :=
  BitVec.ofNat 64 (a.prio.toNat + a.group.toNat * 2 ^ 8 + a.cls.toNat * 2 ^ 9 + mapped.toNat * 2 ^ 12 +
    used.toNat * 2 ^ 13 + dest.toNat * 2 ^ 16)

/-- The ring that an operation's number belongs to. -/
def widRing (wid : Option Nat) : Option Nat :=
  wid.bind fun w => if 2 ^ 64 ≤ w ∧ w < 2 ^ 64 + 8 then some (w - 2 ^ 64) else none

/-- A clear passed on to another instance: a CMD, and the ring's command waits for its answer (06 R142, 11 R264). -/
def forwardClear (s : State) (g : BitVec 14) (o : TOp) : State :=
  let req := fun (s : State) (r : Nat) (k : Cont) =>
    sendReq s r (g.toNat / 128) 2 o.ev (g.toNat % 128) (attWord o.attr false true (g.zeroExtend 16)) k
  match widRing o.wid with
  | some r => req (s.modRing r fun x => { x with run := x.run.map fun u => { u with kind := .remote } }) r .setClr
  | none => req s 0 .rest

def isLocal (s : State) (g : BitVec 14) : Bool := decide (g.toNat / 128 = s.instId.toNat)

/-! ### Redirects (06 R142) -/

/-- Hand an operation on to the new destination of a move. -/
def forwardOp (s : State) (m : Move) (o : TOp) : State :=
  match m.new with
  | .tgt g =>
    if isLocal s g then treePut s (g.toNat % 128) o
    else if o.kind = .ins then
      remoteRaise s g o.ev o.attr 0 0 false (if o.refill then s.count else o.arr) 0 0 0 o.wid
    else if o.kind = .clr then forwardClear s g o
    else s
  | .vpe v =>
    match o.kind with
    | .ins => virtPut s (virtOp v o.ev o.attr (if o.refill then s.count else o.arr) o.wid)
    | .rpr => if vpeInsertable s v then treePut s (s.vword v).target { o with vpe := v } else s
    | .drop => if vpeInsertable s v then treePut s (s.vword v).target { o with vpe := v }
               else laneClear s (s.vword v).target (some v) o.ev true none
    | .clr => if vpeInsertable s v then treePut s (s.vword v).target { o with vpe := v }
              else laneClear s (s.vword v).target (some v) o.ev false o.wid
    | _ => s

/-- An operation arrives at a tree's queue; an INS that finds it full goes, under a redirect, to the new destination
(06 R142, 07 R160). -/
def treeEnq (s : State) (t : Nat) (o : TOp) : State :=
  if o.kind = .ins ∧ 64 ≤ (s.tgt t).opq.length ∧ (meetsAt s t o o.arr).isNone then
    match redirected s t o with
    | some m => forwardOp s m o
    | none => treePut s t o
  else treePut s t o

/-- A raise of a virtual event for vPE v (10 R229): inserted on the target where v is resident, or parked. -/
def virtRaise (s : State) (v : BitVec 16) (ev : EventId) (a : Attr) (arr : Stroke) (wid : Option Nat) : State :=
  if vpeInsertable s v then treeEnq s (s.vword v).target (virtOp v ev a arr wid) else parkReq s v ev a.prio wid

/-- A raise arrives at a tree's queue; one that a full queue has handled at once is a change of state (12 R298). -/
def raiseEnq (s : State) (t : Nat) (o : TOp) : State :=
  if 64 ≤ (s.tgt t).opq.length then noteState (treeEnq s t o) t o.virt o.ev else treeEnq s t o

/-! ### Issue (07 R153, R155, R159) -/

/-- The operation that the next issue cycle belongs to, when no EXT waits and the stroke has a cycle left. -/
def headOp (s : State) (t : Nat) : Option TOp :=
  let x := s.tgt t
  if x.slots = 0 ∨ x.ext.isSome ∨ treesOn s = false then none else (x.urgent ++ x.adm).head?

/-- Take that operation and its issue cycle; an operation other than AGE and FLS is activity (17 R403). -/
def popOp (s : State) (t : Nat) : State :=
  let quiet := (headOp s t).all fun o => o.kind == .age || o.kind == .fls
  (if quiet then s else activity s).modTgt t fun x =>
    match x.urgent with
    | _ :: r => { x with urgent := r, slots := x.slots - 1 }
    | [] => { x with adm := x.adm.tail, slots := x.slots - 1 }

/-- Issue the head operation when its kind is wanted. An operation under a redirect is passed on (06 R142); a virtual
one that fails the check of 10 R230 leaves its cycle unused. -/
def issue (s : State) (t : Nat) (want : OpKind → Bool) (act : State → TOp → State) : State :=
  match headOp s t with
  | none => s
  | some o =>
    if !want o.kind then s
    else match redirected s t o with
    | some m => forwardOp (popOp s t) m o
    | none => if offTreeNow s t o then offTree (popOp s t) t o else act (popOp s t) o

/-- An operation that needs a place in the spill buffer and finds none at its issue cycle is carried over (07 R165). -/
def carryOver (s : State) (t : Nat) (o : TOp) : State :=
  (popOp s t).modTgt t fun x => { x with skip := x.skip ++ [o] }

/-- INS: carried over when it would spill and the buffer is full. -/
def issueIns (s : State) (t : Nat) : State :=
  match headOp s t with
  | some o =>
    if o.kind == .ins && insSpills s t o && spillFull s t && (redirected s t o).isNone && !offTreeNow s t o then
      carryOver s t o
    else issue s t (· == .ins) (fun s o => insDo s t o)
  | none => s

/-- REM: a drop or a clear (07 R152). -/
def issueRem (s : State) (t : Nat) : State :=
  issue s t (fun k => k == .drop || k == .clr) fun s o =>
    if o.kind = .drop then dropDo s t o.virt o.ev o.vpe else clearDo s t o.virt o.ev o.vpe o.wid

def execRpr (t : BitVec 7) (s : State) : Out :=
  .next (issue s t.toNat (· == .rpr) (fun s o => rprDo s t.toNat o))

def execAge (t : BitVec 7) (s : State) : Out :=
  .next (issue s t.toNat (· == .age) (fun s o => ageDo s t.toNat o.attr.cls))

/-- FLS: carried over when the spill buffer is full (07 R165). -/
def issueFls (s : State) (t : Nat) : State :=
  match headOp s t with
  | some o =>
    if o.kind == .fls && spillFull s t && !offTreeNow s t o then carryOver s t o
    else issue s t (· == .fls) (fun s o => flsDo s t o.virt o.ev)
  | none => s

def execFls (t : BitVec 7) (s : State) : Out := .next (issueFls s t.toNat)

/-- EXT of an accepted claim (07 R155): ahead of every other operation. -/
def execExt (t : BitVec 7) (s : State) : Out :=
  .next (let x := s.tgt t.toNat
    match x.ext with
    | none => s
    | some (virt, ev) =>
      if x.slots = 0 ∨ treesOn s = false then s
      else
        let s := takeOut (activity s) t.toNat virt ev
        s.modTgt t.toNat fun x => { x with ext := none, slots := x.slots - 1,
                                           wait := x.wait.map fun w => { w with done := true } })

/-! ### The trees' part of a stroke boundary (08, 07 R156 to R158, R166) -/

/-- Admission slots of a stroke of L cycles (07 R157). -/
def admSlots (l : Nat) : Nat := min 16 (l / 2)

/-- Some entry of class c steps, is behind a step that a jump has skipped (08 R186), or must have its arrival rewritten, at
stroke n (07 R156). -/
def classSteps (s : State) (x : Tg) (c : BitVec 3) : Bool :=
  x.entries.any fun e => decide (e.cls = c) &&
    (decide (effPrio s c e.base e.arr s.count ≠ effPrio s c e.base e.arr (s.count - 1)) ||
     decide (effPrio s c e.base e.arr s.count ≠ e.eff) ||
     decide (ageAt e.arr s.count = 2 ^ 47 - 1) ||
     bitAt s.rnk.classW c.toNat)

/-- Order 6: queue AGE operations; one already waiting or carried over stands for the new one (07 R156). -/
def ageQueue (s : State) (x : Tg) : Tg :=
  { x with ages := x.ages ++ ((List.range 8).map (BitVec.ofNat 3)).filter fun c =>
      classSteps s x c && !(x.ages.contains c) && !((x.skip ++ x.adm ++ x.carry).any fun o => o.kind = .age && decide (o.attr.cls = c)) }

def ageOp (c : BitVec 3) : TOp := mkOp .age false 0 { prio := 0, group := false, cls := c } 0

/-- Take queue operations into at most n slots; redirected and off-tree operations are handed on and take none. -/
def admitQ (s : State) (t : Nat) : List TOp → Nat → State × List TOp × List TOp
  | [], _ => (s, [], [])
  | o :: r, n =>
    match redirected s t o with
    | some m => admitQ (forwardOp s m o) t r n
    | none =>
      if offTreeNow s t o then admitQ (offTree s t o) t r n
      else match n with
      | 0 => (s, [], o :: r)
      | n + 1 => let a := admitQ s t r n; (a.1, o :: a.2.1, a.2.2)

/-- Admission of one tree at a boundary that opens a stroke of L cycles (07 R158): arrived leads, AGE up to half the
slots, carried-over operations in their order, the k operations that the queue held at the boundary, then the sweep engines'
inserts in the order of their arrival. What waits at a source then takes the queue's free entries. -/
def admitSpills (s : State) (l : Nat) (t k : Nat) : State :=
  let x := ageQueue s (s.tgt t)
  let S := admSlots l
  let n0 := S - x.urgent.length
  let a := x.ages.take (min n0 ((S + 1) / 2))
  let n1 := n0 - a.length
  let s := s.setTgt t { x with skip := [], adm := [], carry := [], opq := x.opq.drop k, sbuf := [], ages := x.ages.drop a.length }
  let c := admitQ s t (x.skip ++ x.adm ++ x.carry) n1
  let q := admitQ c.1 t (x.opq.take k) (n1 - c.2.1.length)
  let b := admitQ q.1 t x.sbuf (n1 - c.2.1.length - q.2.1.length)
  b.1.modTgt t fun y =>
    let room := 64 - (q.2.2.length + y.opq.length)
    { y with adm := a.map ageOp ++ c.2.1 ++ q.2.1 ++ b.2.1,
             carry := c.2.2 ++ y.carry,
             opq := q.2.2 ++ y.opq ++ y.src.take room,
             src := y.src.drop room,
             sbuf := b.2.2 ++ y.sbuf,
             fresh := false,
             slots := l / 2 }

/-- Refills of a kind may run on a target (07 R172, 10 R222, R234, R235). -/
def refillOk (s : State) (t : Nat) (virt : Bool) : Bool :=
  decide (pwrPhase s ≠ 1) &&
  if virt then
    let x := s.tgt t
    x.vpeV && x.sw.isNone && !x.fresh && decide ((s.panel (s.vword x.vpe).panel).state = .active)
  else s.rnkEn && (!s.bit Reg.RNK_STAT 0 || s.rnk.loaded.contains t)

/-- The vPE whose table a kind's refills read. -/
def vpeOf (s : State) (t : Nat) (virt : Bool) : Option (BitVec 16) := if virt then some (s.tgt t).vpe else none

def leadChunk (x : Tg) (virt : Bool) (k : Nat) : Bool := (x.lead virt).any fun ev => decide (chunkOf ev = k)

/-- A chunk waits for its sweep, once (07 R167, R168). -/
def waitSweep (e : SweepEng) (k : Nat) : SweepEng :=
  if e.waiting.contains k || (e.run.any fun r => decide (r.chunk = k)) then e else { e with waiting := e.waiting ++ [k] }

/-- Order 5 for one kind of one target (07 R166, R167). -/
def compareSum (s : State) (t : Nat) (virt : Bool) : State :=
  if !refillOk s t virt then s
  else
    let x := s.tgt t
    match bestChunk (leadChunk x virt) (x.sums virt) with
    | none => s
    | some (k, e) =>
      if !beatsRoot s t virt e.prio then s
      else if e.leadOk then
        if (x.lead virt).isSome then s
        else (s.setTgt t (x.setLead virt (some (BitVec.ofNat 21 (k * 1024 + e.lead.toNat))))).cnt64 Reg.RNK_LEAD_CNT
      else s.setTgt t (x.setSwp virt (waitSweep (x.swp virt) k))

def eachTgt (s : State) (f : State → Nat → State) : State := (s.tg.map (·.1)).foldl f s

/-- The classes' words take effect at a boundary (07 R176). -/
def classesLoad (s : State) : State :=
  { s with rnk := { s.rnk with classes := (List.range 8).map fun c => (c, s.rd (Reg.RNK_CLASS + 4 * c)) } }

/-- Orders 4 to 6 for every tree: of every queue, what it held when the boundary began is admitted. -/
def treesBoundary (s : State) (l : Nat) : State :=
  let s := eachTgt (classesLoad s) fun s t =>
    compareSum (compareSum (s.modTgt t fun x => { x with fresh := false }) t false) t true
  let s := (s.tg.map fun p => (p.1, p.2.opq.length)).foldl (fun s p => admitSpills s l p.1 p.2) s
  { s with rnk := { s.rnk with classW := 0 } }

/-! ### Errors of the ranking (07 R174) -/

def rnkErr (s : State) (i t : Nat) (ev : EventId) : State :=
  logErr s 3 Reg.RNK_ERR i 0 Reg.RNK_ERR_LOG 31 fun s =>
    s.wr Reg.RNK_ERR_LOG (BitVec.ofNat 32 (ev.toNat + t % 128 * 2 ^ 21 + i * 2 ^ 28))

/-! ### Leads and sweeps (07 R167 to R169) -/

/-- Enter a refilled event: on the old tree of a redirect it goes to the new destination (06 R142). -/
def refillIns (s : State) (t : Nat) (virt urgent swept repl : Bool) (ev : EventId) (a : Attr) : State :=
  let o : TOp := { mkOp .ins virt ev a s.count with refill := true, swept := swept, repl := repl, vpe := (s.tgt t).vpe }
  match redirected s t o with
  | some m => forwardOp s m o
  | none =>
    s.modTgt t fun x =>
      if urgent then { x with urgent := x.urgent ++ [o] }
      else { x with sbuf := x.sbuf ++ [o] }

def clearLeadOk (x : Tg) (virt : Bool) (k : Nat) : Tg :=
  let m := x.sums virt
  x.setSums virt (Tbl.put m k { Tbl.get Sum.empty m k with leadOk := false })

/-- LEAD_ARRIVE: the lead's line and attributes arrive (07 R167). -/
def leadArrive (s : State) (t : Nat) (virt fail : Bool) : State :=
  let x := s.tgt t
  match x.lead virt with
  | none => s
  | some ev =>
    let vpe := vpeOf s t virt
    if laneHas s t vpe ev then s
    else if fail then rnkErr (s.setTgt t (x.setLead virt none)) 3 t ev
    else
      let k := chunkOf ev
      let x := clearLeadOk (x.setLead virt none) virt k
      let s := s.setTgt t (x.setSwp virt (waitSweep (x.swp virt) k))
      if !pendBit s t vpe ev then s.reads (bitAddr s t vpe ev) 1
      else
        let s := putBit s t vpe ev false
        if noAttrs s vpe ev then noteState s t virt ev
        else refillIns (readAttr s vpe ev) t virt true false false ev (refillAttr s t vpe ev)

def execLeadArrive (t : BitVec 7) (virt fail : Bool) (s : State) : Out := 
  .next (if engOn s 3 then s.served (s.withFail (.refill t virt) 1 fail fun s fail => leadArrive s t.toNat virt fail) else s)

/-- A running or waiting chunk beats the root (07 R168). -/
def sweepUrgent (s : State) (t : Nat) (virt : Bool) : Bool :=
  let x := s.tgt t
  let e := x.swp virt
  let live := fun k => beatsRoot s t virt (Tbl.get Sum.empty (x.sums virt) k).prio && (Tbl.get Sum.empty (x.sums virt) k).v
  (e.run.any fun r => live r.chunk) || e.waiting.any live

/-- Charge n non-urgent virtual sweep reads to the Panel's SHT_RATE of this epoch in the lane; none when they are
spent (10 R234). -/
def shtTake (s : State) (t : Nat) (virt : Bool) (n : Nat) : Option State :=
  if !virt || sweepUrgent s t virt then some s
  else
    let p := (s.vword (s.tgt t).vpe).panel
    let key := t / 16 * 1024 + p
    let used := Tbl.get 0 s.pnl.sht key
    if used + n ≤ s.fld (shareOff p Reg.PNL_SHR_LIVE1) 31 24 then
      some { s with pnl := { s.pnl with sht := Tbl.put s.pnl.sht key (used + n) } }
    else none

/-- The waiting chunk that the order of R166 puts first. -/
def bestWaiting (x : Tg) (virt : Bool) : Option Nat :=
  (bestChunk (fun k => !(x.swp virt).waiting.contains k) (x.sums virt)).map (·.1) <|> (x.swp virt).waiting.head?

def startSweep (x : Tg) (virt : Bool) (k : Nat) (due : Bool) : Tg :=
  let e := x.swp virt
  x.setSwp virt { e with waiting := e.waiting.filter (· ≠ k),
                         run := some { chunk := k, taken := false, snap := [], result := Sum.empty, due := due } }

/-- Begin the sweep of chunk k with the reads of its two lines. Where SHT_RATE leaves one read of this epoch, the second
line is read in a later one; where it leaves none, the sweep does not begin (10 R234). -/
def beginSweep (s : State) (t : Nat) (virt : Bool) (k : Nat) : State :=
  match shtTake s t virt 2 with
  | some s => s.modTgt t fun x => startSweep x virt k false
  | none =>
    match shtTake s t virt 1 with
    | some s => s.modTgt t fun x => startSweep x virt k true
    | none => s

/-- SWEEP_START (07 R168). -/
def sweepStart (s : State) (t : Nat) (virt : Bool) : State :=
  let x := s.tgt t
  if !refillOk s t virt || (x.swp virt).run.isSome then s
  else match bestWaiting x virt with
  | none => s
  | some k => beginSweep s t virt k

def execSweepStart (t : BitVec 7) (virt : Bool) (s : State) : Out := 
  .next (if engOn s 3 then sweepStart s t.toNat virt else s)

/-- BACKGROUND_SWEEP (07 R169). -/
def backgroundSweep (s : State) (t : Nat) (virt : Bool) : State :=
  let x := s.tgt t
  if refillOk s t virt && decide (x.entries.length < s.fld Reg.RNK_REFILL 28 16) && (x.swp virt).run.isNone &&
     (x.swp virt).waiting.isEmpty && (x.lead virt).isNone then
    match bestChunk (fun _ => false) (x.sums virt) with
    | none => s
    | some (k, _) => beginSweep s t virt k
  else s

def execBackgroundSweep (t : BitVec 7) (virt : Bool) (s : State) : Out := 
  .next (if engOn s 3 then backgroundSweep s t.toNat virt else s)

/-- SWEEP_END: the live entry takes the result (07 R168 step 4). -/
def sweepEnd (x : Tg) (virt : Bool) : Tg :=
  let e := x.swp virt
  match e.run with
  | none => x
  | some r =>
    let m := x.sums virt
    let x := x.setSums virt (if r.result.v then Tbl.put m r.chunk r.result else Tbl.del m r.chunk)
    x.setSwp virt { e with run := none }

/-- A failed lead or sweep read: REFILL_FAIL; the bits stay set and the chunk keeps its live entry (07 R173). -/
def sweepFail (s : State) (t : Nat) (virt : Bool) (ev : EventId) : State :=
  rnkErr (s.modTgt t fun x => x.setSwp virt { x.swp virt with run := none }) 3 t ev

/-- The snapshot of a running sweep's chunk (07 R168 step 1). -/
def sweepSnap (s : State) (t : Nat) (virt : Bool) (r : Sweep) : State :=
  let x := s.tgt t
  let vpe := vpeOf s t virt
  let snap := ((List.range 1024).map fun i => BitVec.ofNat 21 (r.chunk * 1024 + i)).filter (pendBit s t vpe)
  let x := clearLeadOk x virt r.chunk
  let x := x.setSwp virt { x.swp virt with run := some { r with taken := true, snap := snap, due := false } }
  s.setTgt t (if snap.isEmpty then sweepEnd x virt else x)

/-- SWEEP_LINES_ARRIVE: the snapshot (07 R168 step 1). A line still to be read is charged to the epoch in which it is read
(10 R234). -/
def sweepLines (s : State) (t : Nat) (virt fail : Bool) : State :=
  match ((s.tgt t).swp virt).run with
  | none => s
  | some r =>
    if r.taken then s
    else match (if r.due then shtTake s t virt 1 else some s) with
    | none => s
    | some s =>
      let ev : EventId := BitVec.ofNat 21 (r.chunk * 1024)
      if fail then sweepFail s t virt ev else sweepSnap (s.reads (bitAddr s t (vpeOf s t virt) ev) 128) t virt r

def execSweepLinesArrive (t : BitVec 7) (virt fail : Bool) (s : State) : Out := 
  .next (if engOn s 3 then s.served (s.withFail (.refill t virt) 1 fail fun s fail => sweepLines s t.toNat virt fail) else s)

/-- Move on to the next snapshot bit, or end the sweep. -/
def sweepNext (s : State) (t : Nat) (virt : Bool) : State :=
  s.modTgt t fun x =>
    let e := x.swp virt
    match e.run with
    | none => x
    | some r =>
      let x := x.setSwp virt { e with run := some { r with snap := r.snap.tail } }
      if r.snap.tail.isEmpty then sweepEnd x virt else x

/-- Step 3 of 07 R168 for an event whose bit was set and has been cleared. A tree without an entry has no worst entry, and
the event is inserted whatever RESERVE is (DESIGN CHOICE, log 71). The setting again, of class 4 (01 R440), finds its line M
from the test-and-clear of the same visit, and so makes no request. -/
def sweepPlace (s : State) (t : Nat) (virt : Bool) (ev : EventId) : State :=
  let x := s.tgt t
  let vpe := vpeOf s t virt
  let a := refillAttr s t vpe ev
  let e := entryOf s { mkOp .ins virt ev a s.count with refill := true }
  let above := match worstOf s.count x.entries with
    | none => true
    | some w => ranksAbove s.count e w
  let room := decide (s.fld Reg.RNK_REFILL 12 0 < 4096 - x.entries.length)
  -- on the old tree of a redirect the insert goes to the new destination, whatever stands here (06 R142, R171)
  let moved := (redirected s t { mkOp .ins virt ev a s.count with vpe := x.vpe }).isSome
  if moved || room || above then refillIns s t virt (sweepUrgent s t virt) true (!room) ev a
  else
    (putBit s t vpe ev true).modTgt t fun x =>
      x.setSwp virt { x.swp virt with run := (x.swp virt).run.map fun r =>
        { r with result := r.result.mark a.prio (leadOff ev) } }

/-- SWEEP_ATTR_ARRIVE: one snapshot event is visited (07 R168 steps 2 and 3). -/
def sweepAttr (s : State) (t : Nat) (virt fail : Bool) : State :=
  let x := s.tgt t
  match (x.swp virt).run with
  | none => s
  | some r =>
    match r.snap with
    | [] => s
    | ev :: _ =>
      let vpe := vpeOf s t virt
      if !r.taken || laneHas s t vpe ev || decide (16 ≤ (x.buf virt).length) then s
      else if !pendBit s t vpe ev then sweepNext (s.reads (bitAddr s t vpe ev) 1) t virt
      else if noAttrs s vpe ev then sweepNext (noteState (putBit s t vpe ev false) t virt ev) t virt
      else match shtTake s t virt 1 with
      | none => s
      | some s =>
        if fail then sweepFail s t virt ev
        else sweepNext (sweepPlace (readAttr (putBit s t vpe ev false) vpe ev) t virt ev) t virt

def execSweepAttrArrive (t : BitVec 7) (virt fail : Bool) (s : State) : Out := 
  .next (if engOn s 3 then s.served (s.withFail (.refill t virt) 1 fail fun s fail => sweepAttr s t.toNat virt fail) else s)

/-! ### Spills (07 R165) -/

/-- Mark a vPE's summary: the live one of its target while it is resident there and not leaving, otherwise its
table in memory, with BEST (10 R231 step 3). -/
def markVirt (s : State) (v : BitVec 16) (ev : EventId) (p : Byte) : State :=
  let w := s.vword v
  let x := s.tgt w.target
  let leaving := x.sw.any fun k => decide (k.old = some v)
  if w.res && !leaving then markLive s w.target true ev p
  else
    let a := vsumBase s v + 4 * chunkOf ev
    let m := ((Sum.ofWord (s.load32 a)).getD Sum.sweepAll).mark p (leadOff ev)
    (s.store32 a m.word).setVword v { w with best := minByte w.best p }

/-- The first spill of a lane whose table is in use: while RNK_CTRL.EN is 0 a physical spill has nowhere to write
(07 R172). -/
def nextSpill (s : State) : List LaneW → Option (LaneW × List LaneW)
  | [] => none
  | w :: r => if w.set && tableOn s w.vpe then some (w, r) else (nextSpill s r).map fun p => (p.1, w :: p.2)

/-- A direct spill that has waited for a free buffer entry is handled again (07 R160, R165). -/
def directNext (s : State) (t : Nat) : State :=
  match (s.tgt t).dsp with
  | [] => s
  | o :: r =>
    if spillFull s t then s
    else
      let s := s.modTgt t fun x => { x with dsp := r }
      match redirected s t o with
      | some m => forwardOp s m o
      | none =>
        if offTreeNow s t o then offTree s t o
        else match insMeets s t o o.arr with
        | some s' => noteState s' t o.virt o.ev
        | none => spill s t o.virt o.ev o.attr.prio o.wid

/-- The targets of lane l, for the buffer entry that has become free. -/
def directLane (s : State) (l : Nat) : State :=
  ((s.tg.filter fun p => decide (p.1 / 16 = l) && !p.2.dsp.isEmpty).map (·.1)).foldl directNext s

/-- SPILL_SET_DONE: the oldest spill of a lane is set and its chunk marked, or has failed after its retries. -/
def spillSetDone (s : State) (l : Nat) (fail : Bool) : State :=
  match nextSpill s (s.lane l) with
  | none => s
  | some (w, r) =>
    let s := s.setLane l r
    let s :=
      if fail then rnkErr (cmdFail s w.wid) 2 w.t w.ev
      else
        let s := putBit s w.t w.vpe w.ev true
        match w.vpe with
        | none => markLive s w.t false w.ev w.prio
        | some v =>
          if (s.tgt w.t).vpeV && decide ((s.tgt w.t).vpe = v) && (s.vword v).res then markLive s w.t true w.ev w.prio
          else markVirt s v w.ev w.prio
    directLane (laneDrain (noteState s w.t w.vpe.isSome w.ev) l) l

/-! ### Flush and load (07 R172) -/

def sumBase (s : State) (t : Nat) : Nat := (s.rd64 Reg.RNK_SUM_BASE).toNat + t * 0x2000

/-- No entry and no spill remains anywhere. -/
def treesEmpty (s : State) : Bool :=
  (s.tg.all fun p => p.2.entries.isEmpty) && (s.lanes.all fun p => p.2.isEmpty)

/-- Write the live physical entries of every target to its summary table: words of chunks without an entry are 0. -/
def writeSums (s : State) : State :=
  let lo := sumBase s 0
  let hi := sumBase s s.par.targets
  let s := { s with mem := s.mem.filter fun c => !(decide (lo ≤ c.1) && decide (c.1 < hi)), coh := cohRun s.coh lo (hi - lo) }
  s.tg.foldl (fun s p => p.2.sumP.foldl (fun s e => s.store32 (sumBase s p.1 + 4 * e.1) e.2.word) s) s

/-- Queue an FLS for every resident entry that has none waiting. -/
def queueFls (s : State) (t : Nat) (p : Entry → Bool) : State :=
  s.modTgt t fun x =>
    let has := fun (e : Entry) => x.ops.any fun o => o.kind = .fls && o.virt = e.virt && decide (o.ev = e.ev)
    let new := (x.entries.filter fun e => p e && !has e).map fun e =>
      { mkOp .fls e.virt e.ev { prio := e.base, group := e.group, cls := e.cls } e.arr with vpe := x.vpe }
    let room := if x.src.isEmpty then 64 - x.opq.length else 0
    { x with opq := x.opq ++ new.take room, src := x.src ++ new.drop room }

/-- Start, or go on with, a flush of every tree. -/
def flushAll (s : State) : State := eachTgt s fun s t => queueFls s t fun _ => true

/-- The chunks with a nonzero byte between lo and lo + n * w (w bytes a chunk). -/
def usedChunks (m : List Host.Cell) (lo n w : Nat) : List Nat :=
  ((m.filter fun c => decide (lo ≤ c.1) && decide (c.1 < lo + n * w)).map fun c => (c.1 - lo) / w).dedup

/-- The loaded summary of a target, with the marks of the load's time on top (07 R172). -/
def loadSum (s : State) (t : Nat) (bad : List (Nat × Nat)) : Tbl Sum :=
  let badOf := fun k => bad.contains (t, k)
  let chunks := if s.rnk.rebuild then usedChunks s.mem (ptAddr s t 0) 2048 128 else usedChunks s.mem (sumBase s t) 2048 4
  let all := (chunks ++ (bad.filter fun b => decide (b.1 = t) && decide (b.2 < 2048)).map (·.2)).dedup
  let one := fun k => if s.rnk.rebuild || badOf k then Sum.sweepAll
    else (Sum.ofWord (s.load32 (sumBase s t + 4 * k))).getD Sum.sweepAll
  let base : Tbl Sum := (all.map fun k => (k, one k)).filter fun e => e.2.v
  (s.tgt t).sumP.foldl (fun m e =>
    if e.2.v then Tbl.put m e.1 ((Tbl.get Sum.empty m e.1).mark e.2.prio e.2.lead) else m) base

/-- The chunks of target t whose word could not be used in a load: read failures and, but in a rebuild, nonzero reserved
fields. -/
def badChunks (s : State) (t : Nat) (bad : List (Nat × Nat)) : List Nat :=
  (bad.filter fun b => decide (b.1 = t)).map (·.2) ++
    (if s.rnk.rebuild then [] else (usedChunks s.mem (sumBase s t) 2048 4).filter fun k =>
      (Sum.ofWord (s.load32 (sumBase s t + 4 * k))).isNone)

/-- The words of a target's load that could not be used, each once, in the order in which its lines are read (07 R172). -/
def badWords (s : State) (bad : List (Nat × Nat)) (t : Nat) : List (Nat × Nat) :=
  let ks := badChunks s t bad
  if ks.isEmpty then [] else ((List.range 2048).filter ks.contains).map fun k => (t, k)

/-- The targets of a load whose tables are still to be read. -/
def toLoad (s : State) : List Nat := (List.range s.par.targets).filter fun t => !s.rnk.loaded.contains t

/-- A lane reads its targets in ascending order: target t is the next of its lane. -/
def nextLoad (s : State) (t : Nat) : Bool := (toLoad s).find? (fun u => decide (u / 16 = t / 16)) = some t

/-- The words whose read failed: those named, and those whose lines came with an error (13 R321). -/
def loadBad (s : State) (bad : List (Nat × Nat)) (t : Nat) : List (Nat × Nat) :=
  if s.coh.failed.all fun e => decide (e.1 ≠ .load) then bad
  else
    let lost := fun (k : Nat) =>
      if s.rnk.rebuild then s.lost .load (ptAddr s t 0 + 128 * k) || s.lost .load (ptAddr s t 0 + 128 * k + 64)
      else s.lost .load (sumBase s t + 4 * k)
    bad ++ ((List.range 2048).filter lost).map fun k => (t, k)

/-- The table of target t has been read: its entries take the loaded values. -/
def loadTgt (bad : List (Nat × Nat)) (s : State) (t : Nat) : State :=
  let bad := loadBad s bad t
  let words := badWords s bad t
  let m := loadSum s t bad
  let s := if m.isEmpty && (s.tgt t).sumP.isEmpty then s else s.modTgt t fun x => { x with sumP := m }
  let s := { s with rnk := { s.rnk with loaded := t :: s.rnk.loaded } }
  words.foldl (fun s b => rnkErr s 4 b.1 (BitVec.ofNat 21 (b.2 * 1024))) s

/-- A load ends once every table has been read. -/
def loadEnd (s : State) : State :=
  if (toLoad s).isEmpty then
    let s := s.setBitR Reg.RNK_STAT 0 false
    let s := if s.rnk.rebuild then s.setBitR Reg.RNK_STAT 1 false else s
    { s.forget .load with rnk := { s.rnk with rebuild := false, loaded := [] } }
  else s

/-- LOAD_DONE: the table of a target has been read, or those of all that were left (07 R172; log 91). -/
def loadDone (s : State) (t : Option Nat) (bad : List (Nat × Nat)) : State :=
  if !s.bit Reg.RNK_STAT 0 then s
  else match t with
  | none => loadEnd ((toLoad s).foldl (loadTgt bad) s)
  | some t => if nextLoad s t then loadEnd (loadTgt bad s t) else s

def execLoadDone (t : Option (BitVec 7)) (bad : List (BitVec 7 × BitVec 11)) (s : State) : Out :=
  .next (if engOn s 3 then loadDone s (t.map (·.toNat)) (bad.map fun b => (b.1.toNat, b.2.toNat)) else s)

end Sys2Proof.Machine
end

