-- ==== Sys2Proof/Machine/Target.lean ====
section
/-! DEFINITION. Target engines (09): channel and frame operations, completion and the split list, inter-target
events, masks and splits, target-local inputs, and the three outputs. -/

namespace Sys2Proof.Machine

/-- Status codes of 00 R7. -/
abbrev stOk : Nat := 0
abbrev stBusy : Nat := 1
abbrev stBadOp : Nat := 2
abbrev stBadRsv : Nat := 3
abbrev stBadRange : Nat := 4
abbrev stNotQuiesced : Nat := 5
abbrev stOvercommit : Nat := 6
abbrev stMemError : Nat := 7
abbrev stNeedsPresence : Nat := 8
abbrev stAbsent : Nat := 9

/-! ### Running priority, eligibility (03 R70, R71) -/

/-- RP: the PV of the stack's top entry; 0x100 is idle. -/
def Ctx.rp (c : Ctx) : Nat :=
  match c.stack with
  | [] => 0x100
  | a :: _ => a.pv.toNat

/-- The three tests of 03 R71. -/
def eligible (c : Ctx) (e : Entry) : Bool :=
  decide (e.eff < c.pmask) && decide (e.eff.toNat < c.rp) && decide (c.stack.length < 16)

/-- PV = max(0, E - 2^SPLIT + 1) (03 R70). -/
def pvOf (eff : Byte) (sp : BitVec 3) : Byte := BitVec.ofNat 8 (eff.toNat + 1 - 2 ^ sp.toNat)

/-- The margin setting of a group: every virtual event uses VSPLIT. -/
def Ctx.splitOf (c : Ctx) (virt group : Bool) : BitVec 3 := if virt || group then c.split1 else c.split0
def Ctx.splitcOf (c : Ctx) (virt group : Bool) : Bool := if virt || group then c.splitc1 else c.splitc0

/-- A guest's operations act: a vPE is resident and no switch is in progress (09 R212). -/
def guestOn (x : Tg) : Bool := x.vpeV && x.sw.isNone

/-! ### The outputs (09 R213 to R215, 03 R71) -/

/-- Group of the eligible physical head, as tp_fast_o (group 0) and tp_irq_o (group 1) show it; during a physical
claim's hold, the group of the claimed event (09 R214). -/
def physSignal (s : State) (t : Nat) : Option Bool :=
  let x := s.tgt t
  match x.ext with
  | some (false, _) => some x.hold
  | _ =>
    match headOf s t false with
    | some e => if eligible x.phys e then some e.group else none
    | none => none

/-- Level of tp_irq_o, tp_fast_o and tp_virq_o in running operation, before the hold of a power state. While a virtual claim's EXT
waits, tp_virq_o repeats its result even if a switch starts meanwhile (DESIGN CHOICE between R211 and R214, log 102). -/
def tpIrq (s : State) (t : Nat) : Bool := physSignal s t = some true
def tpFast (s : State) (t : Nat) : Bool := physSignal s t = some false
def tpVirq (s : State) (t : Nat) : Bool :=
  let x := s.tgt t
  match x.ext with
  | some (true, _) => true
  | _ => guestOn x && (headOf s t true).any (eligible x.virt)

/-! ### Responses (09 R200) -/

def claimWord (ev : EventId) (group : Bool) (eff : Byte) (taken : Bool) : W32 :=
  BitVec.ofNat 32 (ev.toNat + group.toNat * 2 ^ 21 + eff.toNat * 2 ^ 22 + taken.toNat * 2 ^ 31)

/-- NONE with TAKEN 0. -/
def noneWord : W32 := 0x001FFFFF

def statusWord (st : Nat) (ign : Bool) : W32 := BitVec.ofNat 32 (st + ign.toNat * 256)

/-! The register port's responses (02 R32): in the order of acceptance, each presented until it is taken. -/

/-- The accesses left once reg_rsp_ready_i has taken n of the responses presented. -/
def takeRsps : Nat → List PortAcc → List PortAcc
  | n + 1, a :: r => if a.rsp.isSome then takeRsps n r else a :: r
  | _, l => l

/-- reg_req_ready_o is not held low for want of room: fewer than 8 accesses are unanswered or untaken. -/
def portRoom (s : State) : Bool := decide (s.port.q.length < 8)

/-- An access is accepted. -/
def portAccept (s : State) : State :=
  { s with port := { s.port with q := s.port.q ++ [{ id := s.port.next, rsp := none }], next := s.port.next + 1 } }

/-- The response at the front is presented. -/
def portShow (s : State) : State :=
  match s.port.q with
  | { id := _, rsp := some r } :: _ => { s with port := { s.port with err := r.1, data := r.2 } }
  | _ => s

/-- reg_rsp_ready_i takes n responses; the next one that has been answered is presented. -/
def portTaken (s : State) (n : Nat) : State := portShow { s with port := { s.port with q := takeRsps n s.port.q } }

/-- Access n is answered. -/
def portAnswer (s : State) (n : Nat) (err : Bool) (data : W64) : State :=
  portShow { s with port := { s.port with q := s.port.q.map fun a => if a.id = n then { a with rsp := some (err, data) } else a } }

/-- The number of the access accepted last. -/
def portLast (s : State) : Nat := s.port.next - 1

/-- Present a claim-format response on the channel, or as the word of a frame read: `lane` is its place on the byte lanes of
the register port (16 R377), `also` what a 64-bit read shows beside it. A Burin or the side-band takes the word itself. -/
def answerRead (s : State) (t : Nat) (p : Path) (w : W32) (lane : Nat) (also : W64 := 0) : State :=
  if p.isFrame then
    if p.src = .port then portAnswer s (portLast s) false (((w.zeroExtend 64) <<< lane) ||| also) else s
  else s.modTgt t fun x => { x with rsp := w }

/-- Present a status: on the channel, or in TGT_OPSTAT (09 R217). -/
def answer (s : State) (t : Nat) (p : Path) (st : Nat) (ign : Bool) : State :=
  if p.isFrame then s.wr (tgtOff t Reg.TGT_OPSTAT) (statusWord st ign)
  else s.modTgt t fun x => { x with rsp := statusWord st ign }

def tgtFlag (s : State) (t i : Nat) : State := setFlag s 5 (tgtOff t Reg.TGT_ERR) i t false

def badOp (s : State) (t : Nat) (p : Path) : State := answer (tgtFlag s t 1) t p stBadOp false
def badRsv (s : State) (t : Nat) (p : Path) : State := answer (tgtFlag s t 2) t p stBadRsv false

/-- Ignored and counted (03 R61, 09 R206). -/
def badComplete (s : State) (t : Nat) (p : Path) : State :=
  answer (tgtFlag (s.cnt32 (tgtOff t Reg.TGT_BADC_CNT)) t 0) t p stOk true

/-- A guest operation that meets no resident vPE (09 R212). -/
def noVpe (s : State) (t : Nat) (p : Path) : State := answer (tgtFlag s t 5) t p stOk true

/-- The register port answers accesses: running, and not in the commit, asleep or in fast running (02 R43; 16 R391;
17 R408, R419). -/
def regPortOpen (s : State) : Bool :=
  decide (s.rst.phase = .run) && decide (pwrPhase s ≠ 3) && decide (pwrPhase s ≠ 4) && decide (pwrPhase s ≠ 5) &&
  liveOn s 1

/-- The engine accepts an operation: the target is built, its port carries no request whose response is
outstanding (02 R26), and tp_req_ready_o, or the register port, is not held low. -/
def accepts (s : State) (t : Nat) (p : Path) : Bool :=
  decide (t < s.par.targets) &&
  (if p.isFrame then regPortOpen s else portsOpen s && !((s.tgt t).wait.any fun w => w.src.isNone))

/-- A frame access without the privileged attribute is no operation: it reads 0 and writes nothing (09 R217, 16 R6). On the
register port an access takes its place among those to be answered; a write is answered as soon as it has acted. -/
def frameOp (act : State → State) (read : Bool) (p : Path) (s : State) : State :=
  if p.src ≠ .port then (if p.acc.priv then act (wake s 5 0) else s)
  else if !portRoom s then s
  else
    let s := portAccept (wake (activity s) 5 0)
    let n := portLast s
    if !p.acc.priv then portAnswer s n false 0
    else if read then act s else portAnswer (act s) n false 0

/-- A request is offered: on the channel it wakes the block from DOZE (17 R402); on the register port the responses of earlier
accesses are taken. One that the engine does not take stays offered. -/
def offered (p : Path) (s : State) : State :=
  if !p.isFrame then wake s 5 0 else if p.src = .port then portTaken s p.acc.taken else s

/-- An operation is offered; an accepted one is activity (17 R403). -/
def chanOp (act : State → State) (t : Nat) (p : Path) (s : State) (read : Bool := false) : State :=
  let s := offered p s
  if !accepts s t p then s
  else if p.isFrame then frameOp act read p s
  else act (activity s)

/-! ### Claim and peek (09 R202, R203) -/

/-- The entry that a claim from a context takes (03 R55, R67, R72). -/
def claimPick (s : State) (t : Nat) (ctx : BitVec 2) : Option Entry :=
  let x := s.tgt t
  let virt := decide (ctx = 2)
  if virt && !guestOn x then none
  else match headOf s t virt with
  | none => none
  | some e => if eligible (x.ctx virt) e && (decide (ctx ≠ 1) || e.group) then some e else none

/-- Take an entry: Active, pushed with its preemption value, EXT waiting (09 R202). -/
def takeClaim (s : State) (t : Nat) (p : Path) (e : Entry) : State :=
  let x := s.tgt t
  let c := x.ctx e.virt
  let a : Act := { ev := e.ev, group := e.group, eff := e.eff, pv := pvOf e.eff (c.splitOf e.virt e.group), pend := none }
  let x := x.setCtx e.virt { c with stack := a :: c.stack }
  let w : ClaimWait := { virt := e.virt, ev := e.ev, done := false, resp := claimWord e.ev e.group e.eff true,
                         src := if p.isFrame then some p.src else none, slot := portLast s, sec := decide (p.ctx = 0),
                         wide := p.acc.wide }
  let s := s.setTgt t { x with ext := some (e.virt, e.ev), hold := if e.virt then x.hold else e.group, wait := some w }
  noteState (setLatch s t e.virt e.ev false) t e.virt e.ev

/-- PEEK (R203). Of the kind whose claim waits, NONE; of the other it shows the head entry, with TAKEN 0 since no claim would be
accepted (DESIGN CHOICE, log 68). -/
def peekWord (s : State) (t : Nat) (ctx : BitVec 2) : W32 :=
  let x := s.tgt t
  let virt := decide (ctx = 2)
  if (x.ext.any fun e => e.1 = virt) || (virt && !guestOn x) then noneWord
  else match headOf s t virt with
  | none => noneWord
  | some e =>
    if ctx = 1 ∧ e.group = false then noneWord
    else claimWord e.ev e.group e.eff ((claimPick s t ctx).isSome && x.wait.isNone)

/-- What a 64-bit read of TGT_CLAIM with TGT_PEEK shows in its upper half: the peek comes after the claim (R217). -/
def alsoPeek (s : State) (t : Nat) (p : Path) : W64 :=
  if p.acc.wide then (peekWord s t p.ctx).zeroExtend 64 <<< 32 else 0

def claimDo (s : State) (t : Nat) (p : Path) : State :=
  if p.ctx = 3 then badOp s t p
  else match claimPick s t p.ctx with
  | none => answerRead s t p noneWord 0 (alsoPeek s t p)
  | some e => takeClaim s t p e

/-- CLAIM_RESPONSE: presented once the EXT's head entries have reached the engine (09 R201); the peek of a 64-bit read is
made then (log 68). -/
def claimResponse (s : State) (t : Nat) : State :=
  match (s.tgt t).wait with
  | none => s
  | some w =>
    if !w.done then s
    else
      let s := s.modTgt t fun x => { x with wait := none }
      match w.src with
      | some .port =>
        portAnswer s w.slot false (w.resp.zeroExtend 64 ||| alsoPeek s t (.frame w.sec .port { wide := w.wide }))
      | some _ => s
      | none => s.modTgt t fun x => { x with rsp := w.resp }

def peekDo (s : State) (t : Nat) (p : Path) : State :=
  if p.ctx = 3 then badOp s t p
  else answerRead s t p (peekWord s t p.ctx) 32

/-! ### Completion (09 R204 to R206, 03 R61, R66) -/

def onStack (x : Tg) (virt : Bool) (ev : EventId) : Option Act := (x.ctx virt).stack.find? fun a => decide (a.ev = ev)
def onSplit (x : Tg) (virt : Bool) (ev : EventId) : Option Act := (x.ctx virt).split.find? fun a => decide (a.ev = ev)

/-- The event leaves stack and split list. -/
def unActive (x : Tg) (virt : Bool) (ev : EventId) : Tg :=
  let c := x.ctx virt
  x.setCtx virt { c with stack := c.stack.filter (fun a => decide (a.ev ≠ ev)),
                         split := c.split.filter (fun a => decide (a.ev ≠ ev)) }

/-- Attributes and arrival with which a deactivated event re-enters (03 R57, R61, R74; 10 R443); none: Inactive. -/
def reenter (s : State) (t : Nat) (virt : Bool) (a : Act) : Option (Attr × Stroke) :=
  let own := refillAttr s t (vpeOf s t virt) a.ev
  match a.pend with
  | some (some r) => some r
  | some none => some (own, s.count)
  | none => if lineOn s t virt a.ev || latchOn s t virt a.ev then some (own, s.count) else none

/-- Deactivate (03 R61): the pending part, or a level line or latch, makes the event Pending again; a virtual one is parked
where R229 of 10 says so. -/
def deactivateAct (s : State) (t : Nat) (virt : Bool) (a : Act) : State :=
  let r := reenter s t virt a
  let s := s.setTgt t (unActive (s.tgt t) virt a.ev)
  let s := match r with
    | some (at', arr) =>
      let v := (s.tgt t).vpe
      if virt && !vpeInsertable s v then parkReq s v a.ev at'.prio none
      else treeEnq s t { mkOp .ins virt a.ev at' arr with vpe := v, level := isLevel s virt a.ev, reent := true }
    | none => s
  noteState s t virt a.ev

/-- A context may complete the event: 0b01 names no event active in group 0 (09 R206). -/
def mayComplete (ctx : BitVec 2) (a : Act) : Bool := decide (ctx ≠ 1) || a.group

def completeAct (s : State) (t : Nat) (p : Path) (ev : EventId) : State :=
  let x := s.tgt t
  let virt := decide (p.ctx = 2)
  let c := x.ctx virt
  match onStack x virt ev with
  | some a =>
    if !mayComplete p.ctx a then badComplete s t p
    else if c.splitcOf virt a.group then
      if 16 ≤ c.split.length then answer (tgtFlag s t 4) t p stOk true
      else
        let x := (unActive x virt ev).setCtx virt { (unActive x virt ev).ctx virt with split := c.split ++ [a] }
        answer (s.setTgt t x) t p stOk false
    else answer (deactivateAct s t virt a) t p stOk false
  | none =>
    match onSplit x virt ev with
    | some a =>
      if mayComplete p.ctx a && !c.splitcOf virt a.group then answer (deactivateAct s t virt a) t p stOk false
      else badComplete s t p
    | none => badComplete s t p

def deactAct (s : State) (t : Nat) (p : Path) (ev : EventId) : State :=
  let x := s.tgt t
  let virt := decide (p.ctx = 2)
  match (onStack x virt ev <|> onSplit x virt ev) with
  | some a => if mayComplete p.ctx a then answer (deactivateAct s t virt a) t p stOk false else badComplete s t p
  | none => badComplete s t p

/-- The checks of 09 R199 and R212 around an operation other than CLAIM and PEEK. -/
def checked (s : State) (t : Nat) (p : Path) (rsv : Bool) (act : State → State) : State :=
  if p.ctx = 3 then badOp s t p
  else if rsv then badRsv s t p
  else if p.ctx = 2 ∧ guestOn (s.tgt t) = false then noVpe s t p
  else act s

def completeDo (s : State) (t : Nat) (p : Path) (arg : W32) : State :=
  checked s t p (field arg 31 21 ≠ 0) fun s => completeAct s t p (arg.truncate 21)

def deactDo (s : State) (t : Nat) (p : Path) (arg : W32) : State :=
  checked s t p (field arg 31 21 ≠ 0) fun s => deactAct s t p (arg.truncate 21)

/-! ### Inter-target events (09 R207 to R209) -/

/-- An instance is present (12 R292, R297): this one always; another while joined, with a route. -/
def present (s : State) (i : Nat) : Bool :=
  decide (i = s.instId.toNat) || (decide (s.wft.jst = .joined) && (Tbl.find s.wft.routes i).isSome)

def targetsOf (s : State) (i : Nat) : Nat :=
  if i = s.instId.toNat then s.par.targets else ((Tbl.find s.wft.tmaps i).map (·.targets)).getD 0
def attBitsOf (s : State) (i : Nat) : Nat :=
  if i = s.instId.toNat then attBits s else ((Tbl.find s.wft.tmaps i).map (·.attBits)).getD 0

/-- LINE of the RAISE that stands for a SEND to every target of an instance: the spec names no field for it
(log 15, DESIGN CHOICE). -/
def allLine : Nat := 0xFFF

/-- A SEND's raise to another instance: KIND 2 with the sender's context (12 R283). -/
def remoteSend (s : State) (i tl id : Nat) (ctx : BitVec 2) (all : Bool) : State :=
  remoteRaise s (BitVec.ofNat 14 (i * 128 + tl)) (BitVec.ofNat 21 id) { prio := 0, group := false, cls := 0 }
    2 ctx.toNat false s.count (if all then allLine else 0) 0 0

/-- Raise on every built local target but one. -/
def sendAllLocal (s : State) (t id : Nat) (nonsec : Bool) : State :=
  ((List.range s.par.targets).filter (· ≠ t)).foldl (fun s u => sendTo s u id nonsec s.count) s

def sendPhys (s : State) (t : Nat) (p : Path) (arg : W32) : State :=
  let id := field arg 3 0
  let g := field arg 17 4
  let nonsec := decide (p.ctx = 1)
  match field arg 19 18 with
  | 0 =>
    let i := g / 128
    let u := g % 128
    if !present s i then answer s t p stAbsent false
    else if targetsOf s i ≤ u then answer s t p stBadRange false
    else if i = s.instId.toNat then answer (sendTo s u id nonsec s.count) t p stOk false
    else answer (remoteSend s i u id p.ctx false) t p stOk false
  | 1 => answer (sendAllLocal s t id nonsec) t p stOk false
  | _ =>
    let s' := sendAllLocal s t id nonsec
    let others := (List.range 128).filter fun i => i ≠ s.instId.toNat && present s i
    answer (others.foldl (fun s i => remoteSend s i 0 id p.ctx true) s') t p stOk false

/-- Raise a virtual inter-target event (10: PRIO and CLASS from entry INTID of the Panel's table, group 1). -/
def virtSend (s : State) (v : BitVec 16) (id : Nat) : State :=
  let ev := BitVec.ofNat 21 id
  virtRaise s v ev (refillAttr s 0 (some v) ev) s.count none

def sendGuest (s : State) (t : Nat) (p : Path) (arg : W32) : State :=
  let id := field arg 3 0
  let v : BitVec 16 := BitVec.ofNat 16 (field arg 19 4)
  let me := (s.tgt t).vpe
  let pnl := (s.vword me).panel
  if bitAt arg 20 then
    let all := (s.pnl.vpes.filter fun e => e.2.v && decide (e.2.panel = pnl) && decide (e.1 ≠ me.toNat)).map (·.1)
    answer (all.foldl (fun s k => virtSend s (BitVec.ofNat 16 k) id) s) t p stOk false
  else if s.par.vpes ≤ v.toNat ∨ (s.vword v).v = false ∨ (s.vword v).panel ≠ pnl then answer s t p stBadRange false
  else answer (virtSend s v id) t p stOk false

def sendRsv (ctx : BitVec 2) (arg : W32) : Bool :=
  if ctx = 2 then field arg 31 21 ≠ 0 || (bitAt arg 20 && field arg 19 4 ≠ 0)
  else field arg 31 20 ≠ 0 || field arg 19 18 = 3

def sendDo (s : State) (t : Nat) (p : Path) (arg : W32) : State :=
  checked s t p (sendRsv p.ctx arg) fun s =>
    if p.ctx = 2 then sendGuest s t p arg else sendPhys s t p arg

/-! ### Masks and splits (09 R210, 03 R69) -/

def setPmaskDo (s : State) (t : Nat) (p : Path) (arg : W32) : State :=
  let rsv := if p.isFrame then field arg 31 16 ≠ 0 else field arg 31 8 ≠ 0
  checked s t p rsv fun s =>
    let v : Byte := arg.truncate 8
    let x := s.tgt t
    if p.ctx = 2 then answer (s.setTgt t { x with virt := { x.virt with pmask := v } }) t p stOk false
    else if p.ctx = 1 then
      answer (s.setTgt t { x with phys := { x.phys with pmask := if v < x.nsfloor then x.nsfloor else v } }) t p stOk false
    else
      let s1 := s.setTgt t { x with phys := { x.phys with pmask := v } }
      if !p.isFrame then answer s1 t p stOk false
      else if locked s 0 then answer (glbErr s1 (tgtOff t Reg.TGT_PMASK) p.src 0) t p stOk false
      else answer (s1.modTgt t fun x => { x with nsfloor := BitVec.ofNat 8 (field arg 15 8) }) t p stOk false

def setSplit0 (x : Tg) (v : BitVec 3) (c : Bool) : Tg := { x with phys := { x.phys with split0 := v, splitc0 := c } }

def setSplitDo (s : State) (t : Nat) (p : Path) (arg : W32) : State :=
  let rsv := field arg 31 8 ≠ 0 || (decide (p.ctx = 2) && field arg 7 4 ≠ 0)
  checked s t p rsv fun s =>
    let x := s.tgt t
    let sp1 : BitVec 3 := arg.truncate 3
    let sc1 := bitAt arg 3
    if p.ctx = 2 then
      answer (s.setTgt t { x with virt := { x.virt with split1 := sp1, splitc1 := sc1 } }) t p stOk false
    else
      let s1 := s.setTgt t { x with phys := { x.phys with split1 := sp1, splitc1 := sc1 } }
      if p.ctx = 1 then answer s1 t p stOk false
      else if locked s 0 then answer (glbErr s1 (tgtOff t Reg.TGT_SPLIT) p.src 0) t p stOk false
      else answer (s1.modTgt t (fun x => setSplit0 x (BitVec.ofNat 3 (field arg 6 4)) (bitAt arg 7))) t p stOk false

/-! ### SET_VPE (09 R211) -/

/-- Check of SET_VPE for a vPE named with V 1. -/
def setVpeCheck (s : State) (t : Nat) (v : BitVec 16) (on : Bool) : Nat :=
  let w := s.vword v
  if on && (decide (s.par.vpes ≤ v.toNat) || !w.v) then stBadRange
  else if (s.tgt t).sw.isSome then stBusy
  else if on && (w.switching || (w.res && decide (w.target ≠ t))) then stBusy
  else stOk

/-- Step S1 of a residency switch (10 R235). -/
def startSwitch (s : State) (t : Nat) (new : Option (BitVec 16)) : State :=
  let x := s.tgt t
  let old := if x.vpeV then some x.vpe else none
  let s := match old with
    | some o => s.setVword o { s.vword o with switching := true, dbarm := true }
    | none => s
  let s := match new with
    | some n => s.setVword n { s.vword n with switching := true }
    | none => s
  -- a virtual lead or sweep is abandoned; its formed inserts are parked (R230)
  let parked := x.urgent.filter (·.virt) ++ x.buf true
  let s := s.setTgt t { x with sw := some { step := .s2, old := old, new := new }, leadV := none,
                               urgent := x.urgent.filter (fun o => !o.virt), swpV := SweepEng.empty,
                               sbuf := x.buf false }
  let s := parked.foldl (fun s o => parkReq s o.vpe o.ev o.attr.prio o.wid) s
  queueFls s t (·.virt)

/-- A virtual claim's EXT has not issued: a switch, which would take its entry, waits. -/
def setVpeWaits (s : State) (t : Nat) : Bool := (s.tgt t).ext.any (·.1)

def setVpeDo (s : State) (t : Nat) (p : Path) (arg : W32) : State :=
  if p.ctx = 3 ∨ p.ctx = 2 then badOp s t p
  else if field arg 31 17 ≠ 0 then badRsv s t p
  else
    let v : BitVec 16 := arg.truncate 16
    let on := bitAt arg 16
    let st := setVpeCheck s t v on
    let x := s.tgt t
    if st ≠ stOk then answer s t p st false
    else if on && x.vpeV && decide (x.vpe = v) then answer s t p stOk false
    else answer (startSwitch s t (if on then some v else none)) t p stOk false

/-! ### The channel's opcodes (09 R198, R199) -/

/-- The operation that tp_req_op_i names; a CLAIM waits while another waits for its response (R197). -/
def chanOpDo (s : State) (t : Nat) (op : BitVec 4) (ctx : BitVec 2) (arg : W32) : State :=
  let p := Path.chan ctx
  match op.toNat with
  | 0 => claimDo s t p
  | 1 => completeDo s t p arg
  | 2 => deactDo s t p arg
  | 3 => sendDo s t p arg
  | 4 => setPmaskDo s t p arg
  | 5 => setSplitDo s t p arg
  | 6 => setVpeDo s t p arg
  | 7 => peekDo s t p
  | _ => badOp s t p

/-- A channel operation by its opcode: an undefined one, or context 0b11, is answered BAD_OP; 0x0 to 0x7 are the operations
of the other rows. -/
def undefinedOpDo (s : State) (t : Nat) (op : BitVec 4) (ctx : BitVec 2) (arg : W32) : State := chanOpDo s t op ctx arg

/-! ### Target-local inputs (09 R216) -/

/-- A raise of a level event on a target's own tree, and its drop. -/
def localRaise (s : State) (t i : Nat) : State :=
  treeEnq s t { mkOp .ins false (BitVec.ofNat 21 i) (icfgAttr s t i) s.count with level := true }
def localDrop (s : State) (t i : Nat) : State :=
  treeEnq s t (mkOp .drop false (BitVec.ofNat 21 i) (icfgAttr s t i) s.count)

def localInput (s : State) (t : Nat) (n : BitVec 4) (lvl : Bool) : State :=
  let i := 16 + n.toNat
  if s.par.targets ≤ t ∨ s.bit (icfgOff t i) 13 = lvl then s
  else
    let en := s.bit (icfgOff t i) 12
    let s := s.setBitR (icfgOff t i) 13 lvl
    if !en then s
    else
      let s := wake (activity s) 5 0
      if lvl then localRaise s t i else localDrop s t i

/-- The line as it stands at tp_local_i. -/
def localPin (s : State) (t n : Nat) : Bool := (Tbl.get 0 s.localPins t).getLsbD n

/-- The synchronised state follows the line, and forms what its change causes. -/
def localSync (s : State) (t n : Nat) : State := localInput s t (BitVec.ofNat 4 n) (localPin s t n)

/-- A restart: every line is seen as it now stands. -/
def localRestart (s : State) : State :=
  (s.localPins.map (·.1)).foldl (fun s t => (List.range 16).foldl (fun s n => localSync s t n) s) s

/-- An enabled line of target t has changed and formed nothing yet (R219). -/
def localUnformed (s : State) (t : Nat) : Bool :=
  decide (t < s.par.targets) &&
  (List.range 16).any fun n => s.bit (icfgOff t (16 + n)) 12 && (localPin s t n != s.bit (icfgOff t (16 + n)) 13)

/-- LOCAL_INPUT_CHANGE: the engine takes the change unless it has stopped for a consent round, NAP, DEEP or a reset; it then
sees the line at its restart, and a pulse that has ended by then is not seen. -/
def localChange (s : State) (t n : Nat) (lvl : Bool) : State :=
  let w : BitVec 16 := Tbl.get 0 s.localPins t
  let m : BitVec 16 := 1#16 <<< n
  let s := { s with localPins := Tbl.put s.localPins t (if lvl then w ||| m else w &&& ~~~m) }
  if liveOn s 1 && decide (s.rst.phase = .run) then localSync s t n
  else if localUnformed s t then wake s 5 0 else s

/-! ### Meanings of the rows -/

/-- A CLAIM is accepted on neither path while an earlier one waits for its response (09 R197). -/
def execClaim (t : BitVec 7) (p : Path) (s : State) : Out :=
  .next (if (s.tgt t.toNat).wait.isSome then offered p s
         else chanOp (fun s => claimDo s t.toNat p) t.toNat p s true)
def execPeek (t : BitVec 7) (p : Path) (s : State) : Out := .next (chanOp (fun s => peekDo s t.toNat p) t.toNat p s true)
def execComplete (t : BitVec 7) (p : Path) (arg : W32) (s : State) : Out := .next (chanOp (fun s => completeDo s t.toNat p arg) t.toNat p s)
def execDeactivate (t : BitVec 7) (p : Path) (arg : W32) (s : State) : Out := .next (chanOp (fun s => deactDo s t.toNat p arg) t.toNat p s)
def execSend (t : BitVec 7) (p : Path) (arg : W32) (s : State) : Out := .next (chanOp (fun s => sendDo s t.toNat p arg) t.toNat p s)
def execSetPmask (t : BitVec 7) (p : Path) (arg : W32) (s : State) : Out := .next (chanOp (fun s => setPmaskDo s t.toNat p arg) t.toNat p s)
def execSetSplit (t : BitVec 7) (p : Path) (arg : W32) (s : State) : Out := .next (chanOp (fun s => setSplitDo s t.toNat p arg) t.toNat p s)
def execSetVpe (t : BitVec 7) (p : Path) (arg : W32) (s : State) : Out :=
  .next (if setVpeWaits s t.toNat then offered p s else chanOp (fun s => setVpeDo s t.toNat p arg) t.toNat p s)
/-- An operation by its opcode; those that wait in their own rows wait here too. -/
def execUndefinedOp (t : BitVec 7) (op : BitVec 4) (ctx : BitVec 2) (arg : W32) (s : State) : Out :=
  .next (if (op = 6 ∧ setVpeWaits s t.toNat) ∨ (op = 0 ∧ (s.tgt t.toNat).wait.isSome) then offered (.chan ctx) s
         else chanOp (fun s => undefinedOpDo s t.toNat op ctx arg) t.toNat (.chan ctx) s)
def execClaimResponse (t : BitVec 7) (s : State) : Out :=
  .next (if liveOn s 1 then claimResponse s t.toNat else s)
def execLocalInputChange (t : BitVec 7) (n : BitVec 4) (lvl : Bool) (s : State) : Out :=
  .next (localChange s t.toNat n.toNat lvl)

end Sys2Proof.Machine
end

