-- ==== Sys2Proof/Machine/Wired.lean ====
section
/-! DEFINITION. Wired inputs (04): filters, edge and level detection, the banks' configuration read, routing and
holders, unrouted raises, re-arming, and the effect of writes of a WIN entry. -/

namespace Sys2Proof.Machine

/-! ### Fields of an entry -/

def winEn (s : State) (n : Nat) : Bool := s.bit (winOff n Reg.WIN_CTL) 8
def winLevel (s : State) (n : Nat) : Bool := s.bit (winOff n Reg.WIN_CTL) 9
def winPol (s : State) (n : Nat) : Bool := s.bit (winOff n Reg.WIN_CTL) 10
def winBoth (s : State) (n : Nat) : Bool := s.bit (winOff n Reg.WIN_CTL) 11
/-- Filtered state of the line (WIN_XSTAT.LINE). -/
def winLine (s : State) (n : Nat) : Bool := s.bit (winOff n Reg.WIN_XSTAT) 30
def setWinLine (s : State) (n : Nat) (b : Bool) : State := s.setBitR (winOff n Reg.WIN_XSTAT) 30 b
/-- Asserted state: the synchronised level corrected for polarity (R79). -/
def winAsserted (s : State) (n : Nat) : Bool := (s.line n).pin != winPol s n
def winEvent (n : Nat) : EventId := BitVec.ofNat 21 (32 + n)
def winXid (s : State) (n : Nat) : EventId := BitVec.ofNat 21 (s.fld (winOff n Reg.WIN_XSTAT) 20 0)

/-! ### The filter (R82, R83) -/

def glitchCount (s : State) (n : Nat) : State :=
  let g := s.fld (winOff n Reg.WIN_XSTAT) 28 21
  s.setFld (winOff n Reg.WIN_XSTAT) 28 21 (min 255 (g + 1))

/-- The front end's synchronisers, filters and detection run: in every state but NAP and DEEP, and through a consent round
up to its commit, past A1 (17 R410's example; log 69). -/
def frontOn (s : State) : Bool := grpOn s 6

/-- FLT_LEN, and whether the line is sampled on CLK_AON. -/
def fltLen (s : State) (n : Nat) : Nat := s.fld (winOff n Reg.WIN_FILT) 15 0
def fltAon (s : State) (n : Nat) : Bool := s.bit (winOff n Reg.WIN_FILT) 16

/-- The causes of a change of the filtered state become the line's one unprocessed change; arrival is the stroke of
the detection (R81, R84; 03 R74). -/
def detect (s : State) (n : Nat) (on : Bool) : State :=
  s.modLine n fun l =>
    if winLevel s n then
      match l.change with
      | some _ => { l with change := none }
      | none => { l with change := some (on, s.count) }
    else if on || winBoth s n then
      { l with change := l.change <|> some (true, s.count) }
    else l

/-- The counted state becomes the filtered state (R82). A change accepted is activity and ends DOZE (17 R402, R403). -/
def filterAccept (s : State) (n : Nat) : State :=
  if s.par.wired ≤ n ∨ (s.line n).count = false ∨ winEn s n = false ∨ frontOn s = false ∨ winAsserted s n = winLine s n then s
  else
    let on := winAsserted s n
    let s := wake (activity s) 5 0
    detect (setWinLine (s.modLine n fun l => { l with count := false, seen := 0 }) n on) n on

/-- The counted state has been present on so many consecutive samples, the last of them of the line as it now stands: once they
are more than FLT_LEN it is accepted (R82). -/
def filterSamples (s : State) (n samples : Nat) : State :=
  if fltLen s n < (s.line n).seen + samples then filterAccept s n else s

/-- WIRED_FILTER_ACCEPT, with the samples taken since the line's last change. -/
def execWiredFilterAccept (n : BitVec 12) (samples : BitVec 17) (s : State) : Out := .next (filterSamples s n.toNat samples.toNat)

/-- The count has reached a length that needs no further sample: FLT_LEN 0 on CLK_MAIN accepts the first differing sample
(R82), and a shorter FLT_LEN written during a count does so too (R90). -/
def acceptAtOnce (s : State) (n : Nat) : State :=
  if (s.line n).count && !fltAon s n && decide (fltLen s n = 0) then filterAccept s n else s

/-- The count ends; GLITCH counts the rejected change where a sample saw it (R82). -/
def countEnds (s : State) (n : Nat) : State :=
  let c := (s.line n).count && (decide ((s.line n).seen ≠ 0) || !fltAon s n)
  let s := s.modLine n fun l => { l with count := false, seen := 0 }
  if c then glitchCount s n else s

/-- A synchronised change of a line's pin. `samples`: how many samples the filter took of the state that now ends; `shown`:
whether a sample shows the state that begins. Without one, which only a CLK_AON-sampled line can meet (R442), the filter does
not see the change, and a count in progress goes on with the samples that it has (R82). -/
def lineChange (s : State) (n : Nat) (lvl : Bool) (samples : Nat) (shown : Bool) : State :=
  if s.par.wired ≤ n ∨ (s.line n).pin = lvl then s
  else
    let counted := (s.line n).count && (winAsserted s n != winLine s n)
    let s := filterSamples s n samples
    let s := s.modLine n fun l => { l with pin := lvl, seen := if counted && l.count then l.seen + samples else l.seen }
    if !winEn s n || !frontOn s || (fltAon s n && !shown) then s
    else if winAsserted s n = winLine s n then countEnds s n
    else acceptAtOnce (s.modLine n fun l => { l with count := true }) n

def execWiredLineChange (n : BitVec 12) (lvl : Bool) (samples : BitVec 17) (shown : Bool) (s : State) : Out :=
  .next (lineChange s n.toNat lvl samples.toNat shown)

/-! ### Remote lines (12 R298) -/

/-- The line's LEVEL sequence number: one more per change sent (12 R298). -/
def lineSeq (s : State) (n : Nat) : Nat := Tbl.get 0 s.wft.lseq n

/-- Queue the LEVEL flit of a line's state for a target of another instance, with its sequence number as it stands. -/
def levelOut (s : State) (n : Nat) (g : BitVec 14) (x : EventId) (on : Bool) (arr : Stroke) : State :=
  sendFlit s 0x11 (BitVec.ofNat 7 (g.toNat / 128))
    (BitVec.ofNat 160 (x.toNat + g.toNat % 128 * 2 ^ 21 + on.toNat * 2 ^ 28 + lineSeq s n * 2 ^ 29 + n * 2 ^ 37 +
      arr.toNat * 2 ^ 64))

/-- Send the filtered state of a remote level line (03 R58); LSEQ goes up when the state is another than was told last. -/
def sendLevel (s : State) (n : Nat) (g : BitVec 14) (on : Bool) (arr : Stroke) : State :=
  let l := s.line n
  let s := if l.told.any fun k => k.2 = on then s
    else { s with wft := { s.wft with lseq := Tbl.put s.wft.lseq n ((lineSeq s n + 1) % 256) } }
  levelOut (s.setLine n { l with told := some (g, on) }) n g l.xid on arr

/-! ### Raises and drops (R84 to R88) -/

/-- A raise with a legal target: inserted here, or sent over the Weft link; the target becomes the holder (R86). -/
def deliverLine (s : State) (n : Nat) (g : BitVec 14) (arr : Stroke) : State :=
  let s := s.modLine n fun l => { l with holder := some g, unr := none, kept := l.kept.filter (·) }
  if isLocal s g then
    let s := s.modLine n fun l => { l with told := none }
    treeEnq s (g.toNat % 128) { mkOp .ins false (winEvent n) (winAttr s n) arr with level := winLevel s n }
  else
    let s := if winLevel s n then sendLevel s n g true arr else s
    remoteRaise s g (s.line n).xid (winAttr s n) 0 0 true arr n 0 0

/-- Can a global target take a raise of line n, under remote ID x (R88)? -/
def routable (s : State) (g : BitVec 14) (x : EventId) : Bool :=
  if isLocal s g then decide (g.toNat % 128 < s.par.targets)
  else present s (g.toNat / 128) && decide (x.toNat ≠ 0)

/-- Set members below TARGETS, ascending (R85). -/
def setMembers (s : State) (n : Nat) : List Nat :=
  let w := s.rd (winOff n Reg.WIN_ROUTE)
  let c := field w 6 4
  ((List.range 16).filter fun j => bitAt w (16 + j) && decide (16 * c + j < s.par.targets))

/-- The member with the numerically highest running priority; ties to the lowest number (R85). -/
def leastBusy (s : State) (c : Nat) : List Nat → Option Nat
  | [] => none
  | j :: r =>
    match leastBusy s c r with
    | none => some j
    | some k => if (s.tgt (16 * c + k)).phys.rp ≤ (s.tgt (16 * c + j)).phys.rp then some j else some k

/-- The member after the last one chosen, with wrap-around (R85). -/
def rotating (last : Option (BitVec 4)) (l : List Nat) : Option Nat :=
  match last with
  | none => l.head?
  | some k => (l.find? fun j => decide (k.toNat < j)) <|> l.head?

/-- The target that the route chooses, and the new rotation position (R85). -/
def chooseTarget (s : State) (n : Nat) : Option (BitVec 14) × Option (BitVec 4) :=
  let w := s.rd (winOff n Reg.WIN_ROUTE)
  let c := field w 6 4
  let rot := (s.line n).rot
  let here := fun (j : Nat) => BitVec.ofNat 14 (s.instId.toNat * 128 + 16 * c + j)
  match field w 15 14 with
  | 0 => (some (BitVec.ofNat 14 (field w 13 0)), rot)
  | 1 => ((leastBusy s c (setMembers s n)).map here, rot)
  | 2 => match rotating rot (setMembers s n) with
    | some j => (some (here j), some (BitVec.ofNat 4 j))
    | none => (none, rot)
  | _ => (none, rot)

/-- A raise without a legal target is held unrouted; UNR going to 1 is an occurrence (R88, 18 R427). -/
def unroute (s : State) (n : Nat) (arr : Stroke) : State :=
  if (s.line n).unr.isSome then s
  else occ (s.modLine n fun l => { l with unr := some arr }) 14 29 n false

/-- The block is in SAFE: blk_safe_o is high (18 R435, R436). -/
def inSafe (s : State) : Bool := decide (s.err.safe ≠ .out)

/-- A raise of line n at stage 5, or a retry (R85 to R88): the holder takes it, whatever the route chooses, and no choice is made
then, so that the rotation stands (DESIGN CHOICE, log 99); without one the route and XID in force apply (R90), in SAFE target 0
(18 R435). -/
def raiseLine (s : State) (n : Nat) (arr : Stroke) : State :=
  match (s.line n).holder with
  | some g => if routable s g (s.line n).xid then deliverLine s n g arr else unroute s n arr
  | none =>
    let s := s.modLine n fun l => { l with xid := winXid s n }
    if inSafe s then deliverLine s n (globalT s 0) arr
    else
      let c := chooseTarget s n
      let s := s.modLine n fun l => { l with rot := c.2 }
      match c.1 with
      | some g => if routable s g (winXid s n) then deliverLine s n g arr else unroute s n arr
      | none => unroute s n arr

/-- A drop of a level line: to the holder (R86); it cancels an unrouted raise (R88). Another instance that has been told
the line's state is told the change even when no holder stands here: its own event may be held again (03 R58). -/
def dropLine (s : State) (n : Nat) (arr : Stroke) : State :=
  let s := s.modLine n fun l => { l with unr := none }
  match (s.line n).holder <|> (s.line n).told.map (·.1) with
  | none => s
  | some g =>
    if isLocal s g then treeEnq s (g.toNat % 128) (mkOp .drop false (winEvent n) (winAttr s n) arr)
    else sendLevel s n g false arr

/-- The unrouted raise is retried (R88). -/
def retryLine (s : State) (n : Nat) : State :=
  match (s.line n).unr with
  | none => s
  | some arr => raiseLine s n arr

/-! ### Stage 5 -/

/-- The waiting change of a bank with the lowest line number (R80). -/
def bankNext (s : State) (k : Nat) : Option Nat :=
  ((s.win.filter fun e => decide (e.1 / 256 = k) && e.2.change.isSome).map (·.1)).min?

/-- The removal of a drop finds no free entry in its holder's queue: the change waits in its bank (07 R160). -/
def dropWaits (s : State) (n : Nat) : Bool :=
  (s.line n).holder.any fun g => isLocal s g && opqFull s (g.toNat % 128)

/-- WIRED_CONFIG_READ (R80, R85). -/
def configRead (s : State) (k : Nat) : State :=
  if !liveOn s 1 || decide (s.rst.phase ≠ .run) then s
  else match bankNext s k with
  | none => s
  | some n =>
    match (s.line n).change with
    | none => s
    | some (raise, arr) =>
      if !raise && dropWaits s n then s
      else
      let s := s.modLine n fun l => { l with change := none }
      if raise then raiseLine s n arr else dropLine s n arr

def execWiredConfigRead (k : BitVec 4) (s : State) : Out := .next (configRead s k.toNat)

/-! ### Writes of an entry (R89, R90) -/

/-- Re-arm a line (R89). -/
def rearm (s : State) (n : Nat) : State :=
  let on := winAsserted s n
  let s := setWinLine s n on
  let s := s.setFld (winOff n Reg.WIN_XSTAT) 28 21 0
  let s := s.modLine n fun l => { l with change := none, rot := none, count := false, seen := 0 }
  if winLevel s n then if on then raiseLine s n s.count else dropLine s n s.count else s

/-- Lines with WAKE set, other than n (R92). -/
def wakeLines (s : State) (n : Nat) : Nat :=
  (((s.regs.filter fun e => isWinOff e.1 && decide (e.1 % 0x10 = Reg.WIN_CTL) && bitAt e.2 16).map (·.1)).filter
    fun o => o ≠ winOff n Reg.WIN_CTL).length

/-- The fields of WIN_CTL whose change re-arms a running line: MODE, POL, BOTH; FLT_CLK lies in WIN_FILT. -/
def rearmMask : W32 := 0xE00

/-- A re-prioritise follows a change of PRIO, GROUP or CLASS of a held event (R90, 03 R63). -/
def winRpr (s : State) (n : Nat) : State :=
  match (s.line n).holder with
  | some g =>
    if isLocal s g then treeEnq s (g.toNat % 128) (mkOp .rpr false (winEvent n) (winAttr s n) s.count) else s
  | none => s

/-- Effect of a new value of WIN_CTL, its access already checked; the answer's flag is the WAKE refusal of R92. EN falling discards
a change that has not reached stage 5 (DESIGN CHOICE, log 100). -/
def winCtlApply (s : State) (n : Nat) (v : W32) : State × Bool :=
  let o := s.rd (winOff n Reg.WIN_CTL)
  let refuse := bitAt v 16 && !bitAt o 16 && decide (64 ≤ wakeLines s n)
  let v := if refuse then setBit v 16 false else v
  let s := s.wr (winOff n Reg.WIN_CTL) v
  let ch := o ^^^ v
  let s := if field ch 7 0 ≠ 0 ∨ field ch 15 12 ≠ 0 then winRpr s n else s
  let s :=
    if !bitAt o 8 && bitAt v 8 then rearm s n
    else if bitAt o 8 && !bitAt v 8 then
      let s := setWinLine s n false
      let s := s.modLine n fun l => { l with count := false, seen := 0, change := none }
      if winLevel s n then dropLine s n s.count else s
    else if bitAt v 8 && decide (ch &&& rearmMask ≠ 0) then rearm s n
    else s
  (s, refuse)

/-- Effect of a new value of WIN_FILT: a change of FLT_CLK while EN is 1 re-arms the line (R89); a count in progress goes on
against the new FLT_LEN (R90). -/
def winFiltApply (s : State) (n : Nat) (v : W32) : State :=
  let o := s.rd (winOff n Reg.WIN_FILT)
  let s := s.wr (winOff n Reg.WIN_FILT) v
  if winEn s n && decide (bitAt o 16 ≠ bitAt v 16) then rearm s n else acceptAtOnce s n

/-- At a restart after NAP, an enabled line whose state differs from its kept filtered state is filtered (R93). -/
def winRestart (s : State) : State :=
  (s.win.map (·.1)).foldl (fun s n =>
    if winEn s n && decide (winAsserted s n ≠ winLine s n) then acceptAtOnce (s.modLine n fun l => { l with count := true, seen := 0 }) n else s) s

/-- Unrouted raises are retried when an instance joins (R88). -/
def retryAll (s : State) : State := (s.win.map (·.1)).foldl retryLine s

end Sys2Proof.Machine
end

