-- ==== Sys2Proof/Machine/Park.lean ====
section
/-! DEFINITION. Parks of virtual events and the residency doorbell (10 R231 to R233), shared by the Panel manager, the
slow path and the moves. -/

namespace Sys2Proof.Machine

/-- An error of the Panel manager (10 R233, R247). -/
def pnlErr (s : State) (i v : Nat) : State :=
  logErr s 6 Reg.PNL_ERR i 0 Reg.PNL_ERR_LOG 31 fun s =>
    s.wr Reg.PNL_ERR_LOG (BitVec.ofNat 32 (v % 2 ^ 16 + i * 2 ^ 16))

/-! ### Doorbell (R232) -/

/-- Word 3 of a context: the doorbell word (R226). -/
def dbWord (s : State) (v : BitVec 16) : W64 := s.load64 (vctx s v + 24)

/-- The doorbell raise: an edge raise of DBEVT on DBTGT (R232, R439). -/
def dbRaise (s : State) (v : BitVec 16) (w : W64) : State :=
  let g : BitVec 14 := BitVec.ofNat 14 (field w 29 16)
  let ev : EventId := BitVec.ofNat 21 (field w 52 32)
  if isLocal s g then
    treeEnq (s.reads (attAddr s ev) 16) (g.toNat % 128) (mkOp .ins false ev (attrOf (s.load64 (attAddr s ev))) s.count)
  else remoteRaise s g ev (attrOf 0) 2 0 false s.count 0 v.toNat 0

/-- The doorbell test of vPE v with priority q (R232); a raise that cannot be routed is DB_FAIL, and DBARM stays 1
(R233). -/
def doorbell (s : State) (v : BitVec 16) (q : Byte) : State :=
  let s := s.reads (vctx s v) 64
  let w := dbWord s v
  let k := s.vword v
  let g : BitVec 14 := BitVec.ofNat 14 (field w 29 16)
  if bitAt w 8 && k.dbarm && decide (q.toNat < field w 7 0) then
    if present s (g.toNat / 128) then
      (dbRaise (s.setVword v { k with dbarm := false }) v w).cnt64 Reg.PNL_DB_CNT
    else pnlErr s 3 v.toNat
  else s

/-! ### Marks and parks (R231) -/

def leavingVpe (s : State) (v : BitVec 16) : Bool :=
  (s.tgt (s.vword v).target).sw.any fun k => decide (k.old = some v)
def arrivingVpe (s : State) (v : BitVec 16) : Bool :=
  s.tg.any fun p => p.2.sw.any fun k => decide (k.new = some v)

/-- Mark an event whose bit has been set in v's table: live while v is resident (and, for a park, not leaving),
otherwise in memory with BEST and, unless v is arriving, the doorbell test (R231 steps 3 and 4, R238). `bad` is a failed
mark: SUM_FAIL. -/
def parkMark (s : State) (v : BitVec 16) (ev : EventId) (q : Byte) (slow bad : Bool) : State :=
  let k := s.vword v
  if k.res && (slow || !leavingVpe s v) then markLive s k.target true ev q
  else
    let a := vsumBase s v + 4 * chunkOf ev
    let m := ((Sum.ofWord (s.load32 a)).getD Sum.sweepAll).mark q (leadOff ev)
    let s := if bad then pnlErr s 2 v.toNat else s.store32 a m.word
    let s := s.setVword v { s.vword v with best := minByte (s.vword v).best q }
    if arrivingVpe s v then s else doorbell s v q

/-- Take the head of the waiting parks; under a redirect it goes to the new vPE (06 R142). -/
def parkNext (s : State) : Option Park :=
  s.pnl.parkQ.head?.map fun k =>
    match redirDest s (.vpe k.v) k.ev with
    | .vpe v => { k with v := v }
    | .tgt _ => k

/-- PARK: a park starts with the read of its vPE's context (R231 step 1); a failed read is PARK_FAIL (R233). -/
def parkStart (s : State) (fail : Bool) : State :=
  match parkNext s with
  | none => s
  | some k =>
    if s.pnl.parks.length < 128 then
      let s := { s with pnl := { s.pnl with parkQ := s.pnl.parkQ.tail } }
      let s := s.cnt64 Reg.PNL_PARK_CNT
      if fail then pnlErr (cmdFail s k.wid) 0 k.v.toNat
      else { s.reads (vctx s k.v) 64 with pnl := { s.pnl with parks := s.pnl.parks ++ [k] } }
    else s

/-- The fourth failure of a park's accesses ends it, at the set (13 R321, R233). -/
def setEnd (e : SetEnd) (fail : Bool) : SetEnd := if fail then (if e = .markFail then .markFail else .setFail) else e

/-- PARK_SET_DONE: the atomic set of the n-th park in progress has completed, and its chunk is marked (R231 steps 2
to 4). It follows the lanes' earlier writes of the bit (07 R165); where another vPE of the Panel has come to hold the event, the
raise merges there (03 R53). -/
def parkDone (s : State) (n : Nat) (e : SetEnd) : State :=
  match s.pnl.parks[n]? with
  | none => s
  | some k =>
    let v := match redirDest s (.vpe k.v) k.ev with
      | .vpe v => v
      | .tgt _ => k.v
    if vpeLaneHas s v k.ev then s
    else
    let other := vHeldElse s v k.ev (s.pnl.parks.take n)
    let s := { s with pnl := { s.pnl with parks := s.pnl.parks.eraseIdx n } }
    match e, other with
    | .setFail, _ => pnlErr (cmdFail s k.wid) 0 v.toNat
    | _, some u => vMerge (readAttr s (some u) k.ev) u k.ev (refillAttr s 0 (some u) k.ev) s.count
    | .good, none => parkMark (putBit s 0 (some v) k.ev true) v k.ev k.prio false false
    | .markFail, none => parkMark (putBit (cmdFail s k.wid) 0 (some v) k.ev true) v k.ev k.prio false true

end Sys2Proof.Machine
end

