-- ==== Sys2Proof/Machine/Ingress.lean ====
section
/-! DEFINITION. Message ingress (05): the input stage, decode and admission, the slow-path tracker, the fence. -/

namespace Sys2Proof.Machine

/-! ### Queues (R100, R101) -/

/-- Reserved minimum in force: queue 0 is the physical queue, queue p + 1 Panel p's. -/
def qMin (s : State) (q : Nat) : Nat :=
  if q = 0 then s.msg.pqMin else s.fld (shareOff (q - 1) Reg.PNL_SHR_LIVE0) 14 0
def qCap (s : State) (q : Nat) : Nat :=
  if q = 0 then s.msg.pqCap else s.fld (shareOff (q - 1) Reg.PNL_SHR_LIVE0) 30 16
def qBudget (s : State) (q : Nat) : Nat :=
  if q = 0 then s.msg.pqBudget else s.fld (shareOff (q - 1) Reg.PNL_SHR_LIVE1) 15 0
def qOcc (s : State) (q : Nat) : Nat := (s.msg.q.filter fun e => decide (e.q = q)).length

/-- A Panel is created: neither FREE nor DESTROYING counts for writes (R98, 10 R222). -/
def pnlCreated (s : State) (p : Nat) : Bool := decide ((s.panel p).state ≠ .free)
def pnlWritable (s : State) (p : Nat) : Bool := pnlCreated s p && decide ((s.panel p).state ≠ .destroying)

/-- Created Panels. -/
def createdPanels (s : State) : List Nat := (s.pnl.panels.map (·.1)).filter (pnlCreated s)

/-- RSV_SUM (R100). -/
def rsvSum (s : State) : Nat := s.msg.pqMin + ((createdPanels s).map fun p => qMin s (p + 1)).sum

/-- shared_free (R100); below 0 for a time when a minimum rises (R111). -/
def sharedFree (s : State) : Int :=
  let qs := 0 :: (createdPanels s).map (· + 1)
  (16384 : Int) - (rsvSum s : Int) - ((qs.map fun q => qOcc s q - qMin s q).sum : Nat)

def budgetLeft (s : State) (q : Nat) : Nat := Tbl.get 0 s.msg.left q

/-- Does decode let a write go on to queue q (R101, R111)? -/
def admits (s : State) (q : Nat) : Bool :=
  if q ≠ 0 ∧ (s.panel (q - 1)).closed = true then false
  else if qBudget s q ≠ 0 ∧ budgetLeft s q = 0 then false
  else if qCap s q ≤ qOcc s q then false
  else if qOcc s q < qMin s q then decide (s.msg.q.length < 16384)
  else decide (0 < sharedFree s)

/-! ### Decode (R97, R98) -/

/-- Window offset of a write. -/
def winOffset (w : MWrite) : Nat := w.addr.toNat % 2 ^ 23
def pageOf (w : MWrite) : Nat := winOffset w / 4096
/-- The slice that a write steers to: N = TARGETS / 16 slices are built (R97). -/
def sliceOf (s : State) (w : MWrite) : Nat := (winOffset w / 4 % 8) % (s.par.targets / 16)

/-- The first decode check that fails, as its flag in MSG_ERR (R98). -/
def decodeFault (s : State) (w : MWrite) : Option Nat :=
  let page := pageOf w
  if w.addr.toNat / 2 ^ 23 ≠ (s.rd64 Reg.GLB_WIN_BASE).toNat / 2 ^ 23 then some 0
  else if s.par.panels < page then some 1
  else if page ≠ 0 ∧ pnlWritable s (page - 1) = false then some 2
  else if w.be ≠ 0xF then some 3
  else if w.addr.toNat % 4 ≠ 0 then some 4
  else if s.bit Reg.MSG_CTRL 0 ∧ field w.data 31 21 ≠ 0 then some 5
  else none

/-- Flag, count and, while the log is free, capture an ingress error (R98, R106, R115). -/
def msgErr (s : State) (w : MWrite) (i : Nat) : State :=
  let s := s.cnt32 Reg.MSG_ERR_CNT
  logErr s 1 Reg.MSG_ERR i 0 Reg.MSG_ERR_LOG0 31 fun s =>
    ((s.wr Reg.MSG_ERR_LOG0 (BitVec.ofNat 32 (winOffset w + i * 2 ^ 23))).wr
      Reg.MSG_ERR_LOG1 (w.src.zeroExtend 32)).wr Reg.MSG_ERR_LOG2 w.data

def dropStage (s : State) : State := { s with msg := { s.msg with stage := s.msg.stage.tail } }

/-- Place the write in the sub-queue of its slice (R100, R101). -/
def admitWrite (s : State) (w : MWrite) (q : Nat) : State :=
  let left := budgetLeft s q
  let s := { s with msg := { s.msg with q := s.msg.q ++ [{ q := q, slice := sliceOf s w, w := w }] } }
  (if qBudget s q = 0 then s
   else { s with msg := { s.msg with left := Tbl.put s.msg.left q (left - 1) } }).cnt64 Reg.MSG_ADMIT_CNT

/-- Take a slow-path tracker entry (R103). -/
def slowWrite (s : State) (w : MWrite) (q : Nat) : State :=
  let e : Slow := { q := q, slice := sliceOf s w, w := w, stage := .lookup }
  ({ s with msg := { s.msg with slow := s.msg.slow ++ [e] } }).cnt64 Reg.MSG_SLOW_CNT

/-- The oldest write of the input stage is bound for the slow path and waits for a tracker entry: MSG_SLOW_STAT.BP (R107). -/
def slowHeld (s : State) : Bool :=
  match s.msg.stage with
  | [] => false
  | w :: _ => decide (64 ≤ s.msg.slow.length) && (s.msg.held || ((decodeFault s w).isNone && !admits s (pageOf w)))

def setHeld (s : State) (b : Bool) : State := { s with msg := { s.msg with held := b } }

/-- MSG_DECODE (R101): one decode cycle. A write that is held for a tracker entry takes the first that frees; a cycle in which
it is held counts in MSG_BP_CNT (R107). -/
def decodeWrite (s : State) : State :=
  match s.msg.stage with
  | [] => s
  | w :: _ =>
    if s.msg.held then
      if s.msg.slow.length < 64 then slowWrite (setHeld (dropStage s) false) w (pageOf w) else s.cnt64 Reg.MSG_BP_CNT
    else match decodeFault s w with
    | some i => msgErr (dropStage s) w i
    | none =>
      if admits s (pageOf w) then admitWrite (dropStage s) w (pageOf w)
      else if s.msg.slow.length < 64 then slowWrite (dropStage s) w (pageOf w)
      else (setHeld s true).cnt64 Reg.MSG_BP_CNT

/-- The ingress logic runs: in RUN, and in step W2 of a warm reset, until its stop point (02 R43, 17 R408). -/
def execMsgDecode (s : State) : Out := .next (if engOn s 1 then decodeWrite s else s)

/-! ### The inbound port (R96, R102, R107) -/

/-- msg_ready_o (R107). -/
def msgReady (s : State) : Bool := portsOpen s && decide (s.msg.stage.length < 4) && !slowHeld s

/-- MSG_WRITE: an offered write wakes the block from DOZE (17 R402); it is transferred while msg_ready_o is high. -/
def msgWrite (s : State) (addr : W64) (data : W32) (be : BitVec 4) (src : BitVec 24) : State :=
  let s := wake s 5 0
  if msgReady s then
    let w : MWrite := { addr := addr, data := data, be := be, src := src, arr := s.count, wid := s.msg.nextW }
    let s := activity s
    { s with msg := { s.msg with stage := s.msg.stage ++ [w], nextW := s.msg.nextW + 1 } }
  else s

def execMsgWrite (addr : W64) (data : W32) (be : BitVec 4) (src : BitVec 24) (s : State) : Out :=
  .next (msgWrite s addr data be src)

/-! ### The fence (R110) -/

def opWids (l : List TOp) : List Nat := l.filterMap (·.wid)

/-- Numbers of the writes that are not yet disposed of (R110). -/
def liveWids (s : State) : List Nat :=
  s.msg.stage.map (·.wid) ++ s.msg.q.map (·.w.wid) ++ s.msg.slow.map (·.w.wid) ++ s.miss.map (·.w.wid) ++
  (s.tg.flatMap fun p => opWids p.2.ops ++ opWids p.2.dsp) ++
  (s.lanes.flatMap fun p => p.2.filterMap (·.wid)) ++
  s.pnl.parkQ.filterMap (·.wid) ++ s.pnl.parks.filterMap (·.wid) ++ s.wft.rwait.filterMap (·.wid)

/-- Every write below a number is disposed of. -/
def fenceClear (s : State) (n : Nat) : Bool := (liveWids s).all fun w => decide (n ≤ w)

/-- Open or extend the fence: DONE becomes 0 (R110). -/
def openFence (s : State) : State :=
  ({ s with msg := { s.msg with fence := some s.msg.nextW } }).setBitR Reg.MSG_FENCE 1 false

/-- MSG_FENCE_DONE. -/
def fenceDone (s : State) : State :=
  match s.msg.fence with
  | some n =>
    if fenceClear s n then ({ s with msg := { s.msg with fence := none } }).setBitR Reg.MSG_FENCE 1 true else s
  | none => s


end Sys2Proof.Machine
end

