-- ==== Sys2Proof/Machine/Xlat.lean ====
section
/-! DEFINITION. The translation engine (06): lookups, their checks and faults, miss slots, dispatch of results, and the
slow path's atomic set (05 R103). -/

namespace Sys2Proof.Machine

/-! ### Table entries (06 R120 to R123) -/

def srcBits (s : State) : Nat := s.fld Reg.XLT_SRC_BASE 4 0
def srcAddr (s : State) (src : Nat) : Nat := base4k (s.rd64 Reg.XLT_SRC_BASE) + src * 32

/-- A source entry, its four words. -/
structure SrcEntry where
  w0 : W64
  w1 : W64
  w2 : W64
  w3 : W64
  deriving DecidableEq, Repr

def readSrc (s : State) (src : Nat) : SrcEntry :=
  let a := srcAddr s src
  { w0 := s.load64 a, w1 := s.load64 (a + 8), w2 := s.load64 (a + 16), w3 := s.load64 (a + 24) }

def SrcEntry.valid (e : SrcEntry) : Bool := bitAt e.w0 0
def SrcEntry.physOk (e : SrcEntry) : Bool := bitAt e.w0 1
def SrcEntry.pnlOk (e : SrcEntry) : Bool := bitAt e.w0 2
def SrcEntry.panel (e : SrcEntry) : Nat := field e.w0 13 4
def SrcEntry.dbits (e : SrcEntry) : Nat := field e.w0 18 14
def SrcEntry.mapBase (e : SrcEntry) : Nat := base4k e.w1
def SrcEntry.mapCnt (e : SrcEntry) : Nat := field e.w2 21 0
/-- Check 5 of R126: a reserved field is nonzero, or DBITS is 22 or above. -/
def SrcEntry.rsv (e : SrcEntry) : Bool :=
  bitAt e.w0 3 || decide (field e.w0 63 19 ≠ 0) || decide (field e.w1 11 0 ≠ 0) || decide (field e.w1 63 52 ≠ 0) ||
  decide (field e.w2 63 22 ≠ 0) || decide (e.w3 ≠ 0) || decide (21 < e.dbits)

/-- An event-map entry, its two words. -/
structure MapEntry where
  w0 : W64
  w1 : W64
  deriving DecidableEq, Repr

def mapAddr (e : SrcEntry) (d : Nat) : Nat := e.mapBase + d * 16
def readMap (s : State) (a : Nat) : MapEntry := { w0 := s.load64 a, w1 := s.load64 (a + 8) }
def MapEntry.valid (e : MapEntry) : Bool := bitAt e.w0 0
def MapEntry.virt (e : MapEntry) : Bool := bitAt e.w0 1
def MapEntry.event (e : MapEntry) : EventId := BitVec.ofNat 21 (field e.w0 36 16)
def MapEntry.dest (e : MapEntry) : BitVec 16 := BitVec.ofNat 16 (field e.w0 63 48)
def MapEntry.attr (e : MapEntry) : Attr :=
  { prio := BitVec.ofNat 8 (field e.w0 15 8), group := bitAt e.w0 2, cls := BitVec.ofNat 3 (field e.w0 5 3) }
/-- Check 9 of R126. -/
def MapEntry.rsv (e : MapEntry) : Bool :=
  decide (field e.w0 7 6 ≠ 0) || decide (field e.w0 47 37 ≠ 0) || decide (e.w1 ≠ 0) ||
  (!e.virt && decide (field e.w0 63 62 ≠ 0))

/-- Message events (03 R50, R53). -/
def msgEvent (ev : EventId) : Bool := decide (4128 ≤ ev.toNat) && decide (ev ≠ noneId)

/-- The destination check (R127): true where the destination and event are legal. -/
def destOk (s : State) (pnlOk : Bool) (panel : Nat) (virt : Bool) (dest : BitVec 16) (ev : EventId) : Bool :=
  if virt then
    pnlOk && decide (dest.toNat < s.par.vpes) && (s.vword dest).v && decide ((s.vword dest).panel = panel) &&
      msgEvent ev && decide (ev.toNat < 2 ^ (s.panel panel).vbits)
  else
    let g : BitVec 14 := dest.truncate 14
    if isLocal s g then
      decide (g.toNat % 128 < s.par.targets) && msgEvent ev && decide (ev.toNat < 2 ^ attBits s)
    else present s (g.toNat / 128) && msgEvent ev

/-! ### The checks of R126 -/

/-- Cause codes of R126. -/
abbrev cDis : Nat := 0
abbrev cSrcRange : Nat := 1
abbrev cSrcInv : Nat := 2
abbrev cPage : Nat := 3
abbrev cDataRange : Nat := 4
abbrev cEvInv : Nat := 5
abbrev cDest : Nat := 6
abbrev cRsv : Nat := 7
abbrev cMem : Nat := 8

/-- The data value of a write: msg_data_i[20:0] (05 R97). -/
def dataOf (w : MWrite) : Nat := field w.data 20 0

/-- Checks 1 and 2, before any read. -/
def checkHead (s : State) (en : Bool) (w : MWrite) : Option Nat :=
  if !en then some cDis
  else if 2 ^ srcBits s ≤ w.src.toNat then some cSrcRange
  else none

/-- Checks 3 to 7, on the source entry. -/
def checkSrc (s : State) (w : MWrite) (bad : Bool) : Option Nat :=
  let e := readSrc s w.src.toNat
  let page := pageOf w
  if bad then some cMem
  else if !e.valid then some cSrcInv
  else if e.rsv then some cRsv
  else if page = 0 ∧ e.physOk = false then some cPage
  else if page ≠ 0 ∧ (e.pnlOk = false ∨ e.panel ≠ page - 1) then some cPage
  else if 2 ^ e.dbits ≤ dataOf w then some cDataRange
  else none

/-- Checks 3 and 8 to 10, on the map entry. -/
def checkMap (s : State) (w : MWrite) (bad : Bool) : Option Nat :=
  let e := readSrc s w.src.toNat
  let m := readMap s (mapAddr e (dataOf w))
  if bad then some cMem
  else if !m.valid then some cEvInv
  else if m.rsv then some cRsv
  else if destOk s e.pnlOk e.panel m.virt m.dest m.event then none
  else some cDest

/-- The result of a lookup that passes every check (R129): a virtual result is of group 1 (R122). -/
def lookupRes (s : State) (w : MWrite) : XRes :=
  let m := readMap s (mapAddr (readSrc s w.src.toNat) (dataOf w))
  { ev := m.event, virt := m.virt, dest := m.dest,
    attr := if m.virt then { m.attr with group := true } else m.attr }

/-! ### Faults (R144) -/

/-- A fault: flag, count, and log under R115. -/
def xltFault (s : State) (cause src slice data page : Nat) : State :=
  let s := s.cnt32 Reg.XLT_FAULT_CNT
  logErr s 2 Reg.XLT_FAULT cause 0 Reg.XLT_FLOG0 31 fun s =>
    (s.wr Reg.XLT_FLOG0 (BitVec.ofNat 32 (src % 2 ^ 24 + cause * 2 ^ 24 + slice % 8 * 2 ^ 28))).wr
      Reg.XLT_FLOG1 (BitVec.ofNat 32 (data % 2 ^ 21 + page % 2 ^ 11 * 2 ^ 21))

def setSlow (s : State) (wid : Nat) (st : SlowStage) : State :=
  { s with msg := { s.msg with slow := s.msg.slow.map fun e => if e.w.wid = wid then { e with stage := st } else e } }

/-! ### Dispatch (R129, 05 R103, 01 R11) -/

/-- A result of the queued path. -/
def dispatchQueued (s : State) (slice q : Nat) (w : MWrite) (r : XRes) : State :=
  if r.virt then
    -- the sub-queue waits with a raise that has to be parked while 128 parks are in progress (10 R231)
    let t := virtRaise s r.dest r.ev r.attr w.arr (some w.wid)
    let mark := fun (p : Park) => if p.wid = some (w.wid) then { p with src := some (slice, q) } else p
    { t with pnl := { t.pnl with parkQ := t.pnl.parkQ.map mark } }
  else
    let g : BitVec 14 := r.dest.truncate 14
    if isLocal s g then
      treeEnq s (g.toNat % 128) { mkOp .ins false r.ev r.attr w.arr with wid := some w.wid }
    else remoteRaise s g r.ev r.attr 0 0 false w.arr 0 w.src.toNat q (some w.wid) (some slice)

/-- A result of the slow path: handed to the Weft link, whose acceptance frees the tracker entry (05 R103), or held for its
atomic set. -/
def dispatchSlow (s : State) (q : Nat) (w : MWrite) (r : XRes) : State :=
  let g : BitVec 14 := r.dest.truncate 14
  if !r.virt && !isLocal s g then
    remoteRaise (setSlow s w.wid .busy) g r.ev r.attr 0 0 false w.arr 0 w.src.toNat q (some w.wid)
  else setSlow s w.wid (.set r)

/-! ### A lookup (R125, R128) -/

/-- Dispatch a fault or a result: a fault frees a slow-path write's tracker entry (R144). -/
def endLookup (s : State) (m : Miss) (r : Nat ⊕ XRes) : State :=
  match r with
  | .inl c =>
    let s := if m.slow then freeSlow s m.w.wid else s
    xltFault s c m.w.src.toNat m.slice (dataOf m.w) (pageOf m.w)
  | .inr x => if m.slow then dispatchSlow s m.q m.w x else dispatchQueued s m.slice m.q m.w x

/-- A queued lookup of the same sub-queue as m. -/
def sameSub (m k : Miss) : Bool := !m.slow && !k.slow && decide (k.slice = m.slice) && decide (k.q = m.q)

/-- An earlier lookup of m's sub-queue has not been dispatched. -/
def behindMiss (s : State) (m : Miss) : Bool := s.miss.any fun k => sameSub m k && decide (k.w.wid < m.w.wid)

/-- A held lookup without a slot takes one as it frees, and its fill is requested (R128). -/
def slotNext (s : State) (slice : Nat) : State :=
  match s.miss.find? fun k => decide (k.slice = slice) && k.res.isNone && !k.slot with
  | none => s
  | some k =>
    if 8 ≤ (s.miss.filter fun m => decide (m.slice = slice) && m.slot).length then s
    else
      let l := s.miss.map fun m => if m.w.wid = k.w.wid then { m with slot := true } else m
      { s with miss := l }.cnt64 Reg.XLT_MISS_CNT

def dropMiss (s : State) (m : Miss) : State := { s with miss := s.miss.filter fun k => decide (k.w.wid ≠ m.w.wid) }

/-- The results of m's sub-queue held behind it leave in issue order, up to the next lookup that still misses. -/
def releaseHeld (s : State) (m : Miss) : Nat → State
  | 0 => s
  | n + 1 =>
    match s.miss.find? fun k => sameSub m k && k.res.isSome && !behindMiss s k with
    | some k => match k.res with
      | some r => releaseHeld (endLookup (dropMiss s k) k r) m n
      | none => s
    | none => s

/-- A lookup has its fault or result: it is dispatched, or held behind a missing lookup of its sub-queue. -/
def finishLookup (s : State) (m : Miss) (r : Nat ⊕ XRes) : State :=
  if behindMiss s m then { s with miss := s.miss ++ [{ m with slot := false, res := some r }] }
  else releaseHeld (endLookup s m r) m s.miss.length

/-- A lookup misses a line: it takes a slot, or is held while the slice has none (R128). -/
def missOn (s : State) (m : Miss) (atMap : Bool) (l : Nat) : State :=
  let s := if m.slow then setSlow s m.w.wid .busy else s
  slotNext { s with miss := s.miss ++ [{ m with atMap := atMap, line := l, slot := false, filled := false, new := atMap }] } m.slice

/-- Stages L1 to L4 (R125, R126, R128): an entry whose line the table cache holds is read; another is a miss; one whose fill
has failed ends the lookup with MEM. -/
def runLookup (s : State) (m : Miss) (lost : Bool := false) : State :=
  match checkHead s m.en m.w with
  | some c => finishLookup s m (.inl c)
  | none =>
    let a := lineOf (srcAddr s m.w.src.toNat)
    if !s.held a then (if lost && !m.atMap then finishLookup s m (.inl cMem) else missOn s m false a)
    else
      let s := { s with coh := cohUse s.coh a }
      match checkSrc s m.w false with
      | some c => finishLookup s m (.inl c)
      | none =>
        let b := lineOf (mapAddr (readSrc s m.w.src.toNat) (dataOf m.w))
        if !s.held b then (if lost && m.atMap then finishLookup s m (.inl cMem) else missOn s m true b)
        else
          let s := { s with coh := cohUse s.coh b }
          match checkMap s m.w false with
          | some c => finishLookup s m (.inl c)
          | none => finishLookup s m (.inr (lookupRes s m.w))

/-! ### Choice among sub-queues (R105, R130; 10 R240) -/

/-- Queues with a write steering to a slice, oldest first in each. -/
def subHead (s : State) (slice q : Nat) : Option QWrite := s.msg.q.find? fun e => decide (e.slice = slice) && decide (e.q = q)

/-- A sub-queue is stalled while one of its lookups waits in a miss slot (R128), or its raise for an in-flight entry
(07 R160, 12 R296) or for one of the 128 parks (10 R231). A miss on the map entry is found at L3: until then a lookup of the same sub-queue may issue behind it. -/
def stalled (s : State) (slice q : Nat) : Bool :=
  (s.miss.any fun m => decide (m.slice = slice) && decide (m.q = q) && !m.slow && !m.new) ||
  (s.wft.rwait.any fun e => decide (e.slice = some slice) && decide (e.q = q)) ||
  (decide (128 ≤ s.pnl.parks.length) && s.pnl.parkQ.any fun p => decide (p.src = some (slice, q)))

def readyQueues (s : State) (slice : Nat) : List Nat :=
  (((s.msg.q.filter fun e => decide (e.slice = slice)).map (·.q)).dedup).filter fun q => !stalled s slice q

def slotsLeft (s : State) (q slice : Nat) : Nat := Tbl.get 0 s.msg.slots (q * 8 + slice)

def quiescingQ (s : State) (q : Nat) : Bool := decide (q ≠ 0) && decide ((s.panel (q - 1)).state = .quiescing)

/-- Does queue a come before queue b in the order of R130? -/
def qBefore (s : State) (slice a b : Nat) : Bool :=
  if slotsLeft s a slice ≠ slotsLeft s b slice then decide (slotsLeft s b slice < slotsLeft s a slice)
  else decide (a < b)

def pickFrom (s : State) (slice : Nat) : List Nat → Option Nat
  | [] => none
  | q :: r =>
    match pickFrom s slice r with
    | none => some q
    | some p => if qBefore s slice q p then some q else some p

/-- The sub-queue that a slice serves: a quiescing Panel's first (10 R240), then by slots (R130). -/
def pickQueue (s : State) (slice : Nat) : Option Nat :=
  let l := readyQueues s slice
  let hot := l.filter (quiescingQ s)
  if hot.isEmpty then pickFrom s slice l else pickFrom s slice hot

/-- A lookup of the slice is held at its stage for want of a slot: the slice issues nothing (R128). -/
def sliceHeld (s : State) (slice : Nat) : Bool := s.miss.any fun m => decide (m.slice = slice) && m.res.isNone && !m.slot

/-- The slow-path write that the slice looks up next (R105). -/
def slowNext (s : State) (slice : Nat) : Option Slow :=
  s.msg.slow.find? fun e => decide (e.slice = slice) && decide (e.stage = .lookup)

def xltEn (s : State) : Bool := s.bit Reg.XLT_CTRL 0

def setSlowAge (s : State) (slice n : Nat) : State :=
  { s with msg := { s.msg with slowAge := Tbl.put s.msg.slowAge slice n } }

/-- Issue a slow-path lookup. -/
def issueSlow (s : State) (slice : Nat) (e : Slow) : State :=
  runLookup ((setSlowAge s slice 0).cnt64 Reg.XLT_LOOKUP_CNT)
    { slice := slice, q := e.q, w := e.w, slow := true, atMap := false, en := xltEn s }

/-- Issue the oldest write of a sub-queue. -/
def issueQueued (s : State) (slice q : Nat) (e : QWrite) : State :=
  let s := s.cnt64 Reg.XLT_LOOKUP_CNT
  let s := { s with msg := { s.msg with q := s.msg.q.filter (fun x => decide (x.w.wid ≠ e.w.wid)),
                                        slots := Tbl.put s.msg.slots (q * 8 + slice) (slotsLeft s q slice - 1) } }
  runLookup s { slice := slice, q := q, w := e.w, slow := false, atMap := false, en := xltEn s }

/-- A cycle of the slice passes: misses found by now stall their sub-queues. -/
def ageMisses (s : State) (slice : Nat) : State :=
  { s with miss := s.miss.map fun m => if m.slice = slice then { m with new := false } else m }

/-- The cycles of a slice since its last issue have passed: it found its misses, and waits the longer for the slow path. -/
def sliceCycles (s : State) (slice idle : Nat) : State :=
  setSlowAge (if idle = 0 then s else ageMisses s slice) slice (min 3 (Tbl.get 3 s.msg.slowAge slice + idle))

/-- A lookup of the slice whose fill has come re-enters at L1 ahead of new issue (R128). -/
def reenters (s : State) (slice : Nat) : Bool :=
  s.miss.any fun m => decide (m.slice = slice) && m.slot && (m.filled || s.held m.line)

/-- LOOKUP_ISSUE in the cycle that follows `idle` cycles without an issue on the slice. The slow path comes first when it has
had none of the three preceding cycles, and takes any cycle in which no sub-queue is ready (R105). -/
def lookupIssue (s : State) (slice idle : Nat) : State :=
  if sliceHeld s slice ∨ reenters s slice ∨ s.par.targets / 16 ≤ slice then s
  else
    let s := sliceCycles s slice idle
    let age := Tbl.get 3 s.msg.slowAge slice
    let queued := (pickQueue s slice).bind fun q => (subHead s slice q).map fun e => (q, e)
    match slowNext s slice, queued with
    | some e, none => issueSlow (ageMisses s slice) slice e
    | some e, some k =>
      if 3 ≤ age then issueSlow (ageMisses s slice) slice e
      else issueQueued (setSlowAge (ageMisses s slice) slice (age + 1)) slice k.1 k.2
    | none, some k => issueQueued (setSlowAge (ageMisses s slice) slice (min 3 (age + 1))) slice k.1 k.2
    | none, none => s

def execLookupIssue (slice : BitVec 3) (idle : BitVec 2) (s : State) : Out :=
  .next (if engOn s 2 then lookupIssue s slice.toNat idle.toNat else s)

/-- The n-th lookup of a slice in a miss slot. -/
def missNth (s : State) (slice n : Nat) : Option Miss :=
  (s.miss.filter fun m => decide (m.slice = slice) && m.slot)[n]?

/-- MISS_FILL (R128): the fill has arrived, or the line has come with another access, and the lookup re-enters at L1. It may
miss again, on its other entry or on a line snooped away in the meantime. A failed fill ends it with MEM. -/
def missFill (s : State) (slice n : Nat) : State :=
  match missNth s slice n with
  | none => s
  | some m =>
    let who := AccWho.lookup (BitVec.ofNat 3 slice)
    let lost := s.coh.failed.contains (who, m.line)
    if !lost && !m.filled && !s.held m.line then s
    else
      let s := { dropMiss s m with coh := { s.coh with failed := s.coh.failed.filter (· ≠ (who, m.line)) } }
      slotNext (runLookup s m lost) slice

/-! ### The slow path's set (05 R103, R106) -/

/-- A lane still holds an earlier write for the bit that a set goes to: the set follows it (07 R165). -/
def setWaits (s : State) (d : Dest) (ev : EventId) (wid : Nat) : Bool :=
  let ahead := fun (w : LaneW) => decide (w.ev = ev) && !w.after.contains wid
  match d with
  | .vpe v => s.lanes.any fun p => p.2.any fun w => decide (w.vpe = some v) && ahead w
  | .tgt g =>
    let t := slowHolder s (g.toNat % 128) ev
    isLocal s g && (s.lane (t / 16)).any fun w => decide (w.t = t) && w.vpe.isNone && ahead w

/-- Set the bit at a destination and mark its summary, which frees the tracker entry (R103 steps 3 and 4, 06 R142). -/
def slowSetAt (s : State) (d : Dest) (w : MWrite) (ev : EventId) (a : Attr) (q : Nat) : State :=
  match d with
  | .vpe v =>
    match vHeldElse s v ev with
    | some u => vMerge (freeSlow s w.wid) u ev a w.arr
    | none => parkMark (putBit (freeSlow s w.wid) 0 (some v) ev true) v ev a.prio true false
  | .tgt g =>
    if isLocal s g then
      let t := slowHolder s (g.toNat % 128) ev
      noteState (markLive (putBit (freeSlow s w.wid) t none ev true) t false ev a.prio) t false ev
    else remoteRaise (setSlow s w.wid .busy) g ev a 0 0 false w.arr 0 w.src.toNat q (some w.wid)

/-- SLOW_SET_DONE: the n-th tracker entry's set completes, or has failed after three retries (SLOW_FAIL). While
RNK_CTRL.EN is 0 a set in a physical pending table waits (07 R172). -/
def slowSetDone (s : State) (n : Nat) (fail : Bool) : State :=
  match s.msg.slow[n]? with
  | none => s
  | some e =>
    match e.stage with
    | .set r =>
      let d := redirDest s (destOf r) r.ev
      if (!r.virt && !s.rnkEn) || setWaits s d r.ev e.w.wid then s
      else lanesDrain (if fail then msgErr (freeSlow s e.w.wid) e.w 6 else slowSetAt s d e.w r.ev r.attr e.q)
    | _ => s

def execSlowSetDone (n : BitVec 6) (fail : Bool) (s : State) : Out :=
  .next (if engOn s 1 then s.served (s.withFail (.slowSet n) 4 fail fun s fail => slowSetDone s n.toNat fail) else s)

end Sys2Proof.Machine
end

