-- ==== Sys2Proof/Machine/Stroke.lean ====
section
/-! DEFINITION. The stroke scheduler (08): the schedule, snapshots and the lag decision, the count's loads, epochs. The
boundary itself stands in Boundary.lean. -/

namespace Sys2Proof.Machine

def modStk (s : State) (f : Stk → Stk) : State := { s with stk := f s.stk }

/-! ### The schedule (R180 to R183) -/

/-- GLB_REFCNT_HZ is legal (R183). -/
def refLegal (s : State) : Bool :=
  let hz := (s.rd Reg.GLB_REFCNT_HZ).toNat
  decide (1000000 ≤ hz) && decide (hz ≤ 1000000000)

/-- Acknowledged frequency point, and the MHz that it declares (17 R422). -/
def fAck (s : State) : Nat := s.fld Reg.PWR_DVFS_STATUS 2 0
def vAck (s : State) : Nat := s.fld Reg.PWR_DVFS_STATUS 6 4
def oppMhz (s : State) (p : Nat) : Nat := s.fld (Reg.PWR_OPP + 4 * p) 11 0
def oppMv (s : State) (p : Nat) : Nat := s.fld (Reg.PWR_OPP + 4 * p) 23 12

/-- f_clk of R180 in MHz. -/
def fClk (s : State) : Nat := if s.bit Reg.STK_STAT 14 then s.fld Reg.STK_FAST_MHZ 8 0 else oppMhz s (fAck s)

/-- P with 32 fraction bits, truncated (R180). -/
def periodNow (s : State) : Nat :=
  (s.stk.len * (s.rd Reg.GLB_REFCNT_HZ).toNat * 2 ^ 32 / (fClk s * 1000000)) % 2 ^ 48

/-- P as STK_REF_PER shows it. -/
def showPeriod (s : State) : State := s.wr64 Reg.STK_REF_PER (BitVec.ofNat 64 (periodNow s))

def setOrigin (s : State) (r : W64) (n : Stroke) : State :=
  (s.wr64 Reg.STK_ORIGIN_REF r).wr64 Reg.STK_ORIGIN_CNT (n.zeroExtend 64)

def originCnt (s : State) : Stroke := (s.rd64 Reg.STK_ORIGIN_CNT).truncate 48

/-- due(r) of R181 under a nominal stroke of per * 2^-32 ticks. -/
def dueAt (s : State) (per : Nat) (r : W64) : Stroke :=
  originCnt s + BitVec.ofNat 48 ((r - s.rd64 Reg.STK_ORIGIN_REF).toNat * 2 ^ 32 / per)

/-- lag of R181, signed. -/
def lagAt (s : State) (per : Nat) (r : W64) (n : Stroke) : Int := (dueAt s per r - n).toInt

/-- ceil(1 / P) + 1 (R185). -/
def slipMargin (per : Nat) : Nat := (2 ^ 32 + per - 1) / per + 1

/-- N of R185. -/
def catchUpN (lag len cat : Nat) : Nat := (lag * len + (len - cat) - 1) / (len - cat)

/-- What a measured lag decides (R185): catch-up strokes, jump, slip. -/
def lagDecision (lag : Int) (per len cat jump : Nat) : Nat × Nat × Bool :=
  if lag < 0 then (0, 0, decide ((slipMargin per : Int) < -lag))
  else
    let l := lag.toNat
    if l = 0 then (0, 0, false)
    else if l ≤ jump ∧ cat < len then (catchUpN l len cat, 0, false)
    else (0, l, false)

/-- STK_STAT.LAG. -/
def showLag (s : State) (lag : Int) : State := s.setFld Reg.STK_STAT 11 0 (min 4095 lag.toNat)

/-- Apply R185 to a lag measured at snapshot r and count n. -/
def decideLag (s : State) (lag : Int) (r : W64) (n : Stroke) : State :=
  let d := lagDecision lag s.stk.per s.stk.len (s.fld Reg.STK_CATCH 6 0) (s.fld Reg.STK_CATCH 27 16)
  let s := modStk (showLag s lag) fun k => { k with dec := some (d.1, d.2.1) }
  if d.2.2 then (setOrigin s r n).cnt64 Reg.STK_SLIP_CNT else s

/-- STK_ERR flags (R194). -/
def stkErr (s : State) (i : Nat) : State := setFlag s 4 Reg.STK_ERR i 0 false

/-- REFCNT has gone backward (R183). -/
def refBack (s : State) (r : W64) : Bool := s.stk.lastRef.any fun l => decide (2 ^ 63 ≤ (r - l).toNat)

/-- A snapshot that no schedule is set by, at entry and at wake: REFCNT going backward is flagged, and it is the previous one
of the next (R183). -/
def seeRef (s : State) (r : W64) : State :=
  let s := if refBack s r then stkErr s 0 else s
  modStk s fun k => { k with lastRef := some r }

/-- Re-anchor at a snapshot with a count, under P as it now stands. -/
def reanchor (s : State) (r : W64) (n : Stroke) : State :=
  let s := setOrigin s r n
  modStk (showPeriod s) fun k => { k with per := periodNow s }

/-- A snapshot that measures the lag (R181, R182, R185): with the old P, then re-anchored if P has changed. On CLK_FAST no
lag is measured (R190). -/
def measure (s : State) (r : W64) : State :=
  let n := s.stk.snapAt
  if s.bit Reg.STK_STAT 14 then s
  else
    let lag := lagAt s s.stk.per r n
    let s := if periodNow s = s.stk.per then s else reanchor s r (n + BitVec.ofInt 48 lag)
    decideLag s lag r n

/-- Ask for a snapshot at this boundary; a use other than a measurement is not displaced by one. While the rate is out of range
none but the TAG's is taken (R183; 12 R288). -/
def wantSnap (s : State) (u : SnapUse) : State :=
  if !refLegal s && decide (u ≠ .tag) then s
  else modStk s fun k => { k with snapDue := if k.snapDue.isNone || decide (u ≠ .measure) then some u else k.snapDue }

/-! ### Shifting every reference (R189, R192) -/

def shiftPend (d : Stroke) (a : Act) : Act :=
  { a with pend := a.pend.map fun p => p.map fun q => (q.1, q.2 + d) }
def shiftCtx (d : Stroke) (c : Ctx) : Ctx :=
  { c with stack := c.stack.map (shiftPend d), split := c.split.map (shiftPend d) }
def shiftOp (d : Stroke) (o : TOp) : TOp := { o with arr := o.arr + d }
def shiftTg (d : Stroke) (x : Tg) : Tg :=
  Tg.mapOps { x with entries := x.entries.map (fun e => { e with arr := e.arr + d }),
                     phys := shiftCtx d x.phys, virt := shiftCtx d x.virt } (·.map (shiftOp d))
def shiftLine (d : Stroke) (l : Line) : Line :=
  { l with change := l.change.map (fun c => (c.1, c.2 + d)), unr := l.unr.map (· + d) }
def shiftW (d : Stroke) (w : MWrite) : MWrite := { w with arr := w.arr + d }
/-- ARRIVAL of a RAISE that has not been acknowledged, or waits to be sent (12 R283). -/
def shiftIft (d : Stroke) (e : Ift) : Ift :=
  let a : Stroke := BitVec.ofNat 48 (e.pay.toNat / 2 ^ 64)
  { e with pay := (e.pay &&& ~~~(BitVec.ofNat 160 ((2 ^ 48 - 1) * 2 ^ 64))) ||| ((a + d).zeroExtend 160 <<< 64) }

/-- Add d to STK_COUNT and to every arrival stroke. The idle count and the heartbeat count hold strokes that have run,
not references, so nothing is added to them. -/
def shiftTime (s : State) (d : Stroke) : State :=
  { s with count := s.count + d,
           tg := s.tg.map (fun p => (p.1, shiftTg d p.2)),
           win := s.win.map (fun p => (p.1, shiftLine d p.2)),
           msg := { s.msg with stage := s.msg.stage.map (shiftW d),
                               q := s.msg.q.map (fun e => { e with w := shiftW d e.w }),
                               slow := s.msg.slow.map (fun e => { e with w := shiftW d e.w }) },
           miss := s.miss.map (fun m => { m with w := shiftW d m.w }),
           wft := { s.wft with ift := s.wft.ift.map (fun e => (e.1, shiftIft d e.2)), rwait := s.wft.rwait.map (shiftIft d) } }

/-- Load a common count (R192): the origin follows at the snapshot, and the next boundary is an epoch boundary. -/
def loadCount (s : State) (common : Stroke) : State :=
  let s := shiftTime s (common - s.count)
  modStk (wantSnap s .load) fun k => { k with epochNext := true }

/-! ### Alignment (R193) -/

/-- round(hops * 24 / LEN). -/
def transitOf (s : State) (hops : Nat) : Nat := (2 * hops * 24 + s.stk.len) / (2 * s.stk.len)

def satByte (x : Int) : Nat := (BitVec.ofInt 8 (max (-128) (min 127 x))).toNat

/-- Order 8 for an ALIGN flit. A stretch begins with the stroke after the one that this boundary opens, whose length is set
(DESIGN CHOICE, log 72). -/
def alignApply (s : State) (n : Stroke) (hops : Nat) : State :=
  let off : Int := (s.count - (n + BitVec.ofNat 48 (transitOf s hops))).toInt
  let jump : Int := s.fld Reg.STK_CATCH 27 16
  let s := s.setFld Reg.STK_STAT 23 16 (satByte off)
  let s := if off < -jump ∨ jump < off then stkErr s 1 else s
  if off ≤ -2 then
    let s := s.wr64 Reg.STK_ORIGIN_CNT ((originCnt s + BitVec.ofInt 48 (-off)).zeroExtend 64)
    wantSnap s .measure
  else if 2 ≤ off then
    let s := s.wr64 Reg.STK_ORIGIN_CNT ((originCnt s - BitVec.ofInt 48 off).zeroExtend 64)
    modStk s fun k => { k with stretchN := (off.toNat * k.len + 7) / 8 }
  else s

/-! ### Sleep (R189, R190) -/

/-- fast_len of R190, ties rounding up. -/
def fastLenOf (s : State) : Nat :=
  max 4 ((2 * (s.stk.len * s.fld Reg.STK_FAST_MHZ 8 0) + s.stk.fEntry) / (2 * s.stk.fEntry))

/-- adv of R189. -/
def sleepAdv (s : State) (wakeRef entryRef : W64) (perEntry : Nat) : Nat :=
  if refLegal s && decide (perEntry ≠ 0) then (wakeRef - entryRef).toNat * 2 ^ 32 / perEntry else 0

/-- Time advances across sleep (R189). -/
def sleepAdvance (s : State) (r : W64) : State :=
  match s.pwr.save with
  | none => s
  | some v =>
    let adv : Stroke := BitVec.ofNat 48 (sleepAdv s r v.snap v.refPer)
    let s := shiftTime s adv
    let s := s.wr64 Reg.STK_SLEEP_ADV (adv.zeroExtend 64)
    let s := if refLegal s then setOrigin (seeRef s r) r s.count else s
    modStk s fun k => { k with epochNext := true }

/-! ### Epochs (R188, 05 R101, 06 R130, 10 R234) -/

def xltRate (s : State) (q : Nat) : Nat :=
  if q = 0 then s.fld Reg.XLT_PQ_SLOTS 6 0 else s.fld (shareOff (q - 1) Reg.PNL_SHR_LIVE1) 22 16

/-- Budgets, slots and Shuttle shares are set for the epoch: order 4 at an epoch boundary. -/
def epochRefill (s : State) : State :=
  let qs := 0 :: (createdPanels s).map (· + 1)
  let len := 2 ^ s.stk.shift
  let left : Tbl Nat := qs.map fun q => (q, qBudget s q)
  let slots : Tbl Nat := qs.flatMap fun q =>
    (List.range (s.par.targets / 16)).map fun sl => (q * 8 + sl, xltRate s q * len)
  { s with msg := { s.msg with left := left, slots := slots }, pnl := { s.pnl with sht := [] } }

/-- EPOCH_BOUNDARY. -/
def epochBoundary (s : State) : State :=
  if s.stk.epochDue then epochRefill (modStk s fun k => { k with epochDue := false }) else s

def execEpochBoundary (s : State) : Out := .next (epochBoundary s)

/-! ### Snapshots (R36, R181) -/

/-- REFCNT_SNAPSHOT: the request rises once the previous acknowledge is low (R35). While GLB_REFCNT_HZ is out of range
only the snapshot of the TAG is taken (R183; 12 R288). -/
def snapshot (s : State) : State :=
  match s.stk.snapDue with
  | none => s
  | some u =>
    if s.stk.snap.req || s.stk.snap.ack then s
    else if !refLegal s && (decide (u = .measure) || decide (u = .anchor) || decide (u = .load)) then
      modStk s fun k => { k with snapDue := none }
    else modStk s fun k => { k with snapDue := none, snap := { req := true, ack := false }, snapUse := u, snapAt := s.count }

def execRefcntSnapshot (s : State) : Out := .next (snapshot s)

/-- What the scheduler does with a snapshot, whatever it was taken for (R181 to R183): one that lies below the previous one
re-anchors with lag 0, which ends a catch-up from the next boundary on; while the rate is out of range none sets the schedule. -/
def snapTaken (s : State) (r : W64) : State :=
  let n := s.stk.snapAt
  let s := if s.stk.snapUse = .tag then { s with wft := { s.wft with tag := r.truncate 32 } } else s
  let s' :=
    if !refLegal s then s
    else if refBack s r then modStk (reanchor (showLag (stkErr s 0) 0) r n) fun k => { k with dec := some (0, 0) }
    else match s.stk.snapUse with
      | .measure => measure s r
      | .anchor => reanchor s r n
      | .load => reanchor s r n
      | .tag => s
  modStk s' fun k => { k with lastRef := some r }

/-- A new GLB_REFCNT_HZ (R180, R183): the first legal value sets the origin at the next boundary; an illegal one ends every
catch-up, jump and slip that stands. -/
def refRate (s : State) (was : Bool) : State :=
  let s := showPeriod s
  if refLegal s then (if was then s else modStk s fun k => { k with anchorNext := true })
  else modStk s fun k => { k with dec := none, catchN := 0, anchorNext := false,
                                  snapDue := k.snapDue.filter fun u => decide (u = .tag) }

def execRefSnapAckFall (s : State) : Out :=
  .next (if s.stk.snap.req then s else modStk s fun k => { k with snap := { req := false, ack := false } })

end Sys2Proof.Machine
end

