-- ==== Sys2Proof/Machine/CmdBase.lean ====
section
/-! DEFINITION. The command engine (11): rings, descriptor fetch and its checks, the start and completion of a command,
records, and what a running command waits for. -/

namespace Sys2Proof.Machine

/-! ### Rings (R251 to R254) -/

def ringN (s : State) (r : Nat) : Nat := 2 ^ s.fld (ringOff r Reg.CMD_RCTRL) 8 4
def ringEn (s : State) (r : Nat) : Bool := s.bit (ringOff r Reg.CMD_RCTRL) 0
def ringHead (s : State) (r : Nat) : Nat := s.fld (ringOff r Reg.CMD_HEAD) 15 0
def ringPhase (s : State) (r : Nat) : Bool := s.bit (ringOff r Reg.CMD_HEAD) 16
def ringTail (s : State) (r : Nat) : Nat := s.fld (ringOff r Reg.CMD_TAIL) 15 0
/-- Outstanding descriptors for a tail: (TAIL - HEAD) mod N. -/
def outstanding (s : State) (r tail : Nat) : Nat := (tail + ringN s r - ringHead s r) % ringN s r
def stopping (s : State) (r : Nat) : Bool := s.bit (ringOff r Reg.CMD_RSTAT) 1
/-- FETCH_ERR or CPL_ERR: the ring is halted (R276). -/
def halted (s : State) (r : Nat) : Bool := s.bit (ringOff r Reg.CMD_RSTAT) 2 || s.bit (ringOff r Reg.CMD_RSTAT) 3
def ringBase (s : State) (r : Nat) : Nat := base4k (s.rd64 (ringOff r Reg.CMD_RBASE))
def ringCpl (s : State) (r : Nat) : Nat := base4k (s.rd64 (ringOff r Reg.CMD_CBASE))

/-- Descriptors past HEAD that are completed, running or fetched. -/
def taken (x : Ring) : Nat := x.recs.length + (if x.run.isSome then 1 else 0) + x.fetched.length

/-! ### Descriptors (R255, R257, R258) -/

def Desc.word (d : Desc) (i : Nat) : W64 := d.w.getD i 0
def Desc.op (d : Desc) : Nat := field (d.word 0) 7 0
def Desc.cev (d : Desc) : Bool := bitAt (d.word 0) 8
def Desc.tag (d : Desc) : Nat := field (d.word 0) 31 16

def maskOf (hi lo : Nat) : Nat := (2 ^ (hi + 1 - lo) - 1) <<< lo

/-- The bits of words 1 to 4 that a descriptor's command uses; `none`: the opcode is undefined. Words 5 to 7 are unused
by every command (R257, R258). -/
def descMask (d : Desc) : Option (Nat × Nat × Nat × Nat) :=
  let w1 := d.word 1
  let adr := maskOf 51 12
  let db := maskOf 8 0 + maskOf 29 16 + maskOf 52 32
  let ent := maskOf 5 1 + maskOf 36 8 + (if bitAt (d.word 2) 1 then maskOf 63 48 else maskOf 61 48)
  let ev := maskOf 21 0 +
    (if bitAt w1 21 then (if field w1 20 0 < 16 then maskOf 51 36 else if 4128 ≤ field w1 20 0 then maskOf 61 52 else 0)
     else if field w1 20 0 < 32 then maskOf 35 22 else 0)
  match d.op with
  | 0x00 => some (0, 0, 0, 0)
  | 0x01 => some (maskOf 8 0, 0, 0, 0)
  | 0x10 => some (maskOf 40 0, adr, 0, 0)
  | 0x11 => some (maskOf 23 0, 0, 0, 0)
  | 0x12 => some (maskOf 44 0, ent, 0, 0)
  | 0x13 => some (maskOf 44 0, 0, 0, 0)
  | 0x14 => some (maskOf 44 0, maskOf 5 2 + maskOf 15 8, 0, 0)
  | 0x15 => if bitAt w1 45 then some (maskOf 45 45, maskOf 20 0 + maskOf 63 48, 0, 0)
            else some (maskOf 45 0, maskOf 63 48, 0, 0)
  | 0x16 => if bitAt w1 24 then some (maskOf 24 24, 0, 0, 0) else some (maskOf 24 0, 0, 0, 0)
  | 0x20 => some (ev, 0, 0, 0)
  | 0x21 => some (ev, 0, 0, 0)
  | 0x22 => some (ev, 0, 0, 0)
  | 0x30 => some (maskOf 14 0, adr, 0, 0)
  | 0x31 => some (maskOf 14 0 + maskOf 26 16, 0, 0, 0)
  | 0x32 => some (maskOf 9 0, 0, 0, 0)
  | 0x33 => some (maskOf 9 0, 0, 0, 0)
  | 0x34 => some (maskOf 9 0, 0, 0, 0)
  | 0x35 => some (maskOf 9 0, 0, 0, 0)
  | 0x36 => some (maskOf 9 0, 0, 0, 0)
  | 0x38 => some (maskOf 25 0, adr, adr, db)
  | 0x39 => some (maskOf 15 0, db, 0, 0)
  | 0x3A => some (maskOf 15 0, 0, 0, 0)
  | 0x40 => some (0, 0, 0, 0)
  | _ => none

def within (w : W64) (m : Nat) : Bool := decide (w &&& ~~~(BitVec.ofNat 64 m) = 0)

/-- Checks 1 and 2 of R256: the status of a descriptor that fails one. -/
def descCheck (d : Desc) : Option Nat :=
  match descMask d with
  | none => some stBadOp
  | some (m1, m2, m3, m4) =>
    if within (d.word 0) (maskOf 8 0 + maskOf 31 16) && within (d.word 1) m1 && within (d.word 2) m2 &&
       within (d.word 3) m3 && within (d.word 4) m4 && decide (d.word 5 = 0) && decide (d.word 6 = 0) &&
       decide (d.word 7 = 0) then none
    else some stBadRsv

/-- Commands that run in SAFE (R257). -/
def safeOp (op : Nat) : Bool := op = 0x00 || op = 0x01 || op = 0x20 || op = 0x21 || op = 0x22 || op = 0x40

/-- Checks 3 and 4 of R256 that need no table: SAFE_EXIT off ring 0, and SAFE. The GROUP 0 cases of check 3 stand with
their commands. -/
def startCheck (s : State) (r : Nat) (d : Desc) : Option Nat :=
  if d.op = 0x40 ∧ r ≠ 0 then some stBadRange
  else if inSafe s && !safeOp d.op then some stBusy
  else none

/-! ### Completion (R259 to R262) -/

def recOf (s : State) (d : Desc) (status : Nat) (result : W64) : Rec :=
  { index := d.index, status := status, tag := d.tag, op := d.op, cev := d.cev, result := result, stroke := s.count }

/-- Complete descriptors at the front that fail checks 1 and 2, while nothing runs and the ring is not halted. -/
def completeBad (s : State) (r : Nat) : Nat → State
  | 0 => s
  | n + 1 =>
    let x := s.ring r
    match x.fetched with
    | [] => s
    | d :: rest =>
      if x.run.isSome || halted s r || !ringEn s r then s
      else match descCheck d with
      | none => s
      | some st =>
        completeBad (s.setRing r { x with fetched := rest, recs := x.recs ++ [recOf s d st 0] }) r n

/-- The running command, or the one just taken, completes with a status. -/
def complete (s : State) (r : Nat) (d : Desc) (status : Nat) (result : W64 := 0) : State :=
  completeBad (s.modRing r fun x => { x with run := none, recs := x.recs ++ [recOf s d status result] }) r 8

/-- The command goes on and will complete later. -/
def goOn (s : State) (r : Nat) (d : Desc) (status : Nat) (k : RunKind) : State :=
  s.modRing r fun x => { x with run := some { desc := d, status := status, kind := k } }

/-- A command whose run is of a kind completes with its status. -/
def completeRun (s : State) (r : Nat) (status : Nat) (result : W64 := 0) : State :=
  match (s.ring r).run with
  | none => s
  | some u => complete s r u.desc status result

/-- The words of a record (R259). -/
def recWords (r : Nat) (phase : Bool) (e : Rec) : List W64 :=
  [BitVec.ofNat 64 (phase.toNat + e.status * 2 ^ 8 + e.tag * 2 ^ 16 + e.op * 2 ^ 32 + r * 2 ^ 40),
   BitVec.ofNat 64 e.index, e.result, e.stroke.zeroExtend 64]

def storeWords (s : State) (a : Nat) : List W64 → State
  | [] => s
  | w :: r => storeWords (s.store64 a w) (a + 8) r

/-- HEAD advances, and PHASE inverts at a wrap (R252, R260). -/
def advanceHead (s : State) (r : Nat) : State :=
  let h := (ringHead s r + 1) % ringN s r
  let ph := if h = 0 then !ringPhase s r else ringPhase s r
  s.wr (ringOff r Reg.CMD_HEAD) (BitVec.ofNat 32 (h + ph.toNat * 2 ^ 16))

/-- STOPPING ends once no command runs and no record waits (R277). -/
def endStopping (s : State) (r : Nat) : State :=
  if stopping s r && (s.ring r).run.isNone && (s.ring r).recs.isEmpty then s.setBitR (ringOff r Reg.CMD_RSTAT) 1 false
  else s

/-- The completion event of R262: context 0b00 for ring 1, 0b01 for every other ring. -/
def cplEvent (s : State) (r : Nat) (cev : Bool) : State :=
  let w := s.rd (ringOff r Reg.CMD_RIRQ)
  if cev && bitAt w 0 then sendTo s (field w 11 5) (field w 4 1) (decide (r ≠ 1)) s.count else s

/-! ### What a running command waits for -/

/-- Numbers on operations, lane writes and parks: those of the commands included (R264). -/
def syncDone (s : State) (g : Nat × Nat) : Bool :=
  decide (g.2 ≤ (s.rd64 (ringOff g.1 Reg.CMD_CNT)).toNat) || (!ringEn s g.1 && !stopping s g.1) || halted s g.1

/-- Lookups that have issued and not delivered: in a miss slot or held there, or with a raise that the slice holds for an
in-flight entry (06 R128, R134; 07 R160). -/
def lookupWids (s : State) : List Nat := s.miss.map (·.w.wid) ++ s.wft.rwait.filterMap (·.wid)

/-- Those, and the slow-path writes that have been translated and not delivered (R134; 05 R103). -/
def transWids (s : State) : List Nat :=
  lookupWids s ++ (s.msg.slow.filter fun e => decide (e.stage ≠ .lookup)).map (·.w.wid)

/-- Operations that have not taken effect: a raise that a redirect has sent to another instance waits for its DACK (R264). -/
def opWidsLeft (s : State) : List Nat := liveWids s ++ s.wft.ift.filterMap (·.2.wid)

def runReady (s : State) (r : Nat) (k : RunKind) : Bool :=
  match k with
  | .ops => !(opWidsLeft s).contains (cmdWid r)
  | .lookups l => !(transWids s).any l.contains
  | .sync goals fence => goals.isEmpty && !fence
  | _ => false

/-- What is left of a wait: a ring, or the fence, that SYNC has found done stays done (R267). -/
def runLeft (s : State) (k : RunKind) : RunKind :=
  match k with
  | .sync goals fence => .sync (goals.filter fun g => !syncDone s g) (fence && !s.bit Reg.MSG_FENCE 1)
  | k => k

/-- A running command whose wait is over completes. -/
def pollRing (s : State) (r : Nat) : State :=
  match (s.ring r).run with
  | none => s
  | some u =>
    let k := runLeft s u.kind
    if runReady s r k then complete s r u.desc u.status
    else if k = u.kind then s
    else s.modRing r fun x => { x with run := some { u with kind := k } }

/-- Payload of a CRSP (12 R283). -/
def crspPay (req status : Nat) (pend part mapped bit : Bool) (data : W64) : BitVec 160 :=
  BitVec.ofNat 160 (req * 2 ^ 4 + status * 2 ^ 12 + pend.toNat * 2 ^ 20 + part.toNat * 2 ^ 21 + mapped.toNat * 2 ^ 22 +
    bit.toNat * 2 ^ 23 + data.toNat * 2 ^ 64)

/-- Answer a request of another instance. -/
def answerReq (s : State) (inst req status : Nat) (pend : Bool) : State :=
  sendFlit s 0x21 (BitVec.ofNat 7 inst) (crspPay req status pend false false false 0)

/-- A request of another instance whose operation has been applied is answered (R264, 12 R299). -/
def pollOwed (s : State) : State :=
  let live := opWidsLeft s
  let done := s.wft.owed.filter fun o => !live.contains o.wid
  let s := { s with wft := { s.wft with owed := s.wft.owed.filter fun o => live.contains o.wid } }
  done.foldl (fun s o => answerReq s o.inst o.req o.status false) s

def pollAll (s : State) : State := pollOwed ((List.range 8).foldl pollRing s)

/-! ### Fetch (R254, R276) -/

/-- The command engine runs: in RUN, until its stop point; it stops at W1 of a warm reset, and waits for the restore after
DEEP (02 R43; 17 R408, R421). -/
def cmdOn (s : State) : Bool := engOn s 2 && decide (s.rst.phase = .run) && (!s.pwr.restore || s.pwr.restoreCut)

/-- The index of the next descriptor to be fetched, if one is outstanding and not more than 8 wait. -/
def nextFetch (s : State) (r : Nat) : Option Nat :=
  let x := s.ring r
  let k := taken x
  if ringEn s r && !halted s r && !x.bad && decide (x.fetched.length < 8) && decide (k < outstanding s r (ringTail s r)) then
    some ((ringHead s r + k) % ringN s r)
  else none

def readDesc (s : State) (r i : Nat) : Desc :=
  { index := i, w := (List.range 8).map fun k => s.load64 (ringBase s r + i * 64 + 8 * k) }

/-- CMD_RSTAT flags; DETAIL's UNIT is the ring (18 R426). -/
def ringFlag (s : State) (r i : Nat) : State := setFlag s 7 (ringOff r Reg.CMD_RSTAT) i r false

/-- HEAD has reached a descriptor whose fetch has failed: the ring halts there (R276), which may end a SYNC (R267). -/
def haltAtBad (s : State) (r : Nat) : State :=
  let x := s.ring r
  if x.bad && x.fetched.isEmpty && x.run.isNone && x.recs.isEmpty then
    pollAll (ringFlag (s.setRing r { x with bad := false }) r 2)
  else s

/-- DESCRIPTOR_FETCH: the fetch completes and checks 1 and 2 of R256 are made, or it has failed after three retries and
the ring halts once every command before it is done (R276). -/
def descFetch (s : State) (r : Nat) (fail : Bool) : State :=
  match nextFetch s r with
  | none => s
  | some i =>
    let x := s.ring r
    if fail then haltAtBad (s.setRing r { x with bad := true }) r
    else
      let s := s.reads (ringBase s r + i * 64) 64
      completeBad (s.setRing r { x with fetched := x.fetched ++ [readDesc s r i] }) r 8

def execDescriptorFetch (r : BitVec 3) (fail : Bool) (s : State) : Out :=
  .next (if cmdOn s then s.served (s.withFail (.desc r) 4 fail fun s fail => descFetch s r.toNat fail) else s)

/-! ### COMPLETION_RECORD_WRITE (R260, R276, R278) -/

/-- Records go out in RUN, and after W1 of a warm reset under W3. -/
def recOn (s : State) : Bool :=
  (decide (s.rst.phase = .run) || decide (s.rst.phase = .w2) || decide (s.rst.phase = .w3)) &&
  decide (pwrPhase s < 3) && decide (pwrState s ≠ 2) && decide (pwrState s ≠ 3)

def recordWrite (s : State) (r : Nat) (fail : Bool) : State :=
  let s := pollRing s r
  match (s.ring r).recs with
  | [] => s
  | e :: rest =>
    if s.bit (ringOff r Reg.CMD_RSTAT) 3 then s
    else if fail then pollAll (ringFlag s r 3)
    else
      let s := storeWords s (ringCpl s r + e.index * 32) (recWords r (ringPhase s r) e)
      let s := s.modRing r fun x => { x with recs := rest }
      let s := (advanceHead s r).cnt64 (ringOff r Reg.CMD_CNT)
      haltAtBad (pollAll (completeBad (cplEvent (endStopping s r) r e.cev) r 8)) r

def execCompletionRecordWrite (r : BitVec 3) (fail : Bool) (s : State) : Out :=
  .next (if recOn s then s.served (s.withFail (.record r) 4 fail fun s fail => recordWrite s r.toNat fail) else s)

/-! ### Starting a command (R256, R271) -/

/-- The descriptor that starts next on ring r, when it is of opcode op. -/
def startable (s : State) (r op : Nat) : Option Desc :=
  let x := s.ring r
  if cmdOn s && ringEn s r && !halted s r && x.run.isNone then
    match x.fetched with
    | d :: _ => if d.op = op ∧ descCheck d = none then some d else none
    | [] => none
  else none

/-- A table command runs on some ring: the later one waits (R272). -/
def tableOp (op : Nat) : Bool := decide (0x10 ≤ op) && decide (op ≤ 0x16)
def tblBusy (s : State) : Bool := s.rings.any fun p => p.2.run.any fun u => tableOp u.desc.op

/-- Fewer than 16 CMD requests are outstanding (12 R299). -/
def reqFree (s : State) : Bool := decide (s.wft.cmds.length < 16)

/-- The engine does not hold a command of this opcode back: one table command and one move at a time (R272, 06 R141), and a
command that may need another instance waits for a free request (12 R299). -/
def mayStart (s : State) (op : Nat) : Bool :=
  if tableOp op then !tblBusy s && reqFree s && s.move.isNone
  else if op ∈ [0x20, 0x21, 0x22, 0x38, 0x39] then reqFree s
  else true

/-- Ring r has a command ready to start. -/
def ringReady (s : State) (r : Nat) : Bool :=
  match (s.ring r).fetched with
  | d :: _ => (startable s r d.op).isSome && mayStart s d.op
  | [] => false

/-- Place of a ring in the order of R271: ring 1, ring 0, then rings 2 to 7 in rotation. -/
def ringRank (s : State) (r : Nat) : Nat :=
  if r = 1 then 0 else if r = 0 then 1 else 2 + (r + 5 - s.cmdRot.toNat) % 6

/-- No ring that comes before ring r has a command ready. -/
def ringTurn (s : State) (r : Nat) : Bool :=
  (List.range 8).all fun m => !ringReady s m || decide (ringRank s r ≤ ringRank s m)

/-- Start the command of opcode op at the front of ring r, where the engine holds it not back and it is the ring's turn
(R271); checks 3 and 4 of R256 come before the command's own. `grp`: the command would write GROUP 0 or names a group 0
event, which only ring 1 may (06 R136); `rd`: it reads the entries that it names. -/
def startCmd (s : State) (r op : Nat) (act : State → Nat → Desc → State)
    (grp : State → Desc → Bool := fun _ _ => false) (rd : State → Desc → State := fun s _ => s) : State :=
  match startable s r op with
  | none => s
  | some d =>
    if !(mayStart s op && ringTurn s r) then s
    else
      let s := (activity s).modRing r fun x => { x with fetched := x.fetched.tail }
      let s := rd (if 2 ≤ r then { s with cmdRot := BitVec.ofNat 3 r } else s) d
      if decide (r ≠ 1) && grp s d then complete s r d stBadRange
      else match startCheck s r d with
      | some st => complete s r d st
      | none => act s r d

/-- How a command's accesses end: as the row says, or, where the coherent agent has failed one, with that failure (13
R321). -/
def cmdMem (s : State) (r : Nat) (c : CmdMem) : CmdMem :=
  let n := BitVec.ofNat 3 r
  if s.failures (.cmdRead n) ≠ 0 then .readFail
  else if c = .good ∧ (s.failures (.table n) ≠ 0 ∨ s.failures (.bitCmd n) ≠ 0) then .writeFail 0
  else c

/-- The command has taken its failures in. -/
def forgetCmd (s : State) (r : Nat) : State :=
  let n := BitVec.ofNat 3 r
  if s.coh.failed = [] then s else ((s.forget (.cmdRead n)).forget (.table n)).forget (.bitCmd n)

/-- The accesses of a command that starts: those of the Panel manager's commands may be more than the cache holds at once. -/
def cmdServed (s : State) (op : Nat) (t : State) : State := if decide (0x30 ≤ op) then s.servedRun t else s.served t

/-- Start a command that reads or writes host memory. -/
def startMem (s : State) (r op : Nat) (c : CmdMem) (act : CmdMem → State → Nat → Desc → State)
    (grp : CmdMem → State → Desc → Bool := fun _ _ _ => false) (rd : State → Desc → State := fun s _ => s) : State :=
  let c := cmdMem s r c
  cmdServed s op (startCmd s r op (fun s r d => act c (forgetCmd s r) r d) (grp c)
    (fun s d => if c = .readFail then s else rd s d))

/-- Start a command whose row tells only whether a host-memory access of it fails. -/
def startFail (s : State) (r op : Nat) (fail : Bool) (act : Bool → State → Nat → Desc → State) : State :=
  let fail := decide (cmdMem s r (if fail then .readFail else .good) ≠ .good)
  cmdServed s op (startCmd s r op fun s r d => act fail (forgetCmd s r) r d)

/-! ### NOP, SYNC -/

def execCmdNop (r : BitVec 3) (s : State) : Out :=
  .next (startCmd s r.toNat 0x00 fun s r d => complete s r d stOk)

/-- SYNC (R267). -/
def syncStart (s : State) (r : Nat) (d : Desc) : State :=
  let rings := (List.range 8).filter fun m => bitAt (d.word 1) m && decide (m ≠ r)
  let goals := rings.map fun m =>
    (m, (s.rd64 (ringOff m Reg.CMD_CNT)).toNat + outstanding s m (ringTail s m))
  let fence := bitAt (d.word 1) 8
  let s := if fence then openFence s else s
  pollRing (goOn s r d stOk (.sync goals fence)) r

def execSync (r : BitVec 3) (s : State) : Out := .next (startCmd s r.toNat 0x01 syncStart)

/-! ### Doorbell, enable, status, mailbox: the effects of accepted writes -/

/-- CMD_DB.TAIL (R253): the second component is the refusal as a reserved encoding. -/
def doorbellWrite (s : State) (r : Nat) (tail : Nat) : State × Bool :=
  if !ringEn s r then (ringFlag s r 4, false)
  else if ringN s r ≤ tail ∨ outstanding s r tail < outstanding s r (ringTail s r) then (s, true)
  else (s.wr (ringOff r Reg.CMD_TAIL) (BitVec.ofNat 32 tail), false)

/-- EN goes to 1: the indices reset (R252). -/
def ringEnable (s : State) (r : Nat) : State :=
  let s := (s.wr (ringOff r Reg.CMD_TAIL) 0).wr (ringOff r Reg.CMD_HEAD) 0x10000
  s.modRing r fun x => { x with fetched := [], bad := false }

/-- EN goes to 0: descriptors not started are discarded; STOPPING reads 1 while a command runs or its record waits
(R277). -/
def ringDisable (s : State) (r : Nat) : State :=
  let s := s.modRing r fun x => { x with fetched := [], bad := false }
  let busy := (s.ring r).run.isSome || !(s.ring r).recs.isEmpty
  pollAll (s.setBitR (ringOff r Reg.CMD_RSTAT) 1 busy)

/-- MBX_STAT.VALID. -/
def mbxValid (s : State) : Bool := s.bit Reg.MBX_STAT 0

/-- Fill the mailbox (R274). -/
def mbxFill (s : State) (r : Nat) (d : Desc) (w : List W64) : State :=
  let s := (((s.wr64 Reg.MBX_DATA (w.getD 0 0)).wr64 (Reg.MBX_DATA + 8) (w.getD 1 0)).wr64
    (Reg.MBX_DATA + 16) (w.getD 2 0)).wr64 (Reg.MBX_DATA + 24) (w.getD 3 0)
  s.wr64 Reg.MBX_STAT (BitVec.ofNat 64 (1 + r * 2 + d.tag * 2 ^ 16 + d.index * 2 ^ 32))

/-- MBX_ACK.ACK: VALID and the words clear; RING, TAG and INDEX stand (R274). -/
def mbxAck (s : State) : State :=
  if mbxValid s then
    let s := (((s.wr64 Reg.MBX_DATA 0).wr64 (Reg.MBX_DATA + 8) 0).wr64 (Reg.MBX_DATA + 16) 0).wr64 (Reg.MBX_DATA + 24) 0
    s.setBitR Reg.MBX_STAT 0 false
  else s

/-- A query holds or reserves the mailbox (R265, R266). -/
def mbxBusy (s : State) : Bool :=
  mbxValid s || s.rings.any fun p => p.2.run.any fun u => decide (u.desc.op = 0x22)

end Sys2Proof.Machine
end

