-- ==== Sys2Proof/Machine/TableCmd.lean ====
section
/-! DEFINITION. The table commands (06 R135 to R139) and the move (R140 to R143), with the CMD requests that they send to
another instance (12 R299). -/

namespace Sys2Proof.Machine

/-! ### Attribute entries (R123) -/

def attMapped (w : W64) : Bool := bitAt w 12
def attUsed (w : W64) : Bool := bitAt w 13
def attDest (w : W64) : BitVec 16 := BitVec.ofNat 16 (field w 31 16)

/-- Address of the attribute entry of an event: physical, or of Panel p. -/
def attEntry (s : State) (virt : Bool) (p : Nat) (ev : EventId) : Nat :=
  if virt then (s.panel p).vattBase + ev.toNat * 16 else attAddr s ev

/-- The event of a physical entry lies in another instance's space. -/
def remoteDest (s : State) (virt : Bool) (dest : BitVec 16) : Bool := !virt && !isLocal s (dest.truncate 14)

/-! ### The key of a command (11 R258) -/

def Desc.src (d : Desc) : Nat := field (d.word 1) 23 0
def Desc.key (d : Desc) : Nat := field (d.word 1) 44 24

/-- Address of the map entry that a descriptor's key names; `none`: the source is beyond the table, its entry invalid, or
the data out of range (BAD_RANGE). -/
def keyMap (s : State) (d : Desc) : Option Nat :=
  let e := readSrc s d.src
  if 2 ^ srcBits s ≤ d.src ∨ e.valid = false ∨ 2 ^ e.dbits ≤ d.key then none else some (mapAddr e d.key)

/-- Is the attribute word that of a group 0 event (R136): USED 0 names no group. -/
def wordGroup0 (w : W64) : Bool := attUsed w && !bitAt w 8

/-- An event has an attribute entry in its table: those of other IDs are never read or written (R123, 10 R224). -/
def hasAtt (s : State) (virt : Bool) (p : Nat) (ev : EventId) : Bool :=
  msgEvent ev && decide (ev.toNat < 2 ^ (if virt then (s.panel p).vbits else attBits s))

/-- The attribute entry of an event with one here is read. -/
def entReads (s : State) (p : Nat) (m : MapEntry) : State :=
  if hasAtt s m.virt p m.event && !remoteDest s m.virt m.dest then s.reads (attEntry s m.virt p m.event) 16 else s

/-- The entries that a command reads: those that its key names, and the attribute entry of their event. -/
def keyReads (s : State) (d : Desc) : State :=
  let s := if d.src < 2 ^ srcBits s then s.reads (srcAddr s d.src) 32 else s
  match keyMap s d with
  | none => s
  | some a =>
    let s := s.reads a 16
    let m := readMap s a
    if m.valid then entReads s (readSrc s d.src).panel m else s

/-- The event that a key names has a group 0 attribute entry here (R136); virtual events are of group 1 (03 R54). Of an event of
another instance that instance tells. -/
def keyGroup0 (s : State) (d : Desc) : Bool :=
  match keyMap s d with
  | none => false
  | some a =>
    let m := readMap s a
    m.valid && !m.virt && msgEvent m.event && !remoteDest s m.virt m.dest && hasAtt s false 0 m.event &&
      wordGroup0 (s.load64 (attAddr s m.event))

/-! ### Marks in the attribute word of a CMD (12 R283; log 74)

A global target number leaves bits [31:30] of the word's DEST at 0. -/

/-- The command stands in a ring other than ring 1: the holding instance applies R136 and 11 R263. -/
def fromRing (r : Nat) (w : W64) : W64 := setBit w 31 (decide (r ≠ 1))
/-- Of a mapping: the entry follows a move that has been made (06 R141 V3). Of an unmapping: the checks alone. -/
def marked (w : W64) : W64 := setBit w 30 true

/-! ### Ends of a table command -/

/-- A table command has made its writes: it completes once every lookup that issued before them has delivered, and no slow-path
write translated before them is in flight (R134). -/
def endTable (s : State) (r : Nat) (d : Desc) (status : Nat) : State :=
  pollRing (goOn s r d status (.lookups (transWids s))) r

/-- How many writes of n are made, and whether all were (R139). -/
def writesDone (m : CmdMem) (n : Nat) : Nat × Bool :=
  match m with
  | .good => (n, true)
  | .readFail => (0, false)
  | .writeFail k => if k.toNat < n then (k.toNat, false) else (n, true)

/-- Make a list of 64-bit writes in order, as far as they succeed; the command then ends with OK or MEM_ERROR. -/
def writeList (s : State) (l : List (Nat × W64)) : State := l.foldl (fun s w => s.store64 w.1 w.2) s

def tableWrites (s : State) (r : Nat) (d : Desc) (m : CmdMem) (l : List (Nat × W64)) : State :=
  let k := writesDone m l.length
  let s := writeList s (l.take k.1)
  if k.2 then endTable s r d stOk else complete s r d stMemError

/-! ### SRC_MAP, SRC_UNMAP -/

def Desc.physOk (d : Desc) : Bool := bitAt (d.word 1) 24
def Desc.pnlOk (d : Desc) : Bool := bitAt (d.word 1) 25
def Desc.srcPanel (d : Desc) : Nat := field (d.word 1) 35 26
def Desc.dbits (d : Desc) : Nat := field (d.word 1) 40 36

def srcMap (m : CmdMem) (s : State) (r : Nat) (d : Desc) : State :=
  if 2 ^ srcBits s ≤ d.src ∨ 21 < d.dbits ∨ (d.pnlOk = true ∧ s.par.panels ≤ d.srcPanel) then complete s r d stBadRange
  else if m = .readFail then complete s r d stMemError
  else if (readSrc s d.src).valid then complete s r d stBusy
  else
    let w0 : W64 := BitVec.ofNat 64 (1 + d.physOk.toNat * 2 + d.pnlOk.toNat * 4 + d.srcPanel * 2 ^ 4 + d.dbits * 2 ^ 14)
    -- the entry is written whole, in one write of its line
    let k := writesDone m 1
    if k.2 then endTable (storeWords s (srcAddr s d.src) [w0, d.word 2, 0, 0]) r d stOk
    else complete s r d stMemError

def srcUnmap (m : CmdMem) (s : State) (r : Nat) (d : Desc) : State :=
  if 2 ^ srcBits s ≤ d.src then complete s r d stBadRange
  else if m = .readFail then complete s r d stMemError
  else
    let e := readSrc s d.src
    if e.mapCnt ≠ 0 then complete s r d stBusy
    else if !e.valid then endTable s r d stOk
    else tableWrites s r d m [(srcAddr s d.src, setBit e.w0 0 false)]

/-! ### Holders and re-prioritising (R138) -/

/-- Queue a re-prioritise of an event at its holder; for a vPE whose entries do not rank in a tree it has no effect
(10 R230). -/
def rprAt (s : State) (d : Dest) (virt : Bool) (ev : EventId) (a : Attr) : State :=
  match d with
  | .tgt g => if isLocal s g then treeEnq s (g.toNat % 128) (mkOp .rpr virt ev a s.count) else s
  | .vpe v =>
    if vpeInsertable s v then
      treeEnq s (s.vword v).target { mkOp .rpr true ev { a with group := true } s.count with vpe := v }
    else s

def destAs (virt : Bool) (x : BitVec 16) : Dest := if virt then .vpe x else .tgt (x.truncate 14)

/-! ### The start of a move (R140 to R143) -/

/-- A vPE is leaving or arriving. -/
def switchingVpe (s : State) (v : BitVec 16) : Bool := (s.vword v).switching

/-- Word k of a vPE's context. -/
def ctxWord (s : State) (v : BitVec 16) (k : Nat) : W64 := s.load64 (vctx s v + 8 * k)

/-- Half k of the saved split list: entry 2i in the low half of word 24 + i (10 R226). -/
def splitHalf (s : State) (v : BitVec 16) (k : Nat) : W32 :=
  let w := ctxWord s v (24 + k / 2)
  if k % 2 = 0 then w.truncate 32 else (w >>> 32).truncate 32

/-- The event stands on the saved active stack or in the saved split list of a vPE (R143). -/
def ctxActive (s : State) (v : BitVec 16) (ev : EventId) : Bool :=
  ((List.range 16).any fun i =>
    let w := ctxWord s v (8 + i)
    bitAt w 38 && decide (field w 20 0 = ev.toNat)) ||
  ((List.range 16).any fun k => bitAt (splitHalf s v k) 22 && decide (field (splitHalf s v k) 20 0 = ev.toNat))

/-- The pending part of such an entry. -/
def ctxPart (s : State) (v : BitVec 16) (ev : EventId) : Bool :=
  ((List.range 16).any fun i =>
    let w := ctxWord s v (8 + i)
    bitAt w 38 && decide (field w 20 0 = ev.toNat) && bitAt w 37) ||
  ((List.range 16).any fun k =>
    let w := splitHalf s v k
    bitAt w 22 && decide (field w 20 0 = ev.toNat) && bitAt w 21)

/-- The old holder is a target of another instance. -/
def oldThere (s : State) (m : Move) : Bool :=
  match m.old with
  | .tgt g => !isLocal s g
  | .vpe _ => false

/-- An EV_MOVE between two targets of one other instance claims no entry: the event's own is there. -/
def sameInst (m : Move) : Bool :=
  match m.old, m.new with
  | .tgt g, .tgt h => decide (g.toNat / 128 = h.toNat / 128)
  | _, _ => false

/-- Undo a claim made at the new instance, when the move ends before V2: the release carries MAPPED 1, and the entry there
takes back what it held (12 R299; log 75). -/
def unclaim (s : State) (m : Move) : State :=
  match m.new with
  | .tgt g =>
    if isLocal s g || m.wired || !present s (g.toNat / 128) || (sameInst m && !m.mapping) then s
    else sendReq s m.ring (g.toNat / 128) 5 m.ev g.toNat (attWord m.attr true false 0) .rest
  | .vpe _ => s

/-- The move ends before V2: the command completes with a status, and nothing is changed. -/
def endMove (s : State) (m : Move) (status : Nat) : State :=
  let s := unclaim s m
  completeRun { s with move := none } m.ring status

/-- V1 found no resident entry: the redirect stands, and V3 follows. -/
def noEntry (s : State) (m : Move) : State := { s with move := some { m with step := .v3, redir := true, found := false } }

/-- DEST of a move's new destination. -/
def destWord (d : Dest) : BitVec 16 :=
  match d with
  | .tgt g => g.zeroExtend 16
  | .vpe v => v

/-- Step V1 (R141, R143): the move-out is queued on the old holder's tree; for a vPE that is not resident the Panel manager
reads its context. A holder on another instance is asked by a PEND_TEST whose word names the new DEST: the move-out is queued
on its tree there (12 R299; log 19). -/
def moveV1 (s : State) (m : Move) : State :=
  let s := { s with move := some { m with step := .v1 } }
  match m.old with
  | .tgt g =>
    if isLocal s g then
      treeEnq s (g.toNat % 128) { mkOp .mvo false m.ev m.attr s.count with wid := some (cmdWid m.ring) }
    else sendReq s m.ring (g.toNat / 128) 6 m.ev g.toNat (fromRing m.ring (attWord m.attr false true (destWord m.new))) .moveOut
  | .vpe v =>
    if (s.vword v).res then
      treeEnq s (s.vword v).target { mkOp .mvo true m.ev m.attr s.count with vpe := v, wid := some (cmdWid m.ring) }
    else
      let s := s.reads (vctx s v) 256
      if ctxActive s v m.ev then endMove s m stBusy else noEntry s m

/-- Begin a move for the command of descriptor d: a move to another instance first claims the attribute entry there. -/
def beginMove (s : State) (d : Desc) (m : Move) (claim : W64) : State :=
  match m.new with
  | .tgt g =>
    if isLocal s g || sameInst m then moveV1 (goOn s m.ring d stOk .move) m
    else
      let s := goOn { s with move := some m } m.ring d stOk .move
      sendReq s m.ring (g.toNat / 128) 4 m.ev g.toNat claim .moveClaim
  | .vpe _ => moveV1 (goOn s m.ring d stOk .move) m

/-! ### EV_MAP -/

def Desc.ent (d : Desc) : MapEntry := { w0 := d.word 2, w1 := 0 }

/-- The destination check of EV_MAP: the status that fails, if one does (R127, R135, R138). -/
def mapCheck (s : State) (e : SrcEntry) (m : MapEntry) : Option Nat :=
  if m.virt && !m.attr.group then some stBadRange
  else if remoteDest s m.virt m.dest && msgEvent m.event && !present s (m.dest.toNat / 128) then some stAbsent
  else if destOk s e.pnlOk e.panel m.virt m.dest m.event then none
  else some stBadRange

/-- The writes of EV_MAP in their order: attribute entry, map entry, MAPCNT. -/
def mapWrites (s : State) (d : Desc) : List (Nat × W64) :=
  let e := readSrc s d.src
  let m := d.ent
  [(attEntry s m.virt e.panel m.event, attWord m.attr true true m.dest),
   (mapAddr e d.key, setBit m.w0 0 true),
   (srcAddr s d.src + 16, setField e.w2 21 0 (e.mapCnt + 1))]

def evMap (c : CmdMem) (s : State) (r : Nat) (d : Desc) : State :=
  let e := readSrc s d.src
  let m := d.ent
  match keyMap s d with
  | none => complete s r d (if c = .readFail ∧ d.src < 2 ^ srcBits s then stMemError else stBadRange)
  | some a =>
    if c = .readFail then complete s r d stMemError
    else match mapCheck s e m with
    | some st => complete s r d st
    | none =>
      if (readMap s a).valid then complete s r d stBusy
      else if remoteDest s m.virt m.dest then
        sendReq (goOn s r d stOk .remote) r (m.dest.toNat / 128) 3 m.event m.dest.toNat
          (fromRing r (attWord m.attr true true m.dest)) .map
      else
        let aw := s.load64 (attEntry s m.virt e.panel m.event)
        if attMapped aw then complete s r d stBusy
        else if attUsed aw && decide (attDest aw ≠ m.dest) then
          let switching := m.virt && (switchingVpe s m.dest || switchingVpe s (attDest aw))
          if switching then complete s r d stBusy
          else if !m.virt && !present s ((attDest aw).toNat / 128) then complete s r d stAbsent
          else
            beginMove s d { step := .v1, ring := r, ev := m.event, wired := false, old := destAs m.virt (attDest aw),
                            new := destAs m.virt m.dest, panel := e.panel, attr := m.attr, found := false, redir := false,
                            mapA := a, attA := attEntry s m.virt e.panel m.event, mapping := true, waits := [] }
              (fromRing r (attWord m.attr true true m.dest))
        else
          let l := mapWrites s d
          let k := writesDone c l.length
          let s := writeList s (l.take k.1)
          if !k.2 then complete s r d stMemError
          else endTable (if attUsed aw then rprAt s (destAs m.virt m.dest) m.virt m.event m.attr else s) r d stOk

/-! ### EV_UNMAP, EV_ATTR -/

/-- The attribute entry that a map entry's event has here. -/
def entAtt (s : State) (e : SrcEntry) (m : MapEntry) : Nat := attEntry s m.virt e.panel m.event

def evUnmap (c : CmdMem) (s : State) (r : Nat) (d : Desc) : State :=
  let e := readSrc s d.src
  match keyMap s d with
  | none => complete s r d (if c = .readFail ∧ d.src < 2 ^ srcBits s then stMemError else stBadRange)
  | some a =>
    if c = .readFail then complete s r d stMemError
    else
      let m := readMap s a
      let cnt := (srcAddr s d.src + 16, setField e.w2 21 0 (e.mapCnt - 1))
      if !m.valid then endTable s r d stOk
      else if remoteDest s m.virt m.dest then
        if !present s (m.dest.toNat / 128) then complete s r d stAbsent
        else
          -- the checks there come before anything is written (R135; log 78)
          sendReq (goOn s r d stOk .remote) r (m.dest.toNat / 128) 3 m.event m.dest.toNat
            (fromRing r (marked (attWord m.attr false true m.dest))) .unmapCheck
      else
        let aa := entAtt s e m
        let att := if hasAtt s m.virt e.panel m.event then [(aa, setBit (s.load64 aa) 12 false)] else []
        tableWrites s r d c ([(a, setBit m.w0 0 false)] ++ att ++ [cnt])

/-- A word of a map entry with new attributes. -/
def mapAttr (w : W64) (a : Attr) : W64 :=
  setField (setField (setBit w 2 a.group) 5 3 a.cls.toNat) 15 8 a.prio.toNat
/-- A word of an attribute entry with new attributes. -/
def attAttr (w : W64) (a : Attr) : W64 :=
  setField (setField (setBit w 8 a.group) 11 9 a.cls.toNat) 7 0 a.prio.toNat

def Desc.newAttr (d : Desc) : Attr :=
  { prio := BitVec.ofNat 8 (field (d.word 2) 15 8), group := bitAt (d.word 2) 2, cls := BitVec.ofNat 3 (field (d.word 2) 5 3) }

def evAttr (c : CmdMem) (s : State) (r : Nat) (d : Desc) : State :=
  let e := readSrc s d.src
  match keyMap s d with
  | none => complete s r d (if c = .readFail ∧ d.src < 2 ^ srcBits s then stMemError else stBadRange)
  | some a =>
    if c = .readFail then complete s r d stMemError
    else
      let m := readMap s a
      let n := d.newAttr
      if !m.valid ∨ (m.virt ∧ !n.group) ∨ !msgEvent m.event then complete s r d stBadRange
      else if remoteDest s m.virt m.dest then
        if !present s (m.dest.toNat / 128) then complete s r d stAbsent
        else
          sendReq (goOn s r d stOk .remote) r (m.dest.toNat / 128) 3 m.event m.dest.toNat
            (fromRing r (attWord n true false m.dest)) .attr
      else if !hasAtt s m.virt e.panel m.event then complete s r d stBadRange
      else
        let aa := entAtt s e m
        let aw := s.load64 aa
        let k := writesDone c 2
        let l := [(aa, attAttr aw n), (a, mapAttr m.w0 n)]
        let s := writeList s (l.take k.1)
        if k.2 then endTable (rprAt s (destAs m.virt (attDest aw)) m.virt m.event n) r d stOk
        else complete s r d stMemError

/-! ### EV_MOVE (R140) -/

/-- A message event's move: by its key. -/
def moveMsg (c : CmdMem) (s : State) (r : Nat) (d : Desc) : State :=
  let e := readSrc s d.src
  let dest : BitVec 16 := BitVec.ofNat 16 (field (d.word 2) 63 48)
  match keyMap s d with
  | none => complete s r d (if c = .readFail ∧ d.src < 2 ^ srcBits s then stMemError else stBadRange)
  | some a =>
    if c = .readFail then complete s r d stMemError
    else
      let m := readMap s a
      let aa := entAtt s e m
      let aw := s.load64 aa
      let there := remoteDest s m.virt m.dest
      let old : BitVec 16 := if remoteDest s m.virt m.dest then m.dest else attDest aw
      let bad := if m.virt then
          !(decide (dest.toNat < s.par.vpes) && (s.vword dest).v && decide ((s.vword dest).panel = e.panel))
        else decide (2 ^ 14 ≤ dest.toNat) ||
          (present s (dest.toNat / 128) && decide (targetsOf s (dest.toNat / 128) ≤ dest.toNat % 128))
      let here := !m.virt && isLocal s (dest.truncate 14)
      -- the entry here that a move from another instance writes is held to R136 too
      let own0 := there && here && decide (r ≠ 1) && wordGroup0 aw
      if !m.valid ∨ bad ∨ !msgEvent m.event ∨ (!there && !hasAtt s m.virt e.panel m.event) ∨
         (here && !hasAtt s false 0 m.event) ∨ own0 then complete s r d stBadRange
      else if !m.virt ∧ (!present s (dest.toNat / 128) ∨ !present s (old.toNat / 128)) then complete s r d stAbsent
      else if dest = old then endTable s r d stOk
      else if m.virt && (switchingVpe s dest || switchingVpe s old) then complete s r d stBusy
      else if there && here && attMapped aw then complete s r d stBusy
      else
        beginMove s d { step := .v1, ring := r, ev := m.event, wired := false, old := destAs m.virt old,
                        new := destAs m.virt dest, panel := e.panel, attr := m.attr, found := false, redir := false,
                        mapA := a, attA := aa, mapping := false, waits := [] } (fromRing r (attWord m.attr true true dest))

/-- A wired event's move, between local targets. -/
def moveWired (s : State) (r : Nat) (d : Desc) : State :=
  let ev : EventId := BitVec.ofNat 21 (field (d.word 2) 20 0)
  let dest : BitVec 14 := BitVec.ofNat 14 (field (d.word 2) 63 48)
  let n := ev.toNat - 32
  if !wiredEv s ev ∨ 2 ^ 14 ≤ field (d.word 2) 63 48 ∨ !isLocal s dest ∨ s.par.targets ≤ dest.toNat % 128 then
    complete s r d stBadRange
  else match (s.line n).holder with
  | none => complete s r d stOk
  | some h =>
    if !isLocal s h then complete s r d stBadRange
    else if h = dest then complete s r d stOk
    else
      beginMove s d { step := .v1, ring := r, ev := ev, wired := true, old := .tgt h, new := .tgt dest, panel := 0,
                      attr := winAttr s n, found := false, redir := false, mapA := 0, attA := 0, mapping := false,
                      waits := [] } 0

def evMove (c : CmdMem) (s : State) (r : Nat) (d : Desc) : State :=
  if bitAt (d.word 1) 45 then moveWired s r d else moveMsg c s r d

/-- The group 0 case of EV_MOVE: a wired event takes its group from its WIN entry. -/
def moveGroup0 (s : State) (d : Desc) : Bool :=
  if bitAt (d.word 1) 45 then
    let ev : EventId := BitVec.ofNat 21 (field (d.word 2) 20 0)
    wiredEv s ev && !(winAttr s (ev.toNat - 32)).group
  else keyGroup0 s d

/-! ### Steps of a move -/

/-- The message event, or the event of a line, enters a destination with its arrival stroke. It is pending all the while: a raise
that names the old target merges with it (03 R52). -/
def insertAt (s : State) (m : Move) (arr : Stroke) : State :=
  match m.new with
  | .tgt g =>
    if isLocal s g then
      treeEnq s (g.toNat % 128) { mkOp .ins false m.ev m.attr arr with level := isLevel s false m.ev, reent := true }
    else remoteRaise s g m.ev m.attr 0 0 false arr 0 0 0
  | .vpe v =>
    if vpeInsertable s v then treeEnq s (s.vword v).target { virtOp v m.ev m.attr arr none with reent := true }
    else parkReq s v m.ev m.attr.prio none

/-- The vPE of a move's old holder does not rank in a tree: while it is switching the move ends with BUSY; otherwise step V1 reads
its context, which may fail (R139, R143). -/
def moveCtx (s : State) (m : Move) (v : BitVec 16) : State :=
  let who := AccWho.cmdRead (BitVec.ofNat 3 m.ring)
  if switchingVpe s v then endMove s m stBusy
  else if s.failures who ≠ 0 then endMove (s.forget who) m stMemError
  else if (s.vword v).res then (if activeIn (s.tgt (s.vword v).target) true m.ev then endMove s m stBusy else noEntry s m)
  else
    let s := s.reads (vctx s v) 256
    if ctxActive s v m.ev then endMove s m stBusy else noEntry s m

/-- The move-out of another instance's move that an operation is. -/
def redirAsked (s : State) (t : Nat) (o : TOp) : Option Redir :=
  s.wft.redirs.find? fun k => !k.move.redir && decide (k.move.ev = o.ev) && decide (k.move.old = .tgt (globalT s t)) &&
    decide (o.wid = some (reqWid k.inst k.req))

/-- Step V1 of another instance's move, on its old holder here: BUSY, or the redirect stands and a resident entry has gone on to
the new destination with its arrival stroke (R141, R142; log 19). -/
def moveOutHere (s : State) (t : Nat) (k : Redir) : State :=
  let ev := k.move.ev
  let others := s.wft.redirs.filter (· ≠ k)
  if activeIn (s.tgt t) false ev then
    answerReq { s with wft := { s.wft with redirs := others } } k.inst k.req stBusy false
  else
    let m := { k.move with redir := true }
    let r := residentIn (s.tgt t) false ev
    let s := { s with wft := { s.wft with redirs := { k with move := m } :: others } }
    let s := match r with
      | some e => forwardOp (takeOut s t false ev) m
          { mkOp .ins false ev { prio := e.base, group := e.group, cls := e.cls } e.arr with reent := true }
      | none => s
    answerReq s k.inst k.req stOk r.isSome

/-- A redirect of another instance's move ends: what the old tree, its lane and its table still hold of the event goes on. -/
def redirEnd (s : State) (k : Redir) : State :=
  let m := k.move
  let drop := fun (s : State) => { s with wft := { s.wft with redirs := s.wft.redirs.filter (· ≠ k) } }
  match m.old with
  | .vpe _ => drop s
  | .tgt g =>
    if !m.redir then drop s
    else
      let t := g.toNat % 128
      let mine := fun (o : TOp) => !o.virt && decide (o.ev = m.ev) && decide (o.kind ≠ .age)
      let ops := ((s.tgt t).ops ++ (s.tgt t).dsp).filter mine
      let s := s.modTgt t fun x => x.mapOps fun l => l.filter fun o => !mine o
      let lane := laneSet s t m.ev
      let s := if lane then s.setLane (t / 16) ((s.lane (t / 16)).filter fun w =>
          !(decide (w.t = t) && w.vpe.isNone && decide (w.ev = m.ev))) else s
      let bit := s.rnkEn && pendBit s t none m.ev
      let s := if bit then s.ran (putBit s t none m.ev false) else s
      let s := if bit || lane then forwardOp s m { mkOp .ins false m.ev m.attr s.count with reent := true } else s
      noteState (drop (ops.foldl (fun s o => forwardOp s m o) s)) t false m.ev

/-- MVO issues (R141 V1, V2): an active event ends the move with BUSY; a resident entry is extracted and queued on the new
destination with its arrival stroke; the redirect is installed. -/
def mvoDo (s : State) (t : Nat) (o : TOp) : State :=
  match redirAsked s t o, s.move with
  | some k, _ => moveOutHere s t k
  | none, none => s
  | none, some m =>
    if m.step ≠ .v1 ∨ m.ev ≠ o.ev then s
    else if o.virt && !decide ((s.tgt t).vpeV ∧ (s.tgt t).vpe = o.vpe) then
      moveCtx s m o.vpe
    else if activeIn (s.tgt t) o.virt o.ev then endMove s m stBusy
    else match residentIn (s.tgt t) o.virt o.ev with
    | none => noEntry s m
    | some e =>
      let s := takeOut s t o.virt o.ev
      let s := { s with move := some { m with step := .v3, redir := true, found := true } }
      insertAt s { m with attr := { prio := e.base, group := e.group, cls := e.cls } } e.arr

/-- MVO: one that 10 R230 turned away finds no tree, and V1 goes on without one (R143). -/
def issueMvo (s : State) (t : Nat) : State :=
  let s := issue s t (· == .mvo) (fun s o => mvoDo s t o)
  match s.move with
  | some m =>
    if m.off && decide (m.step = .v1) then
      match m.old with
      | .vpe v => moveCtx s { m with off := false } v
      | .tgt _ => s
    else s
  | none => s

def execMvo (t : BitVec 7) (s : State) : Out := .next (s.served (issueMvo s t.toNat))

/-- V3 leaves the entry of an old holder here, its event gone to another instance, with the new DEST and MAPPED 0. -/
def leftEntry (s : State) (m : Move) : Nat × W64 :=
  (m.attA, setBit (setField (s.load64 m.attA) 31 16 (destWord m.new).toNat) 12 false)

/-- The table writes of V3. -/
def v3Writes (s : State) (m : Move) : List (Nat × W64) :=
  if m.wired then []
  else if m.mapping then
    match (s.ring m.ring).run, m.new with
    | some u, .tgt g =>
      if isLocal s g then mapWrites s u.desc
      else (if oldThere s m then [] else [leftEntry s m]) ++ (mapWrites s u.desc).drop 1
    | some u, .vpe _ => mapWrites s u.desc
    | none, _ => []
  else
    let dest := destWord m.new
    let ent := setField (s.load64 m.mapA) 63 48 dest.toNat
    let own := match m.new with
      | .tgt g => isLocal s g
      | .vpe _ => true
    let aw := s.load64 m.attA
    let oldHere := match m.old with
      | .tgt g => isLocal s g
      | .vpe _ => true
    if own then
      -- from another instance the entry here takes the event over whole
      [(m.mapA, ent), (m.attA, if oldHere then setField aw 31 16 dest.toNat else attWord m.attr true true dest)]
    else if oldHere then [(m.mapA, ent), leftEntry s m]
    else [(m.mapA, ent)]

/-- Set the event's bit on a local target and mark its summary (05 R104). -/
def bitHere (s : State) (m : Move) (u : Nat) : State :=
  noteState (markLive (putBit s u none m.ev true) u false m.ev m.attr.prio) u false m.ev

/-- Step V4: the event's bit moves when V1 found no resident entry. At another instance a RAISE of KIND 0 with the present
stroke as ARRIVAL sets it (DESIGN CHOICE, log 76). `n` counts the accesses that succeed, of the clear and the set: a failed
one ends the command with MEM_ERROR (R139). -/
def moveV4 (s : State) (m : Move) (n : Nat) : State :=
  let bad := fun (s : State) => cmdFail s (some (cmdWid m.ring))
  if m.found then s
  else match m.old with
  | .tgt g =>
    if isLocal s g then
      let t := g.toNat % 128
      if !s.rnkEn then s
      else if n = 0 then bad s
      else if pendBit s t none m.ev then
        let s := noteState (putBit s t none m.ev false) t false m.ev
        match m.new with
        | .tgt h =>
          if isLocal s h then (if n = 1 then bad s else bitHere s m (h.toNat % 128))
          else remoteRaise s h m.ev m.attr 0 0 false s.count 0 0 0
        | .vpe _ => s
      else s
    else sendReq s m.ring (g.toNat / 128) 6 m.ev g.toNat 0 .movePend
  | .vpe v =>
    if n = 0 then bad s
    else if pendBit s 0 (some v) m.ev then
      let s := putBit s 0 (some v) m.ev false
      match m.new with
      | .vpe w =>
        if n = 1 then bad s
        else parkMark (putBit (if n = 2 then bad s else s) 0 (some w) m.ev true) w m.ev m.attr.prio false (decide (n = 2))
      | .tgt _ => s
    else s

/-- A lane still holds a write for the event's bit on its old holder: V4's test follows it (07 R165). -/
def oldLane (s : State) (m : Move) : Bool :=
  match m.old with
  | .tgt g => isLocal s g && laneHas s (g.toNat % 128) none m.ev
  | .vpe v => vpeLaneHas s v m.ev

/-- V4's accesses that succeed, behind the k writes of V3. -/
def v4Done (c : CmdMem) (k : Nat) : Nat :=
  match c with
  | .writeFail n => n.toNat - k
  | _ => 3

/-- A wired move records the new holder (V3); an event that is inactive there by then is held by none (04 R86). -/
def moveHolder (s : State) (m : Move) : State :=
  match m.new with
  | .tgt g =>
    if m.wired then
      noteState (s.modLine (m.ev.toNat - 32) fun x => { x with holder := some g }) (g.toNat % 128) false m.ev
    else s
  | .vpe _ => s

/-- V3 at other instances: the old one's entry gives MAPPED up, and the new one's takes the event where no claim has written it
whole: a mapping's, and that of a move within one instance (R141; log 75). -/
def v3Remote (s : State) (m : Move) : State :=
  match m.old, m.new with
  | .tgt g, .tgt h =>
    let s := if isLocal s g || sameInst m then s else sendReq s m.ring (g.toNat / 128) 5 m.ev g.toNat 0 .moveRelease
    if !isLocal s h && (m.mapping || sameInst m) then
      sendReq s m.ring (h.toNat / 128) 3 m.ev h.toNat (marked (attWord m.attr true true (destWord m.new))) .moveRelease
    else s
  | _, _ => s

/-- The move of a command whose V3 fails is given up; a redirect at another instance ends with it. -/
def moveFails (s : State) (m : Move) : State :=
  let s := match m.old with
    | .tgt g => if isLocal s g then s
                else sendReq s m.ring (g.toNat / 128) 6 m.ev g.toNat (attWord m.attr true false 0) .rest
    | .vpe _ => s
  completeRun { s with move := none } m.ring stMemError

/-- MOVE_TABLES_VISIBLE: step V3 with V4 (R141), once the old holder's lane has made its writes of the event's bit. A
failed write ends the command with MEM_ERROR (R139). The new attributes of an EV_MAP follow the event (R138). -/
def moveTables (s : State) (c : CmdMem) : State :=
  match s.move with
  | none => s
  | some m =>
    if m.step ≠ .v3 ∨ oldLane s m then s
    else
      let l := v3Writes s m
      let k := writesDone c l.length
      let s := writeList s (l.take k.1)
      if !k.2 then moveFails s m
      else
        let s := v3Remote s m
        let s := moveV4 { s with move := some { m with step := .v5, waits := transWids s } } m (v4Done c l.length)
        let s := moveHolder s m
        let virt := match m.new with
          | .tgt _ => false
          | .vpe _ => true
        if m.mapping then rprAt s m.new virt m.ev m.attr else s

def execMoveTablesVisible (c : CmdMem) (s : State) : Out :=
  .next (if cmdOn s then
    match s.move with
    | some m => s.served (moveTables (forgetCmd s m.ring) (cmdMem s m.ring c))
    | none => s
  else s)

/-- Operations of the event that the old tree still holds, and parks of it for the old vPE. -/
def oldHolds (s : State) (m : Move) : Bool :=
  let has := fun (x : Tg) (virt : Bool) =>
    (x.ops ++ x.dsp).any fun o =>
      o.virt = virt && decide (o.ev = m.ev) && decide (o.kind ≠ .age)
  oldLane s m ||
  match m.old with
  | .tgt g => isLocal s g && has (s.tgt (g.toNat % 128)) false
  | .vpe v => has (s.tgt (s.vword v).target) true ||
      (s.pnl.parkQ ++ s.pnl.parks).any fun p => decide (p.v = v) && decide (p.ev = m.ev)

/-- A RAISE of the event to the old holder's instance has not been answered. -/
def raisesOut (s : State) (m : Move) : Bool :=
  match m.old with
  | .tgt g => !isLocal s g && s.wft.ift.any fun e =>
      decide (e.2.dst.toNat = g.toNat / 128) && decide (field e.2.pay 20 0 = m.ev.toNat)
  | .vpe _ => false

/-- MOVE_REDIRECT_REMOVE: step V5 (R141). -/
def moveRemove (s : State) : State :=
  match s.move with
  | none => s
  | some m =>
    let live := transWids s
    if m.step ≠ .v5 ∨ (m.waits.any live.contains) ∨ oldHolds s m ∨
       ((s.wft.cmds.map (·.2) ++ s.wft.reqWait.map (·.req)).any fun q => decide (q.ring = m.ring)) ∨ raisesOut s m then s
    else if oldThere s m && !m.tested then
      -- the redirect on the other instance ends, and what has reached the old holder there goes on (log 19)
      match m.old with
      | .tgt g => sendReq { s with move := some { m with tested := true } } m.ring (g.toNat / 128) 6 m.ev g.toNat
          (attWord m.attr true false 0) .moveLast
      | .vpe _ => s
    else match (s.ring m.ring).run with
    | none => { s with move := none }
    | some u => complete { s with move := none } m.ring u.desc u.status

def execMoveRedirectRemove (s : State) : Out := .next (if cmdOn s then moveRemove s else s)

/-! ### Rows -/

/-- EV_MAP reads the attribute entry of the event that it maps. -/
def mapReads (s : State) (d : Desc) : State := entReads (keyReads s d) (readSrc s d.src).panel d.ent

/-- SRC_MAP and SRC_UNMAP read their source entry. -/
def srcReads (s : State) (d : Desc) : State := if d.src < 2 ^ srcBits s then s.reads (srcAddr s d.src) 32 else s

/-- EV_MAP and EV_ATTR would write GROUP 0. -/
def writesGroup0 (d : Desc) : Bool := !bitAt (d.word 2) 2

/-- The physical event that an EV_MAP names has a group 0 attribute entry here (R136); of one elsewhere the holding instance
answers. -/
def mapGroup0 (s : State) (d : Desc) : Bool :=
  let m := d.ent
  !m.virt && !remoteDest s false m.dest && msgEvent m.event && decide (m.event.toNat < 2 ^ attBits s) &&
    wordGroup0 (s.load64 (attAddr s m.event))

def execSrcMap (r : BitVec 3) (c : CmdMem) (s : State) : Out := .next (startMem s r.toNat 0x10 c srcMap (rd := srcReads))
def execSrcUnmap (r : BitVec 3) (c : CmdMem) (s : State) : Out := .next (startMem s r.toNat 0x11 c srcUnmap (rd := srcReads))
def execEvMap (r : BitVec 3) (c : CmdMem) (s : State) : Out :=
  .next (startMem s r.toNat 0x12 c evMap (fun c s d => writesGroup0 d || (decide (c ≠ .readFail) && mapGroup0 s d)) mapReads)
def execEvUnmap (r : BitVec 3) (c : CmdMem) (s : State) : Out :=
  .next (startMem s r.toNat 0x13 c evUnmap (fun c s d => decide (c ≠ .readFail) && keyGroup0 s d) keyReads)
def execEvAttr (r : BitVec 3) (c : CmdMem) (s : State) : Out :=
  .next (startMem s r.toNat 0x14 c evAttr (fun c s d => writesGroup0 d || (decide (c ≠ .readFail) && keyGroup0 s d)) keyReads)
def execEvMove (r : BitVec 3) (c : CmdMem) (s : State) : Out :=
  .next (startMem s r.toNat 0x15 c evMove (fun c s d => (decide (c ≠ .readFail) || bitAt (d.word 1) 45) && moveGroup0 s d)
    (fun s d => if bitAt (d.word 1) 45 then s else keyReads s d))

end Sys2Proof.Machine
end

