-- ==== Sys2Proof/Machine/EvCmd.lean ====
section
/-! DEFINITION. The event-state commands (11 R263 to R266): finding the holder, EV_SET_PEND, EV_CLR_PEND, EV_QUERY, and the
sample that a query of another instance takes too. -/

namespace Sys2Proof.Machine

/-! ### The event named and its holder (R263) -/

/-- Where an event-state command acts. -/
inductive EvAt
  /-- the command completes with a status -/
  | bad (status : Nat)
  | tgt (t : Nat) (ev : EventId) (a : Attr)
  /-- a holder on another present instance: instance, event there, its target, attributes -/
  | remote (inst : Nat) (ev : EventId) (t : Nat) (a : Attr)
  | vpe (v : BitVec 16) (ev : EventId) (a : Attr)
  /-- a wired line without holder and without a legal route -/
  | line (n : Nat)
  deriving DecidableEq, Repr

def Desc.event (d : Desc) : EventId := BitVec.ofNat 21 (field (d.word 1) 20 0)
def Desc.virt (d : Desc) : Bool := bitAt (d.word 1) 21

/-- A physical holder by global target number; the event may have another ID there. -/
def atTarget (s : State) (g : BitVec 14) (here there : EventId) (a : Attr) : EvAt :=
  let i := g.toNat / 128
  let u := g.toNat % 128
  if !present s i then .bad stAbsent
  else if targetsOf s i ≤ u then .bad stBadRange
  else if isLocal s g then .tgt u here a else .remote i there u a

/-- Wired events: the line's holder, or the route's choice, which leaves a rotation where it stands (R263; DESIGN CHOICE,
log 99). -/
def atLine (s : State) (n : Nat) : EvAt :=
  match (s.line n).holder with
  | some g => atTarget s g (winEvent n) (s.line n).xid (winAttr s n)
  | none =>
    let g := if inSafe s then some (globalT s 0) else (chooseTarget s n).1
    match g with
    | some g => if routable s g (winXid s n) then atTarget s g (winEvent n) (winXid s n) (winAttr s n) else .line n
    | none => .line n

/-- The holder; `bad`: the read of the attribute entry that names it, or holds its attributes, fails (R270). -/
def findHolder (s : State) (d : Desc) (bad : Bool := false) : EvAt :=
  let ev := d.event
  if d.virt then
    if ev.toNat < 16 then
      let v : BitVec 16 := BitVec.ofNat 16 (field (d.word 1) 51 36)
      if ¬(v.toNat < s.par.vpes ∧ (s.vword v).v = true) then .bad stBadRange
      else if bad then .bad stMemError
      else .vpe v ev (refillAttr s 0 (some v) ev)
    else
      let p := field (d.word 1) 61 52
      if !msgEvent ev ∨ s.par.panels ≤ p ∨ !pnlCreated s p ∨ 2 ^ (s.panel p).vbits ≤ ev.toNat then .bad stBadRange
      else if bad then .bad stMemError
      else
        let w := s.load64 (attEntry s true p ev)
        let v := attDest w
        if attUsed w && decide (v.toNat < s.par.vpes) && (s.vword v).v then .vpe v ev { attrOf w with group := true }
        else .bad stBadRange
  else if ev.toNat < 32 then
    let g : BitVec 14 := BitVec.ofNat 14 (field (d.word 1) 35 22)
    atTarget s g ev ev (icfgAttr s (g.toNat % 128) ev.toNat)
  else if wiredEv s ev then atLine s (ev.toNat - 32)
  else if !msgEvent ev ∨ 2 ^ attBits s ≤ ev.toNat then .bad stBadRange
  else if bad then .bad stMemError
  else
    let w := s.load64 (attAddr s ev)
    if attUsed w then atTarget s ((attDest w).truncate 14) ev ev (attrOf w) else .bad stBadRange

/-- The attribute entry that an event-state command reads to find its event's holder. -/
def evReads (s : State) (d : Desc) : State :=
  let ev := d.event
  if !d.virt then (if hasAtt s false 0 ev then s.reads (attAddr s ev) 16 else s)
  else if ev.toNat < 16 then
    let v : BitVec 16 := BitVec.ofNat 16 (field (d.word 1) 51 36)
    if decide (v.toNat < s.par.vpes) && (s.vword v).v then readAttr s (some v) ev else s
  else
    let p := field (d.word 1) 61 52
    if decide (p < s.par.panels) && pnlCreated s p && hasAtt s true p ev then s.reads (attEntry s true p ev) 16 else s

/-- The event has GROUP 0: only ring 1 may name it, wherever its holder is (R256 check 3, R263). The group of IDs 0 to 31 of
another instance is that instance's, which answers BAD_RANGE; virtual events are of group 1 (03 R54). -/
def evGroup0 (s : State) (d : Desc) (bad : Bool) : Bool :=
  let ev := d.event
  if d.virt then false
  else if ev.toNat < 32 then
    let g : BitVec 14 := BitVec.ofNat 14 (field (d.word 1) 35 22)
    isLocal s g && decide (g.toNat % 128 < s.par.targets) && !(icfgAttr s (g.toNat % 128) ev.toNat).group
  else if wiredEv s ev then !(winAttr s (ev.toNat - 32)).group
  else !bad && hasAtt s false 0 ev && wordGroup0 (s.load64 (attAddr s ev))

/-- Attribute word of a CMD (12 R283). -/
def reqAtt (s : State) (a : Attr) (t : Nat) : W64 := attWord a false true ((globalT s t).zeroExtend 16)

/-- A line that had no holder is held by the target at which a command acts (04 R86). -/
def holdLine (s : State) (ev : EventId) (t : Nat) : State :=
  if wiredEv s ev then s.modLine (ev.toNat - 32) fun l => { l with holder := l.holder <|> some (globalT s t) } else s

/-! ### EV_SET_PEND, EV_CLR_PEND (R264) -/

/-- A set-pending raise on a local target; at a full queue it is handled at once, the latch set with it (07 R160). -/
def setPendAt (s : State) (t : Nat) (ev : EventId) (a : Attr) (wid : Nat) : State :=
  let s := if 64 ≤ (s.tgt t).opq.length then setLatch s t false ev true else s
  raiseEnq s t { mkOp .ins false ev a s.count with wid := some wid, setp := true }

def clrPendAt (s : State) (t : Nat) (ev : EventId) (a : Attr) (wid : Nat) : State :=
  treeEnq s t { mkOp .clr false ev a s.count with wid := some wid }

def waitOps (s : State) (r : Nat) (d : Desc) : State := pollRing (goOn s r d stOk .ops) r

/-- The word of a request about an event: of a wired line the group is the WIN entry's, which this instance has tested; of any
other the holding instance tests its own (R263; log 74). -/
def reqWord (s : State) (r : Nat) (d : Desc) (a : Attr) (t : Nat) : W64 :=
  if !d.virt && wiredEv s d.event then reqAtt s a t else fromRing r (reqAtt s a t)

/-- A level line's state goes ahead of its set-pending command to a target of another instance that has not been told it (03 R51,
R58). -/
def tellLevel (s : State) (ev : EventId) (g : BitVec 14) : State :=
  let n := ev.toNat - 32
  if wiredEv s ev && winLevel s n && !((s.line n).told.any fun k => decide (k.1 = g)) then
    sendLevel (s.modLine n fun l => { l with xid := if l.holder.isSome then l.xid else winXid s n }) n g (winLine s n) s.count
  else s

/-- EV_SET_PEND. At a target of another instance that the route chose, a line without holder has none recorded (DESIGN CHOICE,
log 101). -/
def evSetPend (c : CmdMem) (s : State) (r : Nat) (d : Desc) : State :=
  match findHolder s d (decide (c = .readFail)) with
  | .bad st => complete s r d st
  | .tgt t ev a =>
    let s := holdLine (goOn s r d stOk .ops) ev t
    let s := if wiredEv s ev then s.modLine (ev.toNat - 32) fun l => { l with kept := l.kept.filter (·) } else s
    pollRing (setPendAt s t ev a (cmdWid r)) r
  | .remote i ev t a =>
    let s := tellLevel s d.event (BitVec.ofNat 14 (i * 128 + t))
    sendReq (goOn s r d stOk .remote) r i 1 ev t (reqWord s r d a t) .setClr
  | .vpe v ev a => pollRing (virtRaise (goOn s r d stOk .ops) v ev a s.count (some (cmdWid r))) r
  | .line n =>
    let s := unroute s n s.count
    let s := if winLevel s n then s.setBitR (winOff n Reg.WIN_XSTAT) 31 true else s
    complete s r d stOk

/-- The pending part of an entry saved in a context is cleared (03 R61, Clear). -/
def ctxClear (s : State) (v : BitVec 16) (ev : EventId) : State :=
  let s := (List.range 16).foldl (fun s i =>
    let w := ctxWord s v (8 + i)
    if bitAt w 38 && decide (field w 20 0 = ev.toNat) then s.store64 (vctx s v + 8 * (8 + i)) (setBit w 37 false) else s) s
  (List.range 16).foldl (fun s k =>
    let w := splitHalf s v k
    if bitAt w 22 && decide (field w 20 0 = ev.toNat) then
      s.store32 (vctx s v + 8 * 24 + 4 * k) (setBit w 21 false) else s) s

/-- A clear of a virtual event: in the tree while the vPE ranks there, otherwise in its tables (10 R230). -/
def clrVirt (s : State) (v : BitVec 16) (ev : EventId) (a : Attr) (wid : Nat) : State :=
  if vpeInsertable s v then
    treeEnq s (s.vword v).target { mkOp .clr true ev a s.count with vpe := v, wid := some wid }
  else
    let s := if (s.vword v).res then clearPendPart s (s.vword v).target true ev else ctxClear (s.reads (vctx s v) 256) v ev
    laneClear s (s.vword v).target (some v) ev false (some wid)

def evClrPend (c : CmdMem) (s : State) (r : Nat) (d : Desc) : State :=
  match findHolder s d (decide (c = .readFail)) with
  | .bad st => complete s r d st
  | .tgt t ev a =>
    if c = .good ∨ (residentIn (s.tgt t) false ev).isSome ∨ activeIn (s.tgt t) false ev ∨ !s.rnkEn then
      pollRing (clrPendAt (goOn s r d stOk .ops) t ev a (cmdWid r)) r
    else complete s r d stMemError
  | .remote i ev t a => sendReq (goOn s r d stOk .remote) r i 2 ev t (reqWord s r d a t) .setClr
  | .vpe v ev a =>
    if c = .good ∨ vpeInsertable s v then pollRing (clrVirt (goOn s r d stOk .ops) v ev a (cmdWid r)) r
    else complete s r d stMemError
  | .line n =>
    let s := s.modLine n fun l => { l with unr := none }
    complete (s.setBitR (winOff n Reg.WIN_XSTAT) 31 false) r d stOk

/-! ### EV_QUERY (R265, R266) -/

/-- A sample: word 0, ARRIVAL, MAPPED, BIT. -/
structure Sample where
  w0     : W64
  arr    : Stroke
  mapped : Bool
  bit    : Bool
  deriving DecidableEq, Repr

/-- Word 0 of the mailbox. -/
def queryWord (ev : EventId) (virt : Bool) (state : Nat) (res : Bool) (a : Attr) (eff : Byte) (latch : Bool) (holder : Nat) :
    W64 :=
  BitVec.ofNat 64 (ev.toNat + virt.toNat * 2 ^ 21 + state * 2 ^ 22 + res.toNat * 2 ^ 24 + a.group.toNat * 2 ^ 25 +
    a.cls.toNat * 2 ^ 26 + a.prio.toNat * 2 ^ 29 + eff.toNat * 2 ^ 37 + latch.toNat * 2 ^ 45 + holder * 2 ^ 48)

/-- A refill of the event has taken it out of its table, or its re-entry has been formed, and has not yet issued. -/
def refilling (x : Tg) (virt : Bool) (ev : EventId) : Bool :=
  carriedIn x virt ev

/-- Sample a tree and engine for an event; `st2`: active, `part`: with a pending part. -/
def sampleWith (x : Tg) (virt act part bit spilled : Bool) (ev : EventId) (a : Attr) (latch mapped : Bool)
    (holder : Nat) : Sample :=
  let e := residentIn x virt ev
  let pend := e.isSome || bit || spilled || refilling x virt ev
  let state := if act then (if part then 3 else 2) else if pend then 1 else 0
  let at' := match e with
    | some e => { prio := e.base, group := e.group, cls := e.cls }
    | none => a
  { w0 := queryWord ev virt state e.isSome at' ((e.map (·.eff)).getD 0xFF) latch holder,
    arr := (e.map (·.arr)).getD 0, mapped := mapped, bit := bit }

/-- MAPPED of the attribute entry; 0 for IDs below 4,128. -/
def mappedOf (s : State) (virt : Bool) (p : Nat) (ev : EventId) : Bool :=
  decide (4128 ≤ ev.toNat) && attMapped (s.load64 (attEntry s virt p ev))

def samplePhys (s : State) (t : Nat) (ev : EventId) (a : Attr) : Sample :=
  let x := s.tgt t
  sampleWith x false (activeIn x false ev) (pendPart x false ev) (s.rnkEn && pendBit s t none ev) (laneSet s t ev) ev a (latchOn s t false ev) (mappedOf s false 0 ev) (globalT s t).toNat

def sampleVirt (s : State) (v : BitVec 16) (ev : EventId) (a : Attr) : Sample :=
  let k := s.vword v
  let x := if k.res then s.tgt k.target else Tg.empty
  let act := if k.res then activeIn x true ev else ctxActive s v ev
  let part := if k.res then pendPart x true ev else ctxPart s v ev
  let spilled := s.lanes.any fun l => l.2.any fun w => w.set && decide (w.vpe = some v) && decide (w.ev = ev)
  sampleWith x true act part (pendBit s 0 (some v) ev) spilled ev a false (mappedOf s true k.panel ev) v.toNat

/-- Fill the mailbox from a sample and complete with its word 0 as RESULT (R259, R265). -/
def queryDone (s : State) (r : Nat) (d : Desc) (q : Sample) : State :=
  let s := mbxFill s r d [q.w0, q.arr.zeroExtend 64, BitVec.ofNat 64 (q.mapped.toNat + q.bit.toNat * 2), s.count.zeroExtend 64]
  complete s r d stOk q.w0

/-- The mailbox of a wired event without holder (R263). -/
def sampleLine (s : State) (n : Nat) : Sample :=
  { w0 := queryWord (winEvent n) false (if (s.line n).unr.isSome then 1 else 0) false (winAttr s n) 0xFF
      (s.bit (winOff n Reg.WIN_XSTAT) 31) 0xFFFF,
    arr := 0, mapped := false, bit := false }

/-- The sample reads host memory: the bit of a physical event that is not resident, while its table is in use; for a virtual
event the bit, or the saved context (R265). -/
def queryReads (s : State) : EvAt → Bool
  | .tgt t ev _ => (residentIn (s.tgt t) false ev).isNone && s.rnkEn
  | .vpe v ev _ => !(s.vword v).res || (residentIn (s.tgt (s.vword v).target) true ev).isNone
  | _ => false

/-- The reads of the sample: the pending bit, and the context of a vPE that is not resident (R265). -/
def sampleReads (s : State) (h : EvAt) : State :=
  if !queryReads s h then s
  else match h with
  | .tgt t ev _ => s.reads (bitAddr s t none ev) 1
  | .vpe v ev _ =>
    let s := s.reads (bitAddr s 0 (some v) ev) 1
    if (s.vword v).res then s else s.reads (vctx s v) 256
  | _ => s

def evQuery (c : CmdMem) (s : State) (r : Nat) (d : Desc) : State :=
  let bad := decide (c = .readFail)
  match findHolder s d bad with
  | .bad st => complete s r d st
  | h =>
    if mbxBusy s then complete s r d stBusy
    else if (match h with
      | .vpe v _ _ => switchingVpe s v
      | _ => false) then complete s r d stBusy
    else if bad && queryReads s h then complete s r d stMemError
    else
    let s := sampleReads s h
    match h with
    | .bad st => complete s r d st
    | .tgt t ev a => queryDone s r d (samplePhys s t ev a)
    | .vpe v ev a => queryDone s r d (sampleVirt s v ev a)
    | .line n => queryDone s r d (sampleLine s n)
    | .remote i ev t a => sendReq (goOn s r d stOk .remote) r i 7 ev t (reqWord s r d a t) .query

def execEvSetPend (r : BitVec 3) (c : CmdMem) (s : State) : Out :=
  .next (startMem s r.toNat 0x20 c evSetPend (fun c s d => evGroup0 s d (decide (c = .readFail))) evReads)
def execEvClrPend (r : BitVec 3) (c : CmdMem) (s : State) : Out :=
  .next (startMem s r.toNat 0x21 c evClrPend (fun c s d => evGroup0 s d (decide (c = .readFail))) evReads)
def execEvQuery (r : BitVec 3) (c : CmdMem) (s : State) : Out :=
  .next (startMem s r.toNat 0x22 c evQuery (fun c s d => evGroup0 s d (decide (c = .readFail))) evReads)

end Sys2Proof.Machine
end

