-- ==== Sys2Proof/Machine/Panel.lean ====
section
/-! DEFINITION. The Panel manager (10): the residency switch, the Panel and vPE commands, quiesce, reset and destroy, the
save areas and their restore. -/

namespace Sys2Proof.Machine

/-! ### Contexts (R226) -/

def actWord (a : Act) : W64 :=
  BitVec.ofNat 64 (a.ev.toNat + a.eff.toNat * 2 ^ 21 + a.pv.toNat * 2 ^ 29 + a.pend.isSome.toNat * 2 ^ 37 + 2 ^ 38)

def splitWord (a : Act) : Nat := a.ev.toNat + a.pend.isSome.toNat * 2 ^ 21 + 2 ^ 22

/-- Word 4 of a context. -/
def ctxWord4 (c : Ctx) : W64 :=
  BitVec.ofNat 64 (c.pmask.toNat + c.split1.toNat * 2 ^ 8 + c.splitc1.toNat * 2 ^ 11 + c.stack.length * 2 ^ 12 +
    c.split.length * 2 ^ 17)

/-- Words 8 to 31: the stack from the bottom, then the split list in pairs. -/
def ctxLists (c : Ctx) : List W64 :=
  let st := c.stack.reverse.map actWord
  let sp := c.split.map splitWord
  ((List.range 16).map fun i => st.getD i 0) ++
    ((List.range 8).map fun k => BitVec.ofNat 64 (sp.getD (2 * k) 0 + sp.getD (2 * k + 1) 0 * 2 ^ 32))

/-- Save a virtual state in the context of v. -/
def ctxSave (s : State) (v : BitVec 16) (c : Ctx) : State :=
  storeWords (s.store64 (vctx s v + 32) (ctxWord4 c)) (vctx s v + 64) (ctxLists c)

/-- The virtual state that a context holds. A pending part loaded so keeps no record of its raise (R443). -/
def ctxLoad (s : State) (v : BitVec 16) : Ctx :=
  let w4 := ctxWord s v 4
  let st := ((List.range 16).map fun i => ctxWord s v (8 + i)).filter (bitAt · 38)
  let sp := ((List.range 16).map (splitHalf s v)).filter (bitAt · 22)
  { stack := (st.map fun w => { ev := BitVec.ofNat 21 (field w 20 0), group := true, eff := BitVec.ofNat 8 (field w 28 21),
                                pv := BitVec.ofNat 8 (field w 36 29), pend := if bitAt w 37 then some none else none }).reverse,
    split := sp.map fun w => { ev := BitVec.ofNat 21 (field w 20 0), group := true, eff := 0, pv := 0,
                               pend := if bitAt w 21 then some none else none },
    pmask := BitVec.ofNat 8 (field w4 7 0), split0 := 0, split1 := BitVec.ofNat 3 (field w4 10 8),
    splitc0 := false, splitc1 := bitAt w4 11 }

/-- The layout of PNL_VSTAT: TARGET is the vPE's target while RES is 1. -/
def VWord.word (w : VWord) : W32 :=
  BitVec.ofNat 32 (w.v.toNat + w.res.toNat * 2 + w.switching.toNat * 4 + w.dbarm.toNat * 8 +
    (if w.res then w.target % 128 else 0) * 2 ^ 4 + w.best.toNat * 2 ^ 12 + w.panel % 1024 * 2 ^ 20)

def VWord.ofWord (w : W64) : VWord :=
  { v := bitAt w 0, res := bitAt w 1, switching := bitAt w 2, dbarm := bitAt w 3, target := field w 10 4,
    best := BitVec.ofNat 8 (field w 19 12), panel := field w 29 20 }

/-! ### The residency switch (R235 to R238) -/

/-- R236. -/
def sumMerge (l m : Sum) : Sum :=
  if !l.v then m
  else if !m.v || decide (l.prio < m.prio) then { prio := l.prio, lead := l.lead, leadOk := l.leadOk, v := true }
  else if l.prio = m.prio then
    if l.leadOk && m.leadOk then { m with lead := if l.lead < m.lead then l.lead else m.lead, v := true }
    else { m with leadOk := false, v := true }
  else { m with v := true }

/-- S2 is over: the last FLS has issued and the spill buffer holds no entry of o. -/
def flushedOut (s : State) (t : Nat) (o : BitVec 16) : Bool :=
  let x := s.tgt t
  (x.entries.all fun e => !e.virt) && (x.ops.all fun p => !(p.virt && decide (p.kind = .fls))) &&
  ((s.lane (t / 16)).all fun w => !(w.set && decide (w.vpe = some o)))

/-- A context save or restore has failed: CTX_FAIL, and the MEM_ERROR of a PANEL_RESET that made the switch (11 R270). -/
def ctxFailed (s : State) (v : BitVec 16) : State :=
  let s := pnlErr s 1 v.toNat
  match (s.panel (s.vword v).panel).ring with
  | some r => s.modRing r fun x => { x with run := x.run.map fun u => if u.desc.op = 0x35 then { u with status := stMemError } else u }
  | none => s

/-- Merge the live entry of chunk k into o's summary table; a failed access leaves the word (R233). The second component
is the best priority so far. -/
def mergeChunk (o : BitVec 16) (bad : List Nat) (a : State × Byte) (e : Nat × Sum) : State × Byte :=
  if !e.2.v then a
  else if bad.contains e.1 then (pnlErr a.1 2 o.toNat, a.2)
  else
    let p := vsumBase a.1 o + 4 * e.1
    let m := sumMerge e.2 ((Sum.ofWord (a.1.load32 p)).getD Sum.sweepAll)
    (a.1.store32 p m.word, minByte a.2 m.prio)

/-- Step S3. -/
def switchSave (s : State) (t : Nat) (ctxFail : Bool) (bad : List Nat) : State :=
  let x := s.tgt t
  match x.sw with
  | none => s
  | some k =>
    match k.old with
    | none => s
    | some o =>
      if k.step ≠ .s2 ∨ flushedOut s t o = false then s
      else
        let who := AccWho.residency (BitVec.ofNat 7 t)
        let lostCtx := s.lostIn who (vctx s o) 256
        let bad := bad ++ (x.sumV.map (·.1)).filter fun c => s.lostIn who (vsumBase s o + 4 * c) 4
        let s := s.forget who
        let s := if ctxFail || lostCtx then ctxFailed s o else ctxSave s o x.virt
        let m := x.sumV.foldl (mergeChunk o bad) (s, (s.vword o).best)
        let s := m.1.modTgt t fun x => { x with sumV := [], virt := Ctx.empty, swpV := SweepEng.empty,
                                                sw := some { k with step := if k.new.isSome then .s3 else .s4 } }
        let s := doorbell s o m.2
        s.setVword o { s.vword o with best := m.2, res := false, switching := false }

def execSwitchSave (t : BitVec 7) (ctxFail : Bool) (bad : List (BitVec 11)) (s : State) : Out :=
  .next (if engOn s 2 then s.servedRun (switchSave s t.toNat ctxFail (bad.map (·.toNat))) else s)

/-- Load n's summary table into the live summary, writing it back as zero. A word that cannot be read is loaded as 07 R172
loads one, and stays in memory. -/
def sumLoadV (s : State) (t : Nat) (n : BitVec 16) (bad : List Nat) : State :=
  let base := vsumBase s n
  let bits := (s.panel (s.vword n).panel).vbits
  (List.range (2 ^ (bits - 10))).foldl (fun s k =>
    if bad.contains k then
      (pnlErr s 2 n.toNat).modTgt t fun x => { x with sumV := Tbl.put x.sumV k Sum.sweepAll }
    else
      let m := (Sum.ofWord (s.load32 (base + 4 * k))).getD Sum.sweepAll
      let s := s.store32 (base + 4 * k) 0
      if m.v then s.modTgt t fun x => { x with sumV := Tbl.put x.sumV k m } else s) s

/-- Step S4 may run: n's Panel is not RESETTING (R241). -/
def mayLoad (s : State) (k : Switch) (n : BitVec 16) : Bool :=
  (k.step = .s3 || (k.step = .s2 && k.old.isNone)) && decide ((s.panel (s.vword n).panel).state ≠ .resetting)

/-- Step S4. -/
def switchLoad (s : State) (t : Nat) (ctxFail : Bool) (bad : List Nat) : State :=
  match (s.tgt t).sw with
  | none => s
  | some k =>
    match k.new with
    | none => s
    | some n =>
      if !mayLoad s k n then s
      else
        let who := AccWho.residency (BitVec.ofNat 7 t)
        let ctxFail := ctxFail || s.lostIn who (vctx s n) 256
        let bad := bad ++ (List.range 2048).filter fun c => s.lostIn who (vsumBase s n + 4 * c) 4
        let s := s.forget who
        let s := s.setVword n { s.vword n with res := true, target := t, best := 0xFF, dbarm := false }
        let c := if ctxFail then Ctx.empty else ctxLoad s n
        let s := if ctxFail then ctxFailed s n else s.reads (vctx s n) 256
        let s := s.modTgt t fun x => { x with virt := c, sumV := [], sw := some { k with step := .s4 } }
        sumLoadV s t n bad

def execSwitchLoad (t : BitVec 7) (ctxFail : Bool) (bad : List (BitVec 11)) (s : State) : Out :=
  .next (if engOn s 2 then s.servedRun (switchLoad s t.toNat ctxFail (bad.map (·.toNat))) else s)

/-- Step S5, at once where neither vPE gives the switch another step (R235). An arrival whose Panel is RESETTING is switched out again (R241). -/
def switchDone (s : State) (t : Nat) : State :=
  match (s.tgt t).sw with
  | none => s
  | some k =>
    if k.step ≠ .s4 ∧ (k.old.isSome ∨ k.new.isSome) then s
    else
      let s := match k.new with
        | some n => (s.setVword n { s.vword n with switching := false }).modTgt t fun x =>
            { x with vpe := n, vpeV := true, sw := none, fresh := true }
        | none => s.modTgt t fun x => { x with vpe := 0, vpeV := false, sw := none }
      let s := s.cnt64 Reg.PNL_SWITCH_CNT
      match k.new with
      | some n => if (s.panel (s.vword n).panel).state = .resetting then startSwitch s t none else s
      | none => s

def execSwitchDone (t : BitVec 7) (s : State) : Out := .next (if engOn s 2 then switchDone s t.toNat else s)

/-! ### Panels of targets and operations -/

def panelOf (s : State) (v : BitVec 16) : Nat := (s.vword v).panel
/-- The vPE resident on t belongs to p. -/
def hosts (s : State) (t p : Nat) : Bool := (s.tgt t).vpeV && decide (panelOf s (s.tgt t).vpe = p)
def ofPanel (s : State) (p : Nat) (v : Option (BitVec 16)) : Bool := v.any fun v => decide (panelOf s v = p)

/-! ### Shares (R242, R243) -/

/-- What Panel p adds to RSV_SUM once its accepted change has taken effect. -/
def commOf (s : State) (p : Nat) : Nat :=
  match (s.panel p).pend with
  | some w => field w.1 14 0
  | none => if pnlCreated s p then qMin s (p + 1) else 0

/-- The committed MIN of Panel p: 0 while it is FREE or RESET (R243). -/
def commMin (s : State) (p : Nat) : Nat :=
  if (s.panel p).state = .free ∨ (s.panel p).state = .reset then 0 else commOf s p

/-- The committed sum: RSV_SUM once every accepted change has taken effect. -/
def commSum (s : State) : Nat :=
  s.fld Reg.MSG_PQ_CFG 14 0 + ((s.pnl.panels.map (·.1)).map (commOf s)).sum

def staged (s : State) (p : Nat) : W32 × W32 :=
  (s.rd (shareOff p Reg.PNL_SHR_REQ0), s.rd (shareOff p Reg.PNL_SHR_REQ1))

/-- The staged CAP is below the staged MIN. -/
def capBad (s : State) (p : Nat) : Bool := decide (field (staged s p).1 30 16 < field (staged s p).1 14 0)
def overcommit (s : State) (p : Nat) : Bool :=
  decide (16384 < commSum s - commMin s p + field (staged s p).1 14 0)

/-- Checks 1 and 2 of R243 that every command applying a staged row makes. -/
def shareCheck (s : State) (p : Nat) : Option Nat :=
  if capBad s p then some stBadRange else if overcommit s p then some stOvercommit else none

/-- The running Panel command of p completes with its status. -/
def pnlFinish (s : State) (p : Nat) : State :=
  match (s.panel p).ring with
  | none => s
  | some r =>
    let s := s.setPanel p { s.panel p with ring := none }
    match (s.ring r).run with
    | some u => complete s r u.desc u.status
    | none => s

/-- Order 3 of a boundary for one Panel: its accepted change takes effect, and it becomes ACTIVE if it is to (R224, R241,
R243). -/
def shareApply (s : State) (p : Nat) : State :=
  let x := s.panel p
  if x.pend.isNone && !x.toActive then s
  else
    let s := match x.pend with
      | some w => (s.wr (shareOff p Reg.PNL_SHR_LIVE0) w.1).wr (shareOff p Reg.PNL_SHR_LIVE1) w.2
      | none => s
    let x := if x.toActive then { x with state := .active, closed := false } else x
    pnlFinish (s.setPanel p { x with pend := none, toActive := false }) p

def sharesApply (s : State) : State := (s.pnl.panels.map (·.1)).foldl shareApply s

/-! ### The Panel commands (R223, R224) -/

/-- The checks that every Panel and vPE command begins with, and the end of SAVED (R246). -/
def pnlGate (s : State) (r : Nat) (d : Desc) (inRange : Bool) (busy : State → Bool) (act : State → State) : State :=
  if !s.bit Reg.PNL_CTRL 0 || s.pnl.restoring then complete s r d stBusy
  else
    let s := if s.pnl.restored then { s with pnl := { s.pnl with restored := false, saved := false } } else s
    if !inRange then complete s r d stBadRange
    else if busy s then complete s r d stBusy
    else act s

def Desc.panel (d : Desc) : Nat := field (d.word 1) 9 0

def pnlCmd (act : State → Nat → Desc → Nat → State) (s : State) (r : Nat) (d : Desc) : State :=
  let p := d.panel
  pnlGate s r d (decide (p < s.par.panels)) (fun s => (s.panel p).ring.isSome) fun s => act s r d p

/-- The command goes on until its Panel's boundary or drain. -/
def pnlRun (s : State) (r : Nat) (d : Desc) (p : Nat) (x : Panel) : State :=
  goOn (s.setPanel p { x with ring := some r }) r d stOk (.panel p)

def panelCreate (s : State) (r : Nat) (d : Desc) (p : Nat) : State :=
  let vbits := field (d.word 1) 14 10
  if vbits < 13 ∨ 21 < vbits ∨ capBad s p then complete s r d stBadRange
  else if (s.panel p).state ≠ .free then complete s r d stBusy
  else if overcommit s p then complete s r d stOvercommit
  else pnlRun s r d p { Panel.empty with vbits := vbits, vattBase := base4k (d.word 2), pend := some (staged s p), toActive := true }

/-- PANEL_VATTR: the entry of an inter-target event is rewritten, and re-ranked where a vPE of p is resident. -/
def panelVattr (fail : Bool) (s : State) (r : Nat) (d : Desc) (p : Nat) : State :=
  let id := field (d.word 1) 14 10
  if (s.panel p).state = .free ∨ 15 < id then complete s r d stBadRange
  else if fail then complete s r d stMemError
  else
    let ev : EventId := BitVec.ofNat 21 id
    let a := attEntry s true p ev
    let w := setField (setField (s.load64 a) 7 0 (field (d.word 1) 23 16)) 11 9 (field (d.word 1) 26 24)
    let s := s.store64 a w
    let ts := (s.tg.map (·.1)).filter fun t => hosts s t p
    let s := ts.foldl (fun s t =>
      treeEnq s t { mkOp .rpr true ev { attrOf w with group := true } s.count with vpe := (s.tgt t).vpe }) s
    complete s r d stOk

def panelShare (s : State) (r : Nat) (d : Desc) (p : Nat) : State :=
  if (s.panel p).state = .free then complete s r d stBadRange
  else match shareCheck s p with
  | some st => complete s r d st
  | none => pnlRun s r d p { s.panel p with pend := some (staged s p) }

def markOp (s : State) (p : Nat) (o : TOp) : TOp := if o.virt ∧ panelOf s o.vpe = p then { o with pre := true } else o

/-- Mark the work for vPEs of p that began before Q0, and the reads on its behalf (R239 Q3 to Q5, Q7). -/
def markDrain (s : State) (p : Nat) : State :=
  let f := markOp s p
  { s with
    tg := s.tg.map fun q => (q.1, q.2.mapOps (·.map f)),
    lanes := s.lanes.map fun q => (q.1, q.2.map fun w => if ofPanel s p w.vpe then { w with pre := true } else w),
    coh := { s.coh with reqs := s.coh.reqs.map fun q => if q.2.pnls.contains p then (q.1, { q.2 with pre := p :: q.2.pre }) else q },
    pnl := { s.pnl with parks := s.pnl.parks.map fun k => if panelOf s k.v = p then { k with pre := true } else k } }

/-- PANEL_QUIESCE: Q0 (R239), and the queue closes (05 R112). -/
def panelQuiesce (s : State) (r : Nat) (d : Desc) (p : Nat) : State :=
  let x := s.panel p
  if x.state = .free then complete s r d stBadRange
  else if x.state ≠ .active then complete s r d stNotQuiesced
  else
    let drain := (s.msg.slow.filter fun e => decide (e.q = p + 1)).map (·.w.wid)
    pnlRun (markDrain s p) r d p { x with state := .quiescing, closed := true, drain := drain, due := false }

def panelResume (s : State) (r : Nat) (d : Desc) (p : Nat) : State :=
  let x := s.panel p
  match x.state with
  | .free => complete s r d stBadRange
  | .quiesced => pnlRun s r d p { x with toActive := true }
  | .reset =>
    match shareCheck s p with
    | some st => complete s r d st
    | none => pnlRun s r d p { x with toActive := true, pend := some (staged s p) }
  | _ => complete s r d stNotQuiesced

/-- Switch out every resident vPE that a test names, where no switch runs. -/
def switchOut (s : State) (which : State → Nat → Bool) : State :=
  ((s.tg.map (·.1)).filter fun t => which s t && (s.tgt t).vpeV && (s.tgt t).sw.isNone).foldl
    (fun s t => startSwitch s t none) s

def panelReset (s : State) (r : Nat) (d : Desc) (p : Nat) : State :=
  let x := s.panel p
  if x.state = .free then complete s r d stBadRange
  else if x.state ≠ .quiesced then complete s r d stNotQuiesced
  else switchOut (pnlRun s r d p { x with state := .resetting, due := false }) fun s t => hosts s t p

def vpesOf (s : State) (p : Nat) : List Nat := (s.pnl.vpes.filter fun e => e.2.v && decide (e.2.panel = p)).map (·.1)

def panelDestroy (s : State) (r : Nat) (d : Desc) (p : Nat) : State :=
  let x := s.panel p
  if x.state = .free then complete s r d stBadRange
  else if x.state ≠ .reset then complete s r d stNotQuiesced
  else if !(vpesOf s p).isEmpty then complete s r d stBusy
  else pnlRun s r d p { x with state := .destroying }

def execPanelCreate (r : BitVec 3) (s : State) : Out := .next (startCmd s r.toNat 0x30 (pnlCmd panelCreate))
def execPanelVattr (r : BitVec 3) (fail : Bool) (s : State) : Out :=
  .next (startFail s r.toNat 0x31 fail fun fail => pnlCmd (panelVattr fail))
def execPanelShare (r : BitVec 3) (s : State) : Out := .next (startCmd s r.toNat 0x32 (pnlCmd panelShare))
def execPanelQuiesce (r : BitVec 3) (s : State) : Out := .next (startCmd s r.toNat 0x33 (pnlCmd panelQuiesce))
def execPanelResume (r : BitVec 3) (s : State) : Out := .next (startCmd s r.toNat 0x34 (pnlCmd panelResume))
def execPanelReset (r : BitVec 3) (s : State) : Out := .next (startCmd s r.toNat 0x35 (pnlCmd panelReset))
def execPanelDestroy (r : BitVec 3) (s : State) : Out := .next (startCmd s r.toNat 0x36 (pnlCmd panelDestroy))

/-! ### The ends of quiesce, reset and destroy (R239, R241) -/

/-- Q1 to Q7. -/
def drained (s : State) (p : Nat) : Bool :=
  let q := p + 1
  (s.msg.q.all fun e => decide (e.q ≠ q)) &&
  (s.msg.slow.all fun e => !(s.panel p).drain.contains e.w.wid) &&
  (s.miss.all fun m => decide (m.q ≠ q)) &&
  (s.tg.all fun e =>
    let x := e.2
    ((x.ops ++ x.dsp).all fun o => !(o.pre && o.virt && decide (panelOf s o.vpe = p))) &&
    (!(x.vpeV && decide (panelOf s x.vpe = p)) || (x.leadV.isNone && x.swpV.run.isNone)) &&
    (x.sw.all fun k => !ofPanel s p k.old && !ofPanel s p k.new)) &&
  (s.lanes.all fun e => e.2.all fun w => !(w.pre && ofPanel s p w.vpe)) &&
  (s.pnl.parks.all fun k => !(k.pre && decide (panelOf s k.v = p))) &&
  (s.wft.ift.all fun e => decide (e.2.q ≠ q)) && (s.wft.rwait.all fun e => decide (e.q ≠ q)) &&
  (s.coh.reqs.all fun e => !e.2.pre.contains p)

/-- Every switch of PANEL_RESET has finished; one that brings in a vPE of p waits at S4. -/
def switchedOut (s : State) (p : Nat) : Bool :=
  s.tg.all fun e =>
    match e.2.sw with
    | none => !(e.2.vpeV && decide (panelOf s e.2.vpe = p))
    | some k => !(ofPanel s p k.old && (k.step = .s2 || !ofPanel s p k.new)) && !(ofPanel s p k.new && k.step = .s4)

def quiesceDone (s : State) (p : Nat) : State :=
  let x := s.panel p
  if x.state = .quiescing ∧ x.due then pnlFinish (s.setPanel p { x with state := .quiesced, due := false, drain := [] }) p else s

def panelResetDone (s : State) (p : Nat) : State :=
  let x := s.panel p
  if x.state = .resetting ∧ x.due then
    pnlFinish ((s.setFld (shareOff p Reg.PNL_SHR_LIVE0) 14 0 0).setPanel p { x with state := .reset, due := false }) p
  else s

/-- The boundary's part: what the last boundary allowed is done, and the conditions are taken again. A command that a warm
reset has stopped goes no further (11 R278, R245). -/
def pnlBoundary (s : State) : State :=
  if s.rst.phase = .w2 then s
  else
  (s.pnl.panels.map (·.1)).foldl (fun s p =>
    let s := panelResetDone (quiesceDone s p) p
    let x := s.panel p
    let ok := (decide (x.state = .quiescing) && drained s p) || (decide (x.state = .resetting) && switchedOut s p)
    if ok then s.setPanel p { x with due := true } else s) s

def destroyDone (s : State) (p : Nat) : State :=
  let x := s.panel p
  if x.state = .destroying ∧ (s.msg.slow.all fun e => decide (e.q ≠ p + 1)) ∧
     ((s.pnl.parkQ ++ s.pnl.parks).all fun k => decide (panelOf s k.v ≠ p)) then
    let s := ((s.wr (shareOff p Reg.PNL_SHR_LIVE0) 0).wr (shareOff p Reg.PNL_SHR_LIVE1) 0)
    let s := ((s.wr (shareOff p Reg.PNL_SHR_REQ0) 0).wr (shareOff p Reg.PNL_SHR_REQ1) 0)
    pnlFinish (s.setPanel p { Panel.empty with ring := x.ring }) p
  else s

/-- The Panel manager ends what a command began: not once a warm reset has stopped the command. -/
def pnlEnds (s : State) : Bool := engOn s 2 && decide (s.rst.phase = .run)

def execQuiesceDone (p : BitVec 10) (s : State) : Out := .next (if pnlEnds s then quiesceDone s p.toNat else s)
def execPanelResetDone (p : BitVec 10) (s : State) : Out := .next (if pnlEnds s then panelResetDone s p.toNat else s)
def execPanelDestroyDone (p : BitVec 10) (s : State) : Out := .next (if pnlEnds s then destroyDone s p.toNat else s)

/-! ### The vPE commands (R228) -/

def vpeOp (op : Nat) : Bool := decide (0x38 ≤ op) && decide (op ≤ 0x3A)
def Desc.vpe (d : Desc) : BitVec 16 := BitVec.ofNat 16 (field (d.word 1) 15 0)
def vpeBusy (s : State) (v : BitVec 16) : Bool :=
  s.rings.any fun e => e.2.run.any fun u => vpeOp u.desc.op && decide (u.desc.vpe = v)

def vpeCmd (act : State → Nat → Desc → BitVec 16 → State) (s : State) (r : Nat) (d : Desc) : State :=
  let v := d.vpe
  let pnlOk := decide (d.op ≠ 0x38) || decide (field (d.word 1) 25 16 < s.par.panels)
  pnlGate s r d (decide (v.toNat < s.par.vpes) && pnlOk) (fun s => vpeBusy s v) fun s => act s r d v

/-- Doorbell word of a descriptor. -/
def Desc.db (d : Desc) : W64 := if d.op = 0x38 then d.word 4 else d.word 2
def dbTgt (w : W64) : BitVec 14 := BitVec.ofNat 14 (field w 29 16)
def dbEvt (w : W64) : EventId := BitVec.ofNat 21 (field w 52 32)

/-- The doorbell fields that need no read: BAD_RANGE. -/
def dbRange (s : State) (w : W64) : Bool :=
  let i := (dbTgt w).toNat / 128
  !msgEvent (dbEvt w) || (present s i &&
    (decide (targetsOf s i ≤ (dbTgt w).toNat % 128) || decide (2 ^ attBitsOf s i ≤ (dbEvt w).toNat)))

/-- The entry of DBEVT has USED 1 and GROUP 0, and the command is of a ring other than ring 1. -/
def dbGroup (s : State) (r : Nat) (w : W64) : Bool :=
  isLocal s (dbTgt w) && decide (r ≠ 1) && wordGroup0 (s.load64 (attAddr s (dbEvt w)))

/-- Checks on the doorbell fields after BAD_RANGE. -/
def dbLate (s : State) (w : W64) : Option Nat :=
  if !present s ((dbTgt w).toNat / 128) then some stAbsent
  else if isLocal s (dbTgt w) && attMapped (s.load64 (attAddr s (dbEvt w))) then some stBusy
  else none

/-- DBEVT's attribute word with DEST and USED; from a ring other than ring 1 an entry not in use takes group 1. -/
def dbEntry (r : Nat) (w aw : W64) : W64 :=
  let n := setBit (setField aw 31 16 (dbTgt w).toNat) 13 true
  if !attUsed aw && decide (r ≠ 1) then setBit n 8 true else n

/-- Ask the owner of DBEVT. An ATT_WRITE for a doorbell carries MAPPED 0 and USED 0, and GROUP 1 from a ring other than
ring 1 (log 17). -/
def dbRemote (s : State) (r : Nat) (d : Desc) : State :=
  let w := d.db
  sendReq (goOn s r d stOk .remote) r ((dbTgt w).toNat / 128) 3 (dbEvt w) (dbTgt w).toNat
    (attWord { prio := 0, group := decide (r ≠ 1), cls := 0 } false false ((dbTgt w).zeroExtend 16)) .doorbell

/-- The last effect of VPE_DOORBELL: v, if it is not resident, is armed and tested. -/
def dbArm (s : State) (v : BitVec 16) : State :=
  if (s.vword v).res then s else doorbell (s.setVword v { s.vword v with dbarm := true }) v (s.vword v).best

/-- The lines of a new context (R226, R228). -/
def newCtx (d : Desc) : List (List W64) :=
  [[BitVec.ofNat 64 (1 + field (d.word 1) 25 16 * 2 ^ 8), d.word 2, d.word 3, d.word 4, 0, 0, 0, 0],
   List.replicate 8 0, List.replicate 8 0, List.replicate 8 0]

/-- Write the first n lines of the new context. -/
def writeCtx (s : State) (v : BitVec 16) (d : Desc) (n : Nat) : State :=
  (List.range n).foldl (fun s i => storeWords s (vctx s v + 64 * i) ((newCtx d).getD i [])) s

/-- The on-chip word of a vPE just created, and its doorbell. -/
def vpeNew (s : State) (v : BitVec 16) (d : Desc) : State :=
  dbArm (s.setVword v { VWord.empty with v := true, dbarm := true, panel := field (d.word 1) 25 16 }) v

def vpeCreate (c : CmdMem) (s : State) (r : Nat) (d : Desc) (v : BitVec 16) : State :=
  let p := field (d.word 1) 25 16
  let w := d.db
  let st := (s.panel p).state
  if s.par.panels ≤ p ∨ st = .free ∨ st = .destroying ∨ dbRange s w then complete s r d stBadRange
  else if c = .readFail ∧ isLocal s (dbTgt w) then complete s r d stMemError
  else if dbGroup s r w then complete s r d stBadRange
  else if (s.vword v).v then complete s r d stBusy
  else match dbLate s w with
  | some e => complete s r d e
  | none =>
    if !isLocal s (dbTgt w) then dbRemote s r d
    else
      let k := writesDone c 5
      let s := writeCtx s v d (min 4 k.1)
      if !k.2 then complete s r d stMemError
      else
        let a := attAddr s (dbEvt w)
        complete (vpeNew (s.store64 a (dbEntry r w (s.load64 a))) v d) r d stOk

def vpeDoorbell (c : CmdMem) (s : State) (r : Nat) (d : Desc) (v : BitVec 16) : State :=
  let w := d.db
  if !(s.vword v).v || dbRange s w then complete s r d stBadRange
  -- the context word stands whatever access of the attribute entry fails (11 R270)
  else if c = .readFail ∧ isLocal s (dbTgt w) then complete (s.store64 (vctx s v + 24) w) r d stMemError
  else if dbGroup s r w then complete s r d stBadRange
  else match dbLate s w with
  | some e => complete s r d e
  | none =>
    if !isLocal s (dbTgt w) then dbRemote s r d
    else
      let k := writesDone c 2
      let s := if 0 < k.1 then s.store64 (vctx s v + 24) w else s
      if !k.2 then complete s r d stMemError
      else
        let a := attAddr s (dbEvt w)
        complete (dbArm (s.store64 a (dbEntry r w (s.load64 a))) v) r d stOk

/-- The CRSP of a remote doorbell entry has come: the command's own writes follow (12 R299). -/
def dbAnswer (c : CmdMem) (s : State) (r : Nat) (d : Desc) (status : Nat) : State :=
  let v := d.vpe
  if status ≠ stOk ∧ status ≠ stMemError then complete s r d status
  else if d.op = 0x38 then
    let k := writesDone c 4
    let s := writeCtx s v d k.1
    if k.2 && decide (status = stOk) then complete (vpeNew s v d) r d stOk else complete s r d stMemError
  else
    let k := writesDone c 1
    let s := if k.2 then s.store64 (vctx s v + 24) d.db else s
    if k.2 && decide (status = stOk) then complete (dbArm s v) r d stOk else complete s r d stMemError

def vpeDestroy (fail : Bool) (s : State) (r : Nat) (d : Desc) (v : BitVec 16) : State :=
  let k := s.vword v
  if !k.v then complete s r d stBadRange
  else if (s.panel k.panel).state = .active then complete s r d stNotQuiesced
  else if k.res || k.switching then complete s r d stBusy
  else if fail then complete s r d stMemError
  else
    let s := s.store64 (vctx s v) (setBit (s.load64 (vctx s v)) 0 false)
    complete (s.setVword v { k with v := false }) r d stOk

def execVpeCreate (r : BitVec 3) (c : CmdMem) (s : State) : Out :=
  .next (startMem s r.toNat 0x38 c fun c => vpeCmd (vpeCreate c))
def execVpeDoorbell (r : BitVec 3) (c : CmdMem) (s : State) : Out :=
  .next (startMem s r.toNat 0x39 c fun c => vpeCmd (vpeDoorbell c))
def execVpeDestroy (r : BitVec 3) (fail : Bool) (s : State) : Out :=
  .next (startFail s r.toNat 0x3A fail fun fail => vpeCmd (vpeDestroy fail))

/-! ### The save areas (R245, R246) -/

def savedState : PState → Nat
  | .free => 0
  | .active => 1
  | .quiescing | .quiesced | .resetting => 3
  | .reset | .destroying => 5

def saveAddr (s : State) (p : Nat) : Nat := (s.rd64 Reg.PNL_SAVE_BASE).toNat + p * 32

def saveWords (s : State) (p : Nat) : List W64 :=
  let x := s.panel p
  let c := savedState x.state
  [BitVec.ofNat 64 (c + (if c = 0 then 0 else x.vbits * 2 ^ 4 + x.vattBase)),
   s.rd (shareOff p Reg.PNL_SHR_LIVE1) ++ s.rd (shareOff p Reg.PNL_SHR_LIVE0), 0, 0]

/-- Steps 2 to 4 of R245, once the vPEs are out. The lists name the entries whose writes failed. -/
def pnlSave (s : State) (badP badV : List Nat) : State :=
  let badP := badP ++ (List.range s.par.panels).filter fun p => s.lostIn .panelSave (saveAddr s p) 32
  let badV := badV ++ (List.range s.par.vpes).filter fun v => s.lostIn .panelSave (vctx s (BitVec.ofNat 16 v) + 40) 8
  let s := s.forget .panelSave
  let s := (List.range s.par.panels).foldl (fun s p =>
    if badP.contains p then pnlErr s 5 p else storeWords s (saveAddr s p) (saveWords s p)) s
  let s := (List.range s.par.vpes).foldl (fun s v =>
    let k : BitVec 16 := BitVec.ofNat 16 v
    if badV.contains v then pnlErr s 1 v
    else s.store64 (vctx s k + 40) ((s.vword k).word.zeroExtend 64)) s
  let bad := (badP.any fun p => decide (p < s.par.panels)) || (badV.any fun v => decide (v < s.par.vpes))
  { s with pnl := { s.pnl with saved := !bad, restored := false } }

/-- An entry of the save area that fails the restore (R246). -/
def entryBad (w0 w1 w2 w3 : W64) : Bool :=
  let st := field w0 2 0
  !(st = 0 || st = 1 || st = 3 || st = 5) || bitAt w0 3 || decide (field w0 11 9 ≠ 0) || decide (field w0 63 52 ≠ 0) ||
  bitAt w1 15 || bitAt w1 31 || bitAt w1 55 || decide (w2 ≠ 0) || decide (w3 ≠ 0) ||
  (decide (st ≠ 0) && (decide (field w0 8 4 < 13) || decide (21 < field w0 8 4)))

def restoredState : Nat → PState
  | 1 => .active
  | 3 => .quiesced
  | 5 => .reset
  | _ => .free

/-- Restore Panel p. -/
def restorePanel (badP : List Nat) (s : State) (p : Nat) : State :=
  let a := saveAddr s p
  let w0 := s.load64 a
  let w1 := s.load64 (a + 8)
  if badP.contains p || entryBad w0 w1 (s.load64 (a + 16)) (s.load64 (a + 24)) then pnlErr s 4 p
  else if field w0 2 0 = 0 then s
  else
    let st := restoredState (field w0 2 0)
    let s := (s.wr (shareOff p Reg.PNL_SHR_LIVE0) (w1.truncate 32)).wr (shareOff p Reg.PNL_SHR_LIVE1) ((w1 >>> 32).truncate 32)
    s.setPanel p { Panel.empty with state := st, vbits := field w0 8 4, vattBase := base4k w0, closed := decide (st ≠ .active) }

/-- Restore the word of a vPE; one of a Panel that is FREE is not created. -/
def restoreVpe (badV : List Nat) (s : State) (v : Nat) : State :=
  let k : BitVec 16 := BitVec.ofNat 16 v
  if badV.contains v then pnlErr s 1 v
  else
    let w := VWord.ofWord (s.load64 (vctx s k + 40))
    if w.v && pnlCreated s w.panel then s.setVword k w else s

/-- PANEL_RESTORE_DONE. -/
def panelRestore (s : State) (badP badV : List Nat) : State :=
  if !s.pnl.restoring then s
  else
    let badP := badP ++ (List.range s.par.panels).filter fun p => s.lostIn .panelSave (saveAddr s p) 32
    let badV := badV ++ (List.range s.par.vpes).filter fun v => s.lostIn .panelSave (vctx s (BitVec.ofNat 16 v) + 40) 8
    let s := s.forget .panelSave
    let s := (List.range s.par.panels).foldl (restorePanel badP) s
    let s := (List.range s.par.vpes).foldl (restoreVpe badV) s
    { s with pnl := { s.pnl with restoring := false, restored := true } }

def execPanelRestoreDone (badP : List (BitVec 10)) (badV : List (BitVec 16)) (s : State) : Out :=
  .next (if engOn s 2 then panelRestore s (badP.map (·.toNat)) (badV.map (·.toNat)) else s)

/-- PNL_CTRL.EN goes from 0 to 1: a restore begins if RESTORE and SAVED are 1, and RESTORE returns to 0 (R246). -/
def pnlEnable (s : State) : State :=
  let go := s.bit Reg.PNL_CTRL 1 && s.pnl.saved
  let s := s.wr Reg.PNL_CTRL 1
  { s with pnl := { s.pnl with restoring := go } }

end Sys2Proof.Machine
end

