-- ==== Sys2Proof/Machine/Coherent.lean ====
section
/-! DEFINITION. The coherent agent (13): requests in class order, grants, retries, snoops, evictions, the flush, and
XLT_INV. The memory image is the coherent system's; a grant with data brings what another agent has written there. -/

namespace Sys2Proof.Machine

/-! ### Lines and requests -/

def modCoh (s : State) (f : Coh → Coh) : State := { s with coh := f s.coh }

def lineState (s : State) (l : Nat) : Option Moesi := Tbl.find s.coh.lines l
def dirtyState (x : Moesi) : Bool := x = .m || x = .o
def ownerMode (s : State) : Bool := s.bit Reg.COH_MODE 0

/-- The 64 bytes of a line. -/
def lineData (s : State) (l : Nat) : BitVec 512 := BitVec.ofNat 512 (memLoad s.mem (l * 64) 64)
def putLine (s : State) (l : Nat) (d : BitVec 512) : State := { s with mem := memStore s.mem (l * 64) 64 d.toNat }

def inEvb (s : State) (l : Nat) : Bool := s.coh.evb.any fun e => decide (e.line = l)
/-- The requests that keep a way of the cache: those for a line, but the evictions. -/
def CReq.fills (q : CReq) : Bool := decide (q.op ≠ .wbD) && decide (q.op ≠ .evC)

/-- The tag and request for a line that is outstanding (at most one, R314). -/
def reqFor (s : State) (l : Nat) : Option (Nat × CReq) :=
  s.coh.reqs.find? fun q => decide (q.2.line = l) && q.2.fills

/-- A way belongs to a line that the cache holds or that a request is out for (R308, R309): the others are free. -/
def trimWays (c : Coh) : Coh :=
  { c with ways := c.ways.filter fun e =>
      (Tbl.find c.lines e.1).isSome || c.reqs.any fun q => q.2.fills && decide (q.2.line = e.1) }

/-- Writeback-buffer entries in use (R308). -/
def wbbUsed (s : State) : Nat := (s.coh.evb.filter (·.dirty)).length + s.coh.wbq.length

/-- The agent cleans its cache at DEEP entry, before CLK_MAIN is stopped (R323, 17 R411). -/
def cohCleans (s : State) : Bool :=
  decide (pwrPhase s = 3) && decide (s.pwr.target = 3) && !s.pwr.main.req

/-- The agent works: until its stop point A4, at DEEP entry, and in step W3 of a warm reset (02 R43, 17 R408). -/
def cohOn (s : State) : Bool := grpOn s 4 || cohCleans s || decide (s.rst.phase = .w3)

def putReq (s : State) (tag : Nat) (q : CReq) : State := modCoh s fun c => { c with reqs := Tbl.put c.reqs tag q }

/-- COH_ERR flags, with the log (R325). -/
def cohErr (s : State) (i cls l : Nat) : State :=
  logErr s 9 Reg.COH_ERR i 0 (Reg.COH_ERR_LOG + 4) 31 fun s =>
    s.wr64 Reg.COH_ERR_LOG (BitVec.ofNat 64 (i + cls * 2 ^ 3 + l * 2 ^ 6))

/-! ### Lines that a flush or an XLT_INV removes (R324, 06 R135) -/

/-- Forget the lines that have left cache and eviction buffer; an XLT_INV with none left completes. -/
def dropGone (s : State) : State :=
  let s := modCoh s fun c => { c with drop := c.drop.filter fun d => (lineState s d.1).isSome || inEvb s d.1 }
  (List.range 8).foldl (fun s r =>
    match (s.ring r).run with
    | some u => if u.kind = .inv ∧ (s.coh.drop.all fun d => decide (d.2 ≠ .ring r)) then complete s r u.desc u.status else s
    | none => s) s

/-! ### Issue (01 R10; R309, R310, R313, R314) -/

/-- The request that an access needs in its line's state; none: the line serves it. -/
def reqNeeded (st : Option Moesi) (unique : Bool) : Option CohOp :=
  match st with
  | none => some (if unique then .rdU else .rdS)
  | some .m => none
  | some .e => none
  | some _ => if unique then some .upg else none

/-- The line that stands in a way of a set, or that a request is out for. -/
def wayLine (s : State) (set w : Nat) : Option Nat :=
  (s.coh.ways.find? fun e => decide (e.1 % 256 = set) && decide (e.2 = w)).map (·.1)

/-- A free way of a line's set, lowest number first (R309). -/
def freeWay (s : State) (l : Nat) : Option Nat := (List.range 16).find? fun w => (wayLine s (l % 256) w).isNone

/-- A lookup whose fill has come re-enters on this line, which a snoop alone may take from it (06 R128; log 10). -/
def reentry (s : State) (l : Nat) : Bool := s.miss.any fun m => m.slot && m.filled && m.res.isNone && decide (m.line = l)

/-- The way that tree pseudo-LRU gives in the full set of a line: none whose line a request is out for, or a lookup re-enters on
(R309). -/
def victimWay (s : State) (l : Nat) : Option Nat :=
  plruWalk (Tbl.get 0 s.coh.plru (l % 256))
    (fun w => (wayLine s (l % 256) w).any fun k => (lineState s k).isSome && (reqFor s k).isNone && !reentry s k) 4 0 0

/-- The line that makes room for a fill. -/
def victim (s : State) (l : Nat) : Option Nat := (victimWay s l).bind (wayLine s (l % 256))

/-- A line may be evicted: the buffers have room and no request for it is outstanding. -/
def evictable (s : State) (l : Nat) : Bool :=
  match lineState s l with
  | none => false
  | some x => (reqFor s l).isNone && !reentry s l && decide (s.coh.evb.length < 16) && (!dirtyState x || decide (wbbUsed s < 16))

/-- An access can go on: by its own request, or by the eviction of its set's victim. -/
def accReady (s : State) (a : CohAcc) : Bool :=
  let l := a.line.toNat
  let need := reqNeeded (lineState s l) a.unique
  need.isSome && (reqFor s l).isNone && !inEvb s l &&
  (decide (need = some .upg) || (freeWay s l).isSome || (victim s l).any (evictable s))

/-! ### Who asks (01 R10, R440) -/

/-- A target's summary of a kind beats its root. -/
def summaryBeats (s : State) (t : Nat) (virt : Bool) : Bool :=
  (bestChunk (fun _ => false) ((s.tgt t).sums virt)).any fun e => beatsRoot s t virt e.2.prio

/-- The class of an access (R10, R440). The context and attribute writes of VPE_CREATE, VPE_DOORBELL, VPE_DESTROY and PANEL_VATTR,
which neither names, are made in class 6 (DESIGN CHOICE, log 103). -/
def accClass (s : State) : AccWho → Nat
  | .refill t v => if summaryBeats s t.toNat v then 1 else 6
  | .lookup _ => 2
  | .slowSet _ => 3
  | .spill _ | .laneBit _ | .sumFlush | .bitCmd _ => 4
  | .park _ | .residency _ | .panelSave | .doorbell => 5
  | .load | .desc _ | .record _ | .table _ | .cmdRead _ | .tgtSave => 6
  | .burin _ => 7

/-- A line holds a byte of the n at an address. -/
def lineHas (l a n : Nat) : Bool := lineIn l (haddr a) n

/-- The reads and clears of a target's lead and sweep (07 R167, R168). -/
def refillWants (s : State) (t : Nat) (virt : Bool) (l : Nat) (unique : Bool) : Bool :=
  let x := s.tgt t
  let vpe := vpeOf s t virt
  let att := fun (ev : EventId) => match vpe with
    | some v => vattAddr s v ev
    | none => attAddr s ev
  let bit := fun (ev : EventId) => lineHas l (bitAddr s t vpe ev) 1 || (!unique && lineHas l (att ev) 16)
  ((x.lead virt).any bit) ||
  ((x.swp virt).run.any fun r =>
    (!r.taken && !unique && lineHas l (bitAddr s t vpe (BitVec.ofNat 21 (r.chunk * 1024))) 128) || r.snap.head?.any bit)

/-- The table, attribute and summary accesses of a raise that is set in host memory at a destination. -/
def setWants (s : State) (d : Dest) (ev : EventId) (l : Nat) (unique : Bool) : Bool :=
  match d with
  | .tgt g => unique && lineHas l (ptAddr s (g.toNat % 128) ev) 1
  | .vpe v => if unique then lineHas l (bitAddr s 0 (some v) ev) 1 || lineHas l (vsumBase s v + 4 * chunkOf ev) 4
              else lineHas l (vctx s v) 64

/-- The command that runs on ring r, or stands at its front. -/
def ringCmd (s : State) (r : Nat) : Option Desc := ((s.ring r).run.map (·.desc)) <|> (s.ring r).fetched.head?

/-- What is named asks for the line now. The accesses of the Panels', targets' and summaries' areas and of commands are
known by their time, those of the others by their line as well. -/
def accWaits (s : State) (a : CohAcc) : Bool :=
  let l := a.line.toNat
  match a.who with
  | .refill t v => refillWants s t.toNat v l a.unique
  | .lookup k => !a.unique && s.miss.any fun m =>
      decide (m.slice = k.toNat) && m.slot && !m.filled && m.res.isNone && decide (m.line = l)
  | .slowSet n => (s.msg.slow[n.toNat]?).any fun e => match e.stage with
      | .set r => setWants s (redirDest s (destOf r) r.ev) r.ev l a.unique
      | _ => false
  | .spill k => a.unique && (nextSpill s (s.lane k.toNat)).any fun w =>
      lineHas l (bitAddr s w.1.t w.1.vpe w.1.ev) 1 || w.1.vpe.any fun v => lineHas l (vsumBase s v + 4 * chunkOf w.1.ev) 4
  | .laneBit k => a.unique && (s.lane k.toNat).any fun w => !w.set && lineHas l (bitAddr s w.t w.vpe w.ev) 1
  | .sumFlush => a.unique && decide (s.rst.phase = .w2 ∨ pwrPhase s = 1 ∨ s.rnkEn = false)
  | .park n => ((s.pnl.parks ++ s.pnl.parkQ.head?.toList)[n.toNat]?).any fun k => setWants s (.vpe k.v) k.ev l a.unique ||
      (!a.unique && lineHas l (vattAddr s k.v k.ev) 16)
  | .residency t => (s.tgt t.toNat).sw.isSome
  | .panelSave => decide (s.rst.phase = .w2) || decide (pwrPhase s = 1) || s.pnl.restoring
  | .doorbell => !a.unique && lineIn l (base4k (s.rd64 Reg.XLT_ATT_BASE)) (2 ^ attBits s * 16)
  | .load => !a.unique && s.bit Reg.RNK_STAT 0
  | .desc r => !a.unique && (nextFetch s r.toNat).any fun i => lineHas l (ringBase s r.toNat + i * 64) 64
  | .record r => a.unique && (s.ring r.toNat).recs.head?.any fun e => lineHas l (ringCpl s r.toNat + e.index * 32) 32
  | .table r => a.unique && (ringCmd s r.toNat).any fun d => tableOp d.op || decide (0x30 ≤ d.op ∧ d.op < 0x40)
  | .bitCmd r => a.unique && (ringCmd s r.toNat).any fun d => d.op ∈ [0x15, 0x20, 0x21]
  | .cmdRead r => !a.unique && (ringCmd s r.toNat).any fun d => decide (0x10 ≤ d.op ∧ d.op < 0x40)
  | .tgtSave => s.pwr.restore || decide (pwrPhase s = 1) || decide (pwrPhase s = 2)
  | .burin u => match u with
    | .a => decide (s.bur.a.st = .run) || decide (s.bur.a.st = .boot)
    | .b => decide (s.bur.b.st = .run) || decide (s.bur.b.st = .boot)

/-- The class order: an access that has waited 16 cycles goes ahead of every higher class; otherwise the lowest class
number goes first, and the earlier of equals. -/
def accBefore (s : State) (a b : CohAcc) : Bool :=
  if a.waited ≠ b.waited then a.waited else decide (accClass s a.who < accClass s b.who)

def accFirst (s : State) : List CohAcc → Option CohAcc
  | [] => none
  | a :: r =>
    match accFirst s r with
    | none => some a
    | some b => if accBefore s b a then some b else some a

/-- COH_MODE locks at the first coherent request (R325). -/
def lockMode (s : State) : State :=
  if s.wol.contains Reg.COH_MODE then s else { s with wol := Reg.COH_MODE :: s.wol }

/-- coh_req_op_o (R311). -/
def CohOp.code : CohOp → BitVec 4
  | .rdS => 1 | .rdU => 2 | .upg => 3 | .wbD => 4 | .evC => 5

/-- Put a request on the request channel. -/
def sendCoh (s : State) (tag : Nat) (q : CReq) : State :=
  modCoh (putReq (lockMode s) tag q) fun c => { c with out := some { op := q.op.code, line := q.line, tag := BitVec.ofNat 8 tag } }

def newReq (op : CohOp) (l : Nat) (who : Option AccWho) (cls : Nat) (unique : Bool) : CReq :=
  { op := op, line := l, who := who, cls := cls, unique := unique, retries := 0, delay := none, lost := false, held := none,
    pnls := [], pre := [] }

/-- Evict a line (R317): it leaves the cache for the eviction buffer, and its way is free. -/
def evict (s : State) (l tag : Nat) : State :=
  let d := (lineState s l).any dirtyState
  let e : EvEnt := { line := l, dirty := d, snooped := false, tag := tag, data := if d then lineData s l else 0 }
  let s := modCoh s fun c => { c with lines := Tbl.del c.lines l, ways := Tbl.del c.ways l, evb := c.evb ++ [e] }
  (sendCoh s tag (newReq (if d then .wbD else .evC) l none 0 false)).cnt64 Reg.COH_EVICT_CNT

/-- The next line to be dropped: in step W3 of a warm reset those that a completion record has brought in, too (02 R43). -/
def nextDrop (s : State) : Option Nat :=
  (s.coh.drop.map (·.1) ++ (if s.rst.phase = .w3 then s.coh.lines.map (·.1) else [])).find? (evictable s)

/-- The accesses that the agent takes: at a cleaning none, in step W3 those of the completion records alone (11 R278). -/
def accTaken (s : State) (a : CohAcc) : Bool :=
  if cohCleans s then false
  else if s.rst.phase = .w3 then (match a.who with
    | .record _ => true
    | _ => false)
  else true

/-- The Panels on whose behalf an access reads (10 R239 Q7): fills for the lookups of their writes, the reads of leads and
sweeps of their vPEs, and those of parks and switches. -/
def accPanels (s : State) (a : CohAcc) : List Nat :=
  match a.who with
  | .lookup k => (s.miss.filter fun m => decide (m.slice = k.toNat) && m.slot && decide (m.line = a.line.toNat) && decide (0 < m.q)).map (·.q - 1)
  | .refill t true => [panelOf s (s.tgt t.toNat).vpe]
  | .park n => ((s.pnl.parks ++ s.pnl.parkQ.head?.toList)[n.toNat]?).toList.map fun k => panelOf s k.v
  | .residency t => ((s.tgt t.toNat).sw.toList.flatMap fun k => k.old.toList ++ k.new.toList).map (panelOf s)
  | _ => []

/-- Send the request of an access: a fill takes a way of its set. -/
def sendAcc (s : State) (a : CohAcc) (op : CohOp) (tag : Nat) : State :=
  let l := a.line.toNat
  let s := match (if op = .upg then none else freeWay s l) with
    | some w => modCoh s fun c => { c with ways := Tbl.put c.ways l w }
    | none => s
  sendCoh s tag { newReq op l (some a.who) (accClass s a.who) a.unique with pnls := accPanels s a }

/-- COH_REQUEST_ISSUE: one request leaves, with a tag that no outstanding request holds. `accs` are the accesses that wait,
in the order in which they came. -/
def requestIssue (s : State) (accs : List CohAcc) (tag : Byte) : State :=
  if (Tbl.find s.coh.reqs tag.toNat).isSome then s
  else
    match accFirst s (accs.filter fun a => accTaken s a && accWaits s a && accReady s a) with
    | some a =>
      match reqNeeded (lineState s a.line.toNat) a.unique with
      | none => s
      | some op =>
        if op ≠ .upg ∧ (freeWay s a.line.toNat).isNone then (victim s a.line.toNat).elim s fun v => evict s v tag.toNat
        else sendAcc s a op tag.toNat
    | none =>
      match nextDrop s with
      | some l => evict s l tag.toNat
      | none => s

def execCohRequestIssue (accs : List CohAcc) (tag : Byte) (s : State) : Out :=
  .next (if cohOn s then requestIssue s accs tag else s)

/-! ### Snoop answers (R311, R315, R317) -/

def srI : BitVec 4 := 1
def srS : BitVec 4 := 2
def srID : BitVec 4 := 4
def srSD : BitVec 4 := 5
def srOD : BitVec 4 := 6

/-- Present a snoop response; one with data is counted as a hit. -/
def snpRsp (s : State) (op : BitVec 4) (tag : Byte) (d : Option (Bool × BitVec 512)) : State :=
  let r : SRsp := { op := op, tag := tag, data := d.map fun x => { tag := tag, dirty := x.1, data := x.2 } }
  let s := modCoh s fun c => { c with srsp := some r }
  if d.isSome then s.cnt64 Reg.COH_SNOOP_HIT_CNT else s

/-- Take a line out; a UPG outstanding for it has lost its line (R319). -/
def invalidate (s : State) (l : Nat) : State :=
  let lose := fun (q : Nat × CReq) => if q.2.line = l ∧ q.2.op = .upg then (q.1, { q.2 with lost := true }) else q
  dropGone (modCoh s fun c => trimWays { c with lines := Tbl.del c.lines l, reqs := c.reqs.map lose })

/-- The answer of R315, from the state as it stands. -/
def snoopLine (s : State) (op : SnpOp) (l : Nat) (tag : Byte) : State :=
  let d := lineData s l
  match lineState s l, op with
  | none, _ => snpRsp s srI tag none
  | some .s, .snS => snpRsp s srS tag none
  | some .s, _ => snpRsp (invalidate s l) srI tag none
  | some .e, .snS => snpRsp (modCoh s fun c => { c with lines := Tbl.put c.lines l .s }) srSD tag (some (false, d))
  | some .e, .snU => snpRsp (invalidate s l) srID tag (some (false, d))
  | some .e, .snI => snpRsp (invalidate s l) srI tag none
  | some _, .snS => snpRsp (modCoh s fun c => { c with lines := Tbl.put c.lines l .o }) srOD tag (some (false, d))
  | some _, _ => snpRsp (invalidate s l) srID tag (some (true, d))

/-- The answer of the eviction buffer (R317). -/
def snoopEvb (s : State) (e : EvEnt) (tag : Byte) : State :=
  if e.dirty && !e.snooped then
    snpRsp (modCoh s fun c => { c with evb := c.evb.map fun x =>
      if x.line = e.line then { x with snooped := true } else x }) srID tag (some (true, e.data))
  else snpRsp s srI tag none

/-- The snoop channels accept: while CLK_MAIN runs. -/
def snoopOn (s : State) : Bool :=
  (decide (s.rst.phase = .run) || decide (s.rst.phase = .w2) || decide (s.rst.phase = .w3)) &&
  (cohCleans s || (decide (pwrPhase s ≠ 3) && decide (pwrPhase s ≠ 4) && decide (pwrPhase s ≠ 5)))
/-- From W4 to C5 the minimal responder answers every snoop as a miss (02 R43). R43 speaks of a warm reset; before C5 of a
cold one the model answers so too (DESIGN CHOICE, log 82). -/
def minimalOn (s : State) : Bool := decide (s.rst.phase = .w5) || decide (s.rst.phase = .init)

def snoop (s : State) (op : SnpOp) (l : Nat) (tag : Byte) : State :=
  if minimalOn s then snpRsp s srI tag none
  else if !snoopOn s then s
  else
    let s := s.cnt64 Reg.COH_SNOOP_CNT
    match s.coh.evb.find? fun e => decide (e.line = l) with
    | some e => snoopEvb s e tag
    | none =>
      match reqFor s l with
      | some (t, q) =>
        if ownerMode s then
          if q.held.isSome then snpRsp (cohErr s 3 0 l) srI tag none
          else putReq s t { q with held := some (op, tag) }
        else snoopLine s op l tag
      | none => snoopLine s op l tag

def execSnS (l : BitVec 46) (tag : Byte) (s : State) : Out := .next (snoop s .snS l.toNat tag)
def execSnU (l : BitVec 46) (tag : Byte) (s : State) : Out := .next (snoop s .snU l.toNat tag)
def execSnI (l : BitVec 46) (tag : Byte) (s : State) : Out := .next (snoop s .snI l.toNat tag)

/-! ### Responses (R311, R313, R317 to R321) -/

def endReq (s : State) (tag : Nat) : State := modCoh s fun c => trimWays { c with reqs := Tbl.del c.reqs tag }

/-- A held snoop is answered from the state that stands once the grant, or the failure, is done (R318). -/
def answerHeld (s : State) (q : CReq) : State :=
  match q.held with
  | some (op, t) => snoopLine s op q.line t
  | none => s

/-- The commands whose XLT_INV waits for a line's writeback. -/
def dropRings (s : State) (l : Nat) : List Nat := s.coh.drop.filterMap fun d =>
  match d.2 with
  | .ring r => if d.1 = l then some r else none
  | _ => none

/-- ERR: the access fails; the line is not installed, and what asked for it is told (R321). An eviction ends: a modified line
of an XLT_INV has then not been written back, and its command ends with MEM_ERROR (06 R139). -/
def failReq (s : State) (tag : Nat) (q : CReq) (flag : Nat) : State :=
  let s := cohErr (endReq s tag) flag q.cls q.line
  let s := match q.who with
    | some w => modCoh s fun c => { c with failed := c.failed ++ [(w, q.line)] }
    | none =>
      let s := if q.op = .wbD then (dropRings s q.line).foldl (fun s r => cmdFail s (some (cmdWid r))) s else s
      modCoh s fun c => { c with evb := c.evb.filter fun e => decide (e.tag ≠ tag) }
  answerHeld (dropGone s) q

/-- An illegal response, or one whose tag matches no request (R311). -/
def proto (s : State) (tag : Nat) : State :=
  match Tbl.find s.coh.reqs tag with
  | some q => cohErr (failReq s tag q 2) 3 q.cls q.line
  | none => cohErr s 3 0 0

/-- The request that a response answers: outstanding, and not waiting to be issued again. -/
def outReq (s : State) (tag : Nat) : Option CReq := (Tbl.find s.coh.reqs tag).filter fun q => q.delay.isNone

/-- The states that a grant may carry, with data or without (R311). -/
def grantState (op : CohOp) (withData : Bool) (st : BitVec 3) : Option Moesi :=
  match op with
  | .rdS => if withData then (if st = 1 then some .s else if st = 2 then some .e else if st = 3 then some .o else none) else none
  | .rdU => if withData then (if st = 2 then some .e else if st = 4 then some .m else none) else none
  | .upg => if st = 2 then some .e else if st = 4 then some .m else none
  | _ => none

/-- Install a granted state and serve the access: one that writes leaves the line M (R313). A lookup that waits for the line
has its fill (06 R128). -/
def grantLine (s : State) (tag : Nat) (q : CReq) (x : Moesi) : State :=
  let s := modCoh s fun c =>
    cohUse { c with lines := Tbl.put c.lines q.line (if q.unique then .m else x), reqs := Tbl.del c.reqs tag } q.line
  let s := { s with miss := s.miss.map fun m => if m.slot ∧ m.line = q.line then { m with filled := true } else m }
  -- a clear of a lane may have waited for it
  answerHeld (lanesDrain s) q

/-- Draw the delay of a retry: 4 to 64 cycles, from the LFSR that INSTANCE_ID seeds at C5 (R320). Its polynomial is not
given (log 9). -/
def retryDelay (s : State) : Nat := 4 + (Config.retryLfsr s.instId s.coh.draws).toNat % 61

/-- Count a retry and its maximum; the 1,024th is STARVE. -/
def countRetry (s : State) (q : CReq) : State :=
  let n := q.retries + 1
  let s := s.cnt64 Reg.COH_RETRY_CNT
  let s := s.setFld Reg.COH_RETRY_MAX 15 0 (max (s.fld Reg.COH_RETRY_MAX 15 0) (min 65535 n))
  if n = 1024 then cohErr s 0 q.cls q.line else s

/-- GNT (R313): of a UPG whose line was taken, the grant is discarded and RD_U is issued, which counts as a retry (R319). -/
def gnt (s : State) (tag : Nat) (st : BitVec 3) : State :=
  match outReq s tag with
  | none => proto s tag
  | some q =>
    match grantState q.op false st with
    | none => proto s tag
    | some x =>
      if q.lost then
        sendCoh (countRetry s q) tag { q with op := .rdU, lost := false, retries := q.retries + 1 }
      else grantLine s tag q x

def execGnt (tag : Byte) (st : BitVec 3) (s : State) : Out := .next (if cohOn s then gnt s tag.toNat st else s)

/-- GNT_D with its two data beats; poison on either ends the access as a failure (R321). -/
def gntD (s : State) (tag : Nat) (st : BitVec 3) (d : BitVec 512) (poison : Bool) : State :=
  match outReq s tag with
  | none => proto s tag
  | some q =>
    match grantState q.op true st with
    | none => proto s tag
    | some x =>
      if poison then failReq (modCoh s fun c => { c with lines := Tbl.del c.lines q.line }) tag q 1
      else grantLine ((putLine s q.line d).cnt64 Reg.COH_FILL_CNT) tag q x

def execGntD (tag : Byte) (st : BitVec 3) (d : BitVec 512) (poison : Bool) (s : State) : Out :=
  .next (if cohOn s then gntD s tag.toNat st d poison else s)

def execRetry (tag : Byte) (s : State) : Out :=
  .next (if !cohOn s then s else
    match outReq s tag.toNat with
    | none => proto s tag.toNat
    | some q =>
      let s := putReq (countRetry s q) tag.toNat { q with retries := q.retries + 1, delay := some (retryDelay s) }
      modCoh s fun c => { c with draws := c.draws + 1 })

/-- RETRY_REISSUE: the delay is over and the request is issued again. -/
def execRetryReissue (tag : Byte) (s : State) : Out :=
  .next (if !cohOn s then s else
    match Tbl.find s.coh.reqs tag.toNat with
    | none => s
    | some q => if q.delay.isSome then sendCoh s tag.toNat { q with delay := none } else s)

/-- Free an eviction-buffer entry. -/
def freeEvb (s : State) (tag : Nat) : State :=
  dropGone (modCoh (endReq s tag) fun c => { c with evb := c.evb.filter fun e => decide (e.tag ≠ tag) })

def execWbGo (tag : Byte) (s : State) : Out :=
  .next (if !cohOn s then s else
    match outReq s tag.toNat, s.coh.evb.find? (fun e => decide (e.tag = tag.toNat)) with
    | some q, some e =>
      if q.op ≠ .wbD then proto s tag.toNat
      else
        let d : DOut := { tag := tag, dirty := !e.snooped, data := e.data }
        freeEvb (modCoh s fun c => { c with wbq := c.wbq ++ [d] }) tag.toNat
    | _, _ => proto s tag.toNat)

def execEvAck (tag : Byte) (s : State) : Out :=
  .next (if !cohOn s then s else
    match outReq s tag.toNat with
    | some q => if q.op = .evC then freeEvb s tag.toNat else proto s tag.toNat
    | none => proto s tag.toNat)

/-- ERR, and what is no legal message at all: a reserved encoding of a response counts as ERR for its request, a beat without a
request and a snoop of a reserved encoding are discarded; each sets PROTO (R311). A defined encoding is a row of its own. -/
def cohBad (s : State) (tag : Nat) : CohBad → State
  | .err => match outReq s tag with
    | some q => failReq s tag q 2
    | none => proto s tag
  | .rsp op => if decide (op = 0) || decide (6 < op.toNat) then proto s tag else s
  | .beat => if (Tbl.find s.coh.reqs tag).isSome then s else cohErr s 3 0 0
  | .snp op l => if decide (op = 0) || decide (3 < op.toNat) then cohErr s 3 0 l.toNat else s

def execErr (tag : Byte) (k : CohBad) (s : State) : Out := .next (if cohOn s then cohBad s tag.toNat k else s)

/-- WRITEBACK_LAST_BEAT_ACCEPT: the oldest writeback has gone out and its buffer entry is free. -/
def execWritebackLastBeatAccept (s : State) : Out :=
  .next (if !cohOn s then s else
    match s.coh.wbq with
    | [] => s
    | d :: r => modCoh s fun c => { c with wbq := r, dout := some d })

/-! ### The flush (R323, R324) -/

/-- Every valid line is to be evicted; DONE reads 0. -/
def flushStart (s : State) : State :=
  let s := modCoh s fun c => { c with drop := c.drop ++ c.lines.map fun e => (e.1, .flush) }
  s.setBitR Reg.COH_FLUSH 1 false

def flushDone (s : State) : State :=
  if !s.bit Reg.COH_FLUSH 1 && (s.coh.drop.all fun d => decide (d.2 ≠ .flush)) then s.setBitR Reg.COH_FLUSH 1 true else s

def execCohFlushDone (s : State) : Out := .next (if cohOn s then flushDone s else s)

/-- What refuses a power-state entry (R323). -/
def cohBusy (s : State) : Bool := !s.coh.reqs.isEmpty || !s.coh.evb.isEmpty || !s.coh.wbq.isEmpty

/-- Step W3 of a warm reset: clean lines are dropped, and modified and owned ones are to be written back (02 R43). -/
def cohW3 (s : State) : State :=
  dropGone (modCoh s fun c =>
    let l := c.lines.filter fun e => dirtyState e.2
    trimWays { c with lines := l, drop := l.map fun e => (e.1, .flush) })

/-! ### XLT_INV (06 R135) -/

/-- The lines of one source: its entry and its event map. A source whose entry has V 0 has no event map (DESIGN CHOICE,
log 84). -/
def srcLine (s : State) (src l : Nat) : Bool :=
  let e := readSrc s src
  lineIn l (srcAddr s src) 32 || (e.valid && lineIn l e.mapBase (2 ^ e.dbits * 16))

/-- The lines of every table of ALL. -/
def tableLine (s : State) (l : Nat) : Bool :=
  lineIn l (srcAddr s 0) (2 ^ srcBits s * 32) || lineIn l (base4k (s.rd64 Reg.XLT_ATT_BASE)) (2 ^ attBits s * 16) ||
  ((createdPanels s).any fun p => lineIn l (s.panel p).vattBase (2 ^ (s.panel p).vbits * 16)) ||
  ((List.range (2 ^ srcBits s)).any fun i => let e := readSrc s i; e.valid && lineIn l e.mapBase (2 ^ e.dbits * 16))

def xltInv (fail : Bool) (s : State) (r : Nat) (d : Desc) : State :=
  let all := bitAt (d.word 1) 24
  if !all && decide (2 ^ srcBits s ≤ d.src) then complete s r d stBadRange
  else if fail then complete s r d stMemError
  else
    let ls := (s.coh.lines.map (·.1)).filter fun l => if all then tableLine s l else srcLine s d.src l
    dropGone (modCoh (goOn s r d stOk .inv) fun c => { c with drop := c.drop ++ ls.map fun l => (l, .ring r) })

def execXltInv (r : BitVec 3) (fail : Bool) (s : State) : Out :=
  .next (startFail s r.toNat 0x16 fail xltInv)

end Sys2Proof.Machine
end

