-- ==== Sys2Proof/Machine/WeftLink.lean ====
section
/-! DEFINITION. The Weft link's ports (12 R282 to R289): flits on the wire, credits, replay, training, and the errors of a
port. -/

namespace Sys2Proof.Machine

/-! ### Fields of a flit (R282) -/

abbrev Flit := BitVec 256

def flitType (f : Flit) : Nat := field f 7 0
def flitSrc (f : Flit) : BitVec 7 := BitVec.ofNat 7 (field f 14 8)
def flitDst (f : Flit) : BitVec 7 := BitVec.ofNat 7 (field f 21 15)
def flitBc (f : Flit) : Bool := bitAt f 22
def flitHops (f : Flit) : BitVec 4 := BitVec.ofNat 4 (field f 26 23)
def flitSeq (f : Flit) : Byte := BitVec.ofNat 8 (field f 34 27)
def flitAck (f : Flit) : Byte := BitVec.ofNat 8 (field f 42 35)
def flitAckV (f : Flit) : Bool := bitAt f 43
def flitPay (f : Flit) : BitVec 160 := BitVec.ofNat 160 (field f 223 64)
/-- CHECK is the CRC-32C of bits [223:0]. -/
def checkOk (f : Flit) : Bool := decide (crc32c (field f 223 0) 28 = BitVec.ofNat 32 (field f 255 224))

/-- The payload bits that the types of R283 name; `none`: the type is not listed. -/
def payMask (ty : Nat) : Option Nat :=
  match ty with
  | 0x00 => some 0
  | 0x01 => some (maskOf 33 0)
  | 0x02 => some (maskOf 39 0 + maskOf 95 64)
  | 0x03 => some (maskOf 17 0 + maskOf 159 32)
  | 0x04 => some (maskOf 13 0)
  | 0x05 => some (maskOf 55 0 + maskOf 115 64)
  | 0x06 => some (maskOf 47 0)
  | 0x07 => some (maskOf 40 0 + maskOf 95 64)
  | 0x08 => some (maskOf 9 0)
  | 0x10 => some (maskOf 53 0 + maskOf 123 64 + maskOf 151 128)
  | 0x11 => some (maskOf 48 0 + maskOf 111 64)
  | 0x12 => some (maskOf 13 0)
  | 0x13 => some (maskOf 9 0)
  | 0x20 => some (maskOf 39 0 + maskOf 127 64)
  | 0x21 => some (maskOf 23 4 + maskOf 127 64)
  | _ => none

/-- The route entries of a ROUTE flit set no reserved bit. -/
def routeRsv (p : BitVec 160) : Bool := (List.range 16).all fun k => !bitAt p (32 + 8 * k + 7)

/-- A flit that R284 drops: its type is not listed, or a reserved bit is set. KIND 3 of a RAISE, the codes that R283 does not give
a CMD, and a STATUS of a CRSP that 00 R7 does not give are read as reserved too (log 79). -/
def malformed (f : Flit) : Bool :=
  match payMask (flitType f) with
  | none => true
  | some m =>
    decide (field f 63 44 ≠ 0) || decide ((flitPay f).toNat &&& m ≠ (flitPay f).toNat) ||
    (decide (flitType f = 0x03) && !routeRsv (flitPay f)) ||
    (decide (flitType f = 0x10) && decide (field (flitPay f) 41 40 = 3)) ||
    (decide (flitType f = 0x20) && (decide (field (flitPay f) 3 0 = 0) || decide (7 < field (flitPay f) 3 0))) ||
    (decide (flitType f = 0x21) && decide (9 < field (flitPay f) 19 12))

/-! ### State of a port -/

def WPort.empty : WPort :=
  { st := .down, phy := false, loop := false, nbr := 0, nbrPort := 0, gotTrain := false, gotAck := false, credits := 0,
    txSeq := 0, rxSeq := 0, rxAny := false, replay := [], resend := [], failed := none, rxCred := 0, rxq := [], sent := 0 }

def wport (s : State) (p : Nat) : WPort := Tbl.get WPort.empty s.wft.ports p
def modWft (s : State) (f : Wft → Wft) : State := { s with wft := f s.wft }
def setWport (s : State) (p : Nat) (x : WPort) : State := modWft s fun w => { w with ports := Tbl.put w.ports p x }
def modWport (s : State) (p : Nat) (f : WPort → WPort) : State := setWport s p (f (wport s p))
def portList (s : State) : List Nat := List.range s.par.weftPorts
def portUp (s : State) (p : Nat) : Bool := decide ((wport s p).st = .up)
def upPorts (s : State) : List Nat := (portList s).filter (portUp s)
def pen (s : State) (p : Nat) : Bool := s.bit Reg.WFT_CTRL p
/-- WFT_CTRL as it reads: a bit of PEN exists for each port built (R307). -/
def wftCtrl (s : State) : W32 :=
  setField (s.rd Reg.WFT_CTRL) 3 0 (field (s.rd Reg.WFT_CTRL) 3 0 % 2 ^ s.par.weftPorts)

/-- A port that has left port reset: it trains, and returns its 32 credits, while wft_phy_up_i is high (R285, R288). -/
def WPort.start (x : WPort) : WPort :=
  { x with st := if x.phy then .training else .down, rxCred := if x.phy then 32 else 0 }

/-- An enabled port leaves reset; one that is looped back, or not enabled, is disabled. -/
def startPort (s : State) (p : Nat) (x : WPort) : WPort :=
  if x.loop || !pen s p then { x with st := .disabled, rxCred := 0 } else x.start

/-- The link works: in every state but sleep and fast running, until its stop point A2 (17 R402, R408, R419); after DEEP,
once the restore has come to it (17 R421). -/
def wftOn (s : State) : Bool := liveOn s 2 && decide (pwrPhase s ≠ 5) && (!s.pwr.restore || s.pwr.restoreCut)

/-! ### Errors (R307) -/

/-- EVENT of a RAISE, LEVEL or CMD. -/
def flitEvent (ty : Nat) (pay : BitVec 160) : Nat :=
  if ty = 0x10 ∨ ty = 0x11 then field pay 20 0 else if ty = 0x20 then field pay 32 12 else 0

/-- Set flag i of WFT_ERR and, while the log is free, capture the flit concerned. -/
def wftErr (s : State) (i ty src dst port ev : Nat) : State :=
  logErr s 8 Reg.WFT_ERR i 0 (Reg.WFT_ERR_LOG + 4) 31 fun s =>
    s.wr64 Reg.WFT_ERR_LOG (BitVec.ofNat 64 (ty % 256 + src % 128 * 2 ^ 8 + dst % 128 * 2 ^ 15 + port % 4 * 2 ^ 22 +
      ev % 2 ^ 21 * 2 ^ 24 + i * 2 ^ 45))

def flitErr (s : State) (i p : Nat) (f : Flit) : State :=
  wftErr s i (flitType f) (flitSrc f).toNat (flitDst f).toNat p (flitEvent (flitType f) (flitPay f))

/-- A flit dropped under R284, R294 or R301 is counted. -/
def dropFlit (s : State) : State := s.cnt32 Reg.WFT_ERR_CNT

/-! ### Sending (R285, R286, R294) -/

/-- The flit as it leaves a port. -/
def wireFlit (x : WPort) (f : OutFlit) (seq : Byte) : Flit :=
  let w : Nat := f.ty.toNat + f.src.toNat * 2 ^ 8 + f.dst.toNat * 2 ^ 15 + f.bc.toNat * 2 ^ 22 + f.hops.toNat * 2 ^ 23 +
    seq.toNat * 2 ^ 27 + (x.rxSeq - 1).toNat * 2 ^ 35 * x.rxAny.toNat + x.rxAny.toNat * 2 ^ 43 + f.pay.toNat * 2 ^ 64
  BitVec.ofNat 256 (w + (crc32c w 28).toNat * 2 ^ 224)

/-- A port can send a sequenced flit: it is up, holds a credit, and has room to replay. -/
def canSend (s : State) (p : Nat) : Bool :=
  let x := wport s p
  decide (x.st = .up) && decide (0 < x.credits) && decide (x.replay.length < 64)

/-- Send a sequenced flit. -/
def sendSeq (s : State) (p : Nat) (f : OutFlit) : State :=
  let x := wport s p
  let x := { x with sent := wireFlit x f x.txSeq, replay := x.replay ++ [(x.txSeq, f)], txSeq := x.txSeq + 1,
                    credits := x.credits - 1 }
  (setWport s p x).cnt64 Reg.WFT_TX_CNT

/-- From W1 of a warm reset the ports send nothing but link-down notices (02 R43). -/
def sendsAll (s : State) : Bool := decide (s.rst.phase = .run)

/-- Send IDLE or TRAIN: no SEQ, no credit, no replay. -/
def sendPlain (s : State) (p : Nat) (ty : Byte) (pay : BitVec 160) : State :=
  if !sendsAll s then s else
  let x := wport s p
  let f : OutFlit := { ty := ty, dst := x.nbr, pay := pay, src := s.instId, bc := false, hops := 1, port := some p }
  (setWport s p { x with sent := wireFlit x f 0 }).cnt64 Reg.WFT_TX_CNT

/-- The buffered flits of a port that has retrained go first (R287). -/
def resendPort (s : State) (p : Nat) : Nat → State
  | 0 => s
  | n + 1 =>
    match (wport s p).resend with
    | [] => s
    | f :: r => if canSend s p then resendPort (sendSeq (modWport s p fun x => { x with resend := r }) p f) p n else s

/-- One waiting flit: sent, kept until its port can send it, or dropped for want of a route (R294). -/
def sendOne (s : State) (f : OutFlit) : State :=
  let keep := modWft s fun w => { w with outq := w.outq ++ [f] }
  let via := fun (p : Nat) => if canSend s p && ((wport s p).resend.isEmpty || !sendsAll s) then sendSeq s p f else keep
  if !sendsAll s && decide (f.ty ≠ 0x08) then keep else
  match f.port with
  | some p => via p
  | none =>
    match Tbl.find s.wft.routes f.dst.toNat with
    | some r => via r.port.toNat
    | none => wftErr (dropFlit s) 6 f.ty.toNat f.src.toNat f.dst.toNat 0 (flitEvent f.ty.toNat f.pay)

/-- Send what can be sent. -/
def wftPump (s : State) : State :=
  if !wftOn s then s
  else
    let s := if sendsAll s then (portList s).foldl (fun s p => resendPort s p 64) s else s
    let q := s.wft.outq
    q.foldl sendOne (modWft s fun w => { w with outq := [] })

def queueFlit (s : State) (f : OutFlit) : State := modWft s fun w => { w with outq := w.outq ++ [f] }

/-- A flit of this instance's own on one port. -/
def sendPort (s : State) (p : Nat) (ty : Byte) (dst : BitVec 7) (bc : Bool) (pay : BitVec 160) : State :=
  queueFlit s { ty := ty, dst := dst, pay := pay, src := s.instId, bc := bc, hops := 1, port := some p }

/-! ### Port reset and failure (R287, 02 R47) -/

/-- The port reset: credits and training state clear; the replay buffer is kept, to be sent again after retraining, and so
are the flits received. -/
def resetPort (s : State) (p : Nat) : State :=
  modWport s p fun x =>
    startPort s p
      { x with nbr := 0, nbrPort := 0, gotTrain := false, gotAck := false, credits := 0, txSeq := 0, rxSeq := 0, rxAny := false,
               resend := x.replay.map (·.2) ++ x.resend, replay := [],
               failed := if x.st = .up then some x.nbr else x.failed }

def countRetrain (s : State) (p : Nat) : State :=
  let o := Reg.WFT_PSTAT + 4 * p
  s.setFld o 31 24 (min 255 (s.fld o 31 24 + 1))

/-- This instance's port map. -/
def ownMap (s : State) : List (Option (BitVec 7)) :=
  (List.range 4).map fun p => if portUp s p then some (wport s p).nbr else none

/-- A port map as a HELLO and a JOIN carry it (R283). -/
def mapWord (m : List (Option (BitVec 7))) : Nat :=
  ((List.range 4).map fun k => match m.getD k none with
    | some n => (n.toNat + 128) * 2 ^ (8 * k)
    | none => 0).sum

def ownHello (s : State) : Hello := { tag := s.wft.tag, ports := ownMap s }
def helloPay (s : State) : BitVec 160 :=
  BitVec.ofNat 160 (s.wft.tag.toNat + s.wft.gen.toNat * 2 ^ 32 + mapWord (ownMap s) * 2 ^ 64)

/-- HELLO on every up port, flooded; the own entry of the table follows the port map (R290 P2). -/
def sendHellos (s : State) : State :=
  let s := modWft s fun w => { w with itab := Tbl.put w.itab s.instId.toNat (ownHello s) }
  (upPorts s).foldl (fun s p => sendPort s p 0x02 0 true (helloPay s)) s

/-- A port takes the port reset: counted, and while the flood runs the change of the port map goes out (R290 P2). -/
def portReset (s : State) (p : Nat) : State :=
  let up := portUp s p
  let s := countRetrain (resetPort s p) p
  if up && s.wft.disc then wftPump (sendHellos s) else s

/-- A port fails with a flag of R287; where no flit is concerned, the log's fields of a flit hold 0. -/
def portFail (s : State) (p flag : Nat) (ty src dst : Nat := 0) : State :=
  portReset (wftErr s flag ty src dst p 0) p

/-! ### Rows of the ports -/

/-- WFT_PHY_UP: the port trains once it is enabled (R288). -/
def execWftPhyUp (p : BitVec 2) (s : State) : Out :=
  .next (let p := p.toNat
    if s.par.weftPorts ≤ p then s
    else modWport s p fun x => if x.phy then x else startPort s p { x with phy := true })

/-- WFT_PHY_DOWN: the fall of wft_phy_up_i fails a port, in training too; one that is disabled stays so (R287, R288). -/
def execWftPhyDown (p : BitVec 2) (s : State) : Out :=
  .next (let p := p.toNat
    if s.par.weftPorts ≤ p then s
    else
      let x := wport s p
      let s := setWport s p { x with phy := false }
      if x.phy && decide (x.st ≠ .disabled) then portFail s p 7 else s)

/-- WFT_CREDIT (R285). -/
def execWftCredit (p : BitVec 2) (s : State) : Out :=
  .next (let p := p.toNat
    if s.par.weftPorts ≤ p ∨ wftOn s = false then s
    else wftPump (modWport s p fun x => { x with credits := min 32 (x.credits + 1) }))

/-- The snapshot that gives the TAG has been taken (R288). -/
def tagged (s : State) : Bool := decide (s.stk.snapDue ≠ some .tag) && !(s.stk.snap.req && decide (s.stk.snapUse = .tag))

/-- TRAIN_TIMER (R288). -/
def execTrainTimer (p : BitVec 2) (s : State) : Out :=
  .next (let p := p.toNat
    if wftOn s && tagged s && decide (p < s.par.weftPorts) && decide ((wport s p).st = .training) then
      sendPlain s p 0x01 (BitVec.ofNat 160 (p + s.wft.tag.toNat * 4))
    else s)

/-- IDLE_TIMER (R286). A port in training answers a TRAIN so (log 18); in isolated mode a port sends only TRAIN (R297). -/
def execIdleTimer (p : BitVec 2) (s : State) : Out :=
  .next (let p := p.toNat
    let x := wport s p
    if wftOn s && decide (p < s.par.weftPorts) && decide (s.wft.jst ≠ .isolated) && (x.rxAny || (decide (x.st = .training) && x.gotTrain)) then
      sendPlain s p 0x00 0
    else s)

/-- REPLAY_TIMEOUT (R287). -/
def execReplayTimeout (p : BitVec 2) (s : State) : Out :=
  .next (let p := p.toNat
    if wftOn s && portUp s p && !(wport s p).replay.isEmpty then portFail s p 7 else s)

/-- CHECK_ERROR_FLIT: the flit is discarded and the port fails (R287). -/
def execCheckErrorFlit (p : BitVec 2) (f : Flit) (s : State) : Out :=
  .next (let p := p.toNat
    let x := wport s p
    if wftOn s && decide (p < s.par.weftPorts) && (decide (x.st = .up) || decide (x.st = .training)) && !checkOk f then
      portReset (flitErr s 2 p f) p
    else s)

/-! ### Receiving (R286) -/

/-- Take the ACK: every buffered flit up to that SEQ is free. -/
def takeAck (x : WPort) (f : Flit) : WPort :=
  if flitAckV f && (x.replay.any fun e => decide (e.1 = flitAck f)) then
    { x with replay := (x.replay.dropWhile fun e => decide (e.1 ≠ flitAck f)).tail }
  else x

end Sys2Proof.Machine
end

