-- ==== Sys2Proof/Machine/WeftNet.lean ====
section
/-! DEFINITION. Joining (12 R288 to R304): ports coming up, the flood, routes, maps, the commit, joins, absence; and what
receiving a flit of any type begins with. -/

namespace Sys2Proof.Machine

/-! ### Present and absent instances (R291, R301) -/

/-- The instances with valid route entries. -/
def others (s : State) : List Nat := s.wft.routes.map (·.1)
def isAnchor (s : State) : Bool := decide (s.wft.anchor = some s.instId)
def anchorId (s : State) : BitVec 7 := s.wft.anchor.getD 0

/-- The RAISE of an in-flight entry: EVENT, LINE and W. -/
def iftEvent (e : Ift) : Nat := field e.pay 20 0
def iftLine (e : Ift) : Nat := field e.pay 123 112
def iftW (e : Ift) : Bool := bitAt e.pay 53

/-- An unacknowledged entry for an absent instance: a wired raise becomes unrouted, any other is dropped (R301). -/
def iftAbsent (s : State) (e : Ift) : State :=
  if iftW e then unroute s (iftLine e) (BitVec.ofNat 48 (field e.pay 111 64))
  else wftErr (dropFlit s) 6 0x10 s.instId.toNat e.dst.toNat 0 (iftEvent e)

/-- Raises that wait for an in-flight entry take the free ones. -/
def pumpRwait (s : State) : Nat → State
  | 0 => s
  | n + 1 =>
    match s.wft.rwait with
    | [] => s
    | e :: r => if (iftFree s).isSome then pumpRwait (iftSend (modWft s fun w => { w with rwait := r }) e) n else s

/-- The command that runs on a ring will complete with a status. -/
def runStatus (s : State) (r status : Nat) : State :=
  s.modRing r fun x => { x with run := x.run.map fun u => { u with status := status } }

/-- A request ends with a status other than OK: its command completes with it; a move that has begun its writes goes on to
its end first (R299; 06 R139). -/
def endRemote (s : State) (q : Req) (status : Nat) : State :=
  match q.cont with
  | .moveClaim => completeRun { s with move := none } q.ring status
  | .moveOut =>
    match s.move with
    | some m => endMove s m status
    | none => s
  | .moveRelease => runStatus s q.ring status
  | .movePend => runStatus s q.ring status
  | .moveLast => runStatus s q.ring status
  | .rest => s
  | _ => completeRun s q.ring status

/-- Instance i becomes absent (R299, R301). Its own flits that still wait to leave for i go with their entries. -/
def instanceAbsent (s : State) (i : Nat) : State :=
  let gone := (s.wft.ift.filter fun e => decide (e.2.dst.toNat = i)).map (·.2)
  let wait := s.wft.rwait.filter fun e => decide (e.dst.toNat = i)
  let reqs := (s.wft.cmds.filter fun e => decide (e.2.inst = i)).map (·.2) ++
    (s.wft.reqWait.filter fun o => decide (o.req.inst = i)).map (·.req)
  let s := modWft s fun w =>
    { w with ift := w.ift.filter fun e => decide (e.2.dst.toNat ≠ i),
             rwait := w.rwait.filter fun e => decide (e.dst.toNat ≠ i),
             cmds := w.cmds.filter fun e => decide (e.2.inst ≠ i),
             reqWait := w.reqWait.filter fun o => decide (o.req.inst ≠ i),
             outq := w.outq.filter fun f => !(f.port.isNone && decide (f.src = s.instId) && decide (f.dst.toNat = i)),
             owed := w.owed.filter fun o => decide (o.inst ≠ i) }
  -- holder records that name it are released
  let s := { s with win := s.win.map fun l =>
    if l.2.holder.any fun g => decide (g.toNat / 128 = i) then (l.1, { l.2 with holder := none }) else l }
  let s := (wait.filterMap (·.wid)).foldl freeSlow s
  let s := (gone ++ wait).foldl iftAbsent s
  let s := (s.wft.redirs.filter fun k => decide (k.inst = i)).foldl redirEnd s
  reqs.foldl (fun s q => endRemote s q stAbsent) s

/-- Instances become absent; the raises and requests that waited take what has become free. -/
def instancesAbsent (s : State) (l : List Nat) : State := pumpReq (pumpRwait (l.foldl instanceAbsent s) 512) 256

/-! ### Isolated mode (R297) -/

/-- A duplicate ID is found: nothing that the links still held goes out, and no count that a COMMIT brought is loaded. -/
def isolate (s : State) (p : Nat) (f : Flit) : State :=
  let s := flitErr s 1 p f
  let out := others s
  let s := (portList s).foldl (fun s p => modWport (resetPort s p) p fun x => { x with rxq := [], resend := [] }) s
  let s := modStk s fun k => { k with commitIn := none }
  let s := modWft s fun w =>
    { w with jst := .isolated, routes := [], itab := [], disc := false, anchor := some s.instId, genIn := none,
             compute := false, tmapWait := [], members := [], joinAt := none, outq := [] }
  instancesAbsent s out

/-! ### The flood (R290 P2) -/

/-- The port map of a HELLO or JOIN. -/
def mapOf (w : Nat) : List (Option (BitVec 7)) :=
  (List.range 4).map fun k =>
    if w >>> (8 * k + 7) % 2 = 1 then some (BitVec.ofNat 7 (w >>> (8 * k))) else none
/-- Phase P2 begins, or begins again (R302): what a computation or a distribution of routes had still to do is over. -/
def startFlood (s : State) : State :=
  sendHellos (modWft s fun w => { w with disc := true, itab := [], compute := false, tmapWait := [], genIn := none })

/-- The own port map has changed: while the flood runs a new HELLO goes out; a joined instance tells the Anchor (log 18). -/
def mapChanged (s : State) : State :=
  if s.wft.disc then sendHellos s
  else if s.wft.jst = .joined then
    if isAnchor s then
      modWft s fun w => { w with itab := Tbl.put w.itab s.instId.toNat (ownHello s), compute := true }
    else sendFlit s 0x02 (anchorId s) (helloPay s)
  else s

/-- A port is up (R288): it sends its buffered flits again, and joining goes on. -/
def portIsUp (s : State) (p : Nat) : State :=
  let s := modWport s p fun x => { x with st := .up, failed := none }
  match s.wft.jst with
  | .training => startFlood (modWft s fun w => { w with jst := .discovery })
  | .discovery => mapChanged s
  | .joined => mapChanged (sendPort s p 0x02 (wport s p).nbr false (helloPay s))
  | _ => s

/-- A TRAIN has come and the far end has answered one of ours. -/
def tryUp (s : State) (p : Nat) : State :=
  let x := wport s p
  if x.st = .training ∧ x.gotTrain ∧ x.gotAck ∧ s.wft.jst ≠ .isolated then portIsUp s p else s

/-! ### Routes (R293) -/

/-- The links of instance i by port, as the instance table has them from both ends. -/
def nbrs (t : Tbl Hello) (i : Nat) : List (Nat × Nat) :=
  match Tbl.find t i with
  | none => []
  | some h => (List.range 4).filterMap fun k => (h.ports.getD k none).bind fun n =>
      if (Tbl.find t n.toNat).any fun g => g.ports.any fun x => x.any fun y => decide (y.toNat = i) then some (k, n.toNat)
      else none

/-- Instances within n hops of d, each with its distance. -/
def distTo (t : Tbl Hello) (d : Nat) : Nat → Tbl Nat
  | 0 => [(d, 0)]
  | n + 1 =>
    let r := distTo t d n
    r ++ ((t.map (·.1)).filter fun i => (Tbl.find r i).isNone &&
      ((nbrs t i).any fun e => Tbl.find r e.2 = some n)).map fun i => (i, n + 1)

/-- First port and hops from i to d: the fewest hops, then the lowest port. -/
def routeTo (t : Tbl Hello) (i d : Nat) : Option Route :=
  let r := distTo t d 12
  (Tbl.find r i).bind fun n =>
    ((nbrs t i).find? fun e => Tbl.find r e.2 = some (n - 1)).map fun e =>
      { port := BitVec.ofNat 2 e.1, hops := BitVec.ofNat 4 n }

/-- The instances that the Anchor reaches at any distance. -/
def reached (t : Tbl Hello) (a : Nat) : List Nat := (distTo t a 128).map (·.1)

/-- Instances within 12 hops of every instance reached (R293). -/
def routedSet (t : Tbl Hello) (a : Nat) : List Nat :=
  let r := reached t a
  r.filter fun i => r.all fun d => (Tbl.find (distTo t d 12) i).isSome

/-- PARENT of i: its first port on the route to the Anchor; CHILD: the ports that lead to instances whose PARENT leads
here. -/
def parentOf (t : Tbl Hello) (a i : Nat) : Nat := if i = a then 0 else ((routeTo t i a).map (·.port.toNat)).getD 0
def childOf (t : Tbl Hello) (a i : Nat) : BitVec 4 :=
  let kids := (routedSet t a).filter fun y =>
    decide (y ≠ a) && ((nbrs t y).any fun e => decide (e.1 = parentOf t a y) && decide (e.2 = i))
  kids.foldl (fun c y => match (nbrs t i).find? fun e => decide (e.2 = y) with
    | some e => c ||| BitVec.ofNat 4 (2 ^ e.1)
    | none => c) 0

def routesOf (t : Tbl Hello) (a i : Nat) : Tbl Route :=
  ((routedSet t a).filter (· ≠ i)).filterMap fun d => (routeTo t i d).map fun r => (d, r)

def routeByte (r : Option Route) : Nat :=
  match r with
  | some r => r.port.toNat + r.hops.toNat * 4 + 64
  | none => 0

/-- Payload of ROUTE flit g for instance i, the Anchor being a (R283). -/
def routePay (t : Tbl Hello) (gen : Byte) (a i g : Nat) : BitVec 160 :=
  let rs := routesOf t a i
  let ents := ((List.range 16).map fun k => routeByte (Tbl.find rs (16 * g + k)) * 2 ^ (8 * k)).sum
  BitVec.ofNat 160 (gen.toNat + g * 2 ^ 8 + (childOf t a i).toNat * 2 ^ 11 + parentOf t a i * 2 ^ 15 +
    (if i = a then 2 ^ 17 else 0) + ents * 2 ^ 32)

/-- The 8 ROUTE flits of instance i (R290 P4). -/
def sendRoutes (s : State) (t : Tbl Hello) (gen : Byte) (i : Nat) : State :=
  (List.range 8).foldl (fun s g => sendFlit s 0x03 (BitVec.ofNat 7 i) (routePay t gen s.instId.toNat i g)) s

/-! ### A new GEN (R295, R300, R298) -/

/-- The target on another instance that a line's state goes to, with the event's ID there: its holder, the target told
last, or the one that its route names. -/
def levelDest (s : State) (n : Nat) : Option (BitVec 14 × EventId) :=
  let l := s.line n
  match l.holder <|> l.told.map (·.1) with
  | some g => some (g, l.xid)
  | none =>
    let w := s.rd (winOff n Reg.WIN_ROUTE)
    if field w 15 14 = 0 then some (BitVec.ofNat 14 (field w 13 0), winXid s n) else none

/-- The present state of every enabled remote level line goes again, with LSEQ as it stands (R298). -/
def resendLevels (s : State) : State :=
  (List.range s.par.wired).foldl (fun s n =>
    match levelDest s n with
    | some (g, x) =>
      if winEn s n && winLevel s n && !isLocal s g && routable s g x then levelOut s n g x (winLine s n) s.count else s
    | none => s) s

/-- Every RAISE not acknowledged goes again (R300); that of a level line behind its LEVEL, as at first (log 83). -/
def resendRaises (s : State) : State :=
  s.wft.ift.foldl (fun s e =>
    let n := iftLine e.2
    let g : BitVec 14 := BitVec.ofNat 14 (e.2.dst.toNat * 128 + field e.2.pay 27 21)
    let s := if iftW e.2 && winLevel s n && winLine s n then
        levelOut s n g (BitVec.ofNat 21 (iftEvent e.2)) true (BitVec.ofNat 48 (field e.2.pay 111 64)) else s
    sendFlit s 0x10 e.2.dst e.2.pay) s

/-- Adopt a GEN in one step. -/
def adoptGen (s : State) (gen : Byte) (routes : Tbl Route) (parent : BitVec 2) (child : BitVec 4) : State :=
  let gone := (others s).filter fun i => (Tbl.find routes i).isNone
  let s := modWft s fun w => { w with gen := gen, routes := routes, parent := parent, child := child, genIn := none,
                                      members := w.members.filter fun i => (Tbl.find routes i).isSome }
  let s := instancesAbsent s gone
  if s.wft.jst = .joined then retryAll (resendLevels (resendRaises s)) else s

/-- This instance's TMAP (R283). -/
def tmapPay (m : TMap) : BitVec 160 := BitVec.ofNat 160 (m.targets + m.attBits * 2 ^ 8 + m.xltEn.toNat * 2 ^ 13)
def ownTmap (s : State) : TMap := { targets := s.par.targets, attBits := attBits s, xltEn := xltEn s }

/-- Strokes of 10 µs at the nominal stroke, rounded up (R290 P6). -/
def joinStrokes (s : State) : Nat := (10 * fClk s + s.stk.len - 1) / s.stk.len

def commitPay (s : State) : BitVec 160 :=
  BitVec.ofNat 160 (s.count.toNat + s.wft.gen.toNat * 2 ^ 48 + (s.count + BitVec.ofNat 48 (joinStrokes s)).toNat * 2 ^ 64 +
    s.fld Reg.WFT_CTRL 7 4 * 2 ^ 112)

/-- A tree flit from the Anchor: on its CHILD ports, with SRC naming `src`. -/
def sendTree (s : State) (ty : Byte) (src : BitVec 7) (pay : BitVec 160) : State :=
  ((portList s).filter fun p => bitAt s.wft.child p).foldl (fun s p =>
    queueFlit s { ty := ty, dst := 0, pay := pay, src := src, bc := true, hops := 1, port := some p }) s

/-- Phases P5 and P6, once every TMAP has reached the Anchor: the maps go to every instance, and COMMIT to those that have
not had one (R290, R303). -/
def finishMaps (s : State) : State :=
  let s := (s.wft.tmaps.filter fun e => (Tbl.find s.wft.routes e.1).isSome).foldl
    (fun s e => sendTree s 0x04 (BitVec.ofNat 7 e.1) (tmapPay e.2)) s
  let s := sendTree s 0x04 s.instId (tmapPay (ownTmap s))
  let new := (others s).filter fun i => !s.wft.members.contains i
  let s :=
    if s.wft.jst = .joined then new.foldl (fun s i => sendFlit s 0x05 (BitVec.ofNat 7 i) (commitPay s)) s
    else
      let s := sendTree s 0x05 s.instId (commitPay s)
      (modWft s fun w => { w with joinAt := some (s.count + BitVec.ofNat 48 (joinStrokes s)) }).setFld
        Reg.STK_ALIGN 3 0 (s.fld Reg.WFT_CTRL 7 4)
  modWft s fun w => { w with members := w.routes.map (·.1) }

/-- ROUTES_COMPUTED (R290 P3, P4, R293): a new GEN, 1 after 255 (DESIGN CHOICE, log 105), goes to every instance, the nearer ones
first, and is adopted here. -/
def routesComputed (s : State) : State :=
  if !isAnchor s || !s.wft.compute then s
  else
    let a := s.instId.toNat
    let t := s.wft.itab
    let gen : Byte := if s.wft.gen = 0xFF then 1 else s.wft.gen + 1
    let s := modWft s fun w => { w with compute := false }
    let s := if (routedSet t a).length < (reached t a).length then wftErr s 5 0 0 0 0 0 else s
    let s := adoptGen s gen (routesOf t a a) 0 (childOf t a a)
    let order := ((distTo t a 12).map (·.1)).filter fun i => decide (i ≠ a) && (routedSet t a).contains i
    let s := order.foldl (fun s i => sendRoutes s t gen i) s
    let s := modWft s fun w => { w with tmapWait := order }
    if order.isEmpty then finishMaps s else s

/-! ### Which flits wait in the receive buffer (R285, R296, 07 R160) -/

def plainFlit (f : Flit) : Bool := decide (flitType f ≤ 1)

/-- A message event of this instance's space (06 R127, the remote check). -/
def ownMsg (s : State) (ev : EventId) : Bool := msgEvent ev && decide (ev.toNat < 2 ^ attBits s)

def payEvent (f : Flit) : EventId := BitVec.ofNat 21 (field (flitPay f) 20 0)
def payTarget (f : Flit) : Nat := field (flitPay f) 27 21
def cmdEvent (f : Flit) : EventId := BitVec.ofNat 21 (field (flitPay f) 32 12)
def cmdTarget (f : Flit) : Nat := field (flitPay f) 39 33

/-- The flit's operation finds the queue of its target full: a drop, a clear, or a re-prioritise; or it is a raise that
would spill directly while the spill buffer is full, too. -/
def mustWait (s : State) (f : Flit) : Bool :=
  let pay := flitPay f
  if flitBc f || decide (flitDst f ≠ s.instId) then false
  else match flitType f with
  | 0x10 =>
    let t := payTarget f
    decide (t < s.par.targets) && decide (64 ≤ (s.tgt t).opq.length) && spillFull s t && ownMsg s (payEvent f) &&
      (meetsAt s t (mkOp .ins false (payEvent f) (attrOf 0) 0) 0).isNone
  | 0x11 => decide (payTarget f < s.par.targets) && !bitAt pay 28 && ownMsg s (payEvent f) && opqFull s (payTarget f)
  | 0x20 =>
    if field pay 3 0 = 2 then decide (cmdTarget f < s.par.targets) && opqFull s (cmdTarget f)
    else if field pay 3 0 = 3 then
      let d := attDest (s.load64 (attAddr s (cmdEvent f)))
      bitAt pay (64 + 12) && ownMsg s (cmdEvent f) && isLocal s (d.truncate 14) && opqFull s (d.toNat % 128)
    else false
  | _ => false

/-- A flit stays in the receive buffer: its operation waits, or one that came before it does. -/
def staysBack (s : State) (p : Nat) (f : Flit) : Bool :=
  !plainFlit f && (!(wport s p).rxq.isEmpty || mustWait s f)

/-- It keeps its credit there. -/
def keepBack (s : State) (p : Nat) (f : Flit) (m : CmdMem) : State :=
  modWport s p fun x => { x with rxq := x.rxq ++ [{ flit := f, mem := m }], rxCred := x.rxCred - 1 }

/-! ### Receiving (R286) -/

/-- Types whose arrival is activity (17 R403). -/
def activeType (ty : Nat) : Bool :=
  ty = 0x10 || ty = 0x11 || ty = 0x12 || ty = 0x13 || ty = 0x20 || ty = 0x21 || ty = 0x07

/-- Any flit but IDLE and ALIGN wakes the block from DOZE (17 R402). -/
def flitWake (s : State) (ty : Nat) : State :=
  let s := if ty = 0x00 ∨ ty = 0x06 then s else wake s 5 0
  if activeType ty then activity s else s

/-- A flit arrives with its CHECK good: ACK is taken; a sequenced one is accepted when its SEQ is the next expected. The
answer says whether the flit is accepted. At a port in training, a sequenced flit counts as the far end's acknowledgement of a
TRAIN, as IDLE does (DEDUCED, log 18). -/
def linkAccept (s : State) (p : Nat) (f : Flit) : State × Bool :=
  let s := modWport s p fun x => takeAck x f
  let plain := flitType f = 0x00 ∨ flitType f = 0x01
  let s := if plain then s else tryUp (modWport s p fun x => { x with gotAck := true }) p
  let x := wport s p
  if plain then (s.cnt64 Reg.WFT_RX_CNT, true)
  else if x.st = .up ∧ flitSeq f = x.rxSeq then
    ((setWport s p { x with rxSeq := x.rxSeq + 1, rxAny := true }).cnt64 Reg.WFT_RX_CNT, true)
  else (s, false)

/-- An undefined or malformed flit (R284). -/
def unknownFlit (s : State) (p : Nat) (f : Flit) : State := flitErr (dropFlit s) 0 p f

/-- What every received flit goes through; `act` is the meaning of a well-formed flit accepted here. A flit with a wrong
CHECK fails the port. -/
def recvFlit (s : State) (p : Nat) (f : Flit) (act : State → State) : State :=
  let x := wport s p
  if !wftOn s || decide (s.par.weftPorts ≤ p) || !(decide (x.st = .up) || decide (x.st = .training)) then s
  else if !checkOk f then portReset (flitErr s 2 p f) p
  else if !plainFlit f && decide (x.rxCred = 0) then portReset (flitErr s 3 p f) p
  else
    let a := linkAccept s p f
    if !a.2 then a.1
    else
      let s := flitWake a.1 (flitType f)
      wftPump (pollAll (if malformed f then unknownFlit s p f else act s))

/-- Pass a flit on towards its DST: by route, one hop more (R294). -/
def forward (s : State) (f : Flit) (port : Option Nat) : State :=
  queueFlit s { ty := BitVec.ofNat 8 (flitType f), dst := flitDst f, pay := flitPay f, src := flitSrc f, bc := flitBc f,
                hops := flitHops f + 1, port := port }

/-- Pass a tree flit to the CHILD ports. -/
def treeDown (s : State) (f : Flit) : State :=
  ((portList s).filter fun p => bitAt s.wft.child p).foldl (fun s p => forward s f (some p)) s

/-- The link on port k of instance i is gone, as far as this instance's table goes. -/
def dropLink (s : State) (i k : Nat) : State :=
  match Tbl.find s.wft.itab i with
  | none => s
  | some h => modWft s fun w => { w with itab := Tbl.put w.itab i { h with ports := h.ports.set k none } }

/-- Send a report of a lost link on its way to the Anchor: by route, or, where the port of the route is not up, by this
instance's table. Without a way the Anchor is absent, and the flood begins again (R300, R302; log 88). -/
def report (s : State) (src : BitVec 7) (pay : BitVec 160) (hops : BitVec 4) (arrived : Option Nat) : State :=
  let a := (anchorId s).toNat
  let out := fun (q : Option Nat) => queueFlit s { ty := 0x08, dst := anchorId s, pay := pay, src := src, bc := false,
                                                   hops := hops, port := q }
  let byTable :=
    if 12 ≤ hops.toNat then startFlood s
    else match routeTo s.wft.itab s.instId.toNat a with
    | some r => out (some r.port.toNat)
    | none =>
      if (Tbl.find s.wft.itab a).isSome then startFlood s
      else match (upPorts s).find? fun q => decide (some q ≠ arrived) with
      | some q => out (some q)
      | none => startFlood s
  match Tbl.find s.wft.routes a with
  | some r => if portUp s r.port.toNat && decide (some r.port.toNat ≠ arrived) then out none else byTable
  | none => byTable

/-- A flit for another instance goes on by route (R294); a report to the Anchor leaves what it says in the tables on its
way. -/
def passOn (s : State) (p : Nat) (f : Flit) : State :=
  if flitType f = 0x08 ∧ bitAt (flitPay f) 9 = false ∧ flitDst f = anchorId s ∧ s.wft.jst = .joined ∧ s.wft.disc = false then
    report (dropLink s (flitSrc f).toNat (field (flitPay f) 1 0)) (flitSrc f) (flitPay f) (flitHops f + 1) (some p)
  else forward s f none

/-- A flit leaves the receive buffer: `act` gets the arriving port and the flit when it is for this instance. -/
def takeFlit (act : State → Nat → Flit → State) (s : State) (p : Nat) (f : Flit) : State :=
  if flitBc f || plainFlit f || decide (flitDst f = s.instId) then act s p f else passOn s p f

/-- A row for flits of type ty; `m` is how the flit's host-memory accesses end. -/
def flitRow (ty : Nat) (act : State → Nat → Flit → State) (p : BitVec 2) (f : Flit) (s : State) (m : CmdMem := .good) : Out :=
  .next (if flitType f ≠ ty then s else
    recvFlit s p.toNat f fun s =>
      if staysBack s p.toNat f then keepBack s p.toNat f m else s.ran (takeFlit act s p.toNat f))

/-! ### IDLE, TRAIN (R286, R288, R289) -/

def idleFlit (s : State) (p : Nat) (_ : Flit) : State := tryUp (modWport s p fun x => { x with gotAck := true }) p
def execIdle (p : BitVec 2) (f : Flit) (s : State) : Out := flitRow 0x00 idleFlit p f s

def trainFlit (s : State) (p : Nat) (f : Flit) : State :=
  if flitSrc f = s.instId then
    if BitVec.ofNat 32 (field (flitPay f) 33 2) = s.wft.tag then
      let s := flitErr s 4 p f
      resetPort (modWport s p fun x => { x with loop := true, st := .disabled }) p
    else isolate s p f
  else
    let s := modWport s p fun x =>
      { x with gotTrain := true, nbr := flitSrc f, nbrPort := BitVec.ofNat 2 (field (flitPay f) 1 0) }
    if s.wft.jst = .isolated then s else tryUp (sendPlain s p 0x00 0) p
def execTrain (p : BitVec 2) (f : Flit) (s : State) : Out := flitRow 0x01 trainFlit p f s

/-- UNKNOWN_FLIT (R284). -/
def execUnknownFlit (p : BitVec 2) (f : Flit) (s : State) : Out :=
  .next (if malformed f then recvFlit s p.toNat f fun s => s else s)

/-! ### HELLO, JOIN (R290, R297, R303) -/

/-- A newcomer of that ID has been refused (R297): the LINKDN goes on to it, by which it finds that its ID is a duplicate, and
the port towards it fails (log 58). -/
def refusedOn (s : State) (q id : Nat) (src dst : BitVec 7) : State :=
  let s := wftPump (sendPort s q 0x08 (wport s q).nbr false (BitVec.ofNat 160 ((wport s q).nbrPort.toNat + id * 4)))
  portFail s q 7 8 src.toNat dst.toNat

/-- The Anchor refuses a newcomer: LINKDN to its neighbour, which may be the Anchor itself. -/
def refuse (s : State) (p : Nat) (nbr : BitVec 7) (id : Nat) (port : BitVec 2) : State :=
  if nbr = s.instId then refusedOn s p id s.instId s.instId
  else sendFlit s 0x08 nbr (BitVec.ofNat 160 (port.toNat + id * 4))

/-- The Anchor takes a newcomer, or refuses a duplicate: LINKDN to the newcomer's neighbour, and the present instance is
told by the JOIN itself, which names its ID with another TAG (R297). A JOIN with the TAG of the instance that the table holds
is that instance's own, told by another neighbour (log 18). An instance whose absence the Anchor knows, but has not yet
distributed, is absent first (R304). -/
def anchorJoin (s : State) (p : Nat) (f : Flit) (nbr : BitVec 7) (id : Nat) (port : BitVec 2) (h : Hello) : State :=
  let lost := (Tbl.find s.wft.routes id).isSome && !(reached s.wft.itab s.instId.toNat).contains id
  let s := if lost then routesComputed s else s
  if id = s.instId.toNat then
    isolate (wftPump (refuse s p nbr id port)) p f
  else if (Tbl.find s.wft.routes id).isSome && !((Tbl.find s.wft.itab id).any fun g => decide (g.tag = h.tag)) then
    let s := refuse s p nbr id port
    let s := sendFlit s 0x07 (BitVec.ofNat 7 id) (BitVec.ofNat 160 (h.tag.toNat + id * 2 ^ 32 + mapWord h.ports * 2 ^ 64))
    modWft s fun w => { w with itab := Tbl.del w.itab id, compute := true }
  else modWft s fun w => { w with itab := Tbl.put w.itab id h, compute := true }

/-- JOIN to the Anchor on behalf of a neighbour (R303). -/
def joinFor (s : State) (id : Nat) (port : BitVec 2) (h : Hello) : State :=
  sendFlit s 0x07 (anchorId s) (BitVec.ofNat 160 (h.tag.toNat + id * 2 ^ 32 + port.toNat * 2 ^ 39 + mapWord h.ports * 2 ^ 64))

/-- HELLO. To a joined instance a HELLO with GEN 0 names a newcomer, whether it was late or leaves a warm reset (R303), and one
that is not flooded and comes from outside the system a member of another system that a link has joined (R302). -/
def helloFlit (s : State) (p : Nat) (f : Flit) : State :=
  let src := flitSrc f
  let id := src.toNat
  let gen := field (flitPay f) 39 32
  let h : Hello := { tag := BitVec.ofNat 32 (field (flitPay f) 31 0), ports := mapOf (field (flitPay f) 95 64) }
  let flood := fun (s : State) =>
    if flitBc f then ((upPorts s).filter (· ≠ p)).foldl (fun s q => forward s f (some q)) s else s
  let new := decide (Tbl.find s.wft.itab id ≠ some h)
  let learn := fun (s : State) => if new then flood (modWft s fun w => { w with itab := Tbl.put w.itab id h }) else s
  -- its HELLO is not flooded
  let outsider := fun (s : State) =>
    if isAnchor s then anchorJoin s p f s.instId id (wport s p).nbrPort h else joinFor s id (wport s p).nbrPort h
  if src = s.instId then
    if h = ownHello s then s else isolate s p f
  else match s.wft.jst with
  | .isolated => s
  | .standalone => s
  | .joined =>
    if s.wft.disc then learn s
    else if gen = 0 then outsider s
    else if (Tbl.find s.wft.routes id).isSome then
      if flitBc f then learn (startFlood s)
      else if isAnchor s then modWft s fun w => { w with itab := Tbl.put w.itab id h, compute := true }
      else s
    else if flitBc f then s
    else outsider s
  | _ =>
    -- a HELLO with a GEN comes from a joined neighbour: this instance joins (R303)
    if gen ≠ 0 ∧ flitBc f = false then modWft s fun w => { w with jst := .joining, disc := false }
    -- a newcomer that comes while this instance joins is told to the Anchor once it has joined
    else if s.wft.jst = .joining then
      if gen = 0 ∧ flitBc f then modWft s fun w => { w with itab := Tbl.put w.itab id h } else s
    else learn s
def execHello (p : BitVec 2) (f : Flit) (s : State) : Out := flitRow 0x02 helloFlit p f s

def joinFlit (s : State) (p : Nat) (f : Flit) : State :=
  let id := field (flitPay f) 38 32
  let h : Hello := { tag := BitVec.ofNat 32 (field (flitPay f) 31 0), ports := mapOf (field (flitPay f) 95 64) }
  if id = s.instId.toNat ∧ !isAnchor s then
    if h = ownHello s then s else isolate s p f
  else if isAnchor s && decide (s.wft.jst = .joined) then
    anchorJoin s p f (flitSrc f) id (BitVec.ofNat 2 (field (flitPay f) 40 39)) h
  else s
def execJoin (p : BitVec 2) (f : Flit) (s : State) : Out := flitRow 0x07 joinFlit p f s

/-- P2 closes here: the lowest ID is the Anchor; an Anchor that is gone is ANCHOR_LOST (R290, R302). The members of a
joined system have had their COMMIT. -/
def floodSettled (s : State) : State :=
  let a := ((s.wft.itab.map (·.1)).min?).getD s.instId.toNat
  let joined := decide (s.wft.jst = .joined)
  let lost := joined && s.wft.anchor.any fun o => (Tbl.find s.wft.itab o.toNat).isNone
  let s := if lost then wftErr s 8 0 0 0 0 0 else s
  modWft s fun w => { w with disc := false, anchor := some (BitVec.ofNat 7 a), compute := decide (a = s.instId.toNat),
                             members := if joined then others s else w.members }

def execFloodSettled (s : State) : Out := .next (if wftOn s && s.wft.disc then floodSettled s else s)

def execRoutesComputed (s : State) : Out := .next (if wftOn s then wftPump (routesComputed s) else s)

/-- A joined instance takes the routes of another system's Anchor, which has the lower ID (R302): until it has joined there,
every other instance is absent to it (R292). -/
def leaveSystem (s : State) : State :=
  let s := instancesAbsent s (others s)
  modWft s fun w => { w with jst := .joining, compute := false, tmapWait := [], members := [], routes := [] }

/-- Routes of this instance come from the Anchor, from any Anchor while it joins, and from one with a lower ID (R302). -/
def routeFrom (s : State) (src : BitVec 7) : Bool :=
  decide (s.wft.jst ≠ .isolated) && decide (s.wft.jst ≠ .standalone) &&
  match s.wft.anchor with
  | some a => decide (src = a) || decide (s.wft.jst = .joining) || decide (src < a)
  | none => true

/-- ROUTE: with all 8 flits of a GEN it is adopted, and the TMAP goes to the Anchor (R290 P4, R295). Routes that come while
the flood runs here show that it has settled. -/
def routeFlit (s : State) (_ : Nat) (f : Flit) : State :=
  let pay := flitPay f
  let gen : Byte := BitVec.ofNat 8 (field pay 7 0)
  let src := flitSrc f
  let s := if s.wft.disc && (Tbl.find s.wft.itab src.toNat).isSome then floodSettled s else s
  let same := decide (s.wft.anchor = some src)
  if routeFrom s src = false ∨ (gen = s.wft.gen ∧ same = true) then s
  else
    let fresh : GenIn := { gen := gen, src := src, groups := [], parent := BitVec.ofNat 2 (field pay 16 15),
                           child := BitVec.ofNat 4 (field pay 14 11) }
    let g := match s.wft.genIn with
      | some g => if g.gen = gen ∧ g.src = src then g else fresh
      | none => fresh
    let g := { g with groups := Tbl.put g.groups (field pay 10 8) (BitVec.ofNat 128 (field pay 159 32)) }
    if g.groups.length < 8 then modWft s fun w => { w with genIn := some g }
    else
      let rs : Tbl Route := (List.range 128).filterMap fun i =>
        let b := (Tbl.get 0 g.groups (i / 16)).toNat >>> (8 * (i % 16))
        if b >>> 6 % 2 = 1 then some (i, { port := BitVec.ofNat 2 b, hops := BitVec.ofNat 4 (b >>> 2) }) else none
      let s := if same || decide (s.wft.jst ≠ .joined) then s else leaveSystem s
      let s := adoptGen (modWft s fun w => { w with anchor := some src }) gen rs g.parent g.child
      sendFlit s 0x04 src (tmapPay (ownTmap s))
def execRoute (p : BitVec 2) (f : Flit) (s : State) : Out := flitRow 0x03 routeFlit p f s

/-- TMAP (R290 P4, P5). -/
def tmapFlit (s : State) (_ : Nat) (f : Flit) : State :=
  let pay := flitPay f
  let id := (flitSrc f).toNat
  let m : TMap := { targets := field pay 7 0, attBits := field pay 12 8, xltEn := bitAt pay 13 }
  let s := if flitBc f then treeDown s f else s
  if flitSrc f = s.instId then s
  else
    let s := modWft s fun w => { w with tmaps := Tbl.put w.tmaps id m }
    if isAnchor s && s.wft.tmapWait.contains id then
      let s := modWft s fun w => { w with tmapWait := w.tmapWait.filter (· ≠ id) }
      if s.wft.tmapWait.isEmpty then finishMaps s else s
    else s
def execTmap (p : BitVec 2) (f : Flit) (s : State) : Out := flitRow 0x04 tmapFlit p f s

/-- COMMIT (R291): the count is loaded at order 8 of the next boundary; an instance that rejoins after DEEP keeps its own
(R305). -/
def commitFlit (s : State) (_ : Nat) (f : Flit) : State :=
  let pay := flitPay f
  let s := if flitBc f then treeDown s f else s
  if s.wft.jst = .discovery ∨ s.wft.jst = .joining then
    let s := if s.wft.keepCount then s
      else modStk s fun k => { k with commitIn := some (BitVec.ofNat 48 (field pay 47 0), (flitHops f).toNat) }
    let s := s.setFld Reg.STK_ALIGN 3 0 (field pay 115 112)
    modWft s fun w => { w with joinAt := some (BitVec.ofNat 48 (field pay 111 64)), jst := .joining }
  else s
def execCommit (p : BitVec 2) (f : Flit) (s : State) : Out := flitRow 0x05 commitFlit p f s

/-- A neighbour that has no route here is outside the system: one that trained early, or that another system still holds. It
is told of this one, and the Anchor of it, as far as the instance table knows it (R302, R303). -/
def callOutsiders (s : State) : State :=
  let out := fun (s : State) (p : Nat) => (Tbl.find s.wft.routes (wport s p).nbr.toNat).isNone
  let s := (upPorts s).foldl (fun s p =>
    if out s p then
      let n := (wport s p).nbr
      let s := sendPort s p 0x02 n false (helloPay s)
      match Tbl.find s.wft.itab n.toNat with
      | some h => if isAnchor s then s else joinFor s n.toNat (wport s p).nbrPort h
      | none => s
    else s) s
  if isAnchor s && ((reached s.wft.itab s.instId.toNat).any fun i => decide (i ≠ s.instId.toNat) && (Tbl.find s.wft.routes i).isNone) then
    modWft s fun w => { w with compute := true }
  else s

/-- A link that came up while this instance joined is in no HELLO of its own: the Anchor is told of it now (R303, log 18). -/
def tellMap (s : State) : State :=
  if (Tbl.find s.wft.itab s.instId.toNat).any fun h => decide (h.ports ≠ ownMap s) then mapChanged s else s

/-- JOIN_AT_REACHED: STK_COUNT has reached JOIN_AT (R291); `us` is the measured time of WFT_DISC_TIME (R307). -/
def execJoinAtReached (us : BitVec 16) (s : State) : Out :=
  .next (match s.wft.joinAt with
    | none => s
    | some n =>
      if !wftOn s || s.stk.commitIn.isSome || decide ((s.count - n).toInt < 0) then s
      else
        let s := modWft s fun w => { w with jst := .joined, joinAt := none, keepCount := false }
        wftPump (callOutsiders (tellMap (retryAll (s.wr Reg.WFT_DISC_TIME (us.zeroExtend 32))))))

/-- ALIGN_STROKE: at an alignment stroke the Anchor sends its count (08 R193). -/
def execAlignStroke (s : State) : Out :=
  .next (if s.stk.alignDue && wftOn s then
    let s := modStk s fun k => { k with alignDue := false }
    wftPump (sendTree s 0x06 s.instId (BitVec.ofNat 160 s.count.toNat))
  else s)

/-- ALIGN: used at order 8 of the next boundary (08 R193). -/
def alignFlit (s : State) (_ : Nat) (f : Flit) : State :=
  let s := if flitBc f then treeDown s f else s
  if s.wft.jst = .joined ∧ !isAnchor s then
    modStk s fun k => { k with alignIn := some (BitVec.ofNat 48 (field (flitPay f) 47 0), (flitHops f).toNat) }
  else s
def execAlign (p : BitVec 2) (f : Flit) (s : State) : Out := flitRow 0x06 alignFlit p f s

/-! ### Failure and absence (R300, R302, R304) -/

/-- The Anchor learns that a link of instance i is down. -/
def linkLost (s : State) (i k : Nat) : State := modWft (dropLink s i k) fun w => { w with compute := true }

/-- The loss of the link on port p, whose neighbour was n, is reported (R300): while the flood runs the port map has told it. -/
def reportLoss (s : State) (p : Nat) (n : BitVec 7) : State :=
  let s := modWport s p fun x => { x with failed := none }
  -- nothing further is sent on it
  let s := modWft s fun w => { w with outq := w.outq.filter fun f => decide (f.port ≠ some p) }
  if s.wft.disc || decide (s.wft.jst ≠ .joined) then s
  else if isAnchor s then linkLost s s.instId.toNat p
  else
    let s := modWft s fun w => { w with itab := Tbl.put w.itab s.instId.toNat (ownHello s) }
    report s s.instId (BitVec.ofNat 160 (p + n.toNat * 4)) 1 none

/-- LINKDN: from a neighbour that resets or refuses, the port fails; an instance that has not joined finds by a refusal of its
own ID that the ID is a duplicate (R297, log 58); at the Anchor it leads to new routes (R287, R300). A
neighbour's warm reset is its absence at once (R304). -/
def linkdnFlit (s : State) (p : Nat) (f : Flit) : State :=
  let pay := flitPay f
  let fail := fun (q : Nat) => portFail s q 7 8 (flitSrc f).toNat (flitDst f).toNat
  if bitAt pay 9 then
    let n := (wport s p).nbr
    reportLoss (fail p) p n
  else if decide (s.wft.jst = .discovery ∨ s.wft.jst = .joining) && decide (field pay 8 2 = s.instId.toNat) then isolate s p f
  else if isAnchor s then linkLost s (flitSrc f).toNat (field pay 1 0)
  else
    -- the Anchor refuses the newcomer of the named ID: the port towards it fails
    match (upPorts s).find? fun q => decide ((wport s q).nbr.toNat = field pay 8 2) && decide ((wport s q).nbrPort.toNat = field pay 1 0) with
    | some q => refusedOn s q (field pay 8 2) (flitSrc f) (flitDst f)
    | none => if flitSrc f = (wport s p).nbr then fail p else s
def execLinkdn (p : BitVec 2) (f : Flit) (s : State) : Out := flitRow 0x08 linkdnFlit p f s

/-- PORT_DOWN_TIMEOUT: the loss is reported to the Anchor (R300); an Anchor that no link leads to any more is absent, and the
flood begins again (R302). -/
def execPortDownTimeout (p : BitVec 2) (s : State) : Out :=
  .next (let p := p.toNat
    match (wport s p).failed with
    | none => s
    | some n => if !wftOn s || portUp s p then s else wftPump (reportLoss s p n))

/-- Step W1 of a warm reset: LINKDN with the warm-reset bit on every up port, ahead of what waits there (R304). One that finds
no credit goes out in W2. -/
def linksDown (s : State) : State :=
  modWft s fun w => { w with outq := (upPorts s).map (fun p =>
    { ty := 0x08, dst := (wport s p).nbr, pay := BitVec.ofNat 160 (p + s.instId.toNat * 4 + 2 ^ 9), src := s.instId,
      bc := false, hops := 1, port := some p }) ++ w.outq }

/-- WFT_CTRL.REDISC at the Anchor (R307). -/
def rediscover (s : State) : State :=
  if isAnchor s && decide (s.wft.jst = .joined) then wftPump (startFlood s) else s

/-- A change of PEN: a port disabled while up fails; one enabled trains (R288, R307). -/
def penApply (s : State) : State :=
  (portList s).foldl (fun s p =>
    let x := wport s p
    if !pen s p then if x.st = .up then portFail s p 7 else setWport s p { x with st := .disabled }
    else if x.st = .disabled then setWport s p (startPort s p x)
    else s) s

/-- WFT_PRST: port resets (02 R47). -/
def portResets (s : State) (v : W32) : State := ((portList s).filter fun p => bitAt v p).foldl portReset s

end Sys2Proof.Machine
end

