-- ==== Sys2Proof/Machine/WeftFlits.lean ====
section
/-! DEFINITION. Delivery between instances (12 R296 to R299): RAISE, LEVEL, HSTATE, DACK, the CMD requests of other
instances, and the CRSP that answers this instance's. -/

namespace Sys2Proof.Machine

/-! ### RAISE, DACK (R296) -/

/-- The RAISE is answered. -/
def dack (s : State) (f : Flit) (fault : Bool) : State :=
  sendFlit s 0x13 (flitSrc f) (BitVec.ofNat 160 (field (flitPay f) 52 44 + fault.toNat * 2 ^ 9))

/-- A doorbell from another instance takes the attributes of its entry here (10 R232). -/
def ownAttr (s : State) (ev : EventId) : Attr := attrOf (s.load64 (attAddr s ev))

/-- Apply a RAISE whose checks hold. With W set it is a level line's when the LEVEL flit that the origin sends ahead of every
such raise has come (DESIGN CHOICE, log 83). -/
def raiseApply (s : State) (f : Flit) : State :=
  let pay := flitPay f
  let ev : EventId := BitVec.ofNat 21 (field pay 20 0)
  let t := field pay 27 21
  let a : Attr := { prio := BitVec.ofNat 8 (field pay 35 28), group := bitAt pay 39, cls := BitVec.ofNat 3 (field pay 38 36) }
  let arr : Stroke := BitVec.ofNat 48 (field pay 111 64)
  let ln := field pay 123 112
  match field pay 41 40 with
  | 2 =>
    if 32 ≤ ev.toNat then treeEnq s t (mkOp .ins false ev (ownAttr s ev) arr)
    else
      let nonsec := decide (field pay 43 42 = 1)
      if ln = allLine then (List.range s.par.targets).foldl (fun s u => sendTo s u ev.toNat nonsec arr) s
      else sendTo s t ev.toNat nonsec arr
  | 1 =>
    let s := if 64 ≤ (s.tgt t).opq.length then setLatch s t false ev true else s
    raiseEnq s t { mkOp .ins false ev a arr with setp := true }
  | _ =>
    if bitAt pay 53 then
      let r := (Tbl.find s.wft.rl ev.toNat).getD
        { origin := flitSrc f, lineNo := BitVec.ofNat 12 ln, level := false, state := false, fresh := false,
          latch := false, code := none }
      let r := { r with origin := flitSrc f, lineNo := BitVec.ofNat 12 ln, level := r.fresh, fresh := false }
      let s := modWft s fun w => { w with rl := Tbl.put w.rl ev.toNat r }
      raiseEnq s t { mkOp .ins false ev a arr with level := r.level }
    else treeEnq s t (mkOp .ins false ev a arr)

/-- The remote check: TARGET is built, and EVENT is a message event here, or for a SEND an inter-target event. -/
def raiseOk (s : State) (f : Flit) : Bool :=
  let pay := flitPay f
  let ev : EventId := BitVec.ofNat 21 (field pay 20 0)
  decide (field pay 27 21 < s.par.targets) &&
    (ownMsg s ev || (decide (field pay 41 40 = 2) && decide (ev.toNat < 16)))

/-- RAISE. The log of a DEST fault shows 0 in SLICE and PAGE, which a raise from another instance has not (DESIGN CHOICE, log
85). -/
def raiseFlit (s : State) (_ : Nat) (f : Flit) : State :=
  if raiseOk s f then dack (raiseApply s f) f false
  else dack (xltFault s cDest (field (flitPay f) 151 128) 0 (field (flitPay f) 20 0) 0) f true
def execRaise (p : BitVec 2) (f : Flit) (s : State) : Out := flitRow 0x10 raiseFlit p f s

/-- DACK frees its in-flight entry; a raise that waits takes it. -/
def dackFlit (s : State) (_ : Nat) (f : Flit) : State :=
  let i := field (flitPay f) 8 0
  match Tbl.find s.wft.ift i with
  | some e => if e.dst = flitSrc f then pumpRwait (modWft s fun w => { w with ift := Tbl.del w.ift i }) 512 else s
  | none => s
def execDack (p : BitVec 2) (f : Flit) (s : State) : Out := flitRow 0x13 dackFlit p f s

/-! ### LEVEL, HSTATE (R298) -/

/-- LSEQ lies 1 to 127 steps after the last applied. -/
def newerSeq (last : Option Byte) (q : Byte) : Bool :=
  match last with
  | none => true
  | some l => let d := (q - l).toNat; decide (1 ≤ d) && decide (d ≤ 127)

/-- A LEVEL flit is of the line that a record is kept of. -/
def lineIs (r : RLine) (f : Flit) : Bool :=
  decide (r.origin = flitSrc f) && decide (r.lineNo.toNat = field (flitPay f) 48 37)

/-- LEVEL: applied when its LSEQ is newer than the last that was applied for its line (R298). A latch that a set-pending command
has set before the event was known as a line's stands (03 R57). -/
def levelFlit (s : State) (_ : Nat) (f : Flit) : State :=
  let pay := flitPay f
  let ev : EventId := BitVec.ofNat 21 (field pay 20 0)
  let t := field pay 27 21
  let on := bitAt pay 28
  let q : Byte := BitVec.ofNat 8 (field pay 36 29)
  let old := Tbl.find s.wft.rl ev.toNat
  let line := (flitSrc f).toNat * 4096 + field pay 48 37
  if t < s.par.targets ∧ ownMsg s ev ∧ newerSeq (Tbl.find s.wft.lseqIn line) q then
    let r : RLine := { origin := flitSrc f, lineNo := BitVec.ofNat 12 (field pay 48 37), level := true, state := on,
                       fresh := on || (old.map (·.fresh)).getD false,
                       latch := (old.map (·.latch)).getD (s.wft.early.contains ev), code := old.bind (·.code) }
    let s := modWft s fun w => { w with rl := Tbl.put w.rl ev.toNat r, lseqIn := Tbl.put w.lseqIn line q,
                                        early := w.early.filter (· ≠ ev) }
    if on then s else treeEnq s t (mkOp .drop false ev (attrOf 0) (BitVec.ofNat 48 (field pay 111 64)))
  else match old with
  | some r => if on && lineIs r f then modWft s fun w => { w with rl := Tbl.put w.rl ev.toNat { r with fresh := true } } else s
  | none => s
def execLevel (p : BitVec 2) (f : Flit) (s : State) : Out := flitRow 0x11 levelFlit p f s

def hstateFlit (s : State) (_ : Nat) (f : Flit) : State :=
  let n := field (flitPay f) 11 0
  let c := field (flitPay f) 13 12
  if s.par.wired ≤ n ∨ !((s.line n).holder.any fun g => decide (g.toNat / 128 = (flitSrc f).toNat)) then s
  else
    let s := s.setFld (winOff n Reg.WIN_FILT) 18 17 c
    if c = 3 then s.modLine n fun l => { l with holder := none } else s
def execHstate (p : BitVec 2) (f : Flit) (s : State) : Out := flitRow 0x12 hstateFlit p f s

/-! ### CMD requests of other instances (R299) -/

def cmdReq (f : Flit) : Nat := field (flitPay f) 11 4
/-- The attribute word of a CMD, without the marks of log 74. -/
def cmdAtt (f : Flit) : W64 := setField (BitVec.ofNat 64 (field (flitPay f) 127 64)) 31 30 0
/-- The marks: the command stands in a ring other than ring 1; a move's step, or the checks alone. -/
def cmdGrp1 (f : Flit) : Bool := bitAt (flitPay f) (64 + 31)
def cmdMoves (f : Flit) : Bool := bitAt (flitPay f) (64 + 30)

def answerCmd (s : State) (f : Flit) (status : Nat) (pend : Bool := false) (data : W64 := 0) : State :=
  sendFlit s 0x21 (flitSrc f) (crspPay (cmdReq f) status pend false false false data)

/-- A row for CMD flits of one code. -/
def cmdRow (code : Nat) (act : State → Flit → State) (p : BitVec 2) (f : Flit) (s : State) (m : CmdMem := .good) : Out :=
  if field (flitPay f) 3 0 = code then flitRow 0x20 (fun s _ f => act s f) p f s m else .next s

/-- A host-memory access of a request fails, as the flit's operand says it. -/
def memOf (fail : Bool) : CmdMem := if fail then .readFail else .good

/-- The event and target of a request act here: an event of IDs 0 to 31, or one of the message space. -/
def cmdHere (s : State) (f : Flit) : Bool :=
  decide (cmdTarget f < s.par.targets) && (decide ((cmdEvent f).toNat < 32) || ownMsg s (cmdEvent f))

/-- A command from a ring other than ring 1 names an event of GROUP 0 here (06 R136, 11 R263): of IDs 0 to 31 this target's
own, otherwise as its attribute entry says. -/
def cmdGroup0 (s : State) (f : Flit) : Bool :=
  cmdGrp1 f &&
    (if (cmdEvent f).toNat < 32 then !(icfgAttr s (cmdTarget f) (cmdEvent f).toNat).group
     else wordGroup0 (s.load64 (attAddr s (cmdEvent f))))

/-- Attributes with which a requested raise enters: of IDs 0 to 31 this target's own, otherwise those the request carries. -/
def cmdAttr (s : State) (f : Flit) : Attr :=
  if (cmdEvent f).toNat < 32 then icfgAttr s (cmdTarget f) (cmdEvent f).toNat else attrOf (cmdAtt f)

/-- A pending operation for another instance is queued; its answer follows once it has been applied (11 R264). -/
def owe (s : State) (f : Flit) : State × Nat :=
  let n := reqWid (flitSrc f).toNat (cmdReq f)
  let o : Owed := { wid := n, inst := (flitSrc f).toNat, req := cmdReq f, status := stOk }
  (modWft s fun w => { w with owed := w.owed ++ [o] }, n)

def wftSetPend (s : State) (f : Flit) : State :=
  if !cmdHere s f || cmdGroup0 s f then answerCmd s f stBadRange
  else let o := owe s f; setPendAt o.1 (cmdTarget f) (cmdEvent f) (cmdAttr s f) o.2
def wftClrPend (s : State) (f : Flit) : State :=
  if !cmdHere s f || cmdGroup0 s f then answerCmd s f stBadRange
  else let o := owe s f; clrPendAt o.1 (cmdTarget f) (cmdEvent f) (cmdAttr s f) o.2
def execWftSetPend (p : BitVec 2) (f : Flit) (s : State) : Out := cmdRow 1 wftSetPend p f s
def execWftClrPend (p : BitVec 2) (f : Flit) (s : State) : Out := cmdRow 2 wftClrPend p f s

/-- A move of the event is under way here, for this instance or for another. -/
def movesHere (s : State) (ev : EventId) : Bool :=
  (s.move.any fun m => !m.wired && decide (m.ev = ev)) || s.wft.redirs.any fun k => decide (k.move.ev = ev)

/-- ATT_WRITE. The word's MAPPED and USED tell the four uses apart (log 17): 1, 1 a mapping, or with its mark step V3 of a
move; 0, 1 an unmapping, or with its mark the checks of one; 1, 0 new attributes; 0, 0 a doorbell. An event whose entry names
another destination moves first (06 R137): the entry is claimed, and the answer tells it in DATA with PEND 1. -/
def wftAttWrite (fail : Bool) (s : State) (f : Flit) : State :=
  let ev := cmdEvent f
  let w := cmdAtt f
  let a := attAddr s ev
  let aw := s.load64 a
  let put := fun (v : W64) => s.store64 a v
  if !ownMsg s ev ∨ s.par.targets ≤ cmdTarget f then answerCmd s f stBadRange
  else if fail then answerCmd s f stMemError
  else match attMapped w, attUsed w with
  | true, true =>
    let claim := fun (s : State) (k : Tbl W64 → Tbl W64) => modWft s fun w => { w with claims := k w.claims }
    if cmdMoves f then
      answerCmd (rprAt (claim (put w) (Tbl.del · ev.toNat)) (destAs false (attDest w)) false ev (attrOf w)) f stOk
    else if cmdGrp1 f && wordGroup0 aw then answerCmd s f stBadRange
    else if attMapped aw || movesHere s ev then answerCmd s f stBusy
    else if attUsed aw ∧ attDest aw ≠ attDest w then
      answerCmd (claim (put (setBit aw 12 true)) (Tbl.put · ev.toNat aw)) f stOk true aw
    else answerCmd (if attUsed aw then rprAt (put w) (destAs false (attDest w)) false ev (attrOf w) else put w) f stOk
  | false, true =>
    if cmdGrp1 f && wordGroup0 aw then answerCmd s f stBadRange
    else answerCmd (if cmdMoves f then s else put (setBit aw 12 false)) f stOk
  | true, false =>
    if cmdGrp1 f && wordGroup0 aw then answerCmd s f stBadRange
    else answerCmd (rprAt (put (attAttr aw (attrOf w))) (destAs false (attDest aw)) false ev (attrOf w)) f stOk
  | false, false =>
    let nonOne := (attrOf w).group
    if nonOne && wordGroup0 aw then answerCmd s f stBadRange
    else if attMapped aw then answerCmd s f stBusy
    else
      let v := setBit (setField aw 31 16 (attDest w).toNat) 13 true
      answerCmd (put (if !attUsed aw && nonOne then setBit v 8 true else v)) f stOk
def execWftAttWrite (p : BitVec 2) (f : Flit) (fail : Bool) (s : State) : Out :=
  cmdRow 3 (wftAttWrite fail) p f s (memOf fail)

/-- ATT_CLAIM: the new instance's entry takes the event, or answers BUSY (06 R140, R141 V3); what it held stands in `claims`
until the move can no longer end with BUSY (log 75). -/
def wftAttClaim (fail : Bool) (s : State) (f : Flit) : State :=
  let ev := cmdEvent f
  let a := attAddr s ev
  let aw := s.load64 a
  if !ownMsg s ev ∨ s.par.targets ≤ cmdTarget f then answerCmd s f stBadRange
  else if fail then answerCmd s f stMemError
  else if cmdGrp1 f && wordGroup0 aw then answerCmd s f stBadRange
  else if attMapped aw || movesHere s ev then answerCmd s f stBusy
  else
    let s := modWft s fun w => { w with claims := Tbl.put w.claims ev.toNat aw }
    answerCmd (s.store64 a (cmdAtt f)) f stOk
def execWftAttClaim (p : BitVec 2) (f : Flit) (fail : Bool) (s : State) : Out :=
  cmdRow 4 (wftAttClaim fail) p f s (memOf fail)

/-- ATT_RELEASE: MAPPED 0; with MAPPED 1 in its word it undoes a claim (log 75). -/
def wftAttRelease (fail : Bool) (s : State) (f : Flit) : State :=
  let ev := cmdEvent f
  let a := attAddr s ev
  let free := setBit (s.load64 a) 12 false
  let v := if attMapped (cmdAtt f) then (Tbl.find s.wft.claims ev.toNat).getD free else free
  if !ownMsg s ev then answerCmd s f stBadRange
  else if fail then answerCmd s f stMemError
  else answerCmd ((modWft s fun w => { w with claims := Tbl.del w.claims ev.toNat }).store64 a v) f stOk
def execWftAttRelease (p : BitVec 2) (f : Flit) (fail : Bool) (s : State) : Out :=
  cmdRow 5 (wftAttRelease fail) p f s (memOf fail)

/-- Step V1 of another instance's move: the move-out is queued on the old holder's tree, and answers when it issues (06 R141). -/
def wftMoveOut (s : State) (f : Flit) : State :=
  let ev := cmdEvent f
  let inst := (flitSrc f).toNat
  let m : Move := { step := .v1, ring := 0, ev := ev, wired := false, old := .tgt (globalT s (cmdTarget f)),
                    new := .tgt ((attDest (cmdAtt f)).truncate 14), panel := 0, attr := attrOf (cmdAtt f), found := false,
                    redir := false, mapA := 0, attA := 0, mapping := false, waits := [] }
  if cmdGrp1 f && wordGroup0 (s.load64 (attAddr s ev)) then answerCmd s f stBadRange
  else if movesHere s ev then answerCmd s f stBusy
  else
    let s := modWft s fun w => { w with redirs := w.redirs ++ [{ inst := inst, req := cmdReq f, move := m }] }
    treeEnq s (cmdTarget f) { mkOp .mvo false ev m.attr s.count with wid := some (reqWid inst (cmdReq f)) }

/-- PEND_TEST (log 19): USED 1 in its word makes it a move's step V1, MAPPED 1 the end of a move's redirect; otherwise step V4:
the event's pending bit here is cleared and reported, and an active event answers BUSY. -/
def wftPendTest (fail : Bool) (s : State) (f : Flit) : State :=
  let ev := cmdEvent f
  let t := cmdTarget f
  if !cmdHere s f then answerCmd s f stBadRange
  else if fail then answerCmd s f stMemError
  else if attUsed (cmdAtt f) then wftMoveOut s f
  else if attMapped (cmdAtt f) then
    answerCmd ((s.wft.redirs.filter fun k => decide (k.inst = (flitSrc f).toNat) && decide (k.move.ev = ev)).foldl redirEnd s)
      f stOk
  else if activeIn (s.tgt t) false ev then answerCmd s f stBusy
  else
    let bit := s.rnkEn && pendBit s t none ev
    let s := if bit then putBit s t none ev false else s
    answerCmd (noteState s t false ev) f stOk bit
def execWftPendTest (p : BitVec 2) (f : Flit) (fail : Bool) (s : State) : Out :=
  cmdRow 6 (wftPendTest fail) p f s (memOf fail)

/-- The two CRSP flits that answer a QUERY (R283, 11 R266). -/
def answerQuery (s : State) (f : Flit) (status : Nat) (q : Sample) : State :=
  let s := sendFlit s 0x21 (flitSrc f) (crspPay (cmdReq f) status false false false false q.w0)
  sendFlit s 0x21 (flitSrc f) (crspPay (cmdReq f) status false true q.mapped q.bit (q.arr.zeroExtend 64))

/-- A query that fails samples nothing. -/
def noSample : Sample := { w0 := 0, arr := 0, mapped := false, bit := false }

/-- QUERY. A read of host memory is made, and can fail, for an event that is not resident while its table is in use, and for
MAPPED of a message event's attribute entry. -/
def wftQuery (fail : Bool) (s : State) (f : Flit) : State :=
  if !cmdHere s f || cmdGroup0 s f then answerQuery s f stBadRange noSample
  else if fail && (decide (4128 ≤ (cmdEvent f).toNat) || queryReads s (.tgt (cmdTarget f) (cmdEvent f) (cmdAttr s f))) then answerQuery s f stMemError noSample
  else answerQuery s f stOk (samplePhys s (cmdTarget f) (cmdEvent f) (cmdAttr s f))
def execWftQuery (p : BitVec 2) (f : Flit) (fail : Bool) (s : State) : Out :=
  cmdRow 7 (wftQuery fail) p f s (memOf fail)

/-! ### CRSP (R299) -/

/-- A request as it goes on, or its end, which lets another go out. -/
def setReq (s : State) (i : Nat) (q : Option Req) : State :=
  match q with
  | some q => modWft s fun w => { w with cmds := Tbl.put w.cmds i q }
  | none => pumpReq (modWft s fun w => { w with cmds := Tbl.del w.cmds i }) 256

/-- A sample's two parts have come: fill the mailbox. -/
def crspQuery (s : State) (i : Nat) (q : Req) : State :=
  match q.part0, q.part1 with
  | some w, some (d, b) =>
    let s := setReq s i none
    match (s.ring q.ring).run with
    | some u => queryDone s q.ring u.desc { w0 := w, arr := d.truncate 48, mapped := b % 2 = 1, bit := b / 2 % 2 = 1 }
    | none => s
  | _, _ => setReq s i (some q)

/-- The event of an EV_MAP to another instance is held by another destination, as the claimed entry there has it: the steps of a
move come first (06 R137). -/
def mapMove (s : State) (r : Nat) (u : Run) (aw : W64) : State :=
  let e := u.desc.ent
  let m : Move := { step := .v1, ring := r, ev := e.event, wired := false, old := destAs false (attDest aw),
                    new := destAs false e.dest, panel := 0, attr := e.attr, found := false, redir := false,
                    mapA := (keyMap s u.desc).getD 0, attA := attAddr s e.event, mapping := true, waits := [] }
  let s := goOn { s with move := some m } r u.desc stOk .move
  if !present s ((attDest aw).toNat / 128) then endMove s m stAbsent else moveV1 s m

/-- The rest of an EV_MAP whose attribute entry lies elsewhere: its map entry and MAPCNT (06 R135), or a move. -/
def crspMap (m : CmdMem) (s : State) (r : Nat) (u : Run) (status : Nat) (pend : Bool) (aw : W64) : State :=
  if status ≠ stOk then complete s r u.desc status
  else if pend then mapMove s r u aw
  else tableWrites s r u.desc m ((mapWrites s u.desc).drop 1)

/-- The rest of an EV_ATTR: the map entry. -/
def crspAttr (m : CmdMem) (s : State) (r : Nat) (u : Run) (status : Nat) : State :=
  match keyMap s u.desc with
  | some a =>
    if status ≠ stOk then complete s r u.desc status
    else tableWrites s r u.desc m [(a, mapAttr (s.load64 a) u.desc.newAttr)]
  | none => complete s r u.desc stBadRange

/-- An EV_UNMAP whose checks at the other instance have passed: V 0 of the map entry, then MAPPED 0 there (06 R135; log 78). -/
def crspUnmapCheck (m : CmdMem) (s : State) (r : Nat) (u : Run) (status : Nat) : State :=
  match keyMap s u.desc with
  | some a =>
    if status ≠ stOk then complete s r u.desc status
    else if (writesDone m 1).2 then
      let e := readMap s a
      sendReq (s.store64 a (setBit e.w0 0 false)) r (e.dest.toNat / 128) 3 e.event e.dest.toNat
        (attWord e.attr false true e.dest) .unmap
    else complete s r u.desc stMemError
  | none => complete s r u.desc stBadRange

/-- The last write of such an EV_UNMAP: MAPCNT. -/
def crspUnmap (m : CmdMem) (s : State) (r : Nat) (u : Run) (status : Nat) : State :=
  if status ≠ stOk then complete s r u.desc status
  else
    let e := readSrc s u.desc.src
    tableWrites s r u.desc m [(srcAddr s u.desc.src + 16, setField e.w2 21 0 (e.mapCnt - 1))]

/-- ATT_CLAIM's answer: the move goes on with V1, or ends. -/
def crspClaim (s : State) (q : Req) (status : Nat) : State :=
  match s.move with
  | none => s
  | some m => if status = stOk then moveV1 s m else completeRun { s with move := none } q.ring status

/-- The answer to V1 at a remote holder: any status but OK ends the move; a resident entry that was taken out has gone to the new
destination from there, with its arrival stroke (V2; log 19). -/
def crspOut (s : State) (status : Nat) (pend : Bool) : State :=
  match s.move with
  | none => s
  | some m =>
    if status ≠ stOk then endMove s m status
    else if pend then { s with move := some { m with step := .v3, redir := true, found := true } }
    else noEntry s m

/-- PEND_TEST's answer at V4 or after: a bit that was set is set at the new destination (06 R141). -/
def crspPend (s : State) (pend : Bool) : State :=
  match s.move with
  | none => s
  | some m =>
    if !pend then s
    else match m.new with
    | .tgt g => if isLocal s g then bitHere s m (g.toNat % 128) else remoteRaise s g m.ev m.attr 0 0 false s.count 0 0 0
    | .vpe _ => s

/-- An answer of a move's later steps: a failed access is the command's status, and the move goes on (06 R139). -/
def crspLate (s : State) (q : Req) (status : Nat) : State := if status = stMemError then runStatus s q.ring status else s

/-- CRSP; `m` is how the host-memory writes end that its command makes next. The STATUS of another instance becomes the
command's own; one that is no status code makes the flit malformed (log 79). -/
def crspFlit (m : CmdMem) (s : State) (_ : Nat) (f : Flit) : State :=
  let pay := flitPay f
  let i := field pay 11 4
  let status := field pay 19 12
  match Tbl.find s.wft.cmds i with
  | none => s
  | some q =>
    if q.inst ≠ (flitSrc f).toNat then s
    else
      let data : W64 := BitVec.ofNat 64 (field pay 127 64)
      let part := bitAt pay 21
      let done := setReq s i none
      match q.cont with
      | .query =>
        if status ≠ stOk then
          -- the other of the two CRSP flits is still to come
          let last := q.part0.isSome || q.part1.isSome
          completeRun (if last then done else setReq s i (some { q with cont := .rest })) q.ring status
        else if part then crspQuery s i { q with part1 := some (data, (bitAt pay 22).toNat + (bitAt pay 23).toNat * 2) }
        else crspQuery s i { q with part0 := some data }
      | .rest => done
      | .moveClaim => crspClaim done q status
      | .moveOut => crspOut done status (bitAt pay 20)
      | .moveRelease => crspLate done q status
      | .movePend => crspPend (crspLate done q status) (bitAt pay 20)
      | .moveLast => crspLate done q status
      | k =>
        match (s.ring q.ring).run with
        | none => done
        | some u =>
          match k with
          | .map => crspMap m done q.ring u status (bitAt pay 20) data
          | .attr => crspAttr m done q.ring u status
          | .unmap => crspUnmap m done q.ring u status
          | .unmapCheck => crspUnmapCheck m done q.ring u status
          | .doorbell => dbAnswer m done q.ring u.desc status
          | _ => complete done q.ring u.desc status
def execCrsp (p : BitVec 2) (f : Flit) (m : CmdMem) (s : State) : Out := flitRow 0x21 (crspFlit m) p f s m

/-! ### Flits that have waited in a receive buffer (R285, R296) -/

/-- What a flit of each type does here. -/
def flitAct (m : CmdMem) (s : State) (p : Nat) (f : Flit) : State :=
  let fail := decide (m ≠ .good)
  match flitType f with
  | 0x02 => helloFlit s p f
  | 0x03 => routeFlit s p f
  | 0x04 => tmapFlit s p f
  | 0x05 => commitFlit s p f
  | 0x06 => alignFlit s p f
  | 0x07 => joinFlit s p f
  | 0x08 => linkdnFlit s p f
  | 0x10 => raiseFlit s p f
  | 0x11 => levelFlit s p f
  | 0x12 => hstateFlit s p f
  | 0x13 => dackFlit s p f
  | 0x20 =>
    match field (flitPay f) 3 0 with
    | 1 => wftSetPend s f
    | 2 => wftClrPend s f
    | 3 => wftAttWrite fail s f
    | 4 => wftAttClaim fail s f
    | 5 => wftAttRelease fail s f
    | 6 => wftPendTest fail s f
    | 7 => wftQuery fail s f
    | _ => s
  | 0x21 => crspFlit m s p f
  | _ => s

/-- Flits leave a port's receive buffer in their order, each returning its credit, as far as none has to wait. -/
def rxPump (s : State) (p : Nat) : Nat → State
  | 0 => s
  | n + 1 =>
    match (wport s p).rxq with
    | [] => s
    | e :: r =>
      if mustWait s e.flit then s
      else
        let s := modWport s p fun x => { x with rxq := r, rxCred := min 32 (x.rxCred + 1) }
        rxPump (s.ran (takeFlit (flitAct e.mem) s p e.flit)) p n

/-- The receive buffers of all ports, once queues have taken operations at a boundary. -/
def rxPumpAll (s : State) : State :=
  if !wftOn s || ((portList s).all fun p => (wport s p).rxq.isEmpty) then s
  else wftPump (pollAll ((portList s).foldl (fun s p => rxPump s p 32) s))

end Sys2Proof.Machine
end

