-- ==== Sys2Proof/Machine/BurBase.lean ====
section
/-! DEFINITION. The Burins as the rest of the block meets them (14 R326, R327, R345 to R356): states, roles, resets,
holds, loading, the host mailbox and the peer word. -/

namespace Sys2Proof.Machine

def State.core (s : State) (u : Bur) : BurCore :=
  match u with
  | .a => s.bur.a
  | .b => s.bur.b

def State.setCore (s : State) (u : Bur) (c : BurCore) : State :=
  match u with
  | .a => { s with bur := { s.bur with a := c } }
  | .b => { s with bur := { s.bur with b := c } }

def State.modCore (s : State) (u : Bur) (f : BurCore → BurCore) : State := s.setCore u (f (s.core u))

def burOther : Bur → Bur
  | .a => .b
  | .b => .a

def burNum : Bur → Nat
  | .a => 0
  | .b => 1

def primary (s : State) : Bur := if s.bur.primB then .b else .a
def setPrimary (s : State) (u : Bur) : State := { s with bur := { s.bur with primB := decide (u = .b) } }

/-- Codes of R327. -/
def BState.code : BState → Nat
  | .held => 0 | .boot => 1 | .empty => 2 | .run => 3 | .authFail => 4 | .halted => 5 | .off => 6

/-- WHOAMI (R345). -/
def whoami (s : State) (u : Bur) : W32 := BitVec.ofNat 32 (burNum u + (decide (primary s = u)).toNat * 2)

/-- HOLD of a Burin. -/
def holdBit (s : State) (u : Bur) : Bool := s.bit Reg.BUR_CTL (burNum u)

/-! ### Reset (R345, R348; 02 R47) -/

/-- A Burin after its reset, at step B1: its registers, flags and data SRAM are cleared, its code SRAM stands, and so does its
miss count. The boot ROM beats from here on (R348). -/
def BurCore.fresh (c : BurCore) : BurCore :=
  { st := .boot, boot := .ready, auth := 0, g := [], pc := 0x00080000, flags := 0, tpc := 0, tflags := 0, tcause := 0,
    taddr := 0, trep := 0, ipend := 0, imask := 0, spLo := 0x00100000, spHi := 0x00108000, hwin := 0, peerIn := 0,
    timer := 0, veto := 0, hostIn := 0, code := c.code, data := [], slot := [], rep := none, waiting := false,
    beat := true, miss := c.miss, boots := c.boots, ran := 0 }

/-- A Burin reset: a held Burin stays HELD. -/
def burReset (s : State) (u : Bur) : State :=
  s.modCore u fun c => { c.fresh with st := if holdBit s u then .held else .boot }

/-- Set bits of IPEND of one Burin (R341, R345): bit c - 8 for cause c. -/
def burInt (s : State) (u : Bur) (i : Nat) : State :=
  burWake s (s.modCore u fun c => { c with ipend := c.ipend ||| BitVec.ofNat 32 (1 <<< i) })

def burErr (s : State) (i : Nat) : State := setFlag s 10 Reg.BUR_ERR i 0 false

/-! ### Hold and reset (R349, R351) -/

/-- New HOLD bits: a Burin now held is in reset, one released boots at B1; holding the primary while the other Burin is in
RUN hands the role over in the same cycle. -/
def holdApply (s : State) (a b : Bool) : State :=
  let oa := s.bit Reg.BUR_CTL 0
  let ob := s.bit Reg.BUR_CTL 1
  let s := s.setFld Reg.BUR_CTL 1 0 (a.toNat + 2 * b.toNat)
  let hand : Bool := match primary s with
    | .a => a && !oa && !b && decide (s.bur.b.st = .run)
    | .b => b && !ob && !a && decide (s.bur.a.st = .run)
  let s := if hand then setPrimary s (burOther (primary s)) else s
  let s := if a ≠ oa then s.modCore .a fun c => { c.fresh with st := if a then .held else .boot, miss := 0 } else s
  if b ≠ ob then s.modCore .b fun c => { c.fresh with st := if b then .held else .boot, miss := 0 } else s

/-- BUR_CTL.RST_A and RST_B. -/
def rstApply (s : State) (v : W32) : State :=
  let s := if bitAt v 2 then burReset s .a else s
  if bitAt v 3 then burReset s .b else s

/-! ### Loading (R349) -/

def burSel (sel : Nat) : List Bur := (if sel % 2 = 1 then [Bur.a] else []) ++ (if 2 ≤ sel then [Bur.b] else [])

/-- Every Burin named is HELD. -/
def selHeld (s : State) (sel : Nat) : Bool := (burSel sel).all fun u => decide ((s.core u).st = .held)

/-- Write a word of code SRAM in every Burin named. -/
def codePut (s : State) (sel word : Nat) (v : W32) : State :=
  (burSel sel).foldl (fun s u => s.modCore u fun c => { c with code := Tbl.put c.code word v }) s

/-- BUR_LOAD_DATA. -/
def loadData (s : State) (v : W32) : State :=
  let sel := s.fld Reg.BUR_LOAD_CTL 1 0
  let w := s.fld Reg.BUR_LOAD_CTL 16 2
  if selHeld s sel then (codePut s sel w v).setFld Reg.BUR_LOAD_CTL 16 2 ((w + 1) % 0x6000) else burErr s 5

/-- Word i of the image header in code SRAM (R346). -/
def hdrWord (c : BurCore) (i : Nat) : W32 := Tbl.get 0 c.code (0x5FF0 + i)

/-- BUR_FW_VERSION. -/
def fwVersion (s : State) : W32 :=
  let c := s.core (primary s)
  if c.st = .run then hdrWord c 1 &&& 0xFFFFFF else 0

/-! ### Host messages (R354) -/

/-- A write of BUR_HOST_MSG. -/
def hostMsg (s : State) (w : W32) : State :=
  if s.bur.asked then s.setBitR Reg.BUR_HOST_RSP 9 true
  else
    let s := (s.wr Reg.BUR_HOST_MSG w).setBitR Reg.BUR_HOST_RSP 8 false
    let s := { s with bur := { s.bur with asked := true } }
    let p := primary s
    burInt (s.modCore p fun c => { c with hostIn := w }) p 3

/-- A write of HOST_OUT. -/
def hostOut (s : State) (w : W32) : State :=
  { s.wr Reg.BUR_HOST_RSP ((w &&& 0xFFFFFCFF) ||| 0x100) with bur := { s.bur with asked := false } }

def peerOut (s : State) (u : Bur) (w : W32) : State :=
  burInt (s.modCore (burOther u) fun c => { c with peerIn := w }) (burOther u) 2

/-- A Burin is in reset, OFF or HALTED, or its clock does not run: it does nothing. -/
def burRuns (s : State) (u : Bur) : Bool :=
  (match s.rst.phase with
   | .cold => false
   | .w5 => false
   | _ => true) &&
  (match (s.core u).st with
   | .boot => true
   | .empty => true
   | .run => true
   | .authFail => true
   | _ => false)

end Sys2Proof.Machine
end

