-- ==== Sys2Proof/Machine/View.lean ====
section
/-! DEFINITION. What a register word reads as (16 R382): the stored word, or, where the spec derives a field from the block's
structures, that field. The access masks are applied by `regRead`. -/

namespace Sys2Proof.Machine

def w32 (n : Nat) : W32 := BitVec.ofNat 32 n
/-- Halves of a 64-bit view. -/
def half (hi : Bool) (n : Nat) : W32 := if hi then w32 (n / 2 ^ 32) else w32 n

def b2n (b : Bool) : Nat := b.toNat

/-! ### Queue status (05) -/

/-- MSG_PQ_STAT of a queue, CLOSED apart. -/
def queueStat (s : State) (q : Nat) : Nat :=
  qOcc s q + b2n (decide (qCap s q ≤ qOcc s q)) * 2 ^ 15 + (if qBudget s q = 0 then 0 else budgetLeft s q) * 2 ^ 32

def pnlQueueStat (s : State) (p : Nat) : Nat :=
  if pnlCreated s p then queueStat s (p + 1) + b2n (s.panel p).closed * 2 ^ 16 else 0

/-! ### Ranking (07 R173) -/

def virtEntries (x : Tg) : List Entry := x.entries.filter (·.virt)

def treeStat (x : Tg) (urgent : Bool) : Nat :=
  x.entries.length + (virtEntries x).length * 2 ^ 16 + min 64 x.opq.length * 2 ^ 32 +
  b2n (x.leadP.isSome || x.leadV.isSome) * 2 ^ 39 + b2n (x.swpP.run.isSome || x.swpV.run.isSome) * 2 ^ 40 + b2n urgent * 2 ^ 41

def headWord (e : Option Entry) : Nat :=
  match e with
  | none => 0x1FFFFF + 0xFF * 2 ^ 21
  | some e => e.ev.toNat + e.eff.toNat * 2 ^ 21

/-- RNK_TROOT; a non-secure read does not show a physical head of group 0. -/
def treeRoot (s : State) (t : Nat) (sec : Bool) : Nat :=
  let p := (headOf s t false).filter fun e => sec || e.group
  headWord p + b2n (p.any (·.group)) * 2 ^ 29 + headWord (headOf s t true) * 2 ^ 32

/-- RNK_TSUM: the chunk chosen by the order of R166, in which one whose lead is in flight takes no part while another has V 1. -/
def treeSum (x : Tg) : Nat :=
  match bestChunk (fun k => leadChunk x false k) x.sumP <|> bestChunk (fun _ => false) x.sumP with
  | none => 0
  | some (k, v) =>
    k + v.prio.toNat * 2 ^ 11 + v.lead.toNat * 2 ^ 19 + b2n v.leadOk * 2 ^ 29 + 2 ^ 30

/-! ### Targets (09 R220) -/

def ctxStat (c : Ctx) : Nat := c.rp + c.stack.length * 2 ^ 9 + c.split.length * 2 ^ 14

def tgtView (s : State) (t r : Nat) (sec : Bool) : W32 :=
  let x := s.tgt t
  if r = Reg.TGT_PEEK then peekWord s t (if sec then 0 else 1)
  else if r = Reg.TGT_PMASK then w32 (x.phys.pmask.toNat + x.nsfloor.toNat * 2 ^ 8)
  else if r = Reg.TGT_SPLIT then
    w32 (x.phys.split1.toNat + b2n x.phys.splitc1 * 8 + x.phys.split0.toNat * 16 + b2n x.phys.splitc0 * 128)
  else if r = Reg.TGT_RP then w32 (ctxStat x.phys)
  else if r = Reg.TGT_VSTAT then w32 (ctxStat x.virt + x.virt.pmask.toNat * 2 ^ 19)
  else if r = Reg.TGT_VPE then w32 (x.vpe.toNat + b2n x.vpeV * 2 ^ 16 + b2n x.sw.isSome * 2 ^ 30)
  else s.rd (tgtOff t r)

/-! ### Panels (10 R247, R250) -/

def pnlStat (s : State) : Nat :=
  (createdPanels s).length + (s.pnl.vpes.filter (·.2.v)).length * 2 ^ 16 +
  (s.tg.filter (·.2.sw.isSome)).length * 2 ^ 33 + b2n s.pnl.restoring * 2 ^ 41 + b2n s.pnl.saved * 2 ^ 42

def PState.code : PState → Nat
  | .free => 0 | .active => 1 | .quiescing => 2 | .quiesced => 3 | .resetting => 4 | .reset => 5 | .destroying => 6

def pnlPstat (s : State) (p : Nat) : Nat :=
  let x := s.panel p
  let mine := vpesOf s p
  x.state.code + (if x.state = .free then 0 else x.vbits) * 2 ^ 4 + mine.length * 2 ^ 16 +
  (mine.filter fun v => (s.vword (BitVec.ofNat 16 v)).res).length * 2 ^ 33

def pnlVstat (w : VWord) : Nat :=
  b2n w.v + b2n w.res * 2 + b2n w.switching * 4 + b2n w.dbarm * 8 + (if w.res then w.target else 0) * 16 +
  w.best.toNat * 2 ^ 12 + w.panel * 2 ^ 20

/-- PNL_SHR_STAT. A Panel that is not created has no queue, and no cap to be at (log 92). -/
def shareStat (s : State) (p : Nat) : Nat :=
  qOcc s (p + 1) + b2n (pnlCreated s p && decide (qCap s (p + 1) ≤ qOcc s (p + 1))) * 2 ^ 15 + b2n (s.panel p).closed * 2 ^ 16 +
  (s.panel p).state.code * 2 ^ 17 + b2n (s.panel p).pend.isSome * 2 ^ 20

/-! ### Weft (12 R307) -/

def JState.code : JState → Nat
  | .standalone => 0 | .training => 1 | .discovery => 2 | .joined => 3 | .isolated => 4 | .joining => 5
def LState.code : LState → Nat
  | .down => 0 | .training => 1 | .up => 2 | .disabled => 3

def wftStat (s : State) : Nat :=
  s.wft.jst.code + b2n (isAnchor s) * 8 + (anchorId s).toNat * 2 ^ 4 +
  (1 + ((others s).filter fun i => decide (i ≠ s.instId.toNat) && decide (s.wft.jst = .joined)).length) * 2 ^ 11 +
  s.wft.gen.toNat * 2 ^ 19

def wftPstat (s : State) (p : Nat) : Nat :=
  let x := wport s p
  let up := x.st = .up
  x.st.code + (if up then x.nbr.toNat else 0) * 4 + (if up then x.nbrPort.toNat else 0) * 2 ^ 9 +
  x.credits * 2 ^ 11 + min 64 (x.replay.length + x.resend.length) * 2 ^ 17 + s.fld (Reg.WFT_PSTAT + 4 * p) 31 24 * 2 ^ 24

def wftInst (s : State) : Nat :=
  let i := s.fld Reg.WFT_ISEL 6 0
  let own := decide (i = s.instId.toNat)
  if !present s i then 0
  else
    let r := Tbl.find s.wft.routes i
    let m := if own then some (ownTmap s) else Tbl.find s.wft.tmaps i
    1 + (if own then 0 else (r.map fun r => r.port.toNat * 2 + r.hops.toNat * 8).getD 0) +
    (m.map fun m => m.targets * 2 ^ 7 + m.attBits * 2 ^ 15 + b2n m.xltEn * 2 ^ 20).getD 0

/-! ### The error path (18 R426, R438) -/

/-- A register of a replicated region holds a flag of a mask. -/
def anyReg (s : State) (isOff : Nat → Bool) (per low : Nat) (mask : W32) : Bool :=
  s.regs.any fun e => isOff e.1 && decide (e.1 % per = low) && decide (s.rd e.1 &&& mask ≠ 0)

/-- Source b of R426 has a flag set. -/
def srcOn (s : State) (b : Nat) : Bool :=
  match b with
  | 0 => decide (s.rd Reg.GLB_ERR ≠ 0)
  | 1 => decide (s.rd Reg.MSG_ERR ≠ 0)
  | 2 => decide (s.rd Reg.XLT_FAULT ≠ 0)
  | 3 => decide (s.rd Reg.RNK_ERR ≠ 0)
  | 4 => decide (s.rd Reg.STK_ERR ≠ 0)
  | 5 => anyReg s isTgtOff 0x1000 Reg.TGT_ERR 0x3F
  | 6 => decide (s.rd Reg.PNL_ERR ≠ 0)
  | 7 => anyReg s isRingOff 0x100 Reg.CMD_RSTAT 0x1C
  | 8 => decide (s.rd Reg.WFT_ERR ≠ 0)
  | 9 => decide (s.rd Reg.COH_ERR ≠ 0)
  | 10 => decide (s.rd Reg.BUR_ERR ≠ 0)
  | 11 => decide (s.rd Reg.SBD_ERR ≠ 0)
  | 12 => decide (s.rd Reg.PRF_ERR ≠ 0)
  | 13 => decide (s.rd Reg.PWR_ERR ≠ 0)
  | 14 => s.win.any fun e => e.2.unr.isSome
  | 15 => decide (s.rd Reg.GLB_ECC ≠ 0)
  | 16 => decide (s.rd Reg.GLB_DPAR ≠ 0)
  | 17 => inSafe s
  | _ => false

def esum (s : State) : W32 := w32 (((List.range 18).map fun b => if srcOn s b then 2 ^ b else 0).sum)

/-- blk_err_o (18 R427). -/
def blkErr (s : State) : Bool := decide (esum s &&& s.rd Reg.GLB_EMASK ≠ 0)

/-! ### Burins, side-band (14 R356, 15 R376) -/

def burStat (s : State) : W32 :=
  let a := s.bur.a
  let b := s.bur.b
  w32 (a.st.code + b.st.code * 2 ^ 3 + b2n s.bur.primB * 2 ^ 6 + a.miss * 2 ^ 7 + b.miss * 2 ^ 10 + a.auth * 2 ^ 13 +
    b.auth * 2 ^ 16)

/-- The present server (15 R365): 0 none, 1 firmware, 2 boot ROM, 3 fallback state machine. -/
def server (s : State) : Nat :=
  let c := s.core (primary s)
  if inSafe s then 3
  else match c.st with
  | .run => 1
  | .boot => if c.boot = .ready then 0 else 2
  | .empty => 2
  | .authFail => 2
  | _ => 0

def sbdPres (s : State) : W32 :=
  let w := s.rd Reg.SBD_PRES
  if bitAt w 0 then setField w 7 1 s.sbd.left else w

/-- Bytes 4i to 4i + 3 of a list. -/
def bytesWord (l : List Byte) (i : Nat) : W32 :=
  w32 ((List.range 4).map (fun k => (l.getD (4 * i + k) 0).toNat * 2 ^ (8 * k))).sum

/-- The request as the mirror holds it. -/
def mirrorBytes (q : SbReq) : List Byte := q.cmd :: BitVec.ofNat 8 (q.data.length + 1) :: q.data

def sbdView (s : State) (off : Nat) : W32 :=
  if off = Reg.SBD_STAT then
    w32 (b2n s.sbd.token.isSome + server s * 2 + b2n s.sbd.mirror.isSome * 8)
  else if off = Reg.SBD_PRES then sbdPres s
  else if off = Reg.SBD_MCTL then w32 (b2n s.sbd.mirror.isSome + b2n (s.sbd.mirror.any (·.claimed)) * 2)
  else if Reg.SBD_MREQ ≤ off ∧ off < Reg.SBD_MRSP then
    match s.sbd.mirror with
    | some q => bytesWord (mirrorBytes q) ((off - Reg.SBD_MREQ) / 4)
    | none => s.rd off
  else s.rd off

/-! ### Proof, sticky log, power -/

def prfStat (s : State) : W32 :=
  w32 (b2n s.prf.hold + b2n s.prf.adopting * 2 + s.prf.pos * 4 + b2n s.prf.cmp * 2 ^ 18)

def Slot.empty : Slot := { w0 := 0, w1 := 0, w2 := 0 }

def logSlot (s : State) (i : Nat) : Slot := Tbl.get Slot.empty s.err.slots i

def logData (s : State) (off : Nat) : W32 :=
  let v := logSlot s (s.fld Reg.GLB_ELOG_SEL 5 0)
  let k := (off - Reg.GLB_ELOG_DATA) / 8
  half (decide (off % 8 = 4)) (if k = 0 then v.w0 else if k = 1 then v.w1 else v.w2).toNat

/-- PWR_WAKE_STAT.LINE. -/
def wakeStat (s : State) : W32 := (s.pwr.wakeIn ^^^ (s.rd Reg.PWR_WAKE_CFG >>> 16).truncate 16).zeroExtend 32

/-! ### The words (00 R4; each chapter's register tables) -/

def stkStat (s : State) : W32 :=
  let w := s.rd Reg.STK_STAT
  let w := setBit w 12 (decide (s.stk.kind = .catchUp))
  let w := setBit w 13 (decide (s.stk.kind = .stretch))
  setBit w 15 (!refLegal s)

/-- Miss slots in use across all slices (06 R128, XLT_STAT). -/
def missSlots (s : State) : Nat := (s.miss.filter (·.slot)).length

/-- Lookups in the pipelines: those held at their stage for want of a slot. -/
def lookupsHeld (s : State) : Nat := (s.miss.filter fun m => !m.slot && m.res.isNone).length

/-- Words outside the replicated regions. -/
def viewFlat (s : State) (off : Nat) (sec : Bool) : W32 :=
  let hi := decide (off % 8 = 4)
  let o := off - off % 8
  if off = Reg.GLB_STATUS then
    setField (s.rd off) 2 1 (b2n (inSafe s) + 2 * b2n (blkErr s))
  else if o = Reg.GLB_PARAM then
    half hi (s.par.targets + s.par.wired * 2 ^ 8 + s.par.panels * 2 ^ 21 + s.par.vpes * 2 ^ 32 + s.par.weftPorts * 2 ^ 49)
  else if off = Reg.GLB_ESUM then esum s
  else if Reg.GLB_ELOG_DATA ≤ off ∧ off < Reg.GLB_ELOG_DATA + 24 then logData s off
  else if off = Reg.CMD_GSTAT then
    w32 ((((List.range 8).map fun r => if (s.ring r).run.isSome && (sec || decide (r ≠ 1)) then 2 ^ r else 0).sum) +
      b2n (tblBusy s) * 2 ^ 8)
  else if off = Reg.XLT_STAT then
    w32 (lookupsHeld s + missSlots s * 2 ^ 6 + b2n s.move.isSome * 2 ^ 13)
  else if o = Reg.RNK_TSTAT then
    let t := s.fld Reg.RNK_TSEL 6 0
    let urg := fun (virt : Bool) => ((s.tgt t).swp virt).run.isSome && sweepUrgent s t virt
    half hi (treeStat (s.tgt t) (urg false || urg true))
  else if o = Reg.RNK_TROOT then half hi (treeRoot s (s.fld Reg.RNK_TSEL 6 0) sec)
  else if off = Reg.RNK_TSUM then w32 (treeSum (s.tgt (s.fld Reg.RNK_TSEL 6 0)))
  else if o = Reg.STK_COUNT then half hi s.count.toNat
  else if off = Reg.STK_STAT then stkStat s
  else if off = Reg.COH_STAT then
    w32 (s.coh.reqs.length + s.coh.evb.length * 2 ^ 9 + wbbUsed s * 2 ^ 14 +
      (s.coh.reqs.filter (·.2.held.isSome)).length * 2 ^ 19)
  else if off = Reg.WFT_STAT then w32 (wftStat s)
  else if Reg.WFT_PSTAT ≤ off ∧ off < Reg.WFT_PSTAT + 16 then
    let p := (off - Reg.WFT_PSTAT) / 4
    if p < s.par.weftPorts then w32 (wftPstat s p) else 0
  else if off = Reg.WFT_CTRL then
    wftCtrl s
  else if off = Reg.WFT_INST then w32 (wftInst s)
  else if off = Reg.WFT_IFT then w32 (s.wft.ift.length + s.wft.cmds.length * 2 ^ 10)
  else if o = Reg.PNL_STAT then half hi (pnlStat s)
  else if o = Reg.PNL_PSTAT then half hi (pnlPstat s (s.fld Reg.PNL_PSEL 9 0))
  else if off = Reg.PNL_VSTAT then w32 (pnlVstat (s.vword (BitVec.ofNat 16 (s.fld Reg.PNL_VSEL 15 0))))
  else if off = Reg.PWR_WAKE_STAT then wakeStat s
  else if off = Reg.BUR_STAT then burStat s
  else if off = Reg.BUR_FW_VERSION then fwVersion s
  else if 0x38000 ≤ off ∧ off < 0x39000 then sbdView s off
  else if off = Reg.MSG_POOL_STAT then w32 (rsvSum s + (sharedFree s).toNat * 2 ^ 16)
  else if o = Reg.MSG_PQ_STAT then half hi (queueStat s 0)
  else if o = Reg.MSG_PNL_STAT then half hi (pnlQueueStat s (s.fld Reg.MSG_PNL_SEL 9 0))
  else if off = Reg.MSG_SLOW_STAT then w32 (s.msg.slow.length + b2n (slowHeld s) * 2 ^ 7)
  else if off = Reg.PRF_STAT then prfStat s
  else s.rd off

/-- The whole word, whatever the access's attributes; `sec` is the secure attribute, which three views depend on. -/
def regView (s : State) (off : Nat) (sec : Bool) : W32 :=
  if isWinOff off then
    let n := (off - 0x10000) / 0x10
    if off % 0x10 = Reg.WIN_XSTAT then setBit (s.rd off) 29 (s.line n).unr.isSome
    else if off % 0x10 = Reg.WIN_FILT then
      setBit (s.rd off) 19 ((s.line n).holder.any fun g => !isLocal s g)
    else s.rd off
  else if isTgtOff off then
    if off % 0x1000 < 0x100 then tgtView s ((off - 0x100000) / 0x1000) (off % 0x1000) sec else s.rd off
  else if isRingOff off then
    if off % 0x100 = Reg.CMD_RSTAT then setBit (s.rd off) 0 (s.ring ((off - 0x20000) / 0x100)).run.isSome else s.rd off
  else if isShareOff off then
    if off % 0x40 = Reg.PNL_SHR_STAT then w32 (shareStat s ((off - 0x200000) / 0x40)) else s.rd off
  else viewFlat s off sec

end Sys2Proof.Machine
end

