-- ==== Sys2Proof/Machine/Errors.lean ====
section
/-! DEFINITION. The sticky log and SAFE (18 R426 to R437, 11 R268). -/

namespace Sys2Proof.Machine

/-! ### The sticky log (R429, R430) -/

def view64 (s : State) (off : Nat) : W64 := regView s (off + 4) true ++ regView s off true
def view32 (s : State) (off : Nat) : W64 := (regView s off true).zeroExtend 64

/-- DETAIL of an entry (R426), read when it is written. -/
def logDetail (s : State) (o : Occ) : W64 :=
  match o.src with
  | 0 => view64 s Reg.GLB_ERR_ADDR
  | 1 => regView s Reg.MSG_ERR_LOG1 true ++ regView s Reg.MSG_ERR_LOG0 true
  | 2 => regView s Reg.XLT_FLOG1 true ++ regView s Reg.XLT_FLOG0 true
  | 3 => view32 s Reg.RNK_ERR_LOG
  | 4 => view32 s Reg.STK_STAT
  | 5 => view32 s (tgtOff o.unit Reg.TGT_RP)
  | 6 => view32 s Reg.PNL_ERR_LOG
  | 7 => view32 s (ringOff o.unit Reg.CMD_HEAD)
  | 8 => view64 s Reg.WFT_ERR_LOG
  | 9 => view64 s Reg.COH_ERR_LOG
  | 10 => if o.flag = 4 then view64 s Reg.BUR_TAKE_LOG else view32 s Reg.BUR_STAT
  | 11 => view32 s Reg.SBD_PRES
  | 12 => regView s Reg.PRF_REF true ++ regView s Reg.PRF_LAST true
  | 13 => view32 s Reg.PWR_ERR_LOG
  | 14 => regView s (winOff o.unit Reg.WIN_ROUTE) true ++ regView s (winOff o.unit Reg.WIN_XSTAT) true
  | 15 => view32 s Reg.GLB_ECC_LOG
  | 16 => view64 s Reg.GLB_DPAR_LOG
  | _ => view32 s Reg.BUR_STAT

/-- SEQ wraps from 0xFFFF_FFFF to 1. -/
def nextSeq (q : W32) : W32 := if q = 0xFFFFFFFF then 1 else q + 1

def slotOf (s : State) (o : Occ) (seq : W32) : Slot :=
  { w0 := BitVec.ofNat 64 (o.stroke.toNat + o.src * 2 ^ 48 + o.flag * 2 ^ 56), w1 := logDetail s o,
    w2 := BitVec.ofNat 64 (seq.toNat + o.unit % 4096 * 2 ^ 32 + b2n o.fresh * 2 ^ 44) }

/-- The oldest waiting occurrence is written to slot NEXT; ERROR is set in both Burins, and the error event follows. -/
def logWrite (s : State) : State :=
  match s.err.queue with
  | [] => s
  | o :: rest =>
    let next := s.fld Reg.GLB_ELOG_STAT 5 0
    let seq := nextSeq s.err.seq
    let e := { s.err with queue := rest, seq := seq, slots := Tbl.put s.err.slots next (slotOf s o seq) }
    let s := ({ s with err := e }).setFld Reg.GLB_ELOG_STAT 5 0 ((next + 1) % 64)
    let s := if next = 63 then s.setBitR Reg.GLB_ELOG_STAT 6 true else s
    errEvent (ipendBit s 5) o.src

/-- The CLK_MAIN domain is clocked and out of reset. -/
def mainRuns (s : State) : Bool :=
  (match s.rst.phase with
   | .run => true
   | .w2 => true
   | .w3 => true
   | _ => false) && decide (pwrPhase s ≠ 4)

def execErrorLogWrite (s : State) : Host.Outcome State Fault Refusal := .next (if mainRuns s then logWrite s else s)

/-- Every waiting occurrence is written: before step W5 of a warm reset and before step 3 of the DEEP commit. -/
def logAll (s : State) : State := (List.range 17).foldl (fun s _ => logWrite s) s

/-! ### SAFE (R434 to R437) -/

def setSafe (s : State) (x : SafeState) : State := { s with err := { s.err with safe := x } }

/-- GLB_SAFE after a recorded cause, and its occurrence (R427, R434). -/
def recordCause (s : State) (cause : BitVec 2) : State :=
  let s := s.setFld Reg.GLB_SAFE 3 2 cause.toNat
  let s := s.setFld Reg.GLB_SAFE 11 4 (min 255 (s.fld Reg.GLB_SAFE 11 4 + 1))
  occ s 17 cause.toNat 0 false

/-- A cause of R434. In SAFE it changes CAUSE and ENTRIES alone; after an accepted exit, SAFE is entered again once the
exit has completed (R437). -/
def safeCause (s : State) (cause : BitVec 2) : State :=
  match s.err.safe with
  | .out => recordCause ((setSafe s .safe).setFld Reg.GLB_SAFE 1 0 2) cause
  | .safe => recordCause s cause
  | .leaving r _ => setSafe s (.leaving r (some cause))

/-- A Burin runs an authenticated image. -/
def burinRuns (s : State) : Bool := decide (s.bur.a.st = .run) || decide (s.bur.b.st = .run)

/-- An accepted exit; `ring`: the ring whose command waits for it. -/
def safeLeaving (s : State) (ring : Option Nat) : State :=
  (setSafe s (.leaving ring none)).setFld Reg.GLB_SAFE 1 0 3

/-- SAFE_EXIT on ring 0 (R268); a second exit while one is under way completes with it. -/
def safeExit (s : State) (r : Nat) (d : Desc) : State :=
  match s.err.safe with
  | .out => complete s r d stOk
  | .leaving _ c => goOn (setSafe s (.leaving (some r) c)) r d stOk .safeExit
  | .safe =>
    if burinRuns s then goOn (safeLeaving s (some r)) r d stOk .safeExit else complete s r d stBusy

def execSafeExit (r : BitVec 3) (s : State) : Host.Outcome State Fault Refusal :=
  .next (startCmd s r.toNat 0x40 safeExit)

/-- SAFE_LEAVE: blk_safe_o falls (R436), the completion is written, and a cause that has come since enters SAFE again
(R437). -/
def safeLeave (s : State) : State :=
  match s.err.safe with
  | .leaving r c =>
    let s := (setSafe s .out).setFld Reg.GLB_SAFE 1 0 0
    let s := match r with
      | some r => if (s.ring r).run.any fun u => decide (u.kind = .safeExit) then completeRun s r stOk else s
      | none => s
    match c with
    | some cause => safeCause s cause
    | none => s
  | _ => s

end Sys2Proof.Machine
end

