-- ==== Sys2Proof/Machine/PwrBase.lean ====
section
/-! DEFINITION. The power controller's register effects (17 R416, R420, R423, R424), and the start of a warm reset
(02 R42, R43, R46), which other subsystems trigger. -/

namespace Sys2Proof.Machine

def modPwr (s : State) (f : Pwr → Pwr) : State := { s with pwr := f s.pwr }

/-! ### DVFS requests (R422 to R424) -/

/-- A pair is free: request and acknowledge low (02 R35). -/
def Pair.free (p : Pair) : Bool := !p.req && !p.ack

/-- Requests are issued in RUN, DOZE and fast running. -/
def dvfsOn (s : State) : Bool :=
  decide (s.rst.phase = .run) && decide (pwrPhase s ≠ 3) && decide (pwrPhase s ≠ 4)

/-- The requests are driven: CLK_FAST's domain is out of reset. A request that stands through a warm reset is low in W5 alone
(02 R25; log 97). -/
def dvfsUp (s : State) : Bool := decide (s.rst.phase ≠ .w5 ∧ s.rst.phase ≠ .cold)

/-- R423 lets a frequency request for point f out. -/
def freqAllowed (s : State) (f : Nat) : Bool :=
  decide (oppMv s f ≤ oppMv s (vAck s)) && (!s.pwr.volt.req || decide (oppMv s f ≤ oppMv s s.pwr.voltPt.toNat))
def voltAllowed (s : State) (v : Nat) : Bool :=
  decide (oppMv s (fAck s) ≤ oppMv s v) && (!s.pwr.freq.req || decide (oppMv s s.pwr.freqPt.toNat ≤ oppMv s v))

/-- PWR_DVFS_STATUS beside its acknowledged points. -/
def showDvfs (s : State) : State :=
  s.setFld Reg.PWR_DVFS_STATUS 11 8
    (b2n s.pwr.freq.req + b2n s.pwr.volt.req * 2 + b2n s.pwr.fHeld.isSome * 4 + b2n s.pwr.vHeld.isSome * 8)

/-- Issue what is held and allowed, the frequency request first. A request outstanding holds the stroke (08 R184). -/
def issueDvfs (s : State) : State :=
  let s := match s.pwr.fHeld with
    | some f =>
      if dvfsOn s && s.pwr.freq.free && freqAllowed s f.toNat then
        modStk (modPwr s fun p => { p with freq := { req := true, ack := false }, freqPt := f, fHeld := none })
          fun k => { k with freqOut := true }
      else s
    | none => s
  let s := match s.pwr.vHeld with
    | some v =>
      if dvfsOn s && s.pwr.volt.free && voltAllowed s v.toNat then
        modPwr s fun p => { p with volt := { req := true, ack := false }, voltPt := v, vHeld := none }
      else s
    | none => s
  showDvfs s

/-- Issue until nothing more can go out: the voltage request may free the frequency request. -/
def issueAll (s : State) : State := issueDvfs (issueDvfs s)

/-- A write of PWR_DVFS_REQ (R424). -/
def dvfsWrite (s : State) (v : W32) : State :=
  let s := s.wr Reg.PWR_DVFS_REQ v
  let f := field v 2 0
  let g := field v 6 4
  issueAll (modPwr s fun p => { p with
    fHeld := if f = fAck s then none else some (BitVec.ofNat 3 f),
    vHeld := if g = vAck s then none else some (BitVec.ofNat 3 g) })

/-! ### Held outputs, switch back (R416, R420) -/

/-- PWR_HOLD_RELEASE.REL. -/
def holdRelease (s : State) : State :=
  if !s.bit Reg.PWR_STAT 5 then s
  else if s.bit Reg.PWR_STAT 6 then s.setBitR Reg.PWR_STAT 5 false
  else modPwr s fun p => { p with relWait := true }

/-- PWR_CTRL.TO_MAIN. -/
def toMain (s : State) : State := s.setBitR Reg.PWR_CTRL 1 true

/-! ### Wake inputs (R417) -/

/-- Wake inputs asserted and enabled. -/
def wakeOn (s : State) : List Nat :=
  (List.range 16).filter fun n => bitAt (wakeStat s) n && s.bit Reg.PWR_WAKE_CFG n

/-- A wake input asserted and enabled is a cause; the lowest is recorded. -/
def wakeInputs (s : State) : State :=
  match wakeOn s with
  | n :: _ => wake s 1 n
  | [] => s

/-! ### The side-band session (15 R364) -/

/-- Close the session; a request in service defers it to its reply. -/
def closeSession (s : State) : State :=
  if s.sbd.token.isNone then s
  else if s.sbd.mirror.isSome then { s with sbd := { s.sbd with closing := true } }
  else { s with sbd := { s.sbd with token := none, last := none, closing := false } }

/-! ### The start of a warm reset (02 R42, R43 W1) -/

/-- A slow-path write that waits for a physical atomic set. -/
def physSet (e : Slow) : Bool :=
  match e.stage with
  | .set r => !r.virt
  | _ => false

/-- With RNK_CTRL.EN at 0, W2 discards the physical entries and the physical sets that have nowhere to go (07 R172). -/
def discardPhys (s : State) : State :=
  if s.rnkEn then s
  else
    let lost := s.msg.slow.filter physSet
    let s := { s with
      tg := s.tg.map fun (e : Nat × Tg) =>
        (e.1, Tg.mapOps { e.2 with entries := e.2.entries.filter (·.virt) } (·.filter (·.virt))),
      lanes := s.lanes.map fun (e : Nat × List LaneW) => (e.1, e.2.filter (·.vpe.isSome)),
      msg := { s.msg with slow := s.msg.slow.filter fun e => !physSet e } }
    lost.foldl (fun s e => msgErr s e.w 6) s

/-- Step W1: fetching stops, running commands end without a record (11 R278) but for those whose operation has been done,
moves stop where they stand, the ports tell their neighbours, and the session closes. With W2, the flush of the vPEs begins,
and what has nowhere to go is discarded. -/
def warmStart (s : State) (cause : Nat) (pin : Bool) : State :=
  let s := pollAll (abandonPrep s)
  let s := s.setFld Reg.GLB_RST_CAUSE 3 0 cause
  let s := wftPump { linksDown s with rst := { s.rst with phase := .w2 } }
  let s := { s with rings := s.rings.map fun (e : Nat × Ring) => (e.1, { e.2 with run := none, fetched := [], bad := false }), move := none }
  let s := { s with sbd := { s.sbd with token := none, last := none, closing := false, mirror := none } }
  let s := { s with rst := { s.rst with phase := if pin then .w3 else .w2, byPin := pin, earlyRise := false,
                                        pendingTrig := none, trig := decide (cause = 3) } }
  if pin then cohW3 s
  else switchOut (discardPhys s) fun _ _ => true

/-- The cycle of the trigger is over. -/
def trigOver (s : State) : State := { s with rst := { s.rst with trig := false } }

/-- A flushing trigger (R42, R46). In a consent round it waits for the round to abort; in the commit, in sleep and in fast
running, which R46 does not name, it waits for RUN as rst_warm_n_i does (DESIGN CHOICE, log 80); one that comes before the
initialisation of a cold reset ends waits for it (log 23). In a warm reset it is ignored, but for a Burin's in the cycle of the
register port's. -/
def warmTrigger (s : State) (cause : Nat) : State :=
  let both : Bool := s.rst.trig && decide (cause = 4)
  let hold := { s with rst := { s.rst with
    pendingTrig := if both then some 4 else s.rst.pendingTrig <|> some (BitVec.ofNat 4 cause),
    trig := decide (s.rst.pendingTrig = none ∧ cause = 3) } }
  match s.rst.phase with
  | .run => if pwrPhase s = 0 ∨ pwrPhase s = 1 then warmStart s cause false else hold
  | .init => if s.rst.warmInit then s else hold
  | .w2 => if both then trigOver (s.setFld Reg.GLB_RST_CAUSE 3 0 4) else s
  | _ => s

end Sys2Proof.Machine
end

