-- ==== Sys2Proof/Machine/SbdBase.lean ====
section
/-! DEFINITION. The mirror of the side-band port as its registers show it (15 R361, R362, R364, R365). -/

namespace Sys2Proof.Machine

def modSbd (s : State) (f : Sbd → Sbd) : State := { s with sbd := f s.sbd }

/-! ### The checks of the bus (R357, R359) -/

/-- One bit of the CRC-8 of SMBus. -/
def crc8Bit (c : Byte) : Byte := if bitAt c 7 then (c <<< 1) ^^^ 0x07 else c <<< 1
def crc8Byte (c b : Byte) : Byte :=
  crc8Bit (crc8Bit (crc8Bit (crc8Bit (crc8Bit (crc8Bit (crc8Bit (crc8Bit (c ^^^ b))))))))
def crc8 (l : List Byte) : Byte := l.foldl crc8Byte 0

def smbAddr (s : State) : BitVec 7 := BitVec.ofNat 7 (s.fld Reg.GLB_ID 14 8)

/-- PEC of a transaction: the write bytes that `pre` stands for, the read address, the count and the data of the read half. -/
def pecAfter (s : State) (pre r : List Byte) : Byte :=
  crc8 (pre ++ ((smbAddr s ++ (1 : BitVec 1)) :: BitVec.ofNat 8 r.length :: r))

/-- A process call's read half goes out with its PEC. The CRC over an accepted write half, its CHK included, is 0
(Laws.crc8_chk), so the write half adds nothing to it. -/
def putReply (s : State) (r : List Byte) : State := modSbd s fun b => { b with reply := r, pec := pecAfter s [] r }

/-- The port releases SDA: the controller reads 0xFF. -/
def noReply (b : Sbd) : Sbd := { b with reply := [], pec := 0xFF }

/-- A request is answered: counted, its reply saved with its SEQ, and put on the bus if the controller waits for it; a close
that waited takes effect (R361, R362, R364). -/
def sbAnswered (s : State) (seq : Byte) (reply : List Byte) (onBus : Bool) : State :=
  let s := s.cnt32 Reg.SBD_CNT
  let s := modSbd s fun b => { b with last := if b.token.isSome then some (seq, reply) else b.last }
  let s := if onBus then putReply s reply else s
  if s.sbd.closing then closeSession s else s

/-- SBD_MCTL.CLAIM. -/
def mirrorClaim (s : State) : State :=
  modSbd s fun b => { b with mirror := b.mirror.map fun q => { q with claimed := true } }

/-- Byte k of SBD_MRSP. -/
def mrspByte (s : State) (k : Nat) : Byte := BitVec.ofNat 8 ((s.rd (Reg.SBD_MRSP + k - k % 4)).toNat >>> (8 * (k % 4)))

/-! ### Firmware load, SAFE, seal and locks (R369, R370, 16 R389) -/

/-- n argument bytes of a request from byte i on, after TOKEN and SEQ. -/
def argAt (q : SbReq) (i n : Nat) : Nat := numOf ((q.data.drop (2 + i)).take n)

/-- What a command leaves behind: the state, the STATUS and the data of its reply. -/
structure SbAns where
  s      : State
  status : Nat
  data   : List Byte

def ansOk (s : State) : SbAns := { s := s, status := stOk, data := [] }
def ansNo (s : State) (status : Nat) : SbAns := { s := s, status := status, data := [] }

/-- Burin u could serve as primary (R365). -/
def canServe (s : State) (u : Bur) : Bool :=
  let c := s.core u
  match c.st with
  | .run => true
  | .empty => true
  | .authFail => true
  | .boot => decide (c.boot ≠ .ready)
  | _ => false

/-- With the Burins of SEL held some Burin serves: the primary, or the other once the role passes to it (R349). -/
def servesAfter (s : State) (sel : Nat) : Bool :=
  let p := primary s
  if p ∈ burSel sel then burOther p ∉ burSel sel && decide ((s.core (burOther p)).st = .run) else canServe s p

def setHold (s : State) (sel : Nat) (on : Bool) : State :=
  holdApply s (if Bur.a ∈ burSel sel then on else holdBit s .a) (if Bur.b ∈ burSel sel then on else holdBit s .b)

def fwBeginDo (s : State) (q : SbReq) : SbAns :=
  let sel := argAt q 0 1
  if sel = 0 ∨ 3 < sel then ansNo s stBadRange
  else if !inSafe s && !servesAfter s sel then ansNo s stBusy
  else ansOk (modSbd (setHold s sel true) fun b => { b with fwSel := BitVec.ofNat 2 sel })

/-- FW_DATA acts through the load registers (14 R349): SEL and ADDR go to BUR_LOAD_CTL, the words to BUR_LOAD_DATA. -/
def fwDataDo (s : State) (q : SbReq) : SbAns :=
  let sel := s.sbd.fwSel.toNat
  let waddr := argAt q 0 2
  let n := (q.data.length - 4) / 4
  if !selHeld s sel || decide (0x6000 < waddr + n) then ansNo s stBadRange
  else ansOk ((List.range n).foldl (fun s k => loadData s (w32 (argAt q (2 + 4 * k) 4)))
    (s.setFld Reg.BUR_LOAD_CTL 16 0 (sel + waddr * 4)))

def fwEndDo (s : State) (q : SbReq) : SbAns :=
  let sel := argAt q 0 1
  if sel = 0 ∨ 3 < sel ∨ !selHeld s sel then ansNo s stBadRange else ansOk (setHold s sel false)

/-- SEAL_CLEAR: SBD_PRES.SEAL tells seal_i. -/
def sealClearDo (s : State) : SbAns :=
  if s.bit Reg.SBD_PRES 9 then ansOk (s.setBitR Reg.SBD_PRES 10 false) else ansNo s stBusy

/-- LOCK_CLEAR clears SEC_CFG, PRF, BUR and PWR (R389). -/
def lockClearDo (s : State) : SbAns := ansOk (s.wr Reg.GLB_LOCK (s.rd Reg.GLB_LOCK &&& ~~~0x17))

/-- The commands that need a window (R366), SAFE_EXIT apart; a SAFE_ENTER in SAFE is a cause that arrives there (18 R434), and
changes nothing of SAFE itself (log 95). -/
def windowDo (s : State) (q : SbReq) : SbAns :=
  match q.cmd.toNat with
  | 0x20 => fwBeginDo s q
  | 0x21 => fwDataDo s q
  | 0x22 => fwEndDo s q
  | 0x28 => ansOk (safeCause s 3)
  | 0x2A => sealClearDo s
  | 0x2B => lockClearDo s
  | 0x2C => ansOk s
  | _ => ansNo s stBusy

/-- The STOP of a WARM_RESET that was answered starts the reset (R370). -/
def afterReply (s : State) (q : SbReq) : State := if q.cmd = 0x2C then warmTrigger s 5 else s

/-- SBD_MCTL.DONE: the reply is what SBD_MRSP holds, its byte 0 the count; the mirror is free. A command with presence that the
firmware answers OK takes effect as R369 and R370 say (log 41). -/
def mirrorDone (s : State) : State :=
  match s.sbd.mirror with
  | none => s
  | some q =>
    let n := min 27 (mrspByte s 0).toNat
    let reply := (List.range n).map fun k => mrspByte s (k + 1)
    let ok : Bool := decide (reply.head? = some (byteN stOk))
    let s := if ok then (windowDo s q).s else s
    let s := sbAnswered (modSbd s fun b => { b with mirror := none }) q.seq reply q.onBus
    if ok then afterReply s q else s

end Sys2Proof.Machine
end

