-- ==== Sys2Proof/Machine/Regs.lean ====
section
/-! DEFINITION. The register interface (16): which accesses are legal, attributes, locks, reserved encodings, and what an
accepted write does. -/

namespace Sys2Proof.Machine

/-! ### Attributes (R382, R383) -/

/-- The WIN entry or TGT_ICFG word at an offset belongs to a group 0 event. -/
def grp0 (s : State) (off : Nat) : Bool :=
  if isWinOff off then !s.bit (off - off % 0x10) 15 else !s.bit off 8

def isIcfgOff (off : Nat) : Bool := isTgtOff off && decide (0x100 ≤ off % 0x1000)
/-- Registers of ring 1. -/
def isRing1 (off : Nat) : Bool := decide (0x20100 ≤ off) && decide (off < 0x20200)
/-- MBX_DATA0 to MBX_DATA3 and MBX_ACK, which hold ring 1's result (11 R275). -/
def isMbxSec (s : State) (off : Nat) : Bool :=
  decide (0x21000 ≤ off) && decide (off < 0x21030) && decide (off / 8 ≠ Reg.MBX_STAT / 8) && s.bit Reg.MBX_STAT 0 &&
  decide (s.fld Reg.MBX_STAT 3 1 = 1)

def privMask (off : Nat) (row : RegRow) : W32 := if isWinOff off || isIcfgOff off then 0xFFFFFFFF else row.priv

/-- The SEC bits of a word at the time of the access. -/
def secMask (s : State) (off : Nat) (row : RegRow) : W32 :=
  if ((isWinOff off || isIcfgOff off) && grp0 s off) || isRing1 off || isMbxSec s off then 0xFFFFFFFF else row.sec

/-- The bits that an access of given attributes reaches. -/
def accMask (s : State) (off : Nat) (row : RegRow) (priv sec : Bool) : W32 :=
  (if priv then 0xFFFFFFFF else ~~~(privMask off row)) &&& (if sec then 0xFFFFFFFF else ~~~(secMask s off row))

/-- What a read of a word returns; 0 outside the implemented words. -/
def regRead (s : State) (off : Nat) (priv sec : Bool) : W32 :=
  match regRow s.par off with
  | none => 0
  | some row => regView s off sec &&& row.rd &&& accMask s off row priv sec

/-! ### Locks and reserved encodings (R385, R387, R388) -/

/-- A field with a lock or reserved encodings: its bits, whether it is locked, whether the write's value is reserved. -/
structure FChk where
  mask : W32
  lk   : Bool
  rsv  : Bool
  deriving DecidableEq, Repr

def fchk (hi lo : Nat) (lk rsv : Bool) : FChk := { mask := w32 (maskOf hi lo), lk := lk, rsv := rsv }
/-- Every field of the word under one lock. -/
def wholeChk (lk : Bool) : List FChk := [fchk 31 0 lk false]
def outside (lo hi v : Nat) : Bool := decide (v < lo) || decide (hi < v)

/-- RSV of MSG_PQ_CFG (05 R117, R119). -/
def pqRsvBad (s : State) (v : W32) : Bool :=
  decide (16384 < field v 14 0) || decide (16384 < field v 14 0 + ((s.pnl.panels.map (·.1)).map (commOf s)).sum)
def pqRsv (s : State) (v : W32) : Nat := if pqRsvBad s v then s.fld Reg.MSG_PQ_CFG 14 0 else field v 14 0

/-- An event ID that WIN_XSTAT.XID may not name (04 R87). -/
def xidBad (x : Nat) : Bool := (decide (1 ≤ x) && decide (x ≤ 0x101F)) || decide (x = 0x1FFFFF)

def winChecks (s : State) (off : Nat) (v : W32) : List FChk :=
  let n := (off - 0x10000) / 0x10
  let r := off % 0x10
  if r = Reg.WIN_CTL then
    [fchk 15 15 (locked s 0) false,
     fchk 16 16 false (bitAt v 16 && !s.bit off 16 && decide (64 ≤ wakeLines s n))]
  else if r = Reg.WIN_ROUTE then [fchk 15 14 false (decide (field v 15 14 = 3))]
  else if r = Reg.WIN_XSTAT then [fchk 20 0 false (xidBad (field v 20 0))]
  else []

/-- The ring's size and bases are locked against a change (11 R277). -/
def ringHeld (s : State) (r : Nat) : Bool := ringEn s r || stopping s r

def ringChecks (s : State) (off : Nat) (v : W32) : List FChk :=
  let r := (off - 0x20000) / 0x100
  let o := off % 0x100
  let l1 := decide (r = 1) && locked s 3
  if o = Reg.CMD_RCTRL then
    [fchk 0 0 l1 (bitAt v 0 && stopping s r),
     fchk 8 4 (l1 || (ringHeld s r && decide (field v 8 4 ≠ s.fld off 8 4))) (outside 6 16 (field v 8 4))]
  else if o = Reg.CMD_RBASE ∨ o = Reg.CMD_CBASE then
    [fchk 31 12 (l1 || (ringHeld s r && decide (field v 31 12 ≠ s.fld off 31 12))) false]
  else if o = Reg.CMD_RBASE + 4 ∨ o = Reg.CMD_CBASE + 4 then
    [fchk 19 0 (l1 || (ringHeld s r && decide (field v 19 0 ≠ s.fld off 19 0))) false]
  else if o = Reg.CMD_RIRQ then
    [fchk 4 0 l1 false, fchk 11 5 l1 (decide (s.par.targets ≤ field v 11 5))]
  else if o = Reg.CMD_DB then [fchk 15 0 false (doorbellWrite s r (field v 15 0)).2]
  else []

def shareChecks (off : Nat) (v : W32) : List FChk :=
  if off % 0x40 = Reg.PNL_SHR_REQ0 then
    [fchk 14 0 false (decide (16384 < field v 14 0)), fchk 30 16 false (decide (16384 < field v 30 16))]
  else if off % 0x40 = Reg.PNL_SHR_REQ1 then [fchk 22 16 false (decide (64 < field v 22 16))]
  else []

/-- A field set to 0 while it is 1 is a locked write. -/
def stickyOne (s : State) (off i : Nat) (v : W32) : FChk := fchk i i (s.bit off i && !bitAt v i) false

def flatChecks (s : State) (off : Nat) (v : W32) : List FChk :=
  if off = Reg.GLB_LOCK then (List.range 5).map fun i => stickyOne s off i v
  else if off = Reg.GLB_EIRQ then [fchk 11 5 false (decide (s.par.targets ≤ field v 11 5))]
  else if off = Reg.PRF_CTRL ∨ off = Reg.PRF_REF then wholeChk (locked s 1)
  else if off = Reg.BUR_CTL ∨ off = Reg.BUR_LOAD_DATA ∨ off = Reg.BUR_IMG_BASE ∨ off = Reg.BUR_IMG_BASE + 4 then
    wholeChk (locked s 2)
  else if off = Reg.BUR_LOAD_CTL then
    [fchk 1 0 (locked s 2) false, fchk 16 2 (locked s 2) (decide (0x6000 ≤ field v 16 2))]
  else if off = Reg.PWR_OVR then wholeChk (locked s 4)
  else if Reg.PWR_OPP ≤ off ∧ off < Reg.PWR_ERR then
    [fchk 11 0 (locked s 4) (outside 800 2000 (field v 11 0)), fchk 23 12 (locked s 4) false]
  else if off = Reg.XLT_SRC_BASE then [fchk 4 0 (xltEn s) (outside 1 24 (field v 4 0)), fchk 31 12 (xltEn s) false]
  else if off = Reg.XLT_ATT_BASE then [fchk 4 0 (xltEn s) (outside 13 21 (field v 4 0)), fchk 31 12 (xltEn s) false]
  else if off = Reg.XLT_SRC_BASE + 4 ∨ off = Reg.XLT_ATT_BASE + 4 then wholeChk (xltEn s)
  else if off = Reg.XLT_PQ_SLOTS then [fchk 6 0 false (decide (64 < field v 6 0))]
  else if off = Reg.RNK_CTRL ∨ off = Reg.PNL_CTRL then [stickyOne s off 0 v]
  else if Reg.RNK_PT_BASE ≤ off ∧ off < Reg.RNK_SUM_BASE + 8 then wholeChk s.rnkEn
  else if off = Reg.RNK_REFILL then
    [fchk 12 0 false (decide (4096 < field v 12 0)), fchk 28 16 false (decide (4096 < field v 28 16))]
  else if off = Reg.RNK_TSEL then [fchk 6 0 false (decide (s.par.targets ≤ field v 6 0))]
  else if off = Reg.STK_LEN then [fchk 6 0 false (outside 24 64 (field v 6 0))]
  else if off = Reg.STK_CATCH then
    [fchk 6 0 false (outside 24 64 (field v 6 0)), fchk 27 16 false (decide (field v 27 16 = 0))]
  else if off = Reg.STK_EPOCH then [fchk 3 0 false (decide (10 < field v 3 0))]
  else if off = Reg.STK_FAST_MHZ then [fchk 8 0 false (outside 300 500 (field v 8 0))]
  else if off = Reg.COH_MODE then wholeChk (s.wol.contains off)
  else if off = Reg.WFT_CTRL then [fchk 7 4 false (decide (field v 7 4 < 4))]
  else if Reg.PNL_VPE_BASE ≤ off ∧ off < Reg.PNL_SAVE_BASE + 8 then wholeChk (s.bit Reg.PNL_CTRL 0)
  else if off = Reg.PNL_PSEL ∨ off = Reg.MSG_PNL_SEL then [fchk 9 0 false (decide (s.par.panels ≤ field v 9 0))]
  else if off = Reg.PNL_VSEL then [fchk 15 0 false (decide (s.par.vpes ≤ field v 15 0))]
  else if off = Reg.MSG_PQ_CFG then
    [fchk 14 0 false (pqRsvBad s v), fchk 30 16 false (outside (pqRsv s v) 16384 (field v 30 16))]
  else []

/-- The fields of a word that a lock or a reserved encoding may guard, in ascending order; `v` is the value written. -/
def fieldChecks (s : State) (off : Nat) (v : W32) : List FChk :=
  if isWinOff off then winChecks s off v
  else if isTgtOff off then if isIcfgOff off then [fchk 8 8 (locked s 0) false] else []
  else if isRingOff off then ringChecks s off v
  else if isShareOff off then shareChecks off v
  else flatChecks s off v

/-- Take the guarded fields out of a write's bits; the kinds of R386 in field order (0 LOCK_WRITE, 1 RSV_VALUE). A lock
comes before the value (R387). -/
def runChecks (m : W32) : List FChk → W32 × List Nat
  | [] => (m, [])
  | c :: r =>
    let rest := runChecks m r
    if m &&& c.mask = 0 then rest
    else if c.lk then (rest.1 &&& ~~~c.mask, 0 :: rest.2)
    else if c.rsv then (rest.1 &&& ~~~c.mask, 1 :: rest.2)
    else rest

/-! ### One word of a write -/

/-- A word as a write will change it: its offset, its row, the value written, the bits that take effect, and the flagged
kinds. -/
structure WPlan where
  off   : Nat
  row   : RegRow
  v     : W32
  m     : W32
  kinds : List Nat
  deriving DecidableEq, Repr

/-- EN of IDs 0 to 15 ignores writes (09 R220). -/
def fixedBits (off : Nat) : W32 :=
  if isIcfgOff off && decide (off % 0x1000 < 0x140) then 0x1000 else 0

/-- Check a write of one word: `d` the data, `bm` the bits of the bytes written. -/
def planWord (s : State) (off : Nat) (row : RegRow) (d bm : W32) (priv sec : Bool) : WPlan :=
  let v := (s.rd off &&& ~~~bm) ||| (d &&& bm)
  let m := (row.rw ||| row.w1c ||| row.w1s ||| row.wo) &&& accMask s off row priv sec &&& bm &&& ~~~fixedBits off
  let c := runChecks m (fieldChecks s off v)
  { off := off, row := row, v := v, m := c.1, kinds := c.2 }

/-- High words of the 64-bit registers that hold guarded fields. -/
def highWord (off : Nat) : Bool :=
  (isRingOff off && (decide (off % 0x100 = Reg.CMD_RBASE + 4) || decide (off % 0x100 = Reg.CMD_CBASE + 4))) ||
  [Reg.XLT_SRC_BASE + 4, Reg.XLT_ATT_BASE + 4, Reg.RNK_PT_BASE + 4, Reg.RNK_SUM_BASE + 4, Reg.PNL_VPE_BASE + 4,
   Reg.PNL_SAVE_BASE + 4, Reg.BUR_IMG_BASE + 4].contains off

/-- The offset that GLB_ERR_ADDR captures (R386). -/
def flagOff (off : Nat) : Nat := if highWord off then off - 4 else off

/-- The flagged kinds of an access: every one is captured, the words in their order; the flags are one cycle's occurrences, which
queue in ascending order (18 R429). -/
def flagPlans (src : Src) (s : State) (ps : List WPlan) : State :=
  let s := ps.foldl (fun s p => p.kinds.foldl (fun s k => glbCapture s (flagOff p.off) src k) s) s
  let flag := fun (s : State) (k : Nat) => if ps.any fun p => p.kinds.contains k then setFlag s 0 Reg.GLB_ERR k 0 true else s
  flag (flag s 0) 1

/-- The stored word after the write: RW fields take the value, W1C fields written with 1 clear. -/
def WPlan.value (p : WPlan) (cur : W32) : W32 :=
  ((cur &&& ~~~(p.row.rw &&& p.m)) ||| (p.v &&& p.row.rw &&& p.m)) &&& ~~~(p.v &&& p.row.w1c &&& p.m)
/-- W1S and WO bits written with 1. -/
def WPlan.cmd (p : WPlan) : W32 := p.v &&& (p.row.w1s ||| p.row.wo) &&& p.m

/-! ### Effects by region -/

def applyWin (s : State) (p : WPlan) : State :=
  let n := (p.off - 0x10000) / 0x10
  let nv := p.value (s.rd p.off)
  if p.off % 0x10 = Reg.WIN_CTL then (winCtlApply s n nv).1
  else if p.off % 0x10 = Reg.WIN_FILT then winFiltApply s n nv
  else retryLine (s.wr p.off nv) n

/-- TGT_ICFGi (09 R216, R220). -/
def applyIcfg (s : State) (p : WPlan) : State :=
  let t := (p.off - 0x100000) / 0x1000
  let i := (p.off % 0x1000 - 0x100) / 4
  let was := s.bit p.off 12
  let on := bitAt (p.value (s.rd p.off)) 12
  let s := s.wr p.off (p.value (s.rd p.off))
  let s := treeEnq s t (mkOp .rpr false (BitVec.ofNat 21 i) (icfgAttr s t i) s.count)
  if !was && on then if s.bit p.off 13 then localRaise s t i else s
  else if was && !on then localDrop s t i
  else s

/-- A write in a target's frame below TGT_ICFG: an operation (09 R217), or a flag clear. -/
def applyFrame (s : State) (p : WPlan) (d : W32) (sec : Bool) (src : Src) : State :=
  let t := (p.off - 0x100000) / 0x1000
  let r := p.off % 0x1000
  let path := Path.frame sec src
  if r = Reg.TGT_EOI then completeDo s t path d
  else if r = Reg.TGT_DEACT then deactDo s t path d
  else if r = Reg.TGT_SEND then sendDo s t path d
  else if r = Reg.TGT_PMASK then setPmaskDo s t path d
  else if r = Reg.TGT_SPLIT then setSplitDo s t path d
  else if r = Reg.TGT_VPE then setVpeDo s t path d
  else s.wr p.off (p.value (s.rd p.off))

def applyRing (s : State) (p : WPlan) : State :=
  let r := (p.off - 0x20000) / 0x100
  let o := p.off % 0x100
  let was := s.bit p.off 0
  let nv := p.value (s.rd p.off)
  if o = Reg.CMD_RCTRL then
    let s := s.wr p.off nv
    if !was && bitAt nv 0 then ringEnable s r else if was && !bitAt nv 0 then ringDisable s r else s
  else if o = Reg.CMD_DB then
    let s := if pwrPhase s = 2 then modPwr s fun w => { w with dbStop := true } else s
    (doorbellWrite s r (field p.v 15 0)).1
  else s.wr p.off nv

/-- GLB_RST_CAUSE of a write of GLB_RST_CTRL.WARM (02 R42); a side-band write is applied as a Burin write (15 R365). -/
def warmCause : Src → Nat
  | .port => 3
  | _ => 4

/-- RNK_CTRL: EN going to 1 starts a load, and REBUILD returns to 0 (07 R172, R173). -/
def applyRnkCtrl (s : State) (nv : W32) : State :=
  if !s.rnkEn && bitAt nv 0 then
    let s := (s.wr Reg.RNK_CTRL (setBit nv 1 false)).setBitR Reg.RNK_STAT 0 true
    { s with rnk := { s.rnk with loaded := [], rebuild := bitAt nv 1 || s.bit Reg.RNK_STAT 1 } }
  else s.wr Reg.RNK_CTRL nv

def applyPnlCtrl (s : State) (nv : W32) : State :=
  let was := s.bit Reg.PNL_CTRL 0
  let s := s.wr Reg.PNL_CTRL nv
  if !was && bitAt nv 0 then pnlEnable s else s

/-- PRF_CTRL: without EN the running sweep is not compared; ADOPT starts an adoption (R398, R399). -/
def applyPrfCtrl (s : State) (nv cmd : W32) : State :=
  let s := s.wr Reg.PRF_CTRL nv
  let s := if bitAt nv 0 then s else { s with prf := { s.prf with cmp := false } }
  if bitAt cmd 1 then { s with prf := { s.prf with adopting := true, adoptOk := false } } else s

/-- PRF_REF: HOLD clears, and an adoption ends (R398, R399). -/
def applyPrfRef (s : State) (nv : W32) : State :=
  let s := s.wr Reg.PRF_REF nv
  { s with prf := { s.prf with hold := false, adopting := false } }

/-- The words outside the replicated regions whose write does more than change the word. -/
def applyFlat (s : State) (p : WPlan) (src : Src) : State :=
  let off := p.off
  let nv := p.value (s.rd off)
  let cmd := p.cmd
  if off = Reg.GLB_RST_CTRL then if bitAt cmd 0 then warmTrigger s (warmCause src) else s
  else if off = Reg.GLB_REFCNT_HZ then
    let was := refLegal s
    refRate (s.wr off nv) was
  else if off = Reg.STK_FAST_MHZ ∨ (Reg.PWR_OPP ≤ off ∧ off < Reg.PWR_OPP + 32) then showPeriod (s.wr off nv)
  else if off = Reg.GLB_LOCK then s.wr off (s.rd off ||| cmd)
  else if off = Reg.RNK_CTRL then applyRnkCtrl s nv
  else if Reg.RNK_CLASS ≤ off ∧ off < Reg.RNK_CLASS + 32 then
    let c := (off - Reg.RNK_CLASS) / 4
    { s.wr off nv with rnk := { s.rnk with classW := s.rnk.classW ||| BitVec.ofNat 8 (2 ^ c) } }
  else if off = Reg.COH_MODE then { s.wr off nv with wol := off :: s.wol }
  else if off = Reg.COH_FLUSH then if bitAt cmd 0 then flushStart s else s
  else if off = Reg.WFT_CTRL then
    let s := wftPump (penApply (s.wr off nv))
    if bitAt cmd 8 then rediscover s else s
  else if off = Reg.WFT_PRST then portResets s cmd
  else if off = Reg.PNL_CTRL then applyPnlCtrl s nv
  else if off = Reg.MSG_FENCE then if bitAt cmd 0 then openFence s else s
  else if off = Reg.MBX_ACK then if bitAt cmd 0 then mbxAck s else s
  else if off = Reg.PRF_CTRL then applyPrfCtrl s nv cmd
  else if off = Reg.PRF_REF then applyPrfRef s nv
  else if off = Reg.PWR_CTRL then
    let s := s.wr off nv
    if bitAt cmd 1 then toMain s else s
  else if off = Reg.PWR_WAKE_CFG then wakeInputs (s.wr off nv)
  else if off = Reg.PWR_HOLD_RELEASE then if bitAt cmd 0 then holdRelease s else s
  else if off = Reg.PWR_DVFS_REQ then dvfsWrite s nv
  else if off = Reg.BUR_CTL then
    let s := holdApply s (bitAt nv 0) (bitAt nv 1)
    rstApply s cmd
  else if off = Reg.BUR_LOAD_DATA then loadData s p.v
  else if off = Reg.BUR_HOST_MSG then hostMsg s nv
  else if off = Reg.SBD_CTRL then if bitAt cmd 0 then closeSession s else s
  else if off = Reg.SBD_MCTL then
    let s := if bitAt cmd 1 then mirrorClaim s else s
    if bitAt cmd 2 then mirrorDone s else s
  else s.wr off nv

/-- The effect of one checked word; `d` is the whole word that the access carries, which a frame operation takes as its
argument. -/
def applyWord (s : State) (p : WPlan) (d : W32) (sec : Bool) (src : Src) : State :=
  if p.m = 0 then s
  else if isWinOff p.off then applyWin s p
  else if isTgtOff p.off then if isIcfgOff p.off then applyIcfg s p else applyFrame s p d sec src
  else if isRingOff p.off then applyRing s p
  else if isShareOff p.off then s.wr p.off (p.value (s.rd p.off))
  else applyFlat s p src

/-! ### Accesses (R377 to R381, R384) -/

/-- A word exists for the source of an access: the mirror is for Burins alone (15 R376). -/
def builtFor (s : State) (src : Src) (off : Nat) : Bool :=
  (regRow s.par off).isSome &&
  (decide (off < 0x38100) || decide (0x38200 ≤ off) || decide (src = .burA) || decide (src = .burB))

/-- Narrow accesses (04 R91, 10 R244). -/
def narrowOk (s : State) (off bytes : Nat) : Bool :=
  (isWinOff off && decide (off % 0x10 = 0) && decide (bytes = 1) && (regRow s.par off).isSome) ||
  (isShareOff off && decide (off % bytes = 0) && (regRow s.par (off - off % 4)).isSome)

/-- The words that an access covers, each with the bits of its bytes; none: a bus error (R379). `size` is the logarithm of
the width in bytes. -/
def busWords (s : State) (off size : Nat) (src : Src) : List (Nat × W32) :=
  match size with
  | 3 => if off % 8 = 0 ∧ builtFor s src off ∧ builtFor s src (off + 4) then [(off, 0xFFFFFFFF), (off + 4, 0xFFFFFFFF)] else []
  | 2 => if off % 4 = 0 ∧ builtFor s src off then [(off, 0xFFFFFFFF)] else []
  | n => if narrowOk s off (n + 1) then
      [(off - off % 4, w32 (maskOf (8 * (off % 4) + 8 * (n + 1) - 1) (8 * (off % 4))))] else []

/-- The 32 bits of a data bus that carry a word (R377). -/
def laneOf (data : W64) (off : Nat) : W32 := if off % 8 = 4 then (data >>> 32).truncate 32 else data.truncate 32

/-- A legal write: both words are checked first, flagged lower first, and then take effect, of a WIN pair the route before
the control word (R380, R386). -/
def writeWords (s : State) (ws : List (Nat × W32)) (data : W64) (priv sec : Bool) (src : Src) : State :=
  let plans := ws.filterMap fun w => (regRow s.par w.1).map fun row => planWord s w.1 row (laneOf data w.1) w.2 priv sec
  let s := flagPlans src s plans
  let order := if plans.any fun p => isWinOff p.off then plans.reverse else plans
  order.foldl (fun s p => applyWord s p (laneOf data p.off) sec src) s

/-- A write access; the flag tells a bus error. -/
def busWrite (s : State) (off size : Nat) (data : W64) (priv sec : Bool) (src : Src) : State × Bool :=
  match busWords s off size src with
  | [] => (s, true)
  | ws => (writeWords s ws data priv sec src, false)

/-- One word of a read. In a frame, TGT_CLAIM and TGT_PEEK are operations (09 R217); the word is what they answer. -/
def readWord (s : State) (off : Nat) (priv sec : Bool) (src : Src) : State × W32 :=
  if isTgtOff off && decide (off % 0x1000 < 8) && priv then
    let t := (off - 0x100000) / 0x1000
    let path := Path.frame sec src
    if off % 0x1000 = Reg.TGT_PEEK then (peekDo s t path, peekWord s t path.ctx)
    else
      let w := match claimPick s t path.ctx with
        | some e => claimWord e.ev e.group e.eff true
        | none => noneWord
      (claimDo s t path, w)
  else (s, regRead s off priv sec)

/-- A read access of 32 or 64 bits, its data on their lanes; `none`: a bus error. A 64-bit read of TGT_CLAIM and TGT_PEEK
peeks after the claim: a Burin or the side-band, which takes the claim's word as it is accepted, has the peek of that moment
(DESIGN CHOICE, log 68). -/
def busRead (s : State) (off size : Nat) (priv sec : Bool) (src : Src) : Option (State × W64) :=
  match busWords s off size src with
  | [(a, m)] =>
    let r := readWord s a priv sec src
    let v : W64 := (r.2 &&& m).zeroExtend 64
    some (r.1, if a % 8 = 4 then v <<< 32 else v)
  | [(a, _), (b, _)] =>
    let r := readWord s a priv sec src
    let q := readWord r.1 b priv sec src
    some (q.1, q.2 ++ r.2)
  | _ => none

/-! ### Where an access goes (R390, R391; 02 R41, R43; 17 R402, R408, R419) -/

def isPwrOff (off : Nat) : Bool := decide (0x36000 ≤ off) && decide (off < 0x37000)
/-- Regions outside the CLK_MAIN domain. -/
def offMain (off : Nat) : Bool := decide (0x36000 ≤ off) && decide (off < 0x39000)
def isGlbOff (off : Nat) : Bool := decide (off < 0x10000)

/-- The CLK_MAIN domain answers register accesses of the Burins and the side-band. -/
def mainReach (s : State) (off : Nat) : Bool :=
  (match s.rst.phase with
   | .run => true
   | .w2 => true
   | .init => isGlbOff off
   | _ => false) && decide (pwrPhase s ≠ 3) && decide (pwrPhase s ≠ 4) && decide (pwrPhase s ≠ 5)

/-- A register is within reach of a Burin or of the side-band: its domain is clocked and out of reset. -/
def fastReach (s : State) (off : Nat) : Bool := offMain off || mainReach s off

/-- An access accepted on the register port: outside the PWR region it is activity and wakes the block from DOZE (17 R402,
R403). -/
def portSeen (s : State) (off : Nat) : State := if isPwrOff off then s else wake (activity s) 5 0

/-- A claim through a frame waits while the engine holds another response (09 R197). -/
def frameWaits (s : State) (off : Nat) : Bool :=
  isTgtOff off && decide (off % 0x1000 < 4) && (s.tgt ((off - 0x100000) / 0x1000)).wait.isSome

/-- A write of TGT_VPE waits while a virtual claim's EXT has not issued. -/
def vpeWaits (s : State) (off : Nat) : Bool :=
  isTgtOff off && decide (off % 0x1000 / 8 = 5) && setVpeWaits s ((off - 0x100000) / 0x1000)

/-- An access on the register port that the engine of its frame does not take now. -/
def portHeld (s : State) (a : BusAcc) : Bool :=
  a.priv && (if a.read then frameWaits s a.off.toNat else vpeWaits s a.off.toNat)

/-- A read on the register port, accepted as number n. TGT_CLAIM is answered when its claim is (09 R218). -/
def portRead (s : State) (n : Nat) (a : BusAcc) : State :=
  let off := a.off.toNat
  let t := (off - 0x100000) / 0x1000
  let path := Path.frame a.sec .port { priv := a.priv, wide := decide (a.size = 3), taken := 0 }
  if isTgtOff off && a.priv && decide (off % 0x1000 = Reg.TGT_CLAIM) && !(busWords s off a.size.toNat .port).isEmpty then
    claimDo s t path
  else match busRead s off a.size.toNat a.priv a.sec .port with
  | some r => portAnswer r.1 n false r.2
  | none => portAnswer s n true 0

/-- An access on the register port takes effect, and is answered (16 R378, R379). -/
def portServe (s : State) (n : Nat) (a : BusAcc) : State :=
  if a.read then portRead s n a
  else
    let r := busWrite s a.off.toNat a.size.toNat a.data a.priv a.sec .port
    portAnswer r.1 n r.2 0

/-- An access on the register port (02 R32): it is accepted while fewer than 8 are unanswered or untaken. The initialisation of a
cold or warm reset answers the GLB region and stalls the first other access (02 R41, 16 R378), after which reg_req_ready_o is
low. -/
def portWrite (s : State) (a : BusAcc) : State :=
  let off := a.off.toNat
  let s := portTaken s a.taken
  if !portRoom s then s
  else if decide (s.rst.phase = .init) then
    if !s.port.stalled.isEmpty then s
    else
      let s := portAccept s
      if isGlbOff off then portServe s (portLast s) a
      else { s with port := { s.port with stalled := [(portLast s, a)] } }
  else if regPortOpen s && !portHeld s a then
    let s := portAccept (portSeen s off)
    portServe s (portLast s) a
  else s

/-- A write from any source; a Burin's access to a block register, or the side-band's, wakes the block from DOZE (17 R402). -/
def srcWrite (s : State) (a : BusAcc) : State :=
  if a.src = .port then portWrite s a
  else
    let s := if a.same then s else trigOver s
    if a.read then s
    -- a Burin's access while CLK_MAIN is stopped waits and is a wake cause (14 R330)
    else if decide (a.src ≠ .side) && (decide (pwrPhase s = 3) || decide (pwrPhase s = 4)) then wake s 3 0
    else if fastReach s a.off.toNat then
      (busWrite (wake s 5 0) a.off.toNat a.size.toNat a.data a.priv a.sec a.src).1
    else s

/-- A 32-bit write, as the rows that name one register carry it. -/
def regWrite (s : State) (off : Nat) (acc : RegAcc) : State :=
  let d : W64 := acc.data.zeroExtend 64
  srcWrite s { off := BitVec.ofNat 24 off, size := 2, data := if off % 8 = 4 then d <<< 32 else d,
               priv := acc.priv, sec := acc.sec, src := acc.src, taken := acc.taken, same := acc.same }

/-! ### The rows that are writes of one register -/

def execRegisterWrite (a : BusAcc) (s : State) : Out := .next (srcWrite s a)
def execGlbRstCtrlWarm (acc : RegAcc) (s : State) : Out := .next (regWrite s Reg.GLB_RST_CTRL acc)
def execWinCtlWrite (n : BitVec 12) (acc : RegAcc) (s : State) : Out := .next (regWrite s (winOff n.toNat Reg.WIN_CTL) acc)
def execWinRouteWrite (n : BitVec 12) (acc : RegAcc) (s : State) : Out := .next (regWrite s (winOff n.toNat Reg.WIN_ROUTE) acc)
def execWinXstatWrite (n : BitVec 12) (acc : RegAcc) (s : State) : Out := .next (regWrite s (winOff n.toNat Reg.WIN_XSTAT) acc)
def execTgtIcfgWrite (t : BitVec 7) (i : BitVec 5) (acc : RegAcc) (s : State) : Out :=
  .next (regWrite s (icfgOff t.toNat i.toNat) acc)
def execMsgFenceReq (acc : RegAcc) (s : State) : Out := .next (regWrite s Reg.MSG_FENCE acc)
def execMsgPqCfgWrite (acc : RegAcc) (s : State) : Out := .next (regWrite s Reg.MSG_PQ_CFG acc)
def execRnkCtrlWrite (acc : RegAcc) (s : State) : Out := .next (regWrite s Reg.RNK_CTRL acc)
def execPnlCtrlWrite (acc : RegAcc) (s : State) : Out := .next (regWrite s Reg.PNL_CTRL acc)
def execCmdDbWrite (r : BitVec 3) (acc : RegAcc) (s : State) : Out := .next (regWrite s (ringOff r.toNat Reg.CMD_DB) acc)
def execCmdRctrlWrite (r : BitVec 3) (acc : RegAcc) (s : State) : Out := .next (regWrite s (ringOff r.toNat Reg.CMD_RCTRL) acc)
def execCmdRstatClear (r : BitVec 3) (acc : RegAcc) (s : State) : Out := .next (regWrite s (ringOff r.toNat Reg.CMD_RSTAT) acc)
def execMbxAck (acc : RegAcc) (s : State) : Out := .next (regWrite s Reg.MBX_ACK acc)
def execWftRedisc (acc : RegAcc) (s : State) : Out := .next (regWrite s Reg.WFT_CTRL acc)
def execWftPrst (acc : RegAcc) (s : State) : Out := .next (regWrite s Reg.WFT_PRST acc)
def execCohFlushReq (acc : RegAcc) (s : State) : Out := .next (regWrite s Reg.COH_FLUSH acc)
def execBurHold (acc : RegAcc) (s : State) : Out := .next (regWrite s Reg.BUR_CTL acc)
def execBurRst (acc : RegAcc) (s : State) : Out := .next (regWrite s Reg.BUR_CTL acc)
def execBurLoadData (acc : RegAcc) (s : State) : Out := .next (regWrite s Reg.BUR_LOAD_DATA acc)
def execSbdCtrlClose (acc : RegAcc) (s : State) : Out := .next (regWrite s Reg.SBD_CTRL acc)
def execGlbLockWrite (acc : RegAcc) (s : State) : Out := .next (regWrite s Reg.GLB_LOCK acc)
def execPrfRefWrite (acc : RegAcc) (s : State) : Out := .next (regWrite s Reg.PRF_REF acc)
def execPrfAdopt (acc : RegAcc) (s : State) : Out := .next (regWrite s Reg.PRF_CTRL acc)
def execPwrToMain (acc : RegAcc) (s : State) : Out := .next (regWrite s Reg.PWR_CTRL acc)
def execPwrHoldRelease (acc : RegAcc) (s : State) : Out := .next (regWrite s Reg.PWR_HOLD_RELEASE acc)
def execPwrDvfsReqWrite (acc : RegAcc) (s : State) : Out := .next (regWrite s Reg.PWR_DVFS_REQ acc)

end Sys2Proof.Machine
end

