-- ==== Sys2Proof/Machine/Operands.lean ====
section
/-! DEFINITION. The Burins' operand forms: general registers, the regions of their address space, local registers, the host
window and block registers (14 R328 to R330, R345; 18 R435). -/

namespace Sys2Proof.Machine

/-! ### General registers (R328) -/

def BurCore.gr (c : BurCore) (r : RegNo) : W32 := Tbl.get 0 c.g r.toNat
def setRegs (g : Tbl W32) (l : List (RegNo × W32)) : Tbl W32 := l.foldl (fun g e => Tbl.put g e.1.toNat e.2) g

/-! ### The address space (R329) -/

inductive Region
  | code | rom | data | loc | block | host | none
  deriving DecidableEq, Repr

def regionOf (a : W32) : Region :=
  let n := a.toNat
  if n < 0x18000 then .code
  else if 0x80000 ≤ n ∧ n < 0x88000 then .rom
  else if 0x100000 ≤ n ∧ n < 0x108000 then .data
  else if 0x200000 ≤ n ∧ n < 0x200100 then .loc
  else if 0x1000000 ≤ n ∧ n < 0x2000000 then .block
  else if 0x80000000 ≤ n then .host
  else .none

def fetchable (a : W32) : Bool :=
  decide (a.toNat % 4 = 0) && (decide (regionOf a = .code) || decide (regionOf a = .rom))

/-- A byte of code SRAM, data SRAM or the boot ROM. -/
def sramByte (c : BurCore) (a : Nat) : Byte :=
  let byte := fun (m : Tbl W32) (o : Nat) => BitVec.ofNat 8 ((Tbl.get 0 m (o / 4)).toNat >>> (8 * (o % 4)))
  if a < 0x18000 then byte c.code a
  else if 0x100000 ≤ a then byte c.data (a - 0x100000)
  else Config.bootRom (a - 0x80000)

/-- n bytes from a, little-endian. -/
def sramLoad (c : BurCore) (a : Nat) : Nat → Nat
  | 0 => 0
  | n + 1 => sramLoad c a n + ((sramByte c (a + n)).toNat <<< (8 * n))

/-- Store a byte in a table of words. -/
def putByte (m : Tbl W32) (o : Nat) (v : Byte) : Tbl W32 :=
  Tbl.put m (o / 4) (setField (Tbl.get 0 m (o / 4)) (8 * (o % 4) + 7) (8 * (o % 4)) v.toNat)

def putBytes (m : Tbl W32) (o : Nat) : Nat → Nat → Tbl W32
  | 0, _ => m
  | n + 1, v => putByte (putBytes m o n v) (o + n) (BitVec.ofNat 8 (v >>> (8 * n)))

/-- The instruction word at an address that can be fetched from. -/
def fetchWord (c : BurCore) (a : W32) : W32 := w32 (sramLoad c a.toNat 4)

/-! ### Local registers (R345) -/

/-- Misses of a Burin, and strokes left in the window. -/
def hbStat (s : State) (u : Bur) : W32 :=
  w32 (256 - s.bur.win + (s.core u).miss * 2 ^ 9 + (s.core (burOther u)).miss * 2 ^ 12)

/-- TIMER while it counts down: cycles are not counted here, and what it has lost since its last read or write is free, within
what is left before 0, which TIMER_EXPIRE brings (log 20). -/
def timerView (c : BurCore) : W32 := c.timer - w32 ((Config.timerNow c.timer c.ran).toNat % c.timer.toNat)

/-- A load of a local register; `none`: no register. A write-only one reads 0. -/
def locLoad (s : State) (u : Bur) (o : Nat) : Option W32 :=
  let c := s.core u
  match o with
  | 0x00 => some (whoami s u)
  | 0x04 => some c.tpc
  | 0x08 => some c.tflags
  | 0x0C => some c.tcause
  | 0x10 => some c.taddr
  | 0x14 => some c.trep
  | 0x18 => some c.ipend
  | 0x1C => some c.imask
  | 0x20 => some c.spLo
  | 0x24 => some c.spHi
  | 0x28 => some 0
  | 0x2C => some (hbStat s u)
  | 0x30 => some c.hwin
  | 0x34 => some 0
  | 0x38 => some c.peerIn
  | 0x3C => some (if c.timer = 0 then 0 else timerView c)
  | 0x40 => some c.veto
  | 0x44 => some c.hostIn
  | 0x48 => some 0
  | _ => none

/-- What a read of a local register leaves: TIMER goes on from what was read. -/
def locTake (s : State) (u : Bur) (o : Nat) (v : W32) : State :=
  if o = 0x3C then s.modCore u fun c => { c with timer := v } else s

/-- HB: any write is a heartbeat. -/
def beatHeart (s : State) (u : Bur) : State := s.modCore u fun c => { c with beat := true }

/-- A store to a local register; a read-only one ignores it. A mask that now admits a pending interrupt wakes the block
from NAP (17 R417). -/
def locStore (s : State) (u : Bur) (o : Nat) (v : W32) : Option State :=
  let upd := fun (f : BurCore → BurCore) => some (s.modCore u f)
  match o with
  | 0x00 => some s
  | 0x04 => upd fun c => { c with tpc := v }
  | 0x08 => upd fun c => { c with tflags := v }
  | 0x0C => some s
  | 0x10 => some s
  | 0x14 => upd fun c => { c with trep := v }
  | 0x18 => upd fun c => { c with ipend := c.ipend &&& ~~~v }
  | 0x1C => some (burWake s (s.modCore u fun c => { c with imask := v }))
  | 0x20 => upd fun c => { c with spLo := v }
  | 0x24 => upd fun c => { c with spHi := v }
  | 0x28 => some (beatHeart s u)
  | 0x2C => some s
  | 0x30 => upd fun c => { c with hwin := v &&& 0x1FFFFF }
  | 0x34 => some (peerOut s u v)
  | 0x38 => some s
  | 0x3C => upd fun c => { c with timer := v, ran := 0 }
  | 0x40 => upd fun c => { c with veto := v &&& 1 }
  | 0x44 => some s
  | 0x48 => some (hostOut s v)
  | _ => none

/-! ### Accesses (R329, R330) -/

/-- A load: its state and value, a trap with its cause and TADDR, or it waits. -/
inductive LdRes
  | ok (s : State) (v : W64)
  | trap (cause : Nat) (addr : W32)
  | hold (s : State)

/-- A store: what it will do, a trap, or it waits. -/
inductive StRes
  | ok (f : State → State)
  | trap (cause : Nat) (addr : W32)
  | hold (s : State)

def cALIGN : Nat := 1
def cBUS : Nat := 2
def cREP : Nat := 3
def cEMUL : Nat := 4
def cSYS : Nat := 5
def cSTACK : Nat := 6

def burSrc : Bur → Src
  | .a => .burA
  | .b => .burB

/-- Host memory answers the Burins (02 R41, R43; 17 R401, R419). -/
def hostReach (s : State) : Bool := mainReach s 0 && decide (s.rst.phase ≠ .init)

/-- CLK_MAIN is stopped, or is about to be: in the commit and in sleep (17 R411). -/
def mainStops (s : State) : Bool := decide (pwrPhase s = 3) || decide (pwrPhase s = 4)

/-- The access waits. One that finds CLK_MAIN stopped is a wake cause in NAP, and is latched in its commit (R330; 17 R410,
R417). -/
def burWaits (s : State) : State := if mainStops s then wake s 3 0 else s

/-- Host address of a host-window address. -/
def hostAddr (c : BurCore) (a : W32) : Nat := haddr (c.hwin.toNat * 2 ^ 31 + (a.toNat - 0x80000000))

/-- Shift a bus word down to its first byte. -/
def downLane (v : W64) (off : Nat) : W64 := v >>> (8 * (off % 8))
def upLane (v : W64) (off : Nat) : W64 := v <<< (8 * (off % 8))

/-- A load of 2^size bytes; `fail`: the host-memory access fails, as does one that the coherent agent has failed (13 R321). -/
def burLoad (s : State) (u : Bur) (a : W32) (size : Nat) (fail : Bool) : LdRes :=
  let c := s.core u
  let bytes := 2 ^ size
  if a.toNat % bytes ≠ 0 then .trap cALIGN a
  else match regionOf a with
  | .code => .ok s (BitVec.ofNat 64 (sramLoad c a.toNat bytes))
  | .rom => .ok s (BitVec.ofNat 64 (sramLoad c a.toNat bytes))
  | .data => .ok s (BitVec.ofNat 64 (sramLoad c a.toNat bytes))
  | .loc => match if size = 2 then locLoad s u (a.toNat - 0x200000) else none with
    | some v => .ok (locTake s u (a.toNat - 0x200000) v) (v.zeroExtend 64)
    | none => .trap cBUS a
  | .block =>
    let off := a.toNat - 0x1000000
    if !fastReach s off || mainStops s || frameWaits s off then .hold (burWaits s)
    else match busRead (wake s 5 0) off size true true (burSrc u) with
      | some (s, v) => .ok s (downLane v off)
      | none => .trap cBUS a
  | .host =>
    if !hostReach s then .hold (burWaits s)
    else if fail || s.lost (.burin u) (hostAddr c a) then .trap cBUS a
    else .ok ((wake s 5 0).reads (hostAddr c a) bytes) (BitVec.ofNat 64 (memLoad s.mem (hostAddr c a) bytes))
  | .none => .trap cBUS a

/-- A store of 2^size bytes by the instruction at pc. -/
def burStore (s : State) (u : Bur) (a : W32) (size : Nat) (v : W64) (fail : Bool) : StRes :=
  let c := s.core u
  let bytes := 2 ^ size
  if a.toNat % bytes ≠ 0 then .trap cALIGN a
  else match regionOf a with
  | .code =>
    if regionOf c.pc = .rom then
      .ok fun s => s.modCore u fun c => { c with code := putBytes c.code a.toNat bytes v.toNat }
    else .trap cBUS a
  | .rom => .trap cBUS a
  | .data => .ok fun s => s.modCore u fun c => { c with data := putBytes c.data (a.toNat - 0x100000) bytes v.toNat }
  | .loc =>
    if size = 2 ∧ (locStore s u (a.toNat - 0x200000) 0).isSome then
      .ok fun s => (locStore s u (a.toNat - 0x200000) (v.truncate 32)).getD s
    else .trap cBUS a
  | .block =>
    let off := a.toNat - 0x1000000
    if !fastReach s off || mainStops s || vpeWaits s off then .hold (burWaits s)
    else if busWords s off size (burSrc u) = [] then .trap cBUS a
    else .ok fun s => (busWrite (wake (trigOver s) 5 0) off size (upLane v off) true true (burSrc u)).1
  | .host =>
    if !hostReach s then .hold (burWaits s)
    else if fail || s.lost (.burin u) (hostAddr c a) || inSafe s then .trap cBUS a
    else .ok fun s => (wake s 5 0).storeBytes (hostAddr c a) bytes v.toNat
  | .none => .trap cBUS a

/-- The access of ATOR and ATCLR: data SRAM and the host window alone (R332). -/
def burAtomic (s : State) (u : Bur) (a : W32) (f : W32 → W32) (fail : Bool) : LdRes × StRes :=
  let ld : LdRes := if a.toNat % 4 ≠ 0 then .trap cALIGN a
    else if regionOf a = .data ∨ regionOf a = .host then burLoad s u a 2 fail else .trap cBUS a
  match ld with
  | .ok s' v => (.ok s' v, burStore s' u a 2 ((f (v.truncate 32)).zeroExtend 64) fail)
  | r => (r, .trap cBUS a)

/-- Store words one after another; the first that traps or waits decides. -/
def burStores (s : State) (u : Bur) (fail : Bool) : List (W32 × W32) → StRes
  | [] => .ok id
  | (a, v) :: r =>
    match burStore s u a 2 (v.zeroExtend 64) fail, burStores s u fail r with
    | .ok f, .ok g => .ok fun s => g (f s)
    | .ok _, e => e
    | e, _ => e

/-- Load words one after another; the words go with an answer that is `ok`. -/
def burLoads (s : State) (u : Bur) (fail : Bool) : List W32 → LdRes × List W32
  | [] => (.ok s 0, [])
  | a :: r =>
    match burLoad s u a 2 fail with
    | .ok s v =>
      let rest := burLoads s u fail r
      (rest.1, v.truncate 32 :: rest.2)
    | e => (e, [])

end Sys2Proof.Machine
end

