-- ==== Sys2Proof/WellFormed.lean ====
section
/-! DEFINITION. When a Burin's instruction, and a command that names one, is well formed: the reserved values of 14 R333. -/

namespace Sys2Proof

/-- The instruction has a word that spells it (14 R332, R333). -/
def BInstr.wf : BInstr → Bool
  | .b cond _ => decide (cond.toNat < 9)
  | .ldd rd _ _ => !rd.getLsbD 0
  | .std rd _ _ => !rd.getLsbD 0
  | .ldwp rd ra _ => decide (rd ≠ ra)
  | .undef w => (decodeOp w).isNone
  | _ => true

/-- A command is well formed: a row of a Burin's instruction names one that R333 does not call undefined, EMUL a word that it
does; in every other row every value of the operands is meaningful (a target, line or ring that is not built makes the
happening one that does not occur). -/
def Instr.wf : Instr → Bool
  | .b _ cond off => BInstr.wf (.b cond off)
  | .ldd _ rd ra imm _ => BInstr.wf (.ldd rd ra imm)
  | .std _ rd ra imm _ => BInstr.wf (.std rd ra imm)
  | .ldwp _ rd ra imm _ => BInstr.wf (.ldwp rd ra imm)
  | .emul _ w => BInstr.wf (.undef w)
  | _ => true

end Sys2Proof
end

