-- ==== Sys2Proof/Machine/BurExec.lean ====
section
/-! DEFINITION. A Burin's instruction step (14 R331 to R344): the effect of an instruction, the delay slot, REP, traps and
interrupts. -/

namespace Sys2Proof.Machine

/-! ### Traps (R341 to R344) -/

/-- Trap entry (R342); the vector of cause c is 4 * c (R341). -/
def trapEnter (c : BurCore) (cause : Nat) (tpc addr : W32) (rep : Nat) : BurCore :=
  { c with tpc := tpc, tflags := c.flags, tcause := w32 cause, taddr := addr, trep := w32 rep, flags := trapFlags c.flags,
           pc := w32 (4 * cause), rep := none, waiting := false, slot := [] }

/-- Loads whose slot has come are complete (R335). -/
def landSlot (c : BurCore) : BurCore := { c with g := setRegs c.g c.slot, slot := [] }

/-- A synchronous trap; one raised while T is 1 is a double fault (R344). Inside a REP it names the REP and the iterations
left (R340); SYS names the next instruction. -/
def burTrap (s : State) (u : Bur) (cause : Nat) (addr : W32) : State :=
  let c := s.core u
  if flagT c.flags then burErr (s.setCore u { landSlot c with st := .halted, rep := none }) (2 + burNum u)
  else
    match c.rep with
    | some r => s.setCore u (trapEnter (landSlot c) cause r.addr addr r.left)
    | none => s.setCore u (trapEnter (landSlot c) cause (if cause = cSYS then c.pc + 4 else c.pc) addr 0)

/-- An interrupt that is set in both IPEND and IMASK. -/
def pendingInt (c : BurCore) : W32 := c.ipend &&& c.imask &&& 0xFF

/-- The interrupt that is taken at this instruction boundary (R335, R340, R343): its cause. -/
def takeable (c : BurCore) : Option Nat :=
  if flagIE c.flags && !flagT c.flags && c.slot.isEmpty && (c.rep.all fun r => r.began) then
    ((List.range 8).find? fun i => bitAt (pendingInt c) i).map (· + 8)
  else none

/-! ### What one instruction does -/

/-- The register effect of an instruction that goes on: registers written, registers loaded, FLAGS, the next address, a REP
that begins, a WAIT that begins, and what it stores. -/
structure BOut where
  writes : List (RegNo × W32)
  loads  : List (RegNo × W32)
  flags  : W32
  next   : W32
  rep    : Option Rep
  wait   : Bool
  store  : State → State

inductive BEff
  | go (s : State) (o : BOut)
  | trap (cause : Nat) (addr : W32)
  | hold (s : State)

/-- Nothing but the next instruction. -/
def BOut.plain (c : BurCore) : BOut :=
  { writes := [], loads := [], flags := c.flags, next := c.pc + 4, rep := none, wait := false, store := id }

/-- An effect on registers alone. -/
def regEff (s : State) (u : Bur) (f : BurCore → BOut → BOut) : BEff := .go s (f (s.core u) (BOut.plain (s.core u)))

/-- A load, its value handed on. -/
def loadEff (u : Bur) (r : LdRes) (f : BurCore → W64 → BOut → BOut) : BEff :=
  match r with
  | .ok s v => .go s (f (s.core u) v (BOut.plain (s.core u)))
  | .trap c a => .trap c a
  | .hold s => .hold s

def storeEff (s : State) (u : Bur) (r : StRes) (f : BurCore → BOut → BOut) : BEff :=
  match r with
  | .ok g => .go s (f (s.core u) { BOut.plain (s.core u) with store := g })
  | .trap c a => .trap c a
  | .hold s => .hold s

def widthSize : Width → Nat
  | .byte => 0 | .half => 1 | .word => 2

/-- The partner register of LDD and STD. -/
def pairReg (r : RegNo) : RegNo := r + 1

/-- Registers that a CALL mask names, ascending (R336). -/
def maskRegs (m : Byte) : List RegNo := ((List.range 8).filter fun k => bitAt m k).map fun k => BitVec.ofNat 4 (4 + k)

def wordAddrs (a : W32) (n : Nat) : List W32 := (List.range n).map fun k => a + w32 (4 * k)

/-- CALL and CALLR (R336). -/
def callEff (s : State) (u : Bur) (m : Byte) (target : W32) (fail : Bool) : BEff :=
  let c := s.core u
  let sp := c.gr 14
  let rs := maskRegs m
  let size := 4 * (rs.length + 2)
  let new := sp - w32 size
  if sp.toNat % 4 ≠ 0 ∨ sp.toNat < size ∨ new < c.spLo then .trap cSTACK sp
  else
    let words := (c.pc + 4) :: m.zeroExtend 32 :: rs.map c.gr
    storeEff s u (burStores s u fail ((wordAddrs new words.length).zip words)) fun _ o =>
      { o with writes := [(14, new)], next := target }

/-- RET (R337). -/
def retEff (s : State) (u : Bur) (fail : Bool) : BEff :=
  let sp := (s.core u).gr 14
  match burLoads s u fail [sp, sp + 4] with
  | (.ok s1 _, [ra, mw]) =>
    let rs := maskRegs (mw.truncate 8)
    let size := 4 * (rs.length + 2)
    if field mw 31 8 ≠ 0 ∨ (s.core u).spHi.toNat < sp.toNat + size then .trap cSTACK sp
    else match burLoads s1 u fail (wordAddrs (sp + 8) rs.length) with
    | (.ok s2 v, l) =>
      loadEff u (.ok s2 v) fun _ _ o => { o with writes := rs.zip l ++ [(14, sp + w32 size)], next := ra }
    | (r, _) => loadEff u r fun _ _ o => o
  | (r, _) => loadEff u r fun _ _ o => o

/-- Instructions that REP may not repeat (R339). -/
def repIllegal : BInstr → Bool
  | .b _ _ => true
  | .call _ _ => true
  | .callr _ _ => true
  | .ret => true
  | .rep _ => true
  | .sys _ => true
  | .rett => true
  | .flgRead _ _ => true
  | .flgWrite _ _ => true
  | .flgIe _ _ _ => true
  | .wait => true
  | .undef _ => true
  | _ => false

/-- REP (R338, R339): a count of 0 skips the next instruction, unless R339 forbids it. -/
def repEff (s : State) (u : Bur) (rc : RegNo) : BEff :=
  let c := s.core u
  let n := (c.gr rc).toNat
  if !fetchable (c.pc + 4) then .trap cBUS (c.pc + 4)
  else
    let i := burDecode (fetchWord c (c.pc + 4))
    if repIllegal i then .trap cREP 0
    else if n = 0 then regEff s u fun c o => { o with next := c.pc + 8 }
    else regEff s u fun c o => { o with rep := some { left := n, instr := i, addr := c.pc, began := false } }

/-- RETT (R340, R342): with TREP nonzero the repeated instruction goes on from the word after TPC. -/
def rettEff (s : State) (u : Bur) : BEff :=
  let c := s.core u
  if !flagT c.flags then .trap cEMUL (burEncode .rett)
  else
    let f := c.tflags &&& 0x3F
    if c.trep = 0 then regEff s u fun c o => { o with flags := f, next := c.tpc }
    else if !fetchable (c.tpc + 4) then .trap cBUS (c.tpc + 4)
    else
      let i := burDecode (fetchWord c (c.tpc + 4))
      regEff s u fun c o => { o with flags := f, next := c.tpc + 4,
                                     rep := some { left := c.trep.toNat, instr := i, addr := c.tpc, began := true } }

/-- The effect of an instruction (R332); `fail`: its host-memory access fails. -/
def burEff (s : State) (u : Bur) (i : BInstr) (fail : Bool) : BEff :=
  let c := s.core u
  match i with
  | .nop => regEff s u fun _ o => o
  | .alu fn rd ra rb => regEff s u fun c o =>
      { o with writes := [(rd, aluVal fn (c.gr ra) (c.gr rb))], flags := aluFlags fn c.flags (c.gr ra) (c.gr rb) }
  | .cmp ra rb => regEff s u fun c o => { o with flags := subFlags c.flags (c.gr ra) (c.gr rb) }
  | .imm fn rd ra imm => regEff s u fun c o =>
      { o with writes := [(rd, aluVal (immFn fn) (c.gr ra) (immArg fn imm))],
               flags := aluFlags (immFn fn) c.flags (c.gr ra) (immArg fn imm) }
  | .shi k rd ra amt => regEff s u fun c o =>
      let v := shiftVal k (c.gr ra) amt.toNat
      { o with writes := [(rd, v)], flags := setZN c.flags v }
  | .lui rd imm => regEff s u fun _ o => { o with writes := [(rd, imm.zeroExtend 32 <<< 14)] }
  | .cmpi ra imm => regEff s u fun c o => { o with flags := subFlags c.flags (c.gr ra) (imm.signExtend 32) }
  | .load w rd ra imm =>
      loadEff u (burLoad s u (c.gr ra + imm.signExtend 32) (widthSize w) fail) fun _ v o =>
        { o with loads := [(rd, v.truncate 32)] }
  | .ldd rd ra imm =>
      loadEff u (burLoad s u (c.gr ra + imm.signExtend 32) 3 fail) fun _ v o =>
        { o with loads := [(rd, v.truncate 32), (pairReg rd, (v >>> 32).truncate 32)] }
  | .ldwp rd ra imm =>
      loadEff u (burLoad s u (c.gr ra) 2 fail) fun c v o =>
        { o with loads := [(rd, v.truncate 32)], writes := [(ra, c.gr ra + imm.signExtend 32)] }
  | .store w rd ra imm =>
      storeEff s u (burStore s u (c.gr ra + imm.signExtend 32) (widthSize w) ((c.gr rd).zeroExtend 64) fail) fun _ o => o
  | .std rd ra imm =>
      storeEff s u (burStore s u (c.gr ra + imm.signExtend 32) 3 (c.gr (pairReg rd) ++ c.gr rd) fail) fun _ o => o
  | .stwp rd ra imm =>
      storeEff s u (burStore s u (c.gr ra) 2 ((c.gr rd).zeroExtend 64) fail) fun c o =>
        { o with writes := [(ra, c.gr ra + imm.signExtend 32)] }
  | .ator rd ra rb => atomEff s u rd (c.gr ra) (fun old => old ||| c.gr rb) fail
  | .atclr rd ra rb => atomEff s u rd (c.gr ra) (fun old => old &&& ~~~(c.gr rb)) fail
  | .b cond off => regEff s u fun c o =>
      if condHolds cond c.flags then { o with next := c.pc + (off.signExtend 32 <<< 2) } else o
  | .call m off => callEff s u m (c.pc + (off.signExtend 32 <<< 2)) fail
  | .callr m rt => callEff s u m (c.gr rt) fail
  | .ret => retEff s u fail
  | .rep rc => repEff s u rc
  | .sys imm => .trap cSYS (imm.zeroExtend 32)
  | .rett => rettEff s u
  | .flgRead rd _ => regEff s u fun c o => { o with writes := [(rd, c.flags)] }
  | .flgWrite _ ra => regEff s u fun c o => { o with flags := flagsWrite c.flags (c.gr ra) }
  | .flgIe on _ _ => regEff s u fun c o => { o with flags := setBit c.flags 4 on }
  | .wait => regEff s u fun _ o => { o with wait := true }
  | .undef w => .trap cEMUL w
where
  /-- ATOR and ATCLR: one access that loads and stores. -/
  atomEff (s : State) (u : Bur) (rd : RegNo) (a : W32) (f : W32 → W32) (fail : Bool) : BEff :=
    match burAtomic s u a f fail with
    | (.ok s' v, .ok g) => .go s' { BOut.plain (s'.core u) with loads := [(rd, v.truncate 32)], store := g }
    | (.ok _ _, .trap c a) => .trap c a
    | (.ok _ _, .hold s) => .hold s
    | (.trap c a, _) => .trap c a
    | (.hold s, _) => .hold s

/-! ### One step -/

/-- The core after an instruction. Writes come first, then the loads whose slot this was; its own loads wait for the next
instruction (R335), except inside a REP, where each iteration completes its load (R338). -/
def retire (c : BurCore) (o : BOut) : BurCore :=
  let g := setRegs (setRegs c.g o.writes) c.slot
  match c.rep with
  | some r =>
    let last := decide (r.left ≤ 1)
    { c with g := setRegs g o.loads, slot := [], flags := o.flags, pc := if last then o.next else c.pc,
             rep := if last then none else some { r with left := r.left - 1, began := true },
             waiting := false, ran := c.ran + 1 }
  | none =>
    { c with g := g, slot := o.loads, flags := o.flags, pc := o.next, rep := o.rep, waiting := o.wait, ran := c.ran + 1 }

/-- Execute an instruction: a faulting one has no effect but its trap. -/
def burGo (s : State) (u : Bur) (i : BInstr) (fail : Bool) : State :=
  match burEff s u i fail with
  | .go s' o => o.store (s'.modCore u fun c => retire c o)
  | .trap cause addr => burTrap s u cause addr
  | .hold s' => s'

/-- An instruction stalls until its accesses to host memory have been served, and takes in those that failed (R330, 13 R321). -/
def burStep (s : State) (u : Bur) (i : BInstr) (fail : Bool) : State :=
  let t := s.served (burGo s u i fail)
  if s.coh.failed = [] then t else t.forget (.burin u)

/-- A Burin may execute at this boundary: it runs, no interrupt is due, and no WAIT holds it (R343). -/
def burReady (s : State) (u : Bur) : Bool :=
  burRuns s u && (takeable (s.core u)).isNone && (!(s.core u).waiting || decide (pendingInt (s.core u) ≠ 0))

/-- The instruction of a row; one that has no word is undefined (R333). -/
def rowInstr (i : BInstr) : BInstr := if i.wf then i else .undef (burEncode i)

/-- The step of a row that names an instruction of Burin u. While a REP runs, the instruction is the one it latched. The word
at the program counter is not compared with the row (log 24). -/
def burRow (s : State) (u : Bur) (i : BInstr) (fail : Bool) : State :=
  if !burReady s u then s
  else match (s.core u).rep with
  | some r => if rowInstr i = r.instr then burStep s u r.instr fail else s
  | none => if fetchable (s.core u).pc then burStep s u (rowInstr i) fail else burTrap s u cBUS (s.core u).pc

/-- INTERRUPT_TAKE (R342, R343). -/
def interruptTake (s : State) (u : Bur) : State :=
  let c := s.core u
  if !burRuns s u then s
  else match takeable c with
  | none => s
  | some cause =>
    match c.rep with
    | some r => s.setCore u (trapEnter c cause r.addr 0 r.left)
    | none => s.setCore u (trapEnter c cause c.pc 0 0)

end Sys2Proof.Machine
end

