-- ==== Sys2Proof/Machine/BurRows.lean ====
section
/-! DEFINITION. The meanings of the Burins' rows (14 R332, R333, R343 to R345): every instruction goes through `burRow`. -/

namespace Sys2Proof.Machine

def execNop (u : Bur) (s : State) : Out := .next (burRow s u (.nop) false)
def execAdd (u : Bur) (rd ra rb : RegNo) (s : State) : Out := .next (burRow s u (.alu .add rd ra rb) false)
def execSub (u : Bur) (rd ra rb : RegNo) (s : State) : Out := .next (burRow s u (.alu .sub rd ra rb) false)
def execAnd (u : Bur) (rd ra rb : RegNo) (s : State) : Out := .next (burRow s u (.alu .and rd ra rb) false)
def execOr (u : Bur) (rd ra rb : RegNo) (s : State) : Out := .next (burRow s u (.alu .or rd ra rb) false)
def execXor (u : Bur) (rd ra rb : RegNo) (s : State) : Out := .next (burRow s u (.alu .xor rd ra rb) false)
def execShl (u : Bur) (rd ra rb : RegNo) (s : State) : Out := .next (burRow s u (.alu .shl rd ra rb) false)
def execShr (u : Bur) (rd ra rb : RegNo) (s : State) : Out := .next (burRow s u (.alu .shr rd ra rb) false)
def execSar (u : Bur) (rd ra rb : RegNo) (s : State) : Out := .next (burRow s u (.alu .sar rd ra rb) false)
def execMul (u : Bur) (rd ra rb : RegNo) (s : State) : Out := .next (burRow s u (.alu .mul rd ra rb) false)
def execCmp (u : Bur) (ra rb : RegNo) (s : State) : Out := .next (burRow s u (.cmp ra rb) false)
def execCrc (u : Bur) (rd ra rb : RegNo) (s : State) : Out := .next (burRow s u (.alu .crc rd ra rb) false)
def execAddi (u : Bur) (rd ra : RegNo) (imm : BitVec 18) (s : State) : Out := .next (burRow s u (.imm .addi rd ra imm) false)
def execAndi (u : Bur) (rd ra : RegNo) (imm : BitVec 18) (s : State) : Out := .next (burRow s u (.imm .andi rd ra imm) false)
def execOri (u : Bur) (rd ra : RegNo) (imm : BitVec 18) (s : State) : Out := .next (burRow s u (.imm .ori rd ra imm) false)
def execXori (u : Bur) (rd ra : RegNo) (imm : BitVec 18) (s : State) : Out := .next (burRow s u (.imm .xori rd ra imm) false)
def execShiLeft (u : Bur) (rd ra : RegNo) (amt : BitVec 5) (s : State) : Out := .next (burRow s u (.shi .left rd ra amt) false)
def execShiRight (u : Bur) (rd ra : RegNo) (amt : BitVec 5) (s : State) : Out := .next (burRow s u (.shi .right rd ra amt) false)
def execShiArith (u : Bur) (rd ra : RegNo) (amt : BitVec 5) (s : State) : Out := .next (burRow s u (.shi .arith rd ra amt) false)
def execLui (u : Bur) (rd : RegNo) (imm : BitVec 18) (s : State) : Out := .next (burRow s u (.lui rd imm) false)
def execCmpi (u : Bur) (ra : RegNo) (imm : BitVec 18) (s : State) : Out := .next (burRow s u (.cmpi ra imm) false)
def execLdb (u : Bur) (rd ra : RegNo) (imm : BitVec 18) (fail : Bool) (s : State) : Out := .next (burRow s u (.load .byte rd ra imm) fail)
def execLdh (u : Bur) (rd ra : RegNo) (imm : BitVec 18) (fail : Bool) (s : State) : Out := .next (burRow s u (.load .half rd ra imm) fail)
def execLdw (u : Bur) (rd ra : RegNo) (imm : BitVec 18) (fail : Bool) (s : State) : Out := .next (burRow s u (.load .word rd ra imm) fail)
def execLdd (u : Bur) (rd ra : RegNo) (imm : BitVec 18) (fail : Bool) (s : State) : Out := .next (burRow s u (.ldd rd ra imm) fail)
def execLdwp (u : Bur) (rd ra : RegNo) (imm : BitVec 18) (fail : Bool) (s : State) : Out := .next (burRow s u (.ldwp rd ra imm) fail)
def execStb (u : Bur) (rd ra : RegNo) (imm : BitVec 18) (fail : Bool) (s : State) : Out := .next (burRow s u (.store .byte rd ra imm) fail)
def execSth (u : Bur) (rd ra : RegNo) (imm : BitVec 18) (fail : Bool) (s : State) : Out := .next (burRow s u (.store .half rd ra imm) fail)
def execStw (u : Bur) (rd ra : RegNo) (imm : BitVec 18) (fail : Bool) (s : State) : Out := .next (burRow s u (.store .word rd ra imm) fail)
def execStd (u : Bur) (rd ra : RegNo) (imm : BitVec 18) (fail : Bool) (s : State) : Out := .next (burRow s u (.std rd ra imm) fail)
def execStwp (u : Bur) (rd ra : RegNo) (imm : BitVec 18) (fail : Bool) (s : State) : Out := .next (burRow s u (.stwp rd ra imm) fail)
def execAtor (u : Bur) (rd ra rb : RegNo) (fail : Bool) (s : State) : Out := .next (burRow s u (.ator rd ra rb) fail)
def execAtclr (u : Bur) (rd ra rb : RegNo) (fail : Bool) (s : State) : Out := .next (burRow s u (.atclr rd ra rb) fail)
def execB (u : Bur) (cond : BitVec 4) (off : BitVec 22) (s : State) : Out := .next (burRow s u (.b cond off) false)
def execCall (u : Bur) (mask : Byte) (off : BitVec 18) (fail : Bool) (s : State) : Out := .next (burRow s u (.call mask off) fail)
def execCallr (u : Bur) (mask : Byte) (rt : RegNo) (fail : Bool) (s : State) : Out := .next (burRow s u (.callr mask rt) fail)
def execRet (u : Bur) (fail : Bool) (s : State) : Out := .next (burRow s u (.ret) fail)
def execRep (u : Bur) (rc : RegNo) (s : State) : Out := .next (burRow s u (.rep rc) false)
def execSys (u : Bur) (imm : BitVec 18) (s : State) : Out := .next (burRow s u (.sys imm) false)
def execRett (u : Bur) (s : State) : Out := .next (burRow s u (.rett) false)
def execFlgRead (u : Bur) (rd : RegNo) (s : State) : Out := .next (burRow s u (.flgRead rd 0) false)
def execFlgWrite (u : Bur) (ra : RegNo) (s : State) : Out := .next (burRow s u (.flgWrite 0 ra) false)
def execFlgIeSet (u : Bur) (s : State) : Out := .next (burRow s u (.flgIe true 0 0) false)
def execFlgIeClear (u : Bur) (s : State) : Out := .next (burRow s u (.flgIe false 0 0) false)
def execWait (u : Bur) (s : State) : Out := .next (burRow s u (.wait) false)

/-- EMUL: a word that R333 calls undefined. -/
def execEmul (u : Bur) (word : W32) (s : State) : Out :=
  .next (if (decodeOp word).isNone then burRow s u (.undef word) false else s)

def execInterruptTake (u : Bur) (s : State) : Out := .next (interruptTake s u)

/-- TIMER reaches 0 (R345). -/
def timerExpire (s : State) (u : Bur) : State :=
  if burRuns s u && decide ((s.core u).timer ≠ 0) then burInt (s.modCore u fun c => { c with timer := 0 }) u 7 else s

def execTimerExpire (u : Bur) (s : State) : Out := .next (timerExpire s u)

/-! The local-register writes that are rows of their own. -/

def execHbWrite (u : Bur) (s : State) : Out := .next (if burRuns s u then beatHeart s u else s)
def execPeerOutWrite (u : Bur) (w : W32) (s : State) : Out := .next (if burRuns s u then peerOut s u w else s)
def execHostOutWrite (u : Bur) (w : W32) (s : State) : Out := .next (if burRuns s u then hostOut s w else s)

end Sys2Proof.Machine
end

