-- ==== Sys2Proof/Machine/Sideband.lean ====
section
/-! DEFINITION. The side-band port (15 R357 to R376, 16 R389): frames, the checks of a request, its server, and every
side-band command; presence and seal. -/

namespace Sys2Proof.Machine

/-! ### Frames (R357 to R360) -/

/-- SMBus reserves the address (02 R37). -/
def smbReserved (a : BitVec 7) : Bool :=
  decide (a ≤ 0x08) || decide (a = 0x0C) || decide (a = 0x28) || decide (a = 0x37) || decide (a = 0x61) || decide (0x78 ≤ a)

/-- CLK_FAST runs and its domain is out of reset, so the port acknowledges its address. -/
def sbOn (s : State) : Bool :=
  (match s.rst.phase with
   | .cold => false
   | .w5 => false
   | _ => true) &&
  !(s.pwr.fast.req || s.pwr.fast.ack || (decide (pwrPhase s = 4) && decide (pwrState s = 3))) &&
  !smbReserved (smbAddr s)

/-- Write-half data bytes that a command allows (R366); none: the code is undefined, or IDENT, which has no write half. -/
def sbLens (cmd : Byte) : List Nat :=
  match cmd.toNat with
  | 0x01 => [3]
  | 0x02 => [3]
  | 0x03 => [3]
  | 0x10 => [7]
  | 0x11 => [15]
  | 0x12 => [5]
  | 0x20 => [4]
  | 0x21 => [9, 13, 17, 21, 25, 29]
  | 0x22 => [4]
  | 0x28 => [3]
  | 0x29 => [3]
  | 0x2A => [3]
  | 0x2B => [3]
  | 0x2C => [3]
  | 0x30 => [27]
  | _ => []

def sbErr (s : State) (i : Nat) : State := setFlag s 11 Reg.SBD_ERR i 0 false

/-- CHK over the address byte, the command, the count and the data before it. -/
def chkOf (s : State) (cmd : Byte) (d : List Byte) : Byte :=
  crc8 ((smbAddr s ++ (0 : BitVec 1)) :: cmd :: BitVec.ofNat 8 d.length :: d.dropLast)

/-- The flag of SBD_ERR that a write half earns; `none`: it is accepted. -/
def frameFlag (s : State) (cmd : Byte) (d : List Byte) : Option Nat :=
  if sbLens cmd = [] ∧ cmd ≠ 0 then some 0
  else if d.length ∉ sbLens cmd then some 1
  else if d.getLast? ≠ some (chkOf s cmd d) then some 2
  else none

/-! ### Replies -/

/-- Data bytes of a command's reply (R366). -/
def sbDataLen (cmd : Byte) : Nat :=
  match cmd.toNat with
  | 0x01 => 1
  | 0x03 => 6
  | 0x10 => 8
  | 0x12 => 24
  | 0x30 => 24
  | _ => 0

/-- The reply, its data free where the command failed (log 25). -/
def replyOf (s : State) (cmd : Byte) (status : Nat) (data : List Byte) : List Byte :=
  byteN status :: cmd ::
    (if data.length = sbDataLen cmd then data
     else (List.range (sbDataLen cmd)).map fun k => Config.sbPad (s.rd Reg.SBD_CNT).toNat k)

/-- A reply that the port itself makes outside a session (check 1 of R362): the request is counted. -/
def replyNow (s : State) (cmd : Byte) (status : Nat) : State :=
  putReply (s.cnt32 Reg.SBD_CNT) (replyOf s cmd status [])

/-- A request answered in the session. -/
def sbAnswer (s : State) (q : SbReq) (status : Nat) (data : List Byte) : State :=
  sbAnswered (modSbd s fun b => { b with mirror := none }) q.seq (replyOf s q.cmd status data) q.onBus

/-! ### What the commands do (R366 to R370, R389) -/

def winOpen (s : State) : Bool := s.bit Reg.SBD_PRES 0

def sbFlags (s : State) : Byte :=
  byteN (b2n (inSafe s) + b2n (winOpen s) * 2 + s.fld Reg.SBD_PRES 10 9 * 4 + b2n s.bur.primB * 16)

def sbStatusDo (s : State) : SbAns :=
  { s := s, status := stOk,
    data := [byteN (server s), byteN (s.bur.a.st.code + s.bur.b.st.code * 16), byteN (pwrState s), sbFlags s,
             byteN (field (sbdPres s) 7 1), byteN (s.bur.a.auth + s.bur.b.auth * 16)] }

/-- WIDTH as the logarithm of the bytes. -/
def sbWidth (w : Nat) : Option Nat := if w = 4 then some 2 else if w = 8 then some 3 else none

def regReadDo (s : State) (q : SbReq) : SbAns :=
  match sbWidth (argAt q 3 1) with
  | none => ansNo s stBadRange
  | some size =>
    let off := argAt q 0 3
    match busRead (if isPwrOff off then s else wake s 5 0) off size true true .side with
    | none => ansNo s stBadRange
    | some (s, v) => { s := s, status := stOk, data := bytesOf (downLane v off).toNat 8 }

/-- The register holds a SEC field now, or R383 names it. -/
def dangerous (s : State) (off : Nat) : Bool :=
  match regRow s.par off with
  | none => false
  | some row => decide (secMask s off row ≠ 0) || off ∈ [Reg.GLB_LOCK, Reg.PRF_CTRL, Reg.PRF_REF]

def regWriteDo (s : State) (q : SbReq) : SbAns :=
  match sbWidth (argAt q 3 1) with
  | none => ansNo s stBadRange
  | some size =>
    let off := argAt q 0 3
    let ws := busWords s off size .side
    if ws = [] then ansNo s stBadRange
    else if !q.win && ws.any fun w => dangerous s w.1 then ansNo s stNeedsPresence
    else
      let data := BitVec.ofNat 64 (argAt q 4 (2 ^ size))
      ansOk (busWrite (if isPwrOff off then s else wake s 5 0) off size (upLane data off) true q.win .side).1

def logReadDo (s : State) (q : SbReq) : SbAns :=
  let i := argAt q 0 2
  if 64 ≤ i then ansNo s stBadRange
  else
    let v := logSlot s i
    { s := s, status := stOk, data := bytesOf v.w0.toNat 8 ++ bytesOf v.w1.toNat 8 ++ bytesOf v.w2.toNat 8 }

/-- What a served request does; SAFE_EXIT, whose reply may wait, apart. -/
def sbDo (s : State) (q : SbReq) : SbAns :=
  match q.cmd.toNat with
  | 0x03 => sbStatusDo s
  | 0x10 => regReadDo s q
  | 0x11 => regWriteDo s q
  | 0x12 => logReadDo s q
  | _ => windowDo s q

/-- A SAFE request that is accepted and whose reply waits for blk_safe_o. -/
def safeWait (s : State) (q : SbReq) : State := modSbd s fun b => { b with mirror := some { q with claimed := true } }

/-- The mirror holds a SAFE request that waits for blk_safe_o: any while it is about to fall. -/
def safeWaits (s : State) (q : SbReq) : Bool :=
  (decide (q.cmd = 0x28) || decide (q.cmd = 0x29)) && decide (s.err.safe ≠ .safe ∧ s.err.safe ≠ .out)

/-- The server carries a request out and answers. SAFE_EXIT is answered at once where R268 does so; otherwise it is accepted and
answered when blk_safe_o has fallen, and so is a SAFE_ENTER that comes meanwhile, with the entry after the exit (18 R437).
WARM_RESET starts after the reply (R370). -/
def serve (s : State) (q : SbReq) : State :=
  if q.cmd = 0x28 ∧ s.err.safe ≠ .safe ∧ s.err.safe ≠ .out then safeWait (safeCause s 3) q
  else if q.cmd = 0x29 then
    let wait := fun (s : State) => safeWait s q
    match s.err.safe with
    | .out => sbAnswer s q stOk []
    | .leaving _ _ => wait s
    | .safe => if burinRuns s then wait (safeLeaving s none) else sbAnswer s q stBusy []
  else
    let a := sbDo s q
    afterReply (sbAnswer a.s q a.status a.data) q

/-- The request's register lies within reach of the server, or the request names none (R367). -/
def sbReach (s : State) (q : SbReq) : Bool :=
  if q.cmd = 0x10 ∨ q.cmd = 0x11 then
    let off := argAt q 0 3
    fastReach s off && !(decide (q.cmd = 0x10) && frameWaits s off) && !(decide (q.cmd = 0x11) && vpeWaits s off)
  else if q.cmd = 0x12 then fastReach s 0
  else true

def needsWindow (cmd : Byte) : Bool := (decide (0x20 ≤ cmd) && decide (cmd ≤ 0x22)) || (decide (0x28 ≤ cmd) && decide (cmd ≤ 0x2C))

/-! ### A request (R361 to R365) -/

/-- Checks 3 and 4 of R362, and then the server: at once, or later. -/
def toServer (s : State) (cmd seq : Byte) (d : List Byte) (later : Bool) : State :=
  let q : SbReq := { cmd := cmd, seq := seq, data := d.dropLast, claimed := false, onBus := true, win := winOpen s }
  if server s = 0 then sbAnswer s q stBusy []
  else if needsWindow cmd && !q.win then sbAnswer s q stNeedsPresence []
  else if cmd = 0x30 ∧ server s ≠ 1 then sbAnswer s q stBusy []
  else
    -- a request for the firmware raises SBD in the primary (14 R341)
    let s := if server s = 1 then burInt s (primary s) 4 else s
    if later || decide (cmd = 0x30) || !sbReach s q then modSbd s fun b => { b with mirror := some q }
    else serve s q

/-- A request of an open or closed session: checks 1 and 2 of R362, then `go`, or `busy` where the mirror holds another
request. -/
def inSession (s : State) (cmd : Byte) (d : List Byte) (busy go : State → Byte → State) : State :=
  let seq := d.getD 1 0
  match s.sbd.token with
  | none => replyNow s cmd stBadRange
  | some tok =>
    if d.getD 0 0 ≠ tok then replyNow s cmd stBusy
    else match s.sbd.last.filter fun e => decide (e.1 = seq) with
    | some (_, r) => putReply (s.cnt32 Reg.SBD_CNT) r
    | none =>
      match s.sbd.mirror with
      | some q =>
        if q.seq = seq then modSbd s fun b => { b with mirror := some { q with onBus := true } }
        else busy s seq
      | none => go s seq

/-- The port's own reply to a request of the session, while another is in the mirror; it is saved with its SEQ. -/
def replyBeside (s : State) (cmd seq : Byte) (status : Nat) : State :=
  modSbd (replyNow s cmd status) fun b => { b with last := some (seq, b.reply) }

/-- A process call: nothing while the port does not answer; a malformed write half sets its flag (R358); a request is
activity and wakes the block (17 R403, R417). -/
def sbFrame (s : State) (cmd : Byte) (d : List Byte) (go : State → State) : State :=
  if !sbOn s then s
  else match frameFlag s cmd d with
  | some i => sbErr s i
  | none => go (wake (activity s) 4 0)

def sbRequest (s : State) (cmd : Byte) (d : List Byte) (later : Bool) : State :=
  sbFrame s cmd d fun s => inSession s cmd d (fun s seq => replyBeside s cmd seq stBusy) fun s seq => toServer s cmd seq d later

def sbOpen (s : State) (d : List Byte) : State :=
  sbFrame s 0x01 d fun s =>
    if s.sbd.token.isSome then replyNow s 0x01 stBusy
    else
      let tok := byteN ((Config.sbToken s.sbd.opens).val + 1)
      let q : SbReq := { cmd := 0x01, seq := d.getD 1 0, data := d.dropLast, claimed := false, onBus := true, win := winOpen s }
      sbAnswer (modSbd s fun b => { b with token := some tok, opens := b.opens + 1 }) q stOk [tok]

/-- CLOSE; while a request is in service it takes effect after that request's reply (R364). -/
def sbClose (s : State) (d : List Byte) : State :=
  sbFrame s 0x02 d fun s => inSession s 0x02 d (fun s seq => closeSession (replyBeside s 0x02 seq stOk)) fun s seq =>
    let q : SbReq := { cmd := 0x02, seq := seq, data := d.dropLast, claimed := false, onBus := true, win := winOpen s }
    closeSession (sbAnswer s q stOk [])

/-- IDENT, a Block Read (R366). -/
def ident (s : State) : State :=
  if !sbOn s then s
  else
    let r := bytesOf (regView s Reg.GLB_VERSION true).toNat 4 ++ bytesOf (fwVersion s).toNat 4 ++
      [byteN s.instId.toNat, sbFlags s, byteN (server s), byteN (b2n s.sbd.token.isSome)]
    modSbd s fun b => { b with reply := r, pec := pecAfter s [smbAddr s ++ (0 : BitVec 1), 0x00] r }

/-! ### The mirror and its limits (R361, R365) -/

/-- A server claims the request. -/
def claimBy (s : State) : State := if server s = 0 then s else mirrorClaim s

/-- A server answers the claimed request: firmware with what SBD_MRSP holds, the others with the command's own answer. A
SAFE request that waits for blk_safe_o is answered when it falls. -/
def doneBy (s : State) : State :=
  match s.sbd.mirror with
  | none => s
  | some q =>
    if !q.claimed || decide (server s = 0) || safeWaits s q then s
    else if server s = 1 then mirrorDone s
    else if !sbReach s q then s
    else serve s q

/-- 10 ms without a claim: BUSY, nothing changed. -/
def busyTimeout (s : State) : State :=
  match s.sbd.mirror with
  | some q => if !q.claimed && q.onBus then sbAnswer s q stBusy [] else s
  | none => s

/-- 24 ms: the bus is released without a reply. -/
def stretchLimit (s : State) : State :=
  match s.sbd.mirror with
  | some q =>
    if q.claimed && q.onBus then
      sbErr (modSbd s fun b => { noReply b with mirror := some { q with onBus := false } }) 5
    else s
  | none => s

/-- SCL held low for 30 ms: the transfer in progress is discarded (02 R47). -/
def smbusTimeout (s : State) : State :=
  if sbOn s then
    sbErr (modSbd s fun b => { noReply b with mirror := b.mirror.map fun q => { q with onBus := false } }) 4
  else s

/-- blk_safe_o has fallen: a side-band SAFE_EXIT that waits for it is answered OK, and so is a SAFE_ENTER, whose entry follows
at once (R370; 18 R436, R437). -/
def safeLeft (s : State) : State :=
  match s.sbd.mirror with
  | some q => if safeWaits s q && q.claimed then sbAnswer (safeLeave s) q stOk [] else safeLeave s
  | none => safeLeave s

/-- A malformed transaction (R358): a write half followed by STOP, or a read half that follows none. -/
def sbMalformed (s : State) (cmd : Option Byte) (d : List Byte) : State :=
  if !sbOn s then s
  else match cmd with
  | none => sbErr (modSbd s noReply) 3
  | some c => sbErr s ((frameFlag s c d).getD 3)

/-! ### Presence and seal (R371, R372) -/

def countWindow (s : State) : State :=
  s.setFld (Reg.SBD_CNT + 4) 15 0 (min 0xFFFF (s.fld (Reg.SBD_CNT + 4) 15 0 + 1))

/-- A debounced press. -/
def windowOpen (s : State) : State :=
  if s.rst.phase = .cold ∨ s.bit Reg.SBD_PRES 8 then s
  else countWindow (modSbd ((s.setBitR Reg.SBD_PRES 8 true).setBitR Reg.SBD_PRES 0 true) fun b => { b with left := 120 })

def buttonRelease (s : State) : State := s.setBitR Reg.SBD_PRES 8 false
def windowExpire (s : State) : State := s.setBitR Reg.SBD_PRES 0 false

def sealBreak (s : State) : State :=
  if s.rst.phase = .cold then s
  else
    let s := (s.setBitR Reg.SBD_PRES 9 false).setBitR Reg.SBD_PRES 10 true
    let s := s.setFld (Reg.SBD_CNT + 4) 31 16 (min 0xFFFF (s.fld (Reg.SBD_CNT + 4) 31 16 + 1))
    sbErr s 6

/-! ### The rows -/

def execIdent (s : State) : Out := .next (ident s)
def execSbOpen (d : List Byte) (s : State) : Out := .next (sbOpen s d)
def execSbClose (d : List Byte) (s : State) : Out := .next (sbClose s d)
def execSbStatus (d : List Byte) (later : Bool) (s : State) : Out := .next (sbRequest s 0x03 d later)
def execRegRead (d : List Byte) (later : Bool) (s : State) : Out := .next (sbRequest s 0x10 d later)
def execRegWrite (d : List Byte) (later : Bool) (s : State) : Out := .next (sbRequest s 0x11 d later)
def execLogRead (d : List Byte) (later : Bool) (s : State) : Out := .next (sbRequest s 0x12 d later)
def execFwBegin (d : List Byte) (later : Bool) (s : State) : Out := .next (sbRequest s 0x20 d later)
def execFwData (d : List Byte) (later : Bool) (s : State) : Out := .next (sbRequest s 0x21 d later)
def execFwEnd (d : List Byte) (later : Bool) (s : State) : Out := .next (sbRequest s 0x22 d later)
def execSafeEnter (d : List Byte) (later : Bool) (s : State) : Out := .next (sbRequest s 0x28 d later)
def execSbSafeExit (d : List Byte) (later : Bool) (s : State) : Out := .next (sbRequest s 0x29 d later)

/-- SEAL_CLEAR, with the level of seal_i, which SBD_PRES.SEAL shows. -/
def execSealClear (d : List Byte) (later : Bool) (lvl : Bool) (s : State) : Out :=
  .next (sbRequest (if s.rst.phase = .cold then s else s.setBitR Reg.SBD_PRES 9 lvl) 0x2A d later)

def execLockClear (d : List Byte) (later : Bool) (s : State) : Out := .next (sbRequest s 0x2B d later)
def execWarmReset (d : List Byte) (later : Bool) (s : State) : Out := .next (sbRequest s 0x2C d later)
def execFwCall (d : List Byte) (s : State) : Out := .next (sbRequest s 0x30 d true)

/-- An undefined command byte; a defined one is no such happening. -/
def execSbUndefinedCode (cmd : Byte) (s : State) : Out :=
  .next (if sbOn s && decide (sbLens cmd = []) && decide (cmd ≠ 0) then sbErr s 0 else s)

/-- The address is acknowledged; no effect (R358). -/
def execSbQuickCommand (s : State) : Out := .next s

/-- 5 s without a request: closed, unless a request is in service (R364). -/
def execSessionIdleTimeout (s : State) : Out := .next (if s.sbd.mirror.isSome then s else closeSession s)

def execSmbusTimeout (s : State) : Out := .next (smbusTimeout s)
def execReplyBusyTimeout (s : State) : Out := .next (busyTimeout s)
def execStretchLimit (s : State) : Out := .next (stretchLimit s)
def execMirrorClaim (s : State) : Out := .next (claimBy s)
def execMirrorDone (s : State) : Out := .next (doneBy s)
def execPresenceWindowOpen (s : State) : Out := .next (windowOpen s)
def execPresenceWindowExpire (s : State) : Out := .next (windowExpire s)
def execPresenceButtonRelease (s : State) : Out := .next (buttonRelease s)
def execSealBreak (s : State) : Out := .next (sealBreak s)
def execSbMalformedTransaction (cmd : Option Byte) (d : List Byte) (s : State) : Out := .next (sbMalformed s cmd d)

/-- SAFE_LEAVE: blk_safe_o falls (18 R436). -/
def execSafeLeave (s : State) : Out := .next (safeLeft s)

end Sys2Proof.Machine
end

