-- ==== Sys2Proof/Machine/BurBoot.lean ====
section
/-! DEFINITION. The Burins' boot, their heartbeat watch and the host messages that the firmware answers (14 R346 to R354). -/

namespace Sys2Proof.Machine

/-! ### Boot (R346 to R348) -/

def imgMagic : W32 := 0x504C5644

/-- At the end of a boot, a primary that is not in RUN leaves the role to the other Burin if that one is (R326). -/
def settleRole (s : State) : State :=
  let p := primary s
  if (s.core p).st ≠ .run ∧ (s.core (burOther p)).st = .run then setPrimary s (burOther p) else s

/-- Word 0 of the header after B3: MAGIC leads to the checks, anything else to EMPTY (B4). -/
def afterCopy (s : State) (u : Bur) : State :=
  if hdrWord (s.core u) 0 = imgMagic then s.modCore u fun c => { c with boot := .check }
  else settleRole (s.modCore u fun c => { c with st := .empty })

/-- B2 and B3: READY is seen. -/
def bootReady (s : State) (u : Bur) : State :=
  let c := s.core u
  if !(burRuns s u && decide (c.st = .boot) && decide (c.boot = .ready) && s.bit Reg.GLB_STATUS 0) then s
  else if hdrWord c 0 ≠ imgMagic ∧ s.bit Reg.BUR_IMG_BASE 0 then s.modCore u fun c => { c with boot := .copy }
  else afterCopy s u

/-- Words of a body that fits code SRAM below the header. -/
def bodyWords (len : Nat) : Nat := min len 98240 / 4

/-- n words of host memory from a, into code words from w. -/
def copyWords (s : State) (m : Tbl W32) (a w : Nat) : Nat → Tbl W32
  | 0 => m
  | n + 1 => Tbl.put (copyWords s m a w n) (w + n) (s.load32 (haddr (a + 4 * n)))

/-- The image at BUR_IMG_BASE: its header, and then its body. The host-window base that the ROM leaves is free (log 21). -/
def copyImage (s : State) (u : Bur) : State :=
  let a := base4k (s.rd64 Reg.BUR_IMG_BASE)
  s.modCore u fun c =>
    let m := copyWords s c.code a 0x5FF0 16
    let n := bodyWords (Tbl.get 0 m 0x5FF3).toNat
    { c with code := copyWords s m (a + 64) 0 n, hwin := Config.romLeaves c.boots 17 &&& 0x1FFFFF }

/-- B3 ends; a failed read leaves word 0 at 0 and AUTH code 7, and changes no other word. -/
def imageCopyDone (s : State) (u : Bur) (fail : Bool) : State :=
  let c := s.core u
  if !(burRuns s u && decide (c.st = .boot) && decide (c.boot = .copy) && hostReach s) then s
  else s.withFail (.burin u) 1 fail fun s fail =>
    let s := if fail then s.modCore u fun c => { c with code := Tbl.put c.code 0x5FF0 0, auth := 7 } else copyImage s u
    afterCopy s u

/-- CRC-32C of n words of code SRAM from word w. -/
def crcWords (c : BurCore) (w : Nat) : Nat → W32
  | 0 => BitVec.allOnes 32
  | n + 1 => crcWord (crcWords c w n) (Tbl.get 0 c.code (w + n))

/-- The first check of B5 that fails; 0: none. -/
def authCode (c : BurCore) : Nat :=
  let h := hdrWord c
  let len := (h 3).toNat
  if ~~~(crcWords c 0x5FF0 15) ≠ h 15 then 1
  else if (List.range 10).any fun i => decide (h (5 + i) ≠ 0) then 2
  else if h 2 ≠ 0x00030000 then 3
  else if field (h 1) 23 16 ≠ 2 then 4
  else if len % 4 ≠ 0 ∨ len < 64 ∨ 98240 < len then 5
  else if ~~~(crcWords c 0 (len / 4)) ≠ h 4 then 6
  else 0

/-- B6, passed: RUN. The registers and flags that R348 does not name are free (log 21). -/
def enterRun (s : State) (u : Bur) : State :=
  let other := (s.core (burOther u)).st.code
  s.modCore u fun c =>
    let rest : Tbl W32 := (List.range 13).map fun k => (k + 3, Config.romLeaves c.boots (k + 3))
    { c with st := .run, pc := 0, g := (0, whoami s u) :: (1, regView s Reg.GLB_RST_CAUSE true) :: (2, w32 other) :: rest,
             flags := Config.romLeaves c.boots 16 &&& 0xF, boots := c.boots + 1 }

/-- B5 and B6. -/
def bootAuth (s : State) (u : Bur) : State :=
  let c := s.core u
  if !(burRuns s u && decide (c.st = .boot) && decide (c.boot = .check)) then s
  else
    let k := authCode c
    settleRole (if k = 0 then enterRun s u
      else safeCause (burErr (s.modCore u fun c => { c with st := .authFail, auth := k }) (burNum u)) 2)

def execBootReady (u : Bur) (s : State) : Out := .next (bootReady s u)
def execImageCopyDone (u : Bur) (fail : Bool) (s : State) : Out := .next (imageCopyDone s u fail)
def execBootAuth (u : Bur) (s : State) : Out := .next (bootAuth s u)

/-! ### Heartbeat and takeover (R350 to R352) -/

/-- HELD and OFF Burins are not monitored (R327). -/
def monitored (s : State) (u : Bur) : Bool := decide ((s.core u).st ≠ .held) && decide ((s.core u).st ≠ .off)

/-- It wrote HB in the window, or its boot ROM did (R348). -/
def hasBeaten (s : State) (u : Bur) : Bool := (s.core u).beat

/-- The boot ROM beats in the window that begins, and answers its HBEAT (R348). -/
def romBeats (c : BurCore) : Bool := decide (c.st = .boot) || decide (c.st = .empty) || decide (c.st = .authFail)

/-- Its miss count at the end of a window. -/
def missNext (s : State) (u : Bur) : Nat :=
  if !monitored s u || hasBeaten s u then 0 else min 4 ((s.core u).miss + 1)

/-- BUR_TAKE_LOG, BUR_TAKE_CNT and BUR_ERR.TAKEOVER. -/
def takeLog (s : State) (failedB both : Bool) : State :=
  let w : W64 := BitVec.ofNat 64 (s.count.toNat + b2n failedB * 2 ^ 48 + b2n both * 2 ^ 49)
  burErr ((s.wr64 Reg.BUR_TAKE_LOG w).cnt32 Reg.BUR_TAKE_CNT) 4

/-- X has four misses and its survivor Y fewer (R352), or Y is not monitored (R351). -/
def missOut (s : State) (x : Bur) : State :=
  let y := burOther x
  if monitored s y then
    let s := (burReset s x).modCore x fun c => { c with miss := 0 }
    let s := if primary s = x then setPrimary s y else s
    takeLog (burInt s y 1) (decide (x = .b)) false
  else (burReset s x).modCore x fun c => { c with miss := 0 }

/-- Both have four misses at one window end (R351). -/
def bothOut (s : State) : State :=
  let s := setPrimary (burReset (burReset s .a) .b) .a
  let s := (s.modCore .a fun c => { c with miss := 0 }).modCore .b fun c => { c with miss := 0 }
  safeCause (takeLog s false true) 1

/-- HEARTBEAT_WINDOW_END: misses are counted, the watch acts, and HBEAT opens the next window. In a warm reset the reset of a Burin
is absorbed into it, and nothing is logged (02 R46); SAFE is entered all the same. -/
def heartbeatEnd (s : State) : State :=
  if !s.bur.due then s
  else
    let ma := missNext s .a
    let mb := missNext s .b
    let s := (s.modCore .a fun c => { c with miss := ma, beat := romBeats c }).modCore .b fun c =>
      { c with miss := mb, beat := romBeats c }
    let s := { s with bur := { s.bur with win := 0, due := false } }
    let s :=
      if s.rst.phase ≠ .run then if ma = 4 ∧ mb = 4 then safeCause s 1 else s
      else if ma = 4 ∧ mb = 4 then bothOut s else if ma = 4 then missOut s .a else if mb = 4 then missOut s .b else s
    ipendBit s 0

def execHeartbeatWindowEnd (s : State) : Out := .next (heartbeatEnd s)

/-! ### Host messages (R354) -/

def msgCode (s : State) : Nat := s.fld Reg.BUR_HOST_MSG 7 0

/-- The primary's firmware answers the outstanding message. -/
def hostAnswer (s : State) (code : Nat) (f : State → State × W32) : State :=
  if s.bur.asked && decide (msgCode s = code) && decide ((s.core (primary s)).st = .run) && burRuns s (primary s) then
    let r := f s
    hostOut r.1 r.2
  else s

/-- DATA of an answer for which R354 gives none is free (log 26). -/
def freeData (s : State) : W32 := (Config.handoverData s.count.toNat).zeroExtend 32 <<< 10

/-- PING, and the codes that R354 does not define. -/
def ping (s : State) : State :=
  if msgCode s = 0 then hostAnswer s 0 fun s => (s, w32 stOk)
  else if msgCode s = 1 then s
  else hostAnswer s (msgCode s) fun s => (s, freeData s ||| w32 stBadOp)

/-- HANDOVER. -/
def handover (s : State) : State :=
  hostAnswer s 1 fun s =>
    let data := freeData s
    let o := burOther (primary s)
    if (s.core o).st = .run then (setPrimary s o, data ||| w32 stOk) else (s, data ||| w32 stBusy)

def execPing (s : State) : Out := .next (ping s)
def execHandover (s : State) : Out := .next (handover s)

end Sys2Proof.Machine
end

