-- ==== Sys2Proof/Machine/Proof.lean ====
section
/-! DEFINITION. The proof (16 R394 to R399): the proofed slots, the sweep and its end. -/

namespace Sys2Proof.Machine

/-- The global list of R395, by k. -/
def proofList : List Nat :=
  [Reg.GLB_REFCNT_HZ, Reg.GLB_LOCK, Reg.XLT_CTRL, Reg.XLT_SRC_BASE, Reg.XLT_SRC_BASE + 4, Reg.XLT_ATT_BASE,
   Reg.XLT_ATT_BASE + 4, Reg.XLT_PQ_SLOTS, Reg.RNK_CTRL, Reg.RNK_PT_BASE, Reg.RNK_PT_BASE + 4, Reg.RNK_SUM_BASE,
   Reg.RNK_SUM_BASE + 4] ++ ((List.range 8).map fun c => Reg.RNK_CLASS + 4 * c) ++
  [Reg.RNK_REFILL, Reg.STK_LEN, Reg.STK_CATCH, Reg.STK_EPOCH, Reg.STK_FAST_MHZ, Reg.MSG_CTRL, Reg.MSG_PQ_CFG,
   Reg.MSG_PQ_BUDGET, Reg.COH_MODE, Reg.PNL_CTRL, Reg.PNL_VPE_BASE, Reg.PNL_VPE_BASE + 4, Reg.PNL_SAVE_BASE,
   Reg.PNL_SAVE_BASE + 4, Reg.WFT_CTRL, Reg.BUR_IMG_BASE, Reg.BUR_IMG_BASE + 4] ++
  ((List.range 8).flatMap fun n =>
    [Reg.CMD_RCTRL, Reg.CMD_RBASE, Reg.CMD_RBASE + 4, Reg.CMD_CBASE, Reg.CMD_CBASE + 4, Reg.CMD_RIRQ].map (ringOff n))

/-- The register word of a slot (R394). -/
def slotOff (s : State) (k : Nat) : Option Nat :=
  if k < 16384 then if k / 4 < s.par.wired then some (winOff (k / 4) (4 * (k % 4))) else none
  else if k < 20480 then
    if (k - 16384) / 32 < s.par.targets then some (icfgOff ((k - 16384) / 32) (k % 32)) else none
  else if k < 22528 then
    if (k - 20480) / 2 < s.par.panels then
      some (shareOff ((k - 20480) / 2) (if k % 2 = 0 then Reg.PNL_SHR_LIVE0 else Reg.PNL_SHR_LIVE1))
    else none
  else if k < 22656 then proofList[k - 22528]?
  else none

/-- What a slot holds: what its register reads, in the bits of the proof. -/
def slotVal (s : State) (k : Nat) : W32 :=
  (slotOff s k).elim 0 fun o => (if o = Reg.WFT_CTRL then wftCtrl s else s.rd o) &&& proofMask o

/-- The last slot of a segment (R396). -/
def segEnd (k : Nat) : Bool := k ∈ [16383, 20479, 22527, 65535]

def ones : W32 := BitVec.allOnes 32

/-- The sweep before its first slot. -/
def sweepFresh (p : Prf) : Prf := { p with pos := 0, crc := ones, seg := ones, segs := [] }

/-- Order 7 samples one slot (R397). A sweep that starts fixes whether it may be compared and adopted (R398, R399). -/
def proofSample (s : State) : State :=
  let k := s.prf.pos
  let v := slotVal s k
  let p := s.prf
  let p := if k = 0 then { p with cmp := s.bit Reg.PRF_CTRL 0 && !p.hold, adoptOk := p.adopting } else p
  let crc := crcWord p.crc v
  let seg := crcWord p.seg v
  let segs := if segEnd k then p.segs ++ [~~~seg] else p.segs
  let p := if k = 65535 then
      { sweepFresh p with done := some { crc := ~~~crc, segs := segs, cmp := p.cmp, adopt := p.adoptOk } }
    else { p with pos := k + 1, crc := crc, seg := if segEnd k then ones else seg, segs := segs }
  { s with prf := p }

/-- A completed sweep that R398 compares. -/
def proofCompare (s : State) (e : SweepEnd) : State :=
  if e.cmp && decide (e.crc ≠ s.rd Reg.PRF_REF) then (setFlag s 12 Reg.PRF_ERR 0 0 false).cnt32 Reg.PRF_MIS_CNT else s

/-- An adoption that this sweep completes (R399). -/
def proofAdopt (s : State) (e : SweepEnd) : State :=
  if e.adopt && s.prf.adopting then
    { s.wr Reg.PRF_REF e.crc with prf := { s.prf with hold := !s.prf.adoptOk, adopting := false } }
  else s

/-- PROOF_SWEEP_COMPLETE. -/
def sweepComplete (s : State) : State :=
  match s.prf.done with
  | none => s
  | some e =>
    let s := { s with prf := { s.prf with done := none } }
    let s := s.wr Reg.PRF_LAST e.crc
    let s := (List.range 4).foldl (fun s k => s.wr (Reg.PRF_SEG + 4 * k) (e.segs.getD k 0)) s
    (proofAdopt (proofCompare s e) e).cnt64 Reg.PRF_SWEEP_CNT

def execProofSweepComplete (s : State) : Out := .next (sweepComplete s)

/-- Cold reset, warm reset and a wake from DEEP (R397, R398). -/
def proofReset (s : State) : State :=
  { s with prf := { pos := 0, crc := ones, seg := ones, segs := [], hold := true, adopting := false, adoptOk := false,
                    cmp := false, done := none } }

end Sys2Proof.Machine
end

