-- ==== Sys2Proof/Machine/Power.lean ====
section
/-! DEFINITION. Power states (17): the target outputs, the idle choice, the preparation for DEEP, the consent round, the
commit, sleep, wake, fast running, the restore after DEEP, and the DVFS acknowledges. -/

namespace Sys2Proof.Machine

/-! ### The target outputs (R213 of 09; R415, R416) -/

/-- The target outputs follow their engines: in RUN and in fast running, unless they are held. -/
def outputsOn (s : State) : Bool :=
  decide (s.rst.phase = .run) && !s.bit Reg.PWR_STAT 5 && (decide (pwrState s = 0) || decide (pwrPhase s = 5))

/-- tp_irq_o, tp_fast_o and tp_virq_o of target t. -/
def tpIrqO (s : State) (t : Nat) : Bool := outputsOn s && tpIrq s t
def tpFastO (s : State) (t : Nat) : Bool := outputsOn s && tpFast s t
def tpVirqO (s : State) (t : Nat) : Bool := outputsOn s && tpVirq s t

/-- tp_rsp_data_o: 0 in DOZE, NAP and DEEP. -/
def tpRspDataO (s : State) (t : Nat) : W32 :=
  if decide (s.rst.phase = .run) && decide (pwrState s = 0) then (s.tgt t).rsp else 0

/-- CLK_MAIN has stopped, or the DEEP commit has passed its step 3. -/
def mainStopped (s : State) : Bool := decide (pwrPhase s = 4) || (decide (pwrPhase s = 3) && s.pwr.main.ack)

/-- wft_tx_flit_o of port p: 0 in NAP and DEEP. -/
def wftTxFlitO (s : State) (p : Nat) : BitVec 256 := if mainStopped s || decide (2 ≤ pwrState s) then 0 else (wport s p).sent

/-- blk_err_o: what it was when CLK_MAIN stopped, while it is stopped. -/
def blkErrO (s : State) : Bool := if mainStopped s then s.pwr.errKept else blkErr s

/-- reg_rsp_err_o and reg_rsp_rdata_o: clamped to 0 in DEEP. -/
def regRspO (s : State) : Bool × W64 :=
  if mainStopped s && (decide (pwrState s = 3) || decide (s.pwr.target = 3)) then (false, 0) else (s.port.err, s.port.data)

/-- dvfs_freq_req_o and dvfs_volt_req_o, 0 while their domain is held in reset (02 R25) and in NAP and DEEP. -/
def dvfsFreqReqO (s : State) : Bool := dvfsUp s && s.pwr.freq.req
def dvfsVoltReqO (s : State) : Bool := dvfsUp s && s.pwr.volt.req
/-- dvfs_freq_pt_o and dvfs_volt_pt_o: 0 in reset, the acknowledged points in NAP and DEEP. -/
def dvfsFreqPtO (s : State) : BitVec 3 :=
  if mainStopped s then BitVec.ofNat 3 (fAck s) else if dvfsUp s then s.pwr.freqPt else 0
def dvfsVoltPtO (s : State) : BitVec 3 :=
  if mainStopped s then BitVec.ofNat 3 (vAck s) else if dvfsUp s then s.pwr.voltPt else 0

/-- Some target output is high. -/
def outHigh (s : State) : Bool := s.tg.any fun e => tpIrqO s e.1 || tpFastO s e.1 || tpVirqO s e.1

/-- PWR_ERR flags, with the log (R425). -/
def pwrErr (s : State) (i t : Nat) : State :=
  logErr s 13 Reg.PWR_ERR i 0 Reg.PWR_ERR_LOG 31 fun s => s.wr Reg.PWR_ERR_LOG (w32 (t % 128 + i * 2 ^ 7))

/-! ### STOP and the preparation for DEEP (R403, R405, R407) -/

/-- STOP for a target state: the consent round begins at point A1, and each Burin's PWR interrupt is pending (14 R341). -/
def stop (s : State) (target : Nat) : State :=
  modPwr (setPwrPhase (ipendBit s 6) 2) fun p => { p with
    target := BitVec.ofNat 2 target, point := 1, stopped := 0, wakeSeen := false, latched := none, ready := false,
    msgWait := false, tgtWait := false, dbStop := false }

/-- Go on with a flush of every tree; at step W2 with RNK_CTRL.EN at 0, of the virtual entries alone (07 R172). -/
def flushFor (s : State) : State :=
  if s.rst.phase = .w2 ∧ s.rnkEn = false then eachTgt s fun s t => queueFls s t (·.virt) else flushAll s

/-- Step 1 of the DEEP preparation is still to be done: PNL_CTRL.EN is 1, and the Panels are not saved (R405). -/
def prepPanels (s : State) : Bool := decide (pwrPhase s = 1) && s.bit Reg.PNL_CTRL 0 && !s.pwr.prepSaved

/-- What the preparation does, each time it is looked at: every resident vPE is switched out where PNL_CTRL.EN is 1, and
then, the Panels being saved, every tree is flushed. In step W2 both go on at once (02 R43). -/
def prepWork (s : State) : State :=
  let s' := if s.bit Reg.PNL_CTRL 0 then switchOut s fun _ _ => true else s
  if prepPanels s then s' else flushFor s'

def beginPrep (s : State) : State :=
  prepWork (modPwr (setPwrPhase s 1) fun p => { p with target := 3, ready := false, prepNext := false, prepSaved := false })

/-- DEEP may be chosen: its save areas have a base, PWR_OVR allows it, and the block is not in SAFE. -/
def deepOk (s : State) : Bool :=
  decide (base4k (s.rd64 Reg.PWR_TSAVE_BASE) ≠ 0) && !inSafe s && decide (s.fld Reg.PWR_OVR 1 0 = 3)

/-- A threshold is nonzero and not above the idle count, and its state is deeper than the present one and allowed. -/
def timerUp (s : State) (k off : Nat) : Bool :=
  let thr := (s.rd off).toNat
  decide (thr ≠ 0) && decide (thr ≤ (s.rd Reg.PWR_IDLE_CNT).toNat) && decide (pwrState s < k) &&
  decide (k ≤ s.fld Reg.PWR_OVR 1 0)

/-- The choice of R403; 0: no target. -/
def idleTarget (s : State) : Nat :=
  if timerUp s 3 Reg.PWR_IDLE_DEEP && deepOk s then 3
  else if timerUp s 2 Reg.PWR_IDLE_NAP && !inSafe s then 2
  else if timerUp s 1 Reg.PWR_IDLE_DOZE then 1
  else 0

/-- A choice may be made: in RUN or DOZE, with no preparation, round, commit or fast running. -/
def mayChoose (s : State) : Bool :=
  decide (s.rst.phase = .run) && decide (pwrPhase s = 0) && decide (pwrState s < 2)

/-- IDLE_THRESHOLD. -/
def idleThreshold (s : State) : State :=
  if !s.pwr.due then s
  else
    let s := modPwr s fun p => { p with due := false }
    if !mayChoose s then s
    else match idleTarget s with
    | 0 => s
    | 3 => beginPrep s
    | k => stop s k

def execIdleThreshold (s : State) : Out := .next (idleThreshold s)

/-- FLUSH_DONE: every tree is empty and every spill buffer drained; the live summaries are written (07 R172). -/
def treesFlushed (s : State) : State :=
  if (decide (pwrPhase s = 1) || decide (s.rst.phase = .w2)) && treesEmpty s && !prepPanels s then
    (if s.rnkEn then writeSums s else s).setBitR Reg.RNK_STAT 2 true
  else s

def execFlushDone (s : State) : Out := .next (s.servedRun (treesFlushed s))

/-- No vPE is resident and no switch runs. -/
def vpesOut (s : State) : Bool := s.tg.all fun e => !e.2.vpeV && e.2.sw.isNone

/-- DEEP_PREP_DONE, where a step of the preparation is over. Step 1: the vPEs are out, the Panels are saved (10 R245), and the
flush begins; a save that fails does not hold the entry up (10 R246). Step 2: every tree is flushed, so STOP falls on the next
boundary. -/
def deepPrepDone (s : State) (badP badV : List Nat) : State :=
  if !(decide (pwrPhase s = 1) && !s.pwr.ready && vpesOut s) then s
  else if prepPanels s then prepWork (modPwr (pnlSave s badP badV) fun p => { p with prepSaved := true })
  else if s.bit Reg.RNK_STAT 2 then modPwr s fun p => { p with ready := true }
  else s

def execDeepPrepDone (badP : List (BitVec 10)) (badV : List (BitVec 16)) (s : State) : Out :=
  .next (s.servedRun (deepPrepDone s (badP.map (·.toNat)) (badV.map (·.toNat))))

/-! ### The polls (R406 and the rules that R407 names) -/

/-- A wake-capable wired line is asserted. -/
def wakeLineOn (s : State) : Bool := s.win.any fun e => s.bit (winOff e.1 Reg.WIN_CTL) 16 && winAsserted s e.1

/-- A wake cause has come since STOP, or stands. -/
def wakeStands (s : State) : Bool := s.pwr.wakeSeen || !(wakeOn s).isEmpty || wakeLineOn s

/-- 07 R161. -/
def treeBusy (x : Tg) : Bool :=
  !x.ops.isEmpty || !x.dsp.isEmpty || !x.ages.isEmpty || x.leadP.isSome || x.leadV.isSome ||
  x.swpP.run.isSome || x.swpV.run.isSome

/-- 08 R187. -/
def stkBusy (s : State) : Bool :=
  let k := s.stk
  decide (k.kind = .catchUp) || decide (k.kind = .stretch) || decide (k.catchN ≠ 0) || decide (k.stretchN ≠ 0) || decide (k.dec.getD (0, 0) ≠ (0, 0)) ||
  k.snap.req || k.snap.ack || k.snapDue.isSome

/-- 10 R245. -/
def pnlBusy (s : State) : Bool :=
  (s.tg.any fun e => e.2.sw.isSome) || !s.pnl.parkQ.isEmpty || !s.pnl.parks.isEmpty ||
  (s.pnl.panels.any fun e =>
    decide (e.2.state = .quiescing) || decide (e.2.state = .resetting) || decide (e.2.state = .destroying)) ||
  (s.rings.any fun e => e.2.run.any fun u => decide (0x30 ≤ u.desc.op) && decide (u.desc.op ≤ 0x3A))

/-- 11 R279. -/
def cmdBusy (s : State) : Bool :=
  ((List.range 8).any fun r => (ringEn s r && decide (ringHead s r ≠ ringTail s r)) || (s.ring r).run.isSome ||
    !(s.ring r).recs.isEmpty) || s.pwr.dbStop

/-- 12 R305. -/
def wftBusy (s : State) : Bool :=
  let w := s.wft
  (w.ports.any fun e => !e.2.replay.isEmpty || !e.2.resend.isEmpty || !e.2.rxq.isEmpty) || !w.reqWait.isEmpty || !w.outq.isEmpty || !w.ift.isEmpty ||
  !w.rwait.isEmpty || !w.cmds.isEmpty || !w.redirs.isEmpty || w.disc || w.joinAt.isSome || w.genIn.isSome || w.compute ||
  !w.tmapWait.isEmpty || decide (w.jst = .discovery) || decide (w.jst = .joining)

/-- 14 R355. A WAIT has ended once an interrupt that is enabled is pending (14 R343). -/
def burBusy (c : BurCore) : Bool :=
  (match c.st with
   | .held => false
   | .empty => false
   | .authFail => false
   | .run => !c.waiting || decide (c.ipend &&& c.imask ≠ 0)
   | _ => true) || decide (c.veto ≠ 0) || !c.slot.isEmpty

/-- A DVFS request is outstanding or held. -/
def dvfsBusy (s : State) : Bool := s.pwr.freq.req || s.pwr.volt.req || s.pwr.fHeld.isSome || s.pwr.vHeld.isSome

/-- R406. -/
def pwrRefuses (s : State) : Bool :=
  wakeStands s || dvfsBusy s || decide (s.fld Reg.PWR_OVR 1 0 < s.pwr.target.toNat) ||
  (decide (2 ≤ s.pwr.target.toNat) && inSafe s)

/-- An access accepted on the register port is unanswered (16 R392). -/
def portUnanswered (s : State) : Bool := (s.port.q.any fun a => a.rsp.isNone) || !s.port.stalled.isEmpty

/-- Subsystem k of 01 R8 refuses. -/
def refuses (s : State) (k : Nat) : Bool :=
  match k with
  | 1 => s.win.any fun e => e.2.change.isSome || e.2.count || e.2.unr.isSome
  | 2 => !s.msg.stage.isEmpty || !s.msg.q.isEmpty || !s.msg.slow.isEmpty || s.pwr.msgWait
  | 3 => !s.miss.isEmpty
  | 4 => cohBusy s
  | 5 => (s.tg.any fun e => treeBusy e.2) || (s.lanes.any fun e => !e.2.isEmpty)
  -- for a DOZE target the scheduler consents and runs on (17 R408)
  | 6 => decide (s.pwr.target ≠ 1) && stkBusy s
  | 7 => outHigh s || (s.tg.any fun e => e.2.wait.isSome || e.2.ext.isSome || e.2.sw.isSome) || s.pwr.tgtWait ||
    s.localPins.any fun e => localUnformed s e.1
  | 8 => pnlBusy s
  | 9 => cmdBusy s
  | 10 => wftBusy s
  | 11 => burBusy s.bur.a || burBusy s.bur.b
  | 12 => s.sbd.mirror.isSome
  | 13 => pwrRefuses s
  | 14 => s.rst.pendingTrig.isSome || portUnanswered s
  | _ => false

/-- The refusing subsystems, lowest first. -/
def refusers (s : State) : List Nat := (List.range 15).filter (refuses s)

/-! ### Abort (R409) -/

/-- PWR_LAST_ABORT. -/
def abortWord (s : State) (l : List Nat) : W64 :=
  BitVec.ofNat 64 (s.pwr.point + l.headD 0 * 2 ^ 3 + b2n (l.contains 13 && wakeStands s) * 2 ^ 7 +
    s.pwr.target.toNat * 2 ^ 8 + (l.map fun k => 2 ^ (k - 1)).sum * 2 ^ 10 + s.count.toNat % 2 ^ 32 * 2 ^ 32)

/-- The round ends without entry. A scheduler that had stopped holds the stroke in which it restarts (08 R184). -/
def endRound (s : State) : State :=
  let held := decide (3 ≤ s.pwr.stopped) && decide (s.pwr.target ≠ 1)
  let s := modStk s fun k => { k with held := k.held || held }
  localRestart (modPwr (setPwrPhase s 0) fun p =>
    { p with stopped := 0, point := 0, wakeSeen := false, msgWait := false, tgtWait := false, dbStop := false })

/-- A flushing trigger that waited begins its reset (02 R46). -/
def pendingStart (s : State) : State :=
  match s.rst.pendingTrig with
  | some c => warmStart s c.toNat false
  | none => s

/-- An abort returns the block to the state in which the round began; a wake cause then ends DOZE. -/
def abortEntry (s : State) (l : List Nat) : State :=
  let woke := s.pwr.wakeSeen
  let s := (s.wr64 Reg.PWR_LAST_ABORT (abortWord s l)).cnt32 Reg.PWR_ABORT_CNT
  let s := endRound (s.wr Reg.PWR_IDLE_CNT 0)
  let s := if woke && decide (pwrState s = 1) then setPwrState (lastWake s 5 0) 0 else s
  pendingStart s

/-! ### The save areas of the targets (R413) -/

def tsaveAddr (s : State) (t : Nat) : Nat := base4k (s.rd64 Reg.PWR_TSAVE_BASE) + t * 0x200

/-- Word 0 of a target's save area. -/
def tsaveWord0 (x : Tg) : W64 :=
  let c := x.phys
  BitVec.ofNat 64 (c.pmask.toNat + c.split1.toNat * 2 ^ 8 + b2n c.splitc1 * 2 ^ 11 + c.split0.toNat * 2 ^ 12 +
    b2n c.splitc0 * 2 ^ 15 + c.stack.length * 2 ^ 16 + c.split.length * 2 ^ 21 + x.nsfloor.toNat * 2 ^ 26)

def tsaveAct (a : Act) : W64 := BitVec.ofNat 64 ((actWord a).toNat + b2n a.group * 2 ^ 39)
def tsaveSplit (a : Act) : Nat := splitWord a + b2n a.group * 2 ^ 23

/-- The 64 words of a target's save area. -/
def tsaveWords (s : State) (t : Nat) : List W64 :=
  let x := s.tgt t
  let st := x.phys.stack.reverse.map tsaveAct
  let sp := x.phys.split.map tsaveSplit
  let icfg := fun (i : Nat) => (setBit (s.rd (icfgOff t i)) 13 false).toNat
  tsaveWord0 x :: List.replicate 7 0 ++ ((List.range 16).map fun i => st.getD i 0) ++
  ((List.range 8).map fun k => BitVec.ofNat 64 (sp.getD (2 * k) 0 + sp.getD (2 * k + 1) 0 * 2 ^ 32)) ++
  ((List.range 16).map fun k => BitVec.ofNat 64 (icfg (2 * k) + icfg (2 * k + 1) * 2 ^ 32)) ++ List.replicate 16 0

/-- Save one target; `bad` lists the targets whose writes failed. -/
def saveTarget (bad : List Nat) (s : State) (t : Nat) : State :=
  if bad.contains t then pwrErr s 1 t else s.ran <| storeWords s (tsaveAddr s t) (tsaveWords s t)

/-- The physical state that a save area holds. The raise behind a pending part is not saved; it re-enters as one of a
loaded context does. -/
def tsaveCtx (s : State) (t : Nat) : Ctx :=
  let w := fun (i : Nat) => s.load64 (tsaveAddr s t + 8 * i)
  let w0 := w 0
  let halfOf := fun (k : Nat) => BitVec.ofNat 32 ((w (24 + k / 2)).toNat / 2 ^ (32 * (k % 2)))
  let st := ((List.range 16).map fun i => w (8 + i)).filter (bitAt · 38)
  let sp := ((List.range 16).map halfOf).filter (bitAt · 22)
  { stack := (st.map fun w => { ev := BitVec.ofNat 21 (field w 20 0), group := bitAt w 39, eff := BitVec.ofNat 8 (field w 28 21),
                                pv := BitVec.ofNat 8 (field w 36 29), pend := if bitAt w 37 then some none else none }).reverse,
    split := sp.map fun w => { ev := BitVec.ofNat 21 (field w 20 0), group := bitAt w 23, eff := 0, pv := 0,
                               pend := if bitAt w 21 then some none else none },
    pmask := BitVec.ofNat 8 (field w0 7 0), split1 := BitVec.ofNat 3 (field w0 10 8), splitc1 := bitAt w0 11,
    split0 := BitVec.ofNat 3 (field w0 14 12), splitc0 := bitAt w0 15 }

def tsaveFloor (s : State) (t : Nat) : Byte := BitVec.ofNat 8 (field (s.load64 (tsaveAddr s t)) 33 26)
def tsaveIcfg (s : State) (t i : Nat) : W32 := s.load32 (tsaveAddr s t + 0x100 + 4 * i)

/-! ### The save set (R412) -/

/-- The two words of each 64-bit register. -/
def wide (l : List Nat) : List Nat := l.flatMap fun o => [o, o + 4]

/-- The words of the save set after its time part and before TGT, in their order (R412). The words of PNL_STAT and WFT_PSTAT stand
for PNL_STAT.SAVED and for the RETRAIN fields of the four ports. -/
def saveOffs : List Nat :=
  [Reg.GLB_REFCNT_HZ, Reg.GLB_LOCK, Reg.GLB_ERR] ++ wide [Reg.GLB_ERR_ADDR] ++ [Reg.GLB_RST_CAUSE] ++
  [Reg.PRF_CTRL, Reg.PRF_REF, Reg.PRF_ERR, Reg.PRF_MIS_CNT] ++ wide [Reg.PRF_SWEEP_CNT] ++
  [Reg.XLT_CTRL] ++ wide [Reg.XLT_SRC_BASE, Reg.XLT_ATT_BASE] ++
  [Reg.XLT_PQ_SLOTS, Reg.XLT_FAULT, Reg.XLT_FAULT_CNT, Reg.XLT_FLOG0, Reg.XLT_FLOG1] ++
  wide [Reg.XLT_LOOKUP_CNT, Reg.XLT_MISS_CNT] ++
  [Reg.RNK_CTRL] ++ wide [Reg.RNK_PT_BASE, Reg.RNK_SUM_BASE] ++ ((List.range 8).map fun c => Reg.RNK_CLASS + 4 * c) ++
  [Reg.RNK_REFILL, Reg.RNK_ERR, Reg.RNK_ERR_LOG] ++
  wide [Reg.RNK_SPILL_CNT, Reg.RNK_DIRECT_CNT, Reg.RNK_LEAD_CNT, Reg.RNK_SWEEP_CNT] ++
  [Reg.STK_LEN, Reg.STK_CATCH, Reg.STK_EPOCH, Reg.STK_FAST_MHZ, Reg.STK_ALIGN, Reg.STK_ERR] ++
  wide [Reg.STK_LATE_CNT, Reg.STK_CATCH_CNT, Reg.STK_JUMP_CNT, Reg.STK_SLIP_CNT] ++
  [Reg.COH_MODE, Reg.COH_ERR] ++ wide [Reg.COH_ERR_LOG] ++ [Reg.COH_RETRY_MAX] ++
  wide [Reg.COH_FILL_CNT, Reg.COH_RETRY_CNT, Reg.COH_SNOOP_CNT, Reg.COH_SNOOP_HIT_CNT, Reg.COH_EVICT_CNT] ++
  [Reg.MSG_CTRL, Reg.MSG_PQ_CFG, Reg.MSG_PQ_BUDGET, Reg.MSG_ERR, Reg.MSG_ERR_CNT, Reg.MSG_ERR_LOG0, Reg.MSG_ERR_LOG1,
   Reg.MSG_ERR_LOG2] ++ wide [Reg.MSG_ADMIT_CNT, Reg.MSG_SLOW_CNT, Reg.MSG_BP_CNT] ++
  [Reg.PNL_CTRL] ++ wide [Reg.PNL_VPE_BASE, Reg.PNL_SAVE_BASE] ++ [Reg.PNL_STAT, Reg.PNL_ERR, Reg.PNL_ERR_LOG] ++
  wide [Reg.PNL_PARK_CNT, Reg.PNL_DB_CNT, Reg.PNL_SWITCH_CNT] ++
  [Reg.WFT_CTRL, Reg.WFT_ERR, Reg.WFT_ERR_CNT] ++ wide [Reg.WFT_ERR_LOG, Reg.WFT_TX_CNT, Reg.WFT_RX_CNT] ++ [Reg.WFT_PSTAT] ++
  ((List.range 8).flatMap fun n =>
    ([Reg.CMD_RCTRL] ++ wide [Reg.CMD_RBASE, Reg.CMD_CBASE] ++
      [Reg.CMD_TAIL, Reg.CMD_HEAD, Reg.CMD_RSTAT, Reg.CMD_RIRQ] ++ wide [Reg.CMD_CNT]).map (ringOff n)) ++
  wide [Reg.MBX_DATA, Reg.MBX_DATA + 8, Reg.MBX_DATA + 16, Reg.MBX_DATA + 24, Reg.MBX_STAT] ++
  [Reg.BUR_CTL] ++ wide [Reg.BUR_IMG_BASE] ++ [Reg.BUR_ERR] ++ wide [Reg.BUR_TAKE_LOG] ++ [Reg.BUR_TAKE_CNT] ++
  [Reg.SBD_ERR] ++ wide [Reg.SBD_CNT]

/-- The fields of a word that are saved: neither WO nor W1S. GLB_LOCK, which the set names, is saved whole. -/
def saveMask (s : State) (off : Nat) : W32 :=
  if off = Reg.GLB_LOCK then 0x1F
  else if Reg.WFT_PSTAT ≤ off ∧ off < Reg.WFT_PSTAT + 16 then 0xFF000000
  else (regRow s.par off).elim 0 fun r => r.rd &&& ~~~r.w1s

/-- A word as the save set holds it. -/
def saveValue (s : State) (off : Nat) : W32 :=
  if off = Reg.PNL_STAT then w32 (b2n s.pnl.saved)
  else if off = Reg.WFT_PSTAT then
    w32 (((List.range 4).map fun p => (s.rd (Reg.WFT_PSTAT + 4 * p)).toNat / 2 ^ 24 * 2 ^ (8 * p)).sum)
  else s.rd off &&& saveMask s off

/-- The time part: the REFCNT snapshot, STK_COUNT and P. -/
def saveTimeOf (s : State) (ref : W64) : List Byte := bytesOf ref.toNat 8 ++ bytesOf s.count.toNat 8 ++ bytesOf s.stk.per 8

/-- The save set after its header. -/
def saveBody (s : State) (ref : W64) : List Byte :=
  saveTimeOf s ref ++ (saveOffs.flatMap fun o => bytesOf (saveValue s o).toNat 4) ++
  (List.range s.par.targets).flatMap fun t =>
    byteN (s.fld (tgtOff t Reg.TGT_ERR) 5 0) :: bytesOf (s.rd (tgtOff t Reg.TGT_BADC_CNT)).toNat 4

/-- CRC-32C of a list of bytes (16 R396). -/
def crcOf (l : List Byte) : W32 := ~~~(l.foldl crcByte (BitVec.allOnes 32))

/-- The whole save set. Its length counts the header, and the CRC takes in the reserved word (DEDUCED, log 96). -/
def saveSet (s : State) (ref : W64) : Save :=
  let rest := bytesOf 0 4 ++ saveBody s ref
  { img := bytesOf 0x00030000 4 ++ bytesOf (12 + rest.length) 4 ++ bytesOf (crcOf rest).toNat 4 ++ rest }

/-- The header's format word and CRC are right (R414). -/
def Save.ok (v : Save) : Bool :=
  decide (v.num 0 4 = 0x00030000) && decide (v.num 8 4 = (crcOf ((v.img.take (v.num 4 4)).drop 12)).toNat)

/-- The register words that a save set holds. -/
def savedWords (targets : Nat) (v : Save) : Tbl W32 :=
  (saveOffs.zipIdx.flatMap fun e =>
    let w := v.num (40 + 4 * e.2) 4
    if e.1 = Reg.PNL_STAT then []
    else if e.1 = Reg.WFT_PSTAT then
      (List.range 4).map fun p => (Reg.WFT_PSTAT + 4 * p, w32 (w / 2 ^ (8 * p) % 256 * 2 ^ 24))
    else [(e.1, w32 w)]) ++
  (List.range targets).flatMap fun t =>
    [(tgtOff t Reg.TGT_ERR, w32 (v.num (940 + 5 * t) 1)), (tgtOff t Reg.TGT_BADC_CNT, w32 (v.num (941 + 5 * t) 4))]

/-- PNL_STAT.SAVED of a save set. -/
def Save.panels (v : Save) : Bool := decide (v.num (40 + 4 * saveOffs.idxOf Reg.PNL_STAT) 4 % 2 = 1)

/-- A restored word: RNK_CTRL.EN and PNL_CTRL.EN are loaded as 0 (R412). -/
def restoredWord (s : State) (e : Nat × W32) : Nat × W32 :=
  let v := if e.1 = Reg.RNK_CTRL ∨ e.1 = Reg.PNL_CTRL then setBit e.2 0 false else e.2
  (e.1, (regReset s.par e.1 &&& ~~~saveMask s e.1) ||| v)

/-! ### The commit (R411) -/

/-- The REFCNT snapshot of the entry goes into the save SRAM with the count and P. -/
def saveTime (s : State) (ref : W64) : State :=
  let was := (s.pwr.save.map (·.img)).getD []
  let img := (was.take 16 ++ List.replicate (16 - was.length) 0) ++ saveTimeOf s ref ++ was.drop 40
  modPwr (if refLegal s then seeRef s ref else s) fun p => { p with save := some { img := img } }

/-- A5 has consented. -/
def commitEntry (s : State) (ref : W64) (bad : List Nat) : State :=
  let s := modPwr s fun p => { p with latched := none, step := 0 }
  match s.pwr.target.toNat with
  | 1 => modPwr (setPwrPhase (setPwrState s 1) 0) fun p => { p with stopped := 0, point := 0 }
  | 2 => modPwr (setPwrPhase (saveTime s ref) 3) fun p => { p with main := { p.main with req := true } }
  | _ =>
    let bad := bad ++ (List.range s.par.targets).filter fun t => s.lostIn .tgtSave (tsaveAddr s t) 512
    let s := (List.range s.par.targets).foldl (saveTarget bad) (modPwr (s.forget .tgtSave) fun p => { p with tsaveBad := bad })
    modCoh (setPwrPhase s 3) fun c => { c with drop := c.drop ++ c.lines.map fun e => (e.1, .flush) }

/-- CONSENT_POINT: all fourteen subsystems are polled. -/
def consentPoint (s : State) (ref : W64) (bad : List Nat) : State :=
  if pwrPhase s ≠ 2 ∨ s.rst.phase ≠ .run then s
  else match refusers s with
  | [] =>
    let s := modPwr s fun p => { p with stopped := p.point, point := p.point + 1 }
    if s.pwr.stopped < 5 then s else commitEntry s ref bad
  | l => abortEntry s l

def execConsentPoint (ref : W64) (bad : List (BitVec 7)) (s : State) : Out :=
  .next (consentPoint s ref (bad.map (·.toNat)))

/-- The cache holds no line and nothing is outstanding. -/
def cohClean (s : State) : Bool := s.coh.lines.isEmpty && !cohBusy s

/-- DEEP from its step 2 on, the cache being clean: the snapshot is taken and the save set written, every waiting occurrence is
logged (18 R429), the outputs are held, and the clocks are asked to stop in turn. -/
def deepStop (s : State) (ref : W64) : State :=
  let s := modPwr (if refLegal s then seeRef s ref else s) fun p => { p with save := some (saveSet s ref) }
  let s := logAll s
  let s := (s.setBitR Reg.PWR_STAT 5 true).setBitR Reg.PWR_STAT 6 false
  modPwr s fun p => { p with main := { req := true, ack := true }, fast := { p.fast with req := true }, errKept := blkErr s }

/-- The countdown of R404, in CLK_AON periods. -/
def countdownOf (s : State) : Option Nat :=
  let deep := (s.rd Reg.PWR_IDLE_DEEP).toNat
  let cnt := (s.rd Reg.PWR_IDLE_CNT).toNat
  if deep = 0 ∨ deep ≤ cnt then none
  else
    let n := (deep - cnt) * s.fld Reg.STK_LEN 6 0 * 32768
    let d := oppMhz s (fAck s) * 1000000
    some ((n + d - 1) / d)

/-- The state is reached: a wake cause latched in the commit, or standing, begins the wake at once (R410). -/
def asleep (s : State) (st : Nat) : State :=
  let l := s.pwr.latched
  let s := modPwr (setPwrPhase (setPwrState s st) 4) fun p => { p with latched := none, step := 0 }
  match l with
  | some (c, i) => wake s c i
  | none => burWake s (wakeInputs s)

/-! ### Wake and fast running (R418, R419) -/

/-- The wired line that woke the block raises its event at the restart (04 R93). -/
def wokeRaise (s : State) : State :=
  let l := s.pwr.wokeLine
  let s := modPwr s fun p => { p with wokeLine := none }
  match l with
  | some n => if winEn s n && decide (pwrState s = 2) then detect (setWinLine s n true) n true else s
  | none => s

/-- The last wake step: clk_main_stop_req_o falls and fast running begins; DVFS requests that waited are issued (R424). -/
def startFast (s : State) : State :=
  let s := modPwr (setPwrPhase s 5) fun p => { p with main := { p.main with req := false }, step := 0, stopped := 0, point := 0 }
  let s := s.setBitR Reg.STK_STAT 14 true
  let s := modStk s fun k => { k with fEntry := oppMhz s (fAck s), epochNext := true }
  let s := modStk s fun k => { k with kind := .fast, fastLen := fastLenOf s, cur := fastLenOf s }
  -- P follows CLK_FAST (08 R180), and is the old P of the switch back's measurement (R182; log 73)
  let s := modStk (showPeriod s) fun k => { k with per := periodNow s }
  issueAll (localRestart (winRestart (wokeRaise (if s.bit Reg.PWR_CTRL 0 then toMain s else s))))

/-- PWR_RET_ACK: risen, NAP is reached and the countdown armed; fallen, time is advanced and fast running begins. -/
def retAck (s : State) (lvl : Bool) (ref : W64) : State :=
  let p := s.pwr.ret
  if lvl && p.req && !p.ack && decide (pwrPhase s = 3) then
    asleep (modPwr s fun p => { p with ret := { req := true, ack := true }, countdown := countdownOf s }) 2
  else if !lvl && !p.req && p.ack && decide (pwrPhase s = 4) then
    startFast (sleepAdvance (modPwr s fun p => { p with ret := { req := false, ack := false } }) ref)
  else s

def execPwrRetAck (lvl : Bool) (ref : W64) (s : State) : Out := .next (retAck s lvl ref)

/-- CLK_MAIN_STOP_ACK. For DEEP the request rises once the cache is clean, with REFCNT snapshotted as `ref` (log 56). -/
def mainAck (s : State) (lvl : Bool) (ref : W64) : State :=
  let p := s.pwr.main
  if lvl then
    if pwrPhase s ≠ 3 ∨ p.ack = true then s
    else if s.pwr.target = 3 then if cohClean s then deepStop s ref else s
    else if p.req then
      modPwr s fun p => { p with main := { req := true, ack := true }, ret := { p.ret with req := true }, errKept := blkErr s }
    else s
  else if p.ack && !p.req then modPwr s fun p => { p with main := { req := false, ack := false } }
  else s

def execClkMainStopAck (lvl : Bool) (ref : W64) (s : State) : Out := .next (mainAck s lvl ref)

/-- CLK_FAST_STOP_ACK. -/
def fastAck (s : State) (lvl : Bool) : State :=
  let p := s.pwr.fast
  if lvl && p.req && !p.ack then
    modPwr s fun p => { p with fast := { req := true, ack := true }, off := { p.off with req := true } }
  else if !lvl && !p.req && p.ack then modPwr s fun p => { p with fast := { req := false, ack := false } }
  else s

def execClkFastStopAck (lvl : Bool) (s : State) : Out := .next (fastAck s lvl)

def burOff (c : BurCore) : BurCore := { c.fresh with st := .off, code := [], miss := 0, beat := false }

/-- PWR_OFF_ACK: risen, DEEP is reached and both Burins are OFF; fallen, CLK_FAST is asked to run. -/
def offAck (s : State) (lvl : Bool) : State :=
  let p := s.pwr.off
  if lvl && p.req && !p.ack && decide (pwrPhase s = 3) then
    let s := modPwr s fun p => { p with off := { req := true, ack := true } }
    let s := (s.modCore .a burOff).modCore .b burOff
    let s := { s with sbd := { s.sbd with token := none, last := none, closing := false, mirror := none } }
    asleep s 3
  else if !lvl && !p.req && p.ack then
    modPwr s fun p => { p with off := { req := false, ack := false }, fast := { p.fast with req := false } }
  else s

def execPwrOffAck (lvl : Bool) (s : State) : Out := .next (offAck s lvl)

/-- DEEP_COUNTDOWN: the block wakes to prepare for DEEP (R404). -/
def deepCountdown (s : State) : State :=
  if pwrPhase s = 4 ∧ pwrState s = 2 ∧ s.pwr.countdown.isSome ∧ s.pwr.step < 12 then
    let s := s.wr Reg.PWR_IDLE_CNT (s.rd Reg.PWR_IDLE_DEEP)
    wake (modPwr s fun p => { p with prepNext := true }) 6 0
  else s

def execDeepCountdown (s : State) : Out := .next (deepCountdown s)

/-- The always-on filter accepts a wake-capable line: its pin shows the asserted state of its POL on FLT_LEN + 1 samples
where FLT_CLK is 1, and on one sample where it is 0 (04 R92). -/
def aonAccepts (s : State) (n samples : Nat) : Bool :=
  s.bit (winOff n Reg.WIN_CTL) 16 && winAsserted s n &&
  decide ((if fltAon s n then fltLen s n else 0) < samples)

/-- WAKE_INPUT: a wake input takes a level on two samples, or the pin of a line shows one on so many samples of the always-on
filter, which works in NAP and DEEP. -/
def wakeInput (s : State) (w : WakeSrc) : State :=
  match w with
  | .input n lvl =>
    let s := modPwr s fun p => { p with wakeIn := setBit p.wakeIn n.toNat lvl }
    if (wakeOn s).contains n.toNat then wake s 1 n.toNat else s
  | .line n lvl samples =>
    if n.toNat < s.par.wired ∧ (pwrPhase s = 3 ∨ pwrPhase s = 4) then
      let s := s.modLine n.toNat fun l => { l with pin := lvl }
      if aonAccepts s n.toNat samples.toNat then wake s 2 n.toNat else s
    else s

def execWakeInput (w : WakeSrc) (s : State) : Out := .next (wakeInput s w)

/-- PORT_VALID_WITHOUT_READY: a write, or a request on target t, waits with its ready low (R402; 05 R108, 09 R219). -/
def portWaits (s : State) (t : Option (BitVec 7)) : State :=
  let s := if pwrPhase s ≠ 2 then s
    else match t with
    | none => if 1 ≤ s.pwr.stopped then modPwr s fun p => { p with msgWait := true } else s
    | some t => if t.toNat < s.par.targets then modPwr s fun p => { p with tgtWait := true } else s
  wake s 5 0

def execPortValidWithoutReady (t : Option (BitVec 7)) (s : State) : Out := .next (portWaits s t)

/-! ### DVFS acknowledges (R422 to R424) -/

/-- DVFS_FREQ_ACK: FACK takes the point, and the request falls. -/
def freqAck (s : State) (lvl : Bool) : State :=
  let p := s.pwr.freq
  if lvl && p.req && !p.ack && dvfsUp s then
    let s := s.setFld Reg.PWR_DVFS_STATUS 2 0 s.pwr.freqPt.toNat
    let s := modStk (modPwr s fun p => { p with freq := { req := false, ack := true } }) fun k => { k with freqAck := true }
    issueAll (showPeriod s)
  else if !lvl && !p.req && p.ack then issueAll (modPwr s fun p => { p with freq := { req := false, ack := false } })
  else s

def execDvfsFreqAck (lvl : Bool) (s : State) : Out := .next (freqAck s lvl)

/-- DVFS_VOLT_ACK. -/
def voltAck (s : State) (lvl : Bool) : State :=
  let p := s.pwr.volt
  if lvl && p.req && !p.ack && dvfsUp s then
    let s := s.setFld Reg.PWR_DVFS_STATUS 6 4 s.pwr.voltPt.toNat
    issueAll (modPwr s fun p => { p with volt := { req := false, ack := true } })
  else if !lvl && !p.req && p.ack then issueAll (modPwr s fun p => { p with volt := { req := false, ack := false } })
  else s

def execDvfsVoltAck (lvl : Bool) (s : State) : Out := .next (voltAck s lvl)

end Sys2Proof.Machine
end

