-- ==== Sys2Proof/Machine/Reset.lean ====
section
/-! DEFINITION. Cold and warm reset (02 R41 to R46), the wake from DEEP (17 R412, R414, R418), the switch back (R420) and
the restore that follows it (R421). -/

namespace Sys2Proof.Machine

/-! ### What a reset of the CLK_FAST and CLK_MAIN domains leaves -/

/-- Wired lines at a cold reset: the levels of their pins are the surroundings'. -/
def pinsOf (s : State) : Tbl Line := s.win.map fun (e : Nat × Line) => (e.1, { Line.empty with pin := e.2.pin })

/-- Wired lines once their domain has been reset or off: the holder records stand, with what their targets are told by
(04 R86). -/
def linesKept (s : State) : Tbl Line :=
  s.win.map fun (e : Nat × Line) =>
    let inTable := fun (g : Holder) =>
      if s.rnkEn then pendBit s (g.toNat % 128) none (winEvent e.1) else decide (e.2.kept = some true)
    (e.1, { Line.empty with pin := e.2.pin, holder := e.2.holder, xid := e.2.xid, told := e.2.told,
                            kept := (e.2.holder.filter (isLocal s)).map inTable })

/-- Weft ports at reset: wft_phy_up_i stands, and, but for a cold reset, so does a loop that was found (12 R289). -/
def portsOf (s : State) (cold : Bool) : Tbl WPort :=
  s.wft.ports.map fun (e : Nat × WPort) =>
    let loop := !cold && e.2.loop
    (e.1, { WPort.empty with phy := e.2.phy, loop := loop, st := if loop then .disabled else .down })

/-- The Weft link at a reset of its domain: isolated mode lasts until cold reset, and such an instance is its own Anchor
(12 R297). -/
def wftKept (s : State) : Wft :=
  let w := { wftReset with ports := portsOf s false }
  if s.wft.jst = .isolated then { w with jst := .isolated, anchor := some s.instId } else w

/-- Everything of the two domains but the register file and the Burins. The counts that index free values go on. -/
def dropDomain (s : State) (win : Tbl Line) : State :=
  proofReset { s with
    tg := [], lanes := [], win := win, msg := { msgReset with nextW := s.msg.nextW }, miss := [], move := none,
    sbd := { sbdReset with opens := s.sbd.opens, left := s.sbd.left }, pnl := { pnlReset with saved := s.pnl.saved },
    rnk := State.reset.rnk, port := State.reset.port,
    stk := { stkReset with snap := { req := false, ack := s.stk.snap.req || s.stk.snap.ack } },
    rings := [], cmdRot := State.reset.cmdRot, wft := wftKept s, coh := { cohReset with draws := s.coh.draws }, count := 0 }

/-- Both Burins at step B1, Burin A the primary: BUR_STAT.PRIMARY is not among the fields that keep their value (R45, 14 R356;
log 98). -/
def burinsBoot (s : State) (keepCode : Bool) : State :=
  let f := fun (u : Bur) (c : BurCore) =>
    { c.fresh with st := if holdBit s u then .held else .boot, miss := 0,
                   code := if keepCode then c.code else [] }
  { s with bur := { s.bur with a := f .a s.bur.a, b := f .b s.bur.b, primB := false, win := 0, due := false, asked := false } }

/-- MSG_PQ_CFG and MSG_PQ_BUDGET in force (05 R111). -/
def queueApply (s : State) : State :=
  { s with msg := { s.msg with pqMin := s.fld Reg.MSG_PQ_CFG 14 0, pqCap := s.fld Reg.MSG_PQ_CFG 30 16,
                               pqBudget := s.fld Reg.MSG_PQ_BUDGET 15 0 } }

/-- The ports that are enabled and whose transport is up begin training (12 R288); an instance with no port is standalone, and its own
Anchor (01 R21); one in isolated mode stays in it (12 R297). -/
def portsStart (s : State) : State :=
  let s := (portList s).foldl (fun s p => modWport s p fun x => startPort s p x) s
  if s.par.weftPorts = 0 then modWft s fun w => { w with anchor := some s.instId }
  else if s.wft.jst = .isolated then s
  else modWft s fun w => { w with jst := .training }

/-! ### Cold reset (02 R41) -/

/-- rst_cold_n_i is low: the state after reset, the levels that the surroundings drive apart. -/
def coldHeld (s : State) : State :=
  { State.reset with
    par := s.par, mem := s.mem, pending := s.pending, win := pinsOf s, localPins := s.localPins,
    wft := { wftReset with ports := portsOf s true }, pwr := { pwrReset with wakeIn := s.pwr.wakeIn },
    rst := { rstReset with warmLow := s.rst.warmLow }, coh := { cohReset with draws := s.coh.draws },
    sbd := { sbdReset with opens := s.sbd.opens },
    bur := { State.reset.bur with a := { burReset0 with boots := s.bur.a.boots }, b := { burReset0 with boots := s.bur.b.boots } } }

def execRstColdFall (s : State) : Out := .next (coldHeld s)

/-- COLD_RESET: C1 to C3, with the straps sampled (R37), and the level of seal_i (15 R376). -/
def coldReset (s : State) (inst smb : BitVec 7) (winBase : BitVec 41) (intact : Bool) : State :=
  if s.rst.phase ≠ .cold then s
  else
    let s := coldHeld s
    let s := s.wr Reg.GLB_ID (w32 (inst.toNat + smb.toNat * 2 ^ 8))
    let s := s.wr64 Reg.GLB_WIN_BASE (BitVec.ofNat 64 (winBase.toNat * 2 ^ 23))
    let s := s.setBitR Reg.SBD_PRES 9 intact
    { s with rst := { s.rst with phase := .init } }

def execColdReset (inst smb : BitVec 7) (winBase : BitVec 41) (intact : Bool) (s : State) : Out :=
  .next (coldReset s inst smb winBase intact)

/-- Step C5: strokes start, at an epoch boundary that advances no count; orders 1 and 3 to 6 of R17 run, and the register that
draws the retry delays is seeded (13 R320). A legal REFCNT rate that a warm reset has kept sets the origin at the next
boundary, and a frequency request that has stood through it holds stroke 0 (08 R184). -/
def strokeStart (s : State) : State :=
  let s := modCoh s fun c => { c with draws := 0 }
  let len := s.fld Reg.STK_LEN 6 0
  let s := modStk s fun k => { k with kind := .normal, len := len, cur := len, shift := s.fld Reg.STK_EPOCH 3 0, epochDue := true,
                                      anchorNext := refLegal s, snapDue := some .tag,
                                      freqOut := s.pwr.freq.req }
  let s := modStk s fun k => { k with per := periodNow s }
  ipendBit (treesBoundary (queueApply (sharesApply (showPeriod s))) len) 0

/-- A reset by rst_warm_n_i has skipped the flush: STALE is 1 and nothing is saved (07 R172, 10 R246). -/
def pinMarks (s : State) : State :=
  if s.rst.warmInit && s.rst.byPin then
    { s.setBitR Reg.RNK_STAT 1 true with pnl := { s.pnl with saved := false } }
  else s

/-- The accesses stalled by the initialisation take effect in their order (R41). -/
def releaseStalled (s : State) : State :=
  let next := s.port.next
  let s' := s.port.stalled.foldl (fun s e => portServe { s with port := { s.port with next := e.1 + 1 } } e.1 e.2)
    { s with port := { s.port with stalled := [] } }
  { s' with port := { s'.port with next := next } }

/-- SRAM_INIT_DONE: READY is 1 and step C5 follows; DVFS requests that waited are issued (17 R424). -/
def sramInitDone (s : State) : State :=
  if s.rst.phase ≠ .init then s
  else
    let s := pinMarks (s.setBitR Reg.GLB_STATUS 0 true)
    let s := { s with rst := { s.rst with phase := .run, warmInit := false, byPin := false, quiet := false } }
    let s := portsStart (strokeStart s)
    let s := issueAll (releaseStalled (localRestart s))
    if s.rst.pinAfterWake then
      warmStart { s with rst := { s.rst with pinAfterWake := false } } 2 true
    else pendingStart s

def execSramInitDone (s : State) : Out := .next (sramInitDone s)

/-! ### Warm reset (02 R43 to R46) -/

/-- rst_warm_n_i takes a warm reset over: what is left of W2 is skipped (R46). -/
def pinTakes (s : State) : State :=
  let s := s.setFld Reg.GLB_RST_CAUSE 3 0 2
  let w2 := decide (s.rst.phase = .w2)
  let s := { s with rst := { s.rst with byPin := true, phase := if w2 then .w3 else s.rst.phase } }
  if w2 then cohW3 s else s

/-- The block sleeps, is committed to sleep, or runs fast: rst_warm_n_i is a wake (R46). -/
def sleeping (s : State) : Bool :=
  decide (pwrPhase s = 3) || decide (pwrPhase s = 4) || decide (pwrPhase s = 5)

/-- A consent round in progress ends without a record. -/
def dropRound (s : State) : State := if pwrPhase s = 2 then endRound s else s

/-- RST_WARM_FALL. In the initialisation of a cold reset, for which R46 has no row, it waits for C5 (DESIGN CHOICE, log 81). -/
def warmFall (s : State) : State :=
  let s := { s with rst := { s.rst with warmLow := true } }
  let later := { s with rst := { s.rst with pinAfterWake := true } }
  match s.rst.phase with
  | .cold => s
  | .init => if s.rst.warmInit then pinTakes s else later
  | .run => if sleeping s then wake later 7 0 else warmStart (dropRound s) 2 true
  | _ => pinTakes s

def execRstWarmFall (s : State) : Out := .next (warmFall s)

/-- RST_WARM_RISE; before warm_quiet_o it makes W5 the hold of 16 cycles (R44). -/
def warmRise (s : State) : State :=
  let early := s.rst.byPin && (decide (s.rst.phase = .w2) || decide (s.rst.phase = .w3))
  { s with rst := { s.rst with warmLow := false, earlyRise := s.rst.earlyRise || early } }

def execRstWarmRise (s : State) : Out := .next (warmRise s)

/-- W2 has nothing left to do. -/
def warmFlushed (s : State) : Bool :=
  s.msg.stage.isEmpty && s.msg.q.isEmpty && s.msg.slow.isEmpty && s.miss.isEmpty && treesEmpty s && vpesOut s &&
  s.pnl.parkQ.isEmpty && s.pnl.parks.isEmpty &&
  (s.tg.all fun e => (e.2.opq ++ e.2.adm ++ e.2.urgent).all fun o => decide (o.kind ≠ .ins))

/-- WARM_FLUSH_DONE: W2 ends with the summaries written and the Panels saved, and W3 begins. -/
def warmFlushDone (s : State) (badP badV : List Nat) : State :=
  if s.rst.phase ≠ .w2 then s
  else
    let d := discardPhys s
    if !warmFlushed d then s
    else
      let d := treesFlushed d
      let d := if d.bit Reg.PNL_CTRL 0 then pnlSave d badP badV else d
      cohW3 { d with rst := { d.rst with phase := .w3, trig := false } }

def execWarmFlushDone (badP : List (BitVec 10)) (badV : List (BitVec 16)) (s : State) : Out :=
  .next (s.servedRun (warmFlushDone s (badP.map (·.toNat)) (badV.map (·.toNat))))

/-- A register word after a warm reset (R45). -/
def keepWarm (p : Par) (e : Nat × W32) : Nat × W32 :=
  match regRow p e.1 with
  | some r => (e.1, (r.rst &&& ~~~r.keep) ||| (e.2 &&& r.keep))
  | none => e

/-- What the always-on partition lets go at a warm reset. PWR_STAT stands, HOLD and TREST with it (R45): a restore after DEEP
that had not ended puts nothing back any more, and its end still sets TREST (DESIGN CHOICE, log 89). -/
def pwrWarm (s : State) : State :=
  modPwr s fun p => { p with act := false, due := false, ready := false, prepNext := false, restoreCut := p.restore,
                             msgWait := false, tgtWait := false, dbStop := false, switchDue := false }

/-- Steps W4 and W5. -/
def domainReset (s : State) : State :=
  let win := linesKept s
  burinsBoot (dropDomain (pwrWarm { s with regs := s.regs.map (keepWarm s.par) }) win) true

/-- Every record that waits is written, or its ring is halted. -/
def recsOut (s : State) : Bool := (List.range 8).all fun r => (s.ring r).recs.isEmpty || s.bit (ringOff r Reg.CMD_RSTAT) 3

/-- WARM_QUIET: W3 is over; every waiting occurrence is logged (18 R429), warm_quiet_o rises and the domains enter reset. -/
def warmQuiet (s : State) : State :=
  if s.rst.phase = .w3 ∧ cohClean s = true ∧ recsOut s = true then
    let s := domainReset (logAll s)
    { s with rst := { s.rst with phase := .w5, quiet := true } }
  else s

def execWarmQuiet (s : State) : Out := .next (warmQuiet s)

/-- WARM_DOMAIN_RELEASE: the 16 cycles are over, or rst_warm_n_i has risen; steps C2 to C4 follow. -/
def domainRelease (s : State) : State :=
  if s.rst.phase = .w5 ∧ (s.rst.byPin = false ∨ s.rst.earlyRise = true ∨ s.rst.warmLow = false) then
    { s with rst := { s.rst with phase := .init, warmInit := true, earlyRise := false } }
  else s

def execWarmDomainRelease (s : State) : Out := .next (domainRelease s)

/-! ### The wake from DEEP (17 R412, R414, R418) -/

/-- Register words outside the lost domains. -/
def keepDeep (off : Nat) : Bool :=
  isPwrOff off ||
  [Reg.SBD_PRES, Reg.GLB_ID, Reg.GLB_WIN_BASE, Reg.GLB_WIN_BASE + 4, Reg.GLB_SAFE, Reg.GLB_ELOG_STAT].contains off

/-- The save set is good: every word of it is written back, and time stands as it stood at entry, whose snapshot is the previous
one of the wake's (08 R183). -/
def saveGood (s : State) (v : Save) : State :=
  modStk { s with regs := ((savedWords s.par.targets v).map (restoredWord s)) ++ s.regs, count := v.count,
                  pnl := { s.pnl with saved := v.panels } } fun k => { k with lastRef := some v.snap }

/-- The save set fails its check: nothing of it is restored and every lock is set. -/
def saveBad (s : State) : State :=
  let s := modPwr (s.wr Reg.GLB_LOCK 0x1F) fun p => { p with save := none }
  pwrErr { s with pnl := { s.pnl with saved := false } } 0 0

/-- The stroke scheduler takes its length, epoch and P from the registers as they stand. -/
def stkLoad (s : State) : State :=
  let s := modStk s fun k => { k with len := s.fld Reg.STK_LEN 6 0, shift := s.fld Reg.STK_EPOCH 3 0 }
  modStk s fun k => { k with per := periodNow s }

/-- A word of the save SRAM that cannot be corrected fails the check (18 R431, array 6). -/
def saveWordErr (s : State) (index : Nat) : State :=
  logErr s 15 Reg.GLB_ECC 1 0 Reg.GLB_ECC_LOG 31 fun s =>
    s.wr Reg.GLB_ECC_LOG (w32 (6 + index % 2 ^ 16 * 2 ^ 3 + 2 ^ 19))

/-- The save set as the save SRAM gives it back, some of its bytes changed. -/
def Save.flip (v : Save) (flips : List (BitVec 13 × Byte)) : Save :=
  { img := flips.foldl (fun l f => l.modify f.1.toNat fun b => b ^^^ f.2) v.img }

/-- DEEP_DOMAIN_RESTORE: the domains leave reset, the save set is checked and restored, time is advanced, the Burins boot and
fast running begins. `bad`: the word of the save SRAM, by its index, whose error fails the check; `flips`: the bytes of the set
that the SRAM has not kept, by their offset. The TAG of the training that follows is the snapshot's (DEDUCED, log 87), and an
instance that had joined keeps this count when it rejoins (12 R305). -/
def domainRestore (s : State) (ref : W64) (bad : Option (BitVec 16)) (flips : List (BitVec 13 × Byte)) : State :=
  let p := s.pwr
  if pwrPhase s ≠ 4 ∨ pwrState s ≠ 3 ∨ p.step < 12 ∨ p.off.req ∨ p.off.ack ∨ p.fast.req ∨ p.fast.ack then s
  else
    let keep := decide (s.wft.jst = .joined) || s.wft.keepCount
    let s := dropDomain { s with regs := s.regs.filter fun e => keepDeep e.1 } (linesKept s)
    let s := modWft (s.setBitR Reg.GLB_STATUS 0 true) fun w => { w with tag := ref.truncate 32, keepCount := keep }
    let s := match (s.pwr.save.map fun v => v.flip flips).filter Save.ok, bad with
      | some v, none => saveGood s v
      | _, some i => saveWordErr (saveBad s) i.toNat
      | none, none => saveBad s
    let s := sleepAdvance (queueApply (stkLoad s)) ref
    startFast (ipendBit (burinsBoot (proofReset s) false) 0)

def execDeepDomainRestore (ref : W64) (bad : Option (BitVec 16)) (flips : List (BitVec 13 × Byte)) (s : State) : Out :=
  .next (domainRestore s ref bad flips)

/-! ### The switch back and the restore (17 R420, R421) -/

/-- SWITCH_BACK; a warm reset that waited for RUN begins (02 R42, R46). -/
def switchBack (s : State) : State :=
  if !s.pwr.switchDue || decide (s.rst.phase ≠ .run) then s
  else
    let deep := decide (pwrState s = 3)
    let s := (s.setBitR Reg.STK_STAT 14 false).setBitR Reg.PWR_CTRL 1 false
    let s := modPwr (setPwrPhase (setPwrState s 0) 0) fun p => { p with switchDue := false, restore := p.restore || deep,
                                                                           restoreCut := p.restoreCut && !deep }
    let s := wantSnap (showPeriod s) .measure
    if s.rst.pinAfterWake then warmStart { s with rst := { s.rst with pinAfterWake := false } } 2 true else pendingStart s

def execSwitchBack (s : State) : Out := .next (switchBack s)

/-- Put back TGT_ICFGi, its LINE as the input now stands (09 R216). -/
def restoreIcfg (t : Nat) (s : State) (i : Nat) : State :=
  let o := icfgOff t i
  let was := s.bit o 12
  let v := setBit (tsaveIcfg s t i &&& 0x7FFF) 13 (s.bit o 13)
  let s := s.wr o v
  if !was && bitAt v 12 && bitAt v 13 && decide (16 ≤ i) then localRaise s t i else s

/-- Restore target t. One whose area could not be written at entry, or not read now, starts empty. -/
def restoreTarget (failed bad : List Nat) (s : State) (t : Nat) : State :=
  if bad.contains t then pwrErr s 2 t
  else if failed.contains t then s
  else
    let c := tsaveCtx s t
    let f := tsaveFloor s t
    (List.range 32).foldl (restoreIcfg t) (s.modTgt t fun x => { x with phys := c, nsfloor := f })

/-- The saved word of a register. -/
def savedWord (s : State) (off : Nat) : W32 := (s.pwr.save.map fun v => Tbl.get 0 (savedWords s.par.targets v) off).getD 0

/-- TREST becomes 1, and a release that waited for it takes effect (R416). -/
def trestDone (s : State) : State :=
  let s := s.setBitR Reg.PWR_STAT 6 true
  let s := if s.pwr.relWait then s.setBitR Reg.PWR_STAT 5 false else s
  modPwr s fun p => { p with relWait := false }

/-- TARGET_RESTORE_DONE, and the steps of R421 that follow it. After a warm reset nothing is put back. -/
def targetRestore (s : State) (bad : List Nat) : State :=
  if !s.pwr.restore || !engOn s 4 then s
  else if s.pwr.restoreCut then trestDone (modPwr s fun p => { p with restore := false, restoreCut := false })
  else
    let bad := bad ++ (List.range s.par.targets).filter fun t => s.lostIn .tgtSave (tsaveAddr s t) 512
    let s := trestDone ((List.range s.par.targets).foldl (restoreTarget s.pwr.tsaveBad bad) (s.forget .tgtSave))
    let s := if bitAt (savedWord s Reg.RNK_CTRL) 0 then applyRnkCtrl s (setBit (s.rd Reg.RNK_CTRL) 0 true) else s
    let s := if bitAt (savedWord s Reg.PNL_CTRL) 0 then applyPnlCtrl s (s.rd Reg.PNL_CTRL ||| 3) else s
    portsStart (modPwr s fun p => { p with restore := false })

def execTargetRestoreDone (bad : List (BitVec 7)) (s : State) : Out := .next (targetRestore s (bad.map (·.toNat)))

end Sys2Proof.Machine
end

