-- ==== Sys2Proof/Machine/Upset.lean ====
section
/-! DEFINITION. Errors of the SRAMs and of the paths with parity, where they show (07 R172, 13 R322, 14 R341, 18 R431, R432).
No command of the table carries one: they come with the boundary that ends the stroke in which they show (log 93). -/

namespace Sys2Proof.Machine

/-! ### The table cache (13 R322) -/

/-- The words of a line that a mask names become 0, in the memory image, which the cached copy stands for. -/
def zeroWords (s : State) (l : Nat) (words : Byte) : State :=
  (List.range 8).foldl (fun s k =>
    if words.getLsbD k then { s with mem := memStore s.mem (l * 64 + 8 * k) 8 0 } else s) s

/-- An error in a line that the cache holds. An uncorrectable one drops a clean line; of an M or O line the failing words
become 0, and it is written back. -/
def lineUpset (s : State) (l : Nat) (words : Byte) (unc : Bool) : State :=
  match lineState s l with
  | none => s
  | some x =>
    if !unc then cohErr s 4 0 l
    else if dirtyState x then
      modCoh (zeroWords (cohErr s 5 0 l) l words) fun c => { c with drop := c.drop ++ [(l, .upset)] }
    else invalidate s l

/-! ### A tree's entry store (07 R172) -/

/-- An uncorrectable error frees the leaf; the ID is logged when it can be read. -/
def entryUpset (s : State) (t : Nat) (virt : Bool) (ev : EventId) (unc idOk : Bool) : State :=
  if (residentIn (s.tgt t) virt ev).isNone then s
  else if !unc then rnkErr s 0 t ev
  else
    let s := takeOut s t virt ev
    noteState (if idOk then rnkErr s 1 t ev else setFlag s 3 Reg.RNK_ERR 1 0 false) t virt ev

/-! ### A Burin's SRAM (14 R341, R344) -/

/-- An uncorrectable error on a fetch or a load of a running image raises ECC. -/
def burinUpset (s : State) (u : Bur) (addr : W32) (unc : Bool) : State :=
  if !unc then burErr s 6
  else if burRuns s u && decide ((s.core u).st = .run) && !(s.core u).waiting then burTrap (burErr s 7) u 7 addr
  else s

/-! ### Parity (18 R432) -/

/-- Flag a path, and capture the log: the ID as read, and whether its own parity passed. -/
def dparErr (s : State) (path unit : Nat) (ev : EventId) (id : Option EventId) : State :=
  logErr s 16 Reg.GLB_DPAR path 0 (Reg.GLB_DPAR_LOG + 4) 31 fun s =>
    s.wr64 Reg.GLB_DPAR_LOG (BitVec.ofNat 64 (path + b2n id.isNone * 2 ^ 3 + (id.getD ev).toNat * 2 ^ 4 + unit * 2 ^ 25))

/-- The queues of a tree that hold operations, in the order in which they issue. -/
def opAt (x : Tg) (k : Nat) : Option TOp := (x.urgent ++ x.skip ++ x.adm ++ x.carry ++ x.opq ++ x.sbuf)[k]?

/-- Take the operation at that place out. -/
def eraseOp (x : Tg) (k : Nat) : Tg :=
  let u := x.urgent.length
  let a := u + x.skip.length
  let b := a + x.adm.length
  let c := b + x.carry.length
  let d := c + x.opq.length
  if k < u then { x with urgent := x.urgent.eraseIdx k }
  else if k < a then { x with skip := x.skip.eraseIdx (k - u) }
  else if k < b then { x with adm := x.adm.eraseIdx (k - a) }
  else if k < c then { x with carry := x.carry.eraseIdx (k - b) }
  else if k < d then { x with opq := x.opq.eraseIdx (k - c) }
  else { x with sbuf := x.sbuf.eraseIdx (k - d) }

/-- OPQ: the operation does not run. -/
def opUpset (s : State) (t k : Nat) (id : Option EventId) : State :=
  match opAt (s.tgt t) k with
  | none => s
  | some o => noteState (dparErr (s.modTgt t fun x => eraseOp x k) 0 t o.ev id) t o.virt o.ev

/-- OPQ: an AGE operation, which carries no ID of its own, does not run. -/
def ageUpset (s : State) (t k : Nat) (id : Option EventId) : State :=
  if (s.tgt t).ages.length ≤ k then s else dparErr (s.modTgt t fun x => { x with ages := x.ages.eraseIdx k }) 0 t 0 id

/-- SPILL: a spill in a lane's buffers is written nowhere. -/
def spillUpset (s : State) (l k : Nat) (id : Option EventId) : State :=
  match (s.lane l)[k]? with
  | none => s
  | some w =>
    if !w.set then s
    else
      let s := dparErr (s.setLane l ((s.lane l).eraseIdx k)) 1 w.t w.ev id
      directLane (laneDrain (noteState s w.t w.vpe.isSome w.ev) l) l

/-- SPILL: a park is written nowhere. -/
def parkUpset (s : State) (k : Nat) (id : Option EventId) : State :=
  match s.pnl.parks[k]? with
  | none => s
  | some w =>
    dparErr { s with pnl := { s.pnl with parks := s.pnl.parks.eraseIdx k } } 1 (s.vword w.v).target w.ev id

/-- WFT: the flit is dropped, and its buffer's credit goes back; an in-flight entry is freed without its DACK. -/
def wftUpset (s : State) (w : WftAt) (id : Option EventId) : State :=
  match w with
  | .rx p k =>
    match (wport s p.toNat).rxq[k.toNat]? with
    | none => s
    | some e =>
      let s := modWport s p.toNat fun x => { x with rxq := x.rxq.eraseIdx k.toNat, rxCred := min 32 (x.rxCred + 1) }
      dparErr s 2 p.toNat (BitVec.ofNat 21 (flitEvent (flitType e.flit) (flitPay e.flit))) id
  | .replay p k =>
    match (wport s p.toNat).replay[k.toNat]? with
    | none => s
    | some e =>
      let s := modWport s p.toNat fun x => { x with replay := x.replay.eraseIdx k.toNat }
      dparErr s 2 p.toNat (BitVec.ofNat 21 (flitEvent e.2.ty.toNat e.2.pay)) id
  | .resend p k =>
    match (wport s p.toNat).resend[k.toNat]? with
    | none => s
    | some e =>
      let s := modWport s p.toNat fun x => { x with resend := x.resend.eraseIdx k.toNat }
      dparErr s 2 p.toNat (BitVec.ofNat 21 (flitEvent e.ty.toNat e.pay)) id
  | .inflight i =>
    match Tbl.find s.wft.ift i.toNat with
    | none => s
    | some e =>
      let port := (Tbl.find s.wft.routes e.dst.toNat).elim 0 (·.port.toNat)
      let s := dparErr (modWft s fun w => { w with ift := Tbl.del w.ift i.toNat }) 2 port (BitVec.ofNat 21 (iftEvent e)) id
      pumpRwait s 512

/-- CMD: the ring halts with FETCH_ERR once HEAD reaches the descriptor, as for a failed fetch (11 R276). -/
def descUpset (s : State) (r k : Nat) (id : Option EventId) : State :=
  match (s.ring r).fetched[k]? with
  | none => s
  | some d =>
    let s := s.modRing r fun x => { x with fetched := x.fetched.take k, bad := true }
    dparErr (haltAtBad s r) 3 r (BitVec.ofNat 21 (field (d.word 1) 20 0)) id

/-- TGT: an entry of an active stack or split list is gone; RP follows from what is left. -/
def activeUpset (s : State) (t : Nat) (virt split : Bool) (k : Nat) (id : Option EventId) : State :=
  let c := (s.tgt t).ctx virt
  match (if split then c.split else c.stack)[k]? with
  | none => s
  | some a =>
    let c := if split then { c with split := c.split.eraseIdx k } else { c with stack := c.stack.eraseIdx k }
    noteState (dparErr (s.modTgt t fun x => x.setCtx virt c) 4 t a.ev id) t virt a.ev

def parityUpset (s : State) (a : ParityAt) (id : Option EventId) : State :=
  match a with
  | .op t k => opUpset s t.toNat k.toNat id
  | .age t k => ageUpset s t.toNat k.toNat id
  | .spill l k => spillUpset s l.toNat k.toNat id
  | .park k => parkUpset s k.toNat id
  | .wft w => wftUpset s w id
  | .desc r k => descUpset s r.toNat k.toNat id
  | .active t v sp k => activeUpset s t.toNat v sp k.toNat id

/-! ### The other arrays (18 R431) -/

/-- ARRAY codes of R431. -/
def arrayCode : ArrayAt → Nat
  | .pool _ => 1 | .tracker _ => 1 | .summary _ _ _ => 2 | .vpe _ => 3 | .panel _ _ => 4 | .weft _ _ => 5 | .slot _ => 6

def wftIndex : WftAt → Nat
  | .rx p k => p.toNat * 32 + k.toNat
  | .replay p k => 128 + p.toNat * 64 + k.toNat
  | .resend p k => 128 + p.toNat * 64 + k.toNat
  | .inflight i => 384 + i.toNat

/-- INDEX of the entry hit. The spec numbers no array; where one code stands for several, they follow one another (DESIGN
CHOICE, log 93). -/
def arrayIndex : ArrayAt → Nat
  | .pool k => k.toNat
  | .tracker k => 2 ^ 14 + k.toNat
  | .summary t virt chunk => chunk.toNat + t.toNat % 16 * 2 ^ 11 + b2n virt * 2 ^ 15
  | .vpe v => v.toNat
  | .panel p _ => p.toNat
  | .weft w _ => wftIndex w
  | .slot n => 0x400 + 8 * n.toNat

/-- GLB_ECC, and its log. -/
def eccErr (s : State) (a : ArrayAt) (unc : Bool) : State :=
  logErr s 15 Reg.GLB_ECC (b2n unc) 0 Reg.GLB_ECC_LOG 31 fun s =>
    s.wr Reg.GLB_ECC_LOG (w32 (arrayCode a + arrayIndex a % 2 ^ 16 * 2 ^ 3 + b2n unc * 2 ^ 19))

/-- A slow-path write leaves the tracker, wherever it stands: it raises nothing. -/
def loseSlow (s : State) (wid : Nat) : State :=
  let s := freeSlow { s with miss := s.miss.filter fun m => decide (m.w.wid ≠ wid) } wid
  modWft s fun w => { w with rwait := w.rwait.filter fun e => decide (e.wid ≠ some wid) }

/-- The word of a vPE, rebuilt: V and PANEL from its context, where it is resident and whether it switches from the targets. -/
def rebuiltWord (s : State) (v : BitVec 16) : VWord :=
  let w0 := s.load64 (vctx s v)
  let at_ := (s.tg.find? fun e => e.2.vpeV && decide (e.2.vpe = v)).map (·.1)
  { v := bitAt w0 0, panel := field w0 17 8, res := at_.isSome, target := at_.getD 0, dbarm := true, best := 0,
    switching := s.tg.any fun e => e.2.sw.any fun k => decide (k.old = some v) || decide (k.new = some v) }

/-- A Panel becomes QUIESCED; a command that was changing its state ends (log 94). A live share that cannot be read is 0. -/
def panelUpset (s : State) (p : Nat) (share : Bool) : State :=
  let s := s.setPanel p { s.panel p with state := .quiesced, toActive := false, closed := true, due := false }
  let s := if share then (s.wr (shareOff p Reg.PNL_SHR_LIVE0) 0).wr (shareOff p Reg.PNL_SHR_LIVE1) 0 else s
  pnlFinish s p

/-- What an uncorrectable error does. -/
def arrayLose (s : State) (a : ArrayAt) : State :=
  match a with
  | .pool k => { s with msg := { s.msg with q := s.msg.q.eraseIdx k.toNat } }
  | .tracker k => (s.msg.slow[k.toNat]?).elim s fun e => loseSlow s e.w.wid
  | .summary t virt chunk => if s.par.targets ≤ t.toNat then s else s.modTgt t.toNat fun x => x.setSums virt (Tbl.put (x.sums virt) chunk.toNat Sum.sweepAll)
  | .vpe v => if v.toNat < s.par.vpes then s.setVword v (rebuiltWord s v) else s
  | .panel p share => if p.toNat < s.par.panels then panelUpset s p.toNat share else s
  | .weft w id => wftUpset s w id
  | .slot n => { s with err := { s.err with slots := Tbl.del s.err.slots n.toNat } }

/-- An error in one of the arrays of R431; a corrected one has no other effect. -/
def arrayUpset (s : State) (a : ArrayAt) (unc : Bool) : State :=
  let s := eccErr s a unc
  if unc then arrayLose s a else s

/-- One error. -/
def upset (s : State) : Upset → State
  | .line l words unc => lineUpset s l.toNat words unc
  | .entry t virt ev unc idOk => entryUpset s t.toNat virt ev unc idOk
  | .array a unc => arrayUpset s a unc
  | .burin u addr unc => burinUpset s u addr unc
  | .parity a id => parityUpset s a id

/-- The errors that a stroke has shown, in their order; a command whose operation has gone with one has its end. -/
def upsets (s : State) (l : List Upset) : State := if l.isEmpty then s else pollAll (l.foldl upset s)

end Sys2Proof.Machine
end

