-- ==== Sys2Proof/Machine/Boundary.lean ====
section
/-! DEFINITION. STROKE_BOUNDARY: the actions of 01 R17 in their order, and REF_SNAP_ACK. -/

namespace Sys2Proof.Machine

/-- A stroke can end: strokes run, and the boundary of abort point A3 does not come before that point (17 R407, R408). -/
def boundaryOn (s : State) : Bool :=
  (decide (s.rst.phase = .run) || decide (s.rst.phase = .w2)) &&
  (match pwrPhase s with
   | 0 => true
   | 1 => true
   | 2 => decide (s.pwr.point ≠ 3) && (decide (s.pwr.stopped < 3) || decide (s.pwr.target = 1))
   | 5 => true
   | _ => false)

/-- What the boundary before has made due, and has not been seen yet. -/
def settle (s : State) : State := switchBack (idleThreshold (sweepComplete (heartbeatEnd (snapshot (epochBoundary s)))))

def isFast (s : State) : Bool := s.bit Reg.STK_STAT 14

/-- Order 2 (08 R185, R186): the count advances by one, or by one plus the jump; the decision of a lag takes effect. -/
def countAdvance (s : State) : State × Bool :=
  match s.stk.dec with
  | none => ({ s with count := s.count + 1 }, false)
  | some (n, j) =>
    let s := modStk s fun k => { k with dec := none, catchN := n }
    if j = 0 then ({ s with count := s.count + 1 }, false)
    else ({ s with count := s.count + 1 + BitVec.ofNat 48 j }.cnt64 Reg.STK_JUMP_CNT j, true)

/-- The length of the stroke that begins (08 R178). An Anchor never stretches, so an instance that becomes the Anchor drops what
is left of a stretch (08 R193; DESIGN CHOICE, log 104). -/
def nextStroke (s : State) (fast : Bool) : State :=
  let s := if isAnchor s then modStk s fun k => { k with stretchN := 0 } else s
  let k := s.stk
  if fast then modStk s fun k => { k with kind := .fast, cur := k.fastLen }
  else if k.stretchN ≠ 0 then modStk s fun k => { k with kind := .stretch, cur := k.len + 8, stretchN := k.stretchN - 1 }
  else if k.catchN ≠ 0 then
    (modStk s fun k => { k with kind := .catchUp, cur := s.fld Reg.STK_CATCH 6 0, catchN := k.catchN - 1 }).cnt64
      Reg.STK_CATCH_CNT
  else modStk s fun k => { k with kind := .normal, cur := k.len }

/-- The causes of a snapshot (08 R181 to R183). -/
def snapCauses (s : State) (late newLen : Bool) : State :=
  if s.stk.anchorNext then modStk (wantSnap s .anchor) fun k => { k with anchorNext := false, freqAck := false }
  else
    let want := decide (s.count.toNat % 16 = 0) || late || s.stk.freqAck || newLen || decide (periodNow s ≠ s.stk.per)
    modStk (if want then wantSnap s .measure else s) fun k => { k with freqAck := false }

/-- The boundary is an epoch boundary (08 R188); a new SHIFT takes effect at a multiple of its length. -/
def epochOrder (s : State) (jump : Bool) : State :=
  let sh := s.fld Reg.STK_EPOCH 3 0
  let new := decide (sh ≠ s.stk.shift) && decide (s.count.toNat % 2 ^ sh = 0)
  let due := decide (s.count.toNat % 2 ^ s.stk.shift = 0) || jump || s.stk.epochNext || new
  modStk s fun k => { k with shift := if new then sh else k.shift, epochDue := due, epochNext := false }

/-- The idle count of 17 R403, and the choice or STOP that order 7 leads to; a target output that is high abandons a preparation
(17 R405). -/
def idleOrder (s : State) : State :=
  let s := if outHigh s then abandonPrep s else s
  let s := if s.pwr.act || outHigh s then s.wr Reg.PWR_IDLE_CNT 0 else s.cnt32 Reg.PWR_IDLE_CNT
  let s := modPwr s fun p => { p with act := false }
  if pwrPhase s = 1 ∧ s.pwr.ready = true then stop s 3
  else if s.pwr.prepNext && mayChoose s && deepOk s then beginPrep s
  else if mayChoose s then modPwr s fun p => { p with due := decide (idleTarget s ≠ 0), prepNext := false }
  else s

/-- The heartbeat window of 14 R350. -/
def windowOrder (s : State) : State :=
  let n := s.bur.win + 1
  { s with bur := { s.bur with win := if n = 256 then 0 else n, due := s.bur.due || decide (n = 256) } }

/-- Order 8: ALIGN and COMMIT flits, and the alignment strokes of the Anchor (08 R193; 12 R291). -/
def alignOrder (s : State) : State :=
  let s := match s.stk.alignIn with
    | some (n, h) => alignApply (modStk s fun k => { k with alignIn := none }) n h
    | none => s
  let s := match s.stk.commitIn with
    | some (n, h) => loadCount (modStk s fun k => { k with commitIn := none }) (n + BitVec.ofNat 48 (transitOf s h))
    | none => s
  let due := isAnchor s && decide (s.wft.jst = .joined) && decide (s.count.toNat % 2 ^ s.fld Reg.STK_ALIGN 3 0 = 0)
  modStk s fun k => { k with alignDue := k.alignDue || due }

/-- The switch back falls on this boundary (17 R420). -/
def switchNow (s : State) : Bool :=
  decide (pwrPhase s = 5) && s.bit Reg.PWR_CTRL 1 && !s.pwr.main.req && !s.pwr.main.ack

/-- Orders 2 and 3, with the schedule. -/
def boundaryTime (s : State) (held : Bool) : State :=
  let late := (held && s.stk.freqOut) || s.stk.held
  let s := if late then s.cnt64 Reg.STK_LATE_CNT else s
  let a := countAdvance s
  let s := a.1
  let len := s.fld Reg.STK_LEN 6 0
  let newLen := decide (len ≠ s.stk.len)
  let sw := switchNow s
  let s := modStk (modPwr s fun p => { p with switchDue := sw }) fun k => { k with len := len, held := false, freqOut := s.pwr.freq.req }
  let fast := isFast s && !sw
  let s := showPeriod (nextStroke s fast)
  let s := snapCauses s late newLen
  epochOrder (queueApply (if s.rst.phase = .w2 then s else sharesApply s)) a.2

/-- Work that goes on while a flush lasts (07 R172; 10 R245). -/
def flushGoesOn (s : State) : State :=
  if s.rst.phase = .w2 ∨ pwrPhase s = 1 then prepWork s else s

/-- The actions of 01 R17, in their order. What the stroke that ends has completed is recorded with its number (11 R259). -/
def boundaryOrders (s : State) (held : Bool) : State :=
  let s := boundaryTime (pollAll s) held
  let s := pnlBoundary (rxPumpAll (treesBoundary s s.stk.cur))
  let s := proofSample (windowOrder (idleOrder s))
  wftPump (pollAll (flushGoesOn (alignOrder s)))

/-- STROKE_BOUNDARY. -/
def strokeBoundary (s : State) (held : Bool) (ups : List Upset) : State :=
  if !boundaryOn s then s else boundaryOrders (upsets (settle (trigOver (secondsPass s))) ups) held

def execStrokeBoundary (held : Bool) (ups : List Upset) (s : State) : Out := .next (strokeBoundary s held ups)

/-- REF_SNAP_ACK: the acknowledge rises with REFCNT latched, and the request falls (02 R36). -/
def refSnapAck (s : State) (r : W64) : State :=
  if s.stk.snap.req && !s.stk.snap.ack then
    modStk (snapTaken s r) fun k => { k with snap := { req := false, ack := true } }
  else s

def execRefSnapAck (r : W64) (s : State) : Out := .next (refSnapAck s r)

end Sys2Proof.Machine
end

