-- ==== Sys2Proof/Machine/Polled.lean ====
section
/-! DEFINITION. The rows that can end what a running command, or a request of another instance, waits for: INS and REM, the
sets of spills and parks, MISS_FILL and MSG_FENCE_DONE. The command completes in the row's own step, at the stroke in which
it happens (11 R259, R264). -/

namespace Sys2Proof.Machine

def execIns (t : BitVec 7) (s : State) : Out := .next (pollAll (issueIns s t.toNat))

def execRem (t : BitVec 7) (s : State) : Out := .next (pollAll (issueRem s t.toNat))

def execSpillSetDone (l : BitVec 3) (fail : Bool) (s : State) : Out :=
  .next (if engOn s 3 then s.served (pollAll (s.withFail (.spill l) 4 fail fun s fail => spillSetDone s l.toNat fail)) else s)

def execPark (fail : Bool) (s : State) : Out := .next (if engOn s 2 then s.served (pollAll (parkStart s fail)) else s)

def execParkSetDone (n : BitVec 7) (e : SetEnd) (s : State) : Out :=
  .next (if engOn s 2 then
    s.served (pollAll (s.withFail (.park n) 4 false fun s fail => parkDone s n.toNat (setEnd e fail))) else s)

def execMissFill (slice n : BitVec 3) (s : State) : Out :=
  .next (if engOn s 2 then pollAll (missFill s slice.toNat n.toNat) else s)

def execMsgFenceDone (s : State) : Out := .next (pollAll (fenceDone s))

end Sys2Proof.Machine
end

