-- ==== Sys2Proof/Machine/Dispatch.lean ====
section
/-! DEFINITION. The one dispatch of the commands to their meanings, in the order of the table. -/

namespace Sys2Proof.Machine

def exec (i : Instr) (s : State) : Host.Outcome State Fault Refusal :=
  match i with
  | .coldReset inst smb winBase intact => Sys2Proof.Machine.execColdReset inst smb winBase intact s
  | .sramInitDone => Sys2Proof.Machine.execSramInitDone s
  | .rstWarmFall => Sys2Proof.Machine.execRstWarmFall s
  | .rstWarmRise => Sys2Proof.Machine.execRstWarmRise s
  | .glbRstCtrlWarm acc => Sys2Proof.Machine.execGlbRstCtrlWarm acc s
  | .warmFlushDone badP badV => Sys2Proof.Machine.execWarmFlushDone badP badV s
  | .warmQuiet => Sys2Proof.Machine.execWarmQuiet s
  | .warmDomainRelease => Sys2Proof.Machine.execWarmDomainRelease s
  | .strokeBoundary held ups => Sys2Proof.Machine.execStrokeBoundary held ups s
  | .epochBoundary => Sys2Proof.Machine.execEpochBoundary s
  | .refcntSnapshot => Sys2Proof.Machine.execRefcntSnapshot s
  | .refSnapAck ref => Sys2Proof.Machine.execRefSnapAck ref s
  | .alignStroke => Sys2Proof.Machine.execAlignStroke s
  | .heartbeatWindowEnd => Sys2Proof.Machine.execHeartbeatWindowEnd s
  | .proofSweepComplete => Sys2Proof.Machine.execProofSweepComplete s
  | .idleThreshold => Sys2Proof.Machine.execIdleThreshold s
  | .wiredLineChange n lvl samples shown => Sys2Proof.Machine.execWiredLineChange n lvl samples shown s
  | .wiredFilterAccept n samples => Sys2Proof.Machine.execWiredFilterAccept n samples s
  | .wiredConfigRead k => Sys2Proof.Machine.execWiredConfigRead k s
  | .winCtlWrite n acc => Sys2Proof.Machine.execWinCtlWrite n acc s
  | .winRouteWrite n acc => Sys2Proof.Machine.execWinRouteWrite n acc s
  | .winXstatWrite n acc => Sys2Proof.Machine.execWinXstatWrite n acc s
  | .localInputChange t n lvl => Sys2Proof.Machine.execLocalInputChange t n lvl s
  | .tgtIcfgWrite t idx acc => Sys2Proof.Machine.execTgtIcfgWrite t idx acc s
  | .msgWrite addr data be src => Sys2Proof.Machine.execMsgWrite addr data be src s
  | .msgDecode => Sys2Proof.Machine.execMsgDecode s
  | .slowSetDone n fail => Sys2Proof.Machine.execSlowSetDone n fail s
  | .msgFenceReq acc => Sys2Proof.Machine.execMsgFenceReq acc s
  | .msgFenceDone => Sys2Proof.Machine.execMsgFenceDone s
  | .msgPqCfgWrite acc => Sys2Proof.Machine.execMsgPqCfgWrite acc s
  | .lookupIssue slice idle => Sys2Proof.Machine.execLookupIssue slice idle s
  | .missFill slice n => Sys2Proof.Machine.execMissFill slice n s
  | .ins t => Sys2Proof.Machine.execIns t s
  | .ext t => Sys2Proof.Machine.execExt t s
  | .rem t => Sys2Proof.Machine.execRem t s
  | .rpr t => Sys2Proof.Machine.execRpr t s
  | .age t => Sys2Proof.Machine.execAge t s
  | .mvo t => Sys2Proof.Machine.execMvo t s
  | .fls t => Sys2Proof.Machine.execFls t s
  | .claimResponse t => Sys2Proof.Machine.execClaimResponse t s
  | .leadArrive t virt fail => Sys2Proof.Machine.execLeadArrive t virt fail s
  | .sweepStart t virt => Sys2Proof.Machine.execSweepStart t virt s
  | .sweepLinesArrive t virt fail => Sys2Proof.Machine.execSweepLinesArrive t virt fail s
  | .sweepAttrArrive t virt fail => Sys2Proof.Machine.execSweepAttrArrive t virt fail s
  | .backgroundSweep t virt => Sys2Proof.Machine.execBackgroundSweep t virt s
  | .spillSetDone l fail => Sys2Proof.Machine.execSpillSetDone l fail s
  | .flushDone => Sys2Proof.Machine.execFlushDone s
  | .rnkCtrlWrite acc => Sys2Proof.Machine.execRnkCtrlWrite acc s
  | .loadDone t bad => Sys2Proof.Machine.execLoadDone t bad s
  | .claim t p => Sys2Proof.Machine.execClaim t p s
  | .complete t p arg => Sys2Proof.Machine.execComplete t p arg s
  | .deactivate t p arg => Sys2Proof.Machine.execDeactivate t p arg s
  | .send t p arg => Sys2Proof.Machine.execSend t p arg s
  | .setPmask t p arg => Sys2Proof.Machine.execSetPmask t p arg s
  | .setSplit t p arg => Sys2Proof.Machine.execSetSplit t p arg s
  | .setVpe t p arg => Sys2Proof.Machine.execSetVpe t p arg s
  | .peek t p => Sys2Proof.Machine.execPeek t p s
  | .undefinedOp t op ctx arg => Sys2Proof.Machine.execUndefinedOp t op ctx arg s
  | .park fail => Sys2Proof.Machine.execPark fail s
  | .parkSetDone n e => Sys2Proof.Machine.execParkSetDone n e s
  | .switchSave t ctxFail bad => Sys2Proof.Machine.execSwitchSave t ctxFail bad s
  | .switchLoad t ctxFail bad => Sys2Proof.Machine.execSwitchLoad t ctxFail bad s
  | .switchDone t => Sys2Proof.Machine.execSwitchDone t s
  | .quiesceDone p => Sys2Proof.Machine.execQuiesceDone p s
  | .panelResetDone p => Sys2Proof.Machine.execPanelResetDone p s
  | .panelDestroyDone p => Sys2Proof.Machine.execPanelDestroyDone p s
  | .pnlCtrlWrite acc => Sys2Proof.Machine.execPnlCtrlWrite acc s
  | .panelRestoreDone badP badV => Sys2Proof.Machine.execPanelRestoreDone badP badV s
  | .cmdDbWrite r acc => Sys2Proof.Machine.execCmdDbWrite r acc s
  | .descriptorFetch r fail => Sys2Proof.Machine.execDescriptorFetch r fail s
  | .completionRecordWrite r fail => Sys2Proof.Machine.execCompletionRecordWrite r fail s
  | .cmdRctrlWrite r acc => Sys2Proof.Machine.execCmdRctrlWrite r acc s
  | .cmdRstatClear r acc => Sys2Proof.Machine.execCmdRstatClear r acc s
  | .mbxAck acc => Sys2Proof.Machine.execMbxAck acc s
  | .cmdNop r => Sys2Proof.Machine.execCmdNop r s
  | .sync r => Sys2Proof.Machine.execSync r s
  | .srcMap r c => Sys2Proof.Machine.execSrcMap r c s
  | .srcUnmap r c => Sys2Proof.Machine.execSrcUnmap r c s
  | .evMap r c => Sys2Proof.Machine.execEvMap r c s
  | .evUnmap r c => Sys2Proof.Machine.execEvUnmap r c s
  | .evAttr r c => Sys2Proof.Machine.execEvAttr r c s
  | .evMove r c => Sys2Proof.Machine.execEvMove r c s
  | .moveTablesVisible c => Sys2Proof.Machine.execMoveTablesVisible c s
  | .moveRedirectRemove => Sys2Proof.Machine.execMoveRedirectRemove s
  | .xltInv r fail => Sys2Proof.Machine.execXltInv r fail s
  | .evSetPend r c => Sys2Proof.Machine.execEvSetPend r c s
  | .evClrPend r c => Sys2Proof.Machine.execEvClrPend r c s
  | .evQuery r c => Sys2Proof.Machine.execEvQuery r c s
  | .panelCreate r => Sys2Proof.Machine.execPanelCreate r s
  | .panelVattr r fail => Sys2Proof.Machine.execPanelVattr r fail s
  | .panelShare r => Sys2Proof.Machine.execPanelShare r s
  | .panelQuiesce r => Sys2Proof.Machine.execPanelQuiesce r s
  | .panelResume r => Sys2Proof.Machine.execPanelResume r s
  | .panelReset r => Sys2Proof.Machine.execPanelReset r s
  | .panelDestroy r => Sys2Proof.Machine.execPanelDestroy r s
  | .vpeCreate r c => Sys2Proof.Machine.execVpeCreate r c s
  | .vpeDoorbell r c => Sys2Proof.Machine.execVpeDoorbell r c s
  | .vpeDestroy r fail => Sys2Proof.Machine.execVpeDestroy r fail s
  | .safeExit r => Sys2Proof.Machine.execSafeExit r s
  | .safeLeave => Sys2Proof.Machine.execSafeLeave s
  | .wftPhyUp p => Sys2Proof.Machine.execWftPhyUp p s
  | .wftPhyDown p => Sys2Proof.Machine.execWftPhyDown p s
  | .wftCredit p => Sys2Proof.Machine.execWftCredit p s
  | .trainTimer p => Sys2Proof.Machine.execTrainTimer p s
  | .idleTimer p => Sys2Proof.Machine.execIdleTimer p s
  | .replayTimeout p => Sys2Proof.Machine.execReplayTimeout p s
  | .portDownTimeout p => Sys2Proof.Machine.execPortDownTimeout p s
  | .idle p f => Sys2Proof.Machine.execIdle p f s
  | .train p f => Sys2Proof.Machine.execTrain p f s
  | .hello p f => Sys2Proof.Machine.execHello p f s
  | .floodSettled => Sys2Proof.Machine.execFloodSettled s
  | .routesComputed => Sys2Proof.Machine.execRoutesComputed s
  | .route p f => Sys2Proof.Machine.execRoute p f s
  | .tmap p f => Sys2Proof.Machine.execTmap p f s
  | .commit p f => Sys2Proof.Machine.execCommit p f s
  | .joinAtReached us => Sys2Proof.Machine.execJoinAtReached us s
  | .align p f => Sys2Proof.Machine.execAlign p f s
  | .join p f => Sys2Proof.Machine.execJoin p f s
  | .linkdn p f => Sys2Proof.Machine.execLinkdn p f s
  | .raise p f => Sys2Proof.Machine.execRaise p f s
  | .level p f => Sys2Proof.Machine.execLevel p f s
  | .hstate p f => Sys2Proof.Machine.execHstate p f s
  | .dack p f => Sys2Proof.Machine.execDack p f s
  | .crsp p f m => Sys2Proof.Machine.execCrsp p f m s
  | .unknownFlit p f => Sys2Proof.Machine.execUnknownFlit p f s
  | .wftSetPend p f => Sys2Proof.Machine.execWftSetPend p f s
  | .wftClrPend p f => Sys2Proof.Machine.execWftClrPend p f s
  | .wftAttWrite p f fail => Sys2Proof.Machine.execWftAttWrite p f fail s
  | .wftAttClaim p f fail => Sys2Proof.Machine.execWftAttClaim p f fail s
  | .wftAttRelease p f fail => Sys2Proof.Machine.execWftAttRelease p f fail s
  | .wftPendTest p f fail => Sys2Proof.Machine.execWftPendTest p f fail s
  | .wftQuery p f fail => Sys2Proof.Machine.execWftQuery p f fail s
  | .wftRedisc acc => Sys2Proof.Machine.execWftRedisc acc s
  | .wftPrst acc => Sys2Proof.Machine.execWftPrst acc s
  | .cohRequestIssue accs tag => Sys2Proof.Machine.execCohRequestIssue accs tag s
  | .gnt tag st => Sys2Proof.Machine.execGnt tag st s
  | .gntD tag st data poison => Sys2Proof.Machine.execGntD tag st data poison s
  | .retry tag => Sys2Proof.Machine.execRetry tag s
  | .retryReissue tag => Sys2Proof.Machine.execRetryReissue tag s
  | .wbGo tag => Sys2Proof.Machine.execWbGo tag s
  | .evAck tag => Sys2Proof.Machine.execEvAck tag s
  | .err tag k => Sys2Proof.Machine.execErr tag k s
  | .snS line tag => Sys2Proof.Machine.execSnS line tag s
  | .snU line tag => Sys2Proof.Machine.execSnU line tag s
  | .snI line tag => Sys2Proof.Machine.execSnI line tag s
  | .cohFlushReq acc => Sys2Proof.Machine.execCohFlushReq acc s
  | .cohFlushDone => Sys2Proof.Machine.execCohFlushDone s
  | .nop u => Sys2Proof.Machine.execNop u s
  | .add u rd ra rb => Sys2Proof.Machine.execAdd u rd ra rb s
  | .sub u rd ra rb => Sys2Proof.Machine.execSub u rd ra rb s
  | .and u rd ra rb => Sys2Proof.Machine.execAnd u rd ra rb s
  | .or u rd ra rb => Sys2Proof.Machine.execOr u rd ra rb s
  | .xor u rd ra rb => Sys2Proof.Machine.execXor u rd ra rb s
  | .shl u rd ra rb => Sys2Proof.Machine.execShl u rd ra rb s
  | .shr u rd ra rb => Sys2Proof.Machine.execShr u rd ra rb s
  | .sar u rd ra rb => Sys2Proof.Machine.execSar u rd ra rb s
  | .mul u rd ra rb => Sys2Proof.Machine.execMul u rd ra rb s
  | .cmp u ra rb => Sys2Proof.Machine.execCmp u ra rb s
  | .crc u rd ra rb => Sys2Proof.Machine.execCrc u rd ra rb s
  | .addi u rd ra imm => Sys2Proof.Machine.execAddi u rd ra imm s
  | .andi u rd ra imm => Sys2Proof.Machine.execAndi u rd ra imm s
  | .ori u rd ra imm => Sys2Proof.Machine.execOri u rd ra imm s
  | .xori u rd ra imm => Sys2Proof.Machine.execXori u rd ra imm s
  | .shiLeft u rd ra amt => Sys2Proof.Machine.execShiLeft u rd ra amt s
  | .shiRight u rd ra amt => Sys2Proof.Machine.execShiRight u rd ra amt s
  | .shiArith u rd ra amt => Sys2Proof.Machine.execShiArith u rd ra amt s
  | .lui u rd imm => Sys2Proof.Machine.execLui u rd imm s
  | .cmpi u ra imm => Sys2Proof.Machine.execCmpi u ra imm s
  | .ldb u rd ra imm fail => Sys2Proof.Machine.execLdb u rd ra imm fail s
  | .ldh u rd ra imm fail => Sys2Proof.Machine.execLdh u rd ra imm fail s
  | .ldw u rd ra imm fail => Sys2Proof.Machine.execLdw u rd ra imm fail s
  | .ldd u rd ra imm fail => Sys2Proof.Machine.execLdd u rd ra imm fail s
  | .ldwp u rd ra imm fail => Sys2Proof.Machine.execLdwp u rd ra imm fail s
  | .stb u rd ra imm fail => Sys2Proof.Machine.execStb u rd ra imm fail s
  | .sth u rd ra imm fail => Sys2Proof.Machine.execSth u rd ra imm fail s
  | .stw u rd ra imm fail => Sys2Proof.Machine.execStw u rd ra imm fail s
  | .std u rd ra imm fail => Sys2Proof.Machine.execStd u rd ra imm fail s
  | .stwp u rd ra imm fail => Sys2Proof.Machine.execStwp u rd ra imm fail s
  | .ator u rd ra rb fail => Sys2Proof.Machine.execAtor u rd ra rb fail s
  | .atclr u rd ra rb fail => Sys2Proof.Machine.execAtclr u rd ra rb fail s
  | .b u cond off => Sys2Proof.Machine.execB u cond off s
  | .call u mask off fail => Sys2Proof.Machine.execCall u mask off fail s
  | .callr u mask rt fail => Sys2Proof.Machine.execCallr u mask rt fail s
  | .ret u fail => Sys2Proof.Machine.execRet u fail s
  | .rep u rc => Sys2Proof.Machine.execRep u rc s
  | .sys u imm => Sys2Proof.Machine.execSys u imm s
  | .rett u => Sys2Proof.Machine.execRett u s
  | .flgRead u rd => Sys2Proof.Machine.execFlgRead u rd s
  | .flgWrite u ra => Sys2Proof.Machine.execFlgWrite u ra s
  | .flgIeSet u => Sys2Proof.Machine.execFlgIeSet u s
  | .flgIeClear u => Sys2Proof.Machine.execFlgIeClear u s
  | .wait u => Sys2Proof.Machine.execWait u s
  | .emul u word => Sys2Proof.Machine.execEmul u word s
  | .interruptTake u => Sys2Proof.Machine.execInterruptTake u s
  | .timerExpire u => Sys2Proof.Machine.execTimerExpire u s
  | .hbWrite u => Sys2Proof.Machine.execHbWrite u s
  | .peerOutWrite u w => Sys2Proof.Machine.execPeerOutWrite u w s
  | .hostOutWrite u w => Sys2Proof.Machine.execHostOutWrite u w s
  | .burHold acc => Sys2Proof.Machine.execBurHold acc s
  | .burRst acc => Sys2Proof.Machine.execBurRst acc s
  | .bootReady u => Sys2Proof.Machine.execBootReady u s
  | .imageCopyDone u fail => Sys2Proof.Machine.execImageCopyDone u fail s
  | .bootAuth u => Sys2Proof.Machine.execBootAuth u s
  | .burLoadData acc => Sys2Proof.Machine.execBurLoadData acc s
  | .ping => Sys2Proof.Machine.execPing s
  | .handover => Sys2Proof.Machine.execHandover s
  | .ident => Sys2Proof.Machine.execIdent s
  | .sbOpen d => Sys2Proof.Machine.execSbOpen d s
  | .sbClose d => Sys2Proof.Machine.execSbClose d s
  | .sbStatus d later => Sys2Proof.Machine.execSbStatus d later s
  | .regRead d later => Sys2Proof.Machine.execRegRead d later s
  | .regWrite d later => Sys2Proof.Machine.execRegWrite d later s
  | .logRead d later => Sys2Proof.Machine.execLogRead d later s
  | .fwBegin d later => Sys2Proof.Machine.execFwBegin d later s
  | .fwData d later => Sys2Proof.Machine.execFwData d later s
  | .fwEnd d later => Sys2Proof.Machine.execFwEnd d later s
  | .safeEnter d later => Sys2Proof.Machine.execSafeEnter d later s
  | .sbSafeExit d later => Sys2Proof.Machine.execSbSafeExit d later s
  | .sealClear d later lvl => Sys2Proof.Machine.execSealClear d later lvl s
  | .lockClear d later => Sys2Proof.Machine.execLockClear d later s
  | .warmReset d later => Sys2Proof.Machine.execWarmReset d later s
  | .fwCall d => Sys2Proof.Machine.execFwCall d s
  | .sbUndefinedCode cmd => Sys2Proof.Machine.execSbUndefinedCode cmd s
  | .sbQuickCommand => Sys2Proof.Machine.execSbQuickCommand s
  | .sessionIdleTimeout => Sys2Proof.Machine.execSessionIdleTimeout s
  | .smbusTimeout => Sys2Proof.Machine.execSmbusTimeout s
  | .replyBusyTimeout => Sys2Proof.Machine.execReplyBusyTimeout s
  | .stretchLimit => Sys2Proof.Machine.execStretchLimit s
  | .mirrorClaim => Sys2Proof.Machine.execMirrorClaim s
  | .mirrorDone => Sys2Proof.Machine.execMirrorDone s
  | .sbdCtrlClose acc => Sys2Proof.Machine.execSbdCtrlClose acc s
  | .presenceWindowOpen => Sys2Proof.Machine.execPresenceWindowOpen s
  | .presenceWindowExpire => Sys2Proof.Machine.execPresenceWindowExpire s
  | .sealBreak => Sys2Proof.Machine.execSealBreak s
  | .registerWrite a => Sys2Proof.Machine.execRegisterWrite a s
  | .glbLockWrite acc => Sys2Proof.Machine.execGlbLockWrite acc s
  | .prfRefWrite acc => Sys2Proof.Machine.execPrfRefWrite acc s
  | .prfAdopt acc => Sys2Proof.Machine.execPrfAdopt acc s
  | .errorLogWrite => Sys2Proof.Machine.execErrorLogWrite s
  | .deepPrepDone badP badV => Sys2Proof.Machine.execDeepPrepDone badP badV s
  | .consentPoint ref bad => Sys2Proof.Machine.execConsentPoint ref bad s
  | .clkMainStopAck lvl ref => Sys2Proof.Machine.execClkMainStopAck lvl ref s
  | .clkFastStopAck lvl => Sys2Proof.Machine.execClkFastStopAck lvl s
  | .pwrRetAck lvl ref => Sys2Proof.Machine.execPwrRetAck lvl ref s
  | .pwrOffAck lvl => Sys2Proof.Machine.execPwrOffAck lvl s
  | .deepDomainRestore ref bad flips => Sys2Proof.Machine.execDeepDomainRestore ref bad flips s
  | .wakeInput w => Sys2Proof.Machine.execWakeInput w s
  | .deepCountdown => Sys2Proof.Machine.execDeepCountdown s
  | .switchBack => Sys2Proof.Machine.execSwitchBack s
  | .targetRestoreDone bad => Sys2Proof.Machine.execTargetRestoreDone bad s
  | .pwrToMain acc => Sys2Proof.Machine.execPwrToMain acc s
  | .pwrHoldRelease acc => Sys2Proof.Machine.execPwrHoldRelease acc s
  | .pwrDvfsReqWrite acc => Sys2Proof.Machine.execPwrDvfsReqWrite acc s
  | .dvfsFreqAck lvl => Sys2Proof.Machine.execDvfsFreqAck lvl s
  | .dvfsVoltAck lvl => Sys2Proof.Machine.execDvfsVoltAck lvl s
  | .rstColdFall => Sys2Proof.Machine.execRstColdFall s
  | .refSnapAckFall => Sys2Proof.Machine.execRefSnapAckFall s
  | .presenceButtonRelease => Sys2Proof.Machine.execPresenceButtonRelease s
  | .portValidWithoutReady t => Sys2Proof.Machine.execPortValidWithoutReady t s
  | .checkErrorFlit p f => Sys2Proof.Machine.execCheckErrorFlit p f s
  | .sbMalformedTransaction cmd d => Sys2Proof.Machine.execSbMalformedTransaction cmd d s
  | .writebackLastBeatAccept => Sys2Proof.Machine.execWritebackLastBeatAccept s

end Sys2Proof.Machine
end

