-- ==== Sys2Proof/Safety.lean ====
section
/-! DEFINITION. The terms of the statements: what it means that a command goes on, when the block runs, what a Burin's
instruction leaves, and the invariants a step keeps. -/

namespace Sys2Proof.Machine

/-- An outcome that is a next state. -/
def goesOn : Host.Outcome State Fault Refusal → Bool
  | .next _ => true
  | _ => false

/-- A table lists no key twice. -/
def Tbl.nodup {α : Type} : Tbl α → Bool
  | [] => true
  | (k, _) :: r => (Tbl.find r k).isNone && Tbl.nodup r

/-- The command i answers a next state at s, and P holds of it. -/
def Gives (i : Instr) (s : State) (P : State → Prop) : Prop := ∃ t, exec i s = .next t ∧ P t

/-- The command i answers u, of which P holds, once every command whose wait is over there has completed (11 R259, R264). -/
def Polls (i : Instr) (s : State) (P : State → Prop) : Prop := ∃ u, exec i s = .next (pollAll u) ∧ P u

/-- The block runs: out of reset, in power state RUN, no preparation, round, commit or restore under way. -/
def running (s : State) : Bool :=
  decide (s.rst.phase = .run) && decide (pwrState s = 0) && decide (pwrPhase s = 0) && !s.pwr.restore

/-! ### The table cache (13 R313) -/

/-- The table cache holds every line of the n bytes at a, as a read needs. -/
def Held (s : State) (a n : Nat) : Prop := ∀ l ∈ linesAt a n, s.held l = true

/-- The table cache holds every line of the n bytes at a in state E or M, as a write needs. -/
def Owned (s : State) (a n : Nat) : Prop := s.owns a n = true

/-- The table cache serves every access made from s to u. -/
def Serves (s u : State) : Prop := u.coh.missed = s.coh.missed

/-- The table cache holds an event's attributes, where they stand in host memory. -/
def AttrHeld (s : State) (vpe : Option (BitVec 16)) (ev : EventId) : Prop := Serves s (readAttr s vpe ev)

/-- From s to t the table cache holds the lines that it held, those with one of the bytes written (each w an address and a
number of bytes) in state M, and of the coherent agent nothing else has changed, the pseudo-LRU bits apart (13 R309, R313). -/
def Touched (s t : State) (w : List (Nat × Nat)) : Prop :=
  t.coh = { s.coh with lines := t.coh.lines, plru := t.coh.plru } ∧
  ∀ l, lineState t l = if (w.any fun p => (linesAt p.1 p.2).contains l) && s.held l then some .m else lineState s l

/-! ### A Burin's instructions -/

/-- Burin u executes an instruction here, outside a REP, from an address it can fetch from; no host-memory access of it has
failed that it has not met yet (13 R321). -/
def BurSteps (s : State) (u : Bur) : Prop :=
  burReady s u = true ∧ (s.core u).rep = none ∧ fetchable (s.core u).pc = true ∧ s.failures (.burin u) = 0

/-- The value that the load of the instruction before leaves in register r (14 R335: its delay slot is this instruction). -/
def landing (c : BurCore) (r : RegNo) : Option W32 := (c.slot.reverse.find? fun e => decide (e.1 = r)).map (·.2)

/-- Register r after an instruction that writes the registers w: the value of the load whose slot it was, else the value
written, else what it held. -/
def leaves (c : BurCore) (w : List (RegNo × W32)) (r : RegNo) : W32 :=
  (landing c r).getD (((w.reverse.find? fun e => decide (e.1 = r)).map (·.2)).getD (c.gr r))

/-- From s to t Burin u has executed one instruction that writes the registers w, loads the registers `loads` after the
next instruction, and goes on at `next`. Its flags apart, nothing else of the block differs. -/
def Retired (s t : State) (u : Bur) (w loads : List (RegNo × W32)) (next : W32) : Prop :=
  t = s.setCore u (t.core u) ∧
  t.core u = { s.core u with g := (t.core u).g, flags := (t.core u).flags, slot := loads, pc := next, rep := none,
                             waiting := false, ran := (s.core u).ran + 1 } ∧
  ∀ r, (t.core u).gr r = leaves (s.core u) w r

/-- FLAGS g after an instruction that names Z and N, its result v, where they were f (14 R332). -/
def FlagsZN (f g v : W32) : Prop :=
  g.getLsbD 0 = decide (v = 0) ∧ g.getLsbD 1 = v.msb ∧ ∀ i, 2 ≤ i → g.getLsbD i = f.getLsbD i

/-- FLAGS g after an instruction that names Z, N, C and V. -/
def FlagsZNCV (f g v : W32) (c o : Bool) : Prop :=
  g.getLsbD 0 = decide (v = 0) ∧ g.getLsbD 1 = v.msb ∧ g.getLsbD 2 = c ∧ g.getLsbD 3 = o ∧
  ∀ i, 4 ≤ i → g.getLsbD i = f.getLsbD i

/-- A load of Burin u, of n bytes at a, reaches memory: code SRAM, boot ROM, data SRAM, or, while the block runs, the access
does not fail and the table cache holds its line, the host window (14 R329, 13 R313). -/
def Loadable (s : State) (u : Bur) (a : W32) (n : Nat) (fail : Bool) : Prop :=
  regionOf a = .code ∨ regionOf a = .rom ∨ regionOf a = .data ∨
  (regionOf a = .host ∧ running s = true ∧ fail = false ∧ Held s (hostAddr (s.core u) a) n)

/-- The n bytes that Burin u finds at a, little-endian: in its SRAMs and ROM, or in the host window. -/
def loadAt (s : State) (u : Bur) (a : W32) (n : Nat) : Nat :=
  if regionOf a = .host then memLoad s.mem (hostAddr (s.core u) a) n else sramLoad (s.core u) a.toNat n

/-- From s to t the table cache has served Burin u's load at a, in the host window; elsewhere it is as it was. -/
def LoadServed (s t : State) (a : W32) : Prop := if regionOf a = .host then Touched s t [] else t.coh = s.coh

/-- s with the table cache of t: what a load alone changes beside the Burin. -/
def withCache (s t : State) : State := { s with coh := t.coh }

/-- A store of Burin u, of n bytes at a, w at a time, reaches data SRAM, or the host window, which SAFE closes to it, where the
table cache holds the lines as a write needs (14 R329, 18 R435, 13 R313). -/
def Storable (s : State) (u : Bur) (a : W32) (n : Nat) (fail : Bool) (w : Nat := n) : Prop :=
  regionOf a = .data ∨
  (regionOf a = .host ∧ running s = true ∧ fail = false ∧ inSafe s = false ∧ Memory.wf s.mem = true ∧
    ∀ k, k < n / w → Owned s (hostAddr (s.core u) a + w * k) w)

/-- From s to t the table cache has served Burin u's stores of n bytes at a, w at a time, in the host window; elsewhere it is as
it was. -/
def StoreServed (s t : State) (u : Bur) (a : W32) (n w : Nat) : Prop :=
  if regionOf a = .host then Touched s t ((List.range (n / w)).map fun k => (hostAddr (s.core u) a + w * k, w))
  else t.coh = s.coh

/-- From s to t the n low bytes of v are stored, little-endian, where Burin u's address a lies, w bytes at a time, and every
other byte of host memory and of u's data SRAM reads as before. -/
def Stored (s t : State) (u : Bur) (a : W32) (n v : Nat) (w : Nat := n) : Prop :=
  StoreServed s t u a n w ∧
  if regionOf a = .host then
    (t.core u).data = (s.core u).data ∧
    ∀ x, Memory.read t.mem x =
      if hostAddr (s.core u) a ≤ x ∧ x < hostAddr (s.core u) a + n then
        BitVec.ofNat 8 (v >>> (8 * (x - hostAddr (s.core u) a)))
      else Memory.read s.mem x
  else
    t.mem = s.mem ∧
    ∀ x, 0x100000 ≤ x → sramByte (t.core u) x =
      if a.toNat ≤ x ∧ x < a.toNat + n then BitVec.ofNat 8 (v >>> (8 * (x - a.toNat))) else sramByte (s.core u) x

/-- s with the memory and the data SRAM of t: what a store alone changes. -/
def withStore (s t : State) (u : Bur) : State :=
  ({ s with mem := t.mem, coh := t.coh }).modCore u fun c => { c with data := (t.core u).data }

/-- From s to t Burin u has taken a trap or interrupt (14 R342), and nothing else of the block differs. A load whose slot
this was is complete. -/
def Trapped (s t : State) (u : Bur) (cause : Nat) (tpc addr trep : W32) : Prop :=
  t = s.setCore u (t.core u) ∧
  t.core u = { s.core u with g := (t.core u).g, flags := (t.core u).flags, slot := [], pc := BitVec.ofNat 32 (4 * cause),
                             tpc := tpc, tflags := (s.core u).flags, tcause := BitVec.ofNat 32 cause, taddr := addr,
                             trep := trep, rep := none, waiting := false } ∧
  (∀ r, (t.core u).gr r = leaves (s.core u) [] r) ∧
  ∀ i, (t.core u).flags.getLsbD i = if i = 5 then true else if i = 4 then false else (s.core u).flags.getLsbD i

/-! ### Registers and errors -/

/-- From s to t no register word outside l has changed. -/
def RegsApart (s t : State) (l : List Nat) : Prop := ∀ off, off ∉ l → t.rd off = s.rd off

/-- The register port has room for the access, once the responses it names have been taken (02 R32); from elsewhere there is
no such wait. -/
def Admits (s : State) (acc : RegAcc) : Prop := acc.src = .port → portRoom (portTaken s acc.taken) = true

/-- s once an access of register `off` is accepted and answered: on the register port it takes its place among the accesses to
be answered, with its response, and is activity outside the PWR region (17 R403); from elsewhere the access itself leaves
nothing but the end of the cycle of a trigger before it. -/
def served (s : State) (acc : RegAcc) (off : Nat) (err : Bool) (data : W64) : State :=
  if acc.src = .port then
    let s := portTaken s acc.taken
    let s := portAnswer (portAccept s) s.port.next err data
    { s with pwr := { s.pwr with act := s.pwr.act || !isPwrOff off } }
  else if acc.same then s else trigOver s

/-- `served`, the response being OK, as for a write. -/
def seen (s : State) (acc : RegAcc) (off : Nat) : State := served s acc off false 0

/-- The attributes of an access of any width. -/
def attrsOf (a : BusAcc) : RegAcc :=
  { data := a.data.truncate 32, priv := a.priv, sec := a.sec, src := a.src, taken := a.taken, same := a.same }

/-- Bit i of a flag register is set, and going from 0 to 1 it has queued one occurrence for the log (18 R427); stated where
the log's queue has room. -/
def Flagged (s t : State) (src off i unit : Nat) (fresh : Bool) : Prop :=
  t.bit off i = true ∧
  t.err = { s.err with queue := s.err.queue ++ if s.bit off i then [] else
    [{ src := src, flag := i, unit := unit, stroke := s.count, fresh := fresh }] }

/-! ### Target engines (09) -/

/-- Target k takes an operation offered on path p (09 R197, R217; 02 R26): on the channel no request's response is outstanding;
an access of the frame is privileged, and the register port has room for it. -/
def Offers (s : State) (k : Nat) (p : Path) : Prop :=
  match p with
  | .chan _ => ∀ w, (s.tgt k).wait = some w → w.src ≠ none
  | .frame _ q a => a.priv = true ∧ (q = .port → portRoom (portTaken s a.taken) = true)

/-- s after activity (17 R403). -/
def begun (s : State) : State := { s with pwr := { s.pwr with act := true } }

/-- s once the operation on path p is taken; a register-port access to the frame takes its place among those to be answered,
and is answered with `rsp`. -/
def took (s : State) (p : Path) (rsp : Option W64) : State :=
  if !p.isFrame then begun s
  else if p.src = .port then
    let s := begun (portAccept (portTaken s p.acc.taken))
    rsp.elim s (portAnswer s (portLast s) false)
  else s

/-- A target whose channel presents the response w, where the operation came over the channel. -/
def shows (x : Tg) (p : Path) (w : W32) : Tg := if p.isFrame then x else { x with rsp := w }

/-- From s to t TGT_OPSTAT takes the status of an operation over the frame, and no other register word outside l has changed. -/
def Status (s t : State) (k : Nat) (p : Path) (st : Nat) (ign : Bool) (l : List Nat) : Prop :=
  let o := tgtOff k Reg.TGT_OPSTAT
  t.rd o = (if p.isFrame then statusWord st ign else s.rd o) ∧ RegsApart s t (o :: l)

/-- What a 64-bit read of TGT_CLAIM shows in its upper half, the peek (09 R217). -/
def peekBeside (s : State) (k : Nat) (p : Path) : W64 :=
  if p.acc.wide then (peekWord s k p.ctx).zeroExtend 64 <<< 32 else 0

/-! ### Pending bits, queues -/

/-- From s to t the pending bit of an event is set (or cleared), and every other bit of host memory reads as before. -/
def BitPut (s t : State) (k : Nat) (vpe : Option (BitVec 16)) (ev : EventId) (b : Bool) : Prop :=
  Touched s t [(bitAddr s k vpe ev, 1)] ∧
  ∀ x, Memory.read t.mem x =
    if x = haddr (bitAddr s k vpe ev) then
      if b then Memory.read s.mem x ||| bitMask ev else Memory.read s.mem x &&& ~~~(bitMask ev)
    else Memory.read s.mem x

/-- From s to t the operation o has joined the end of the queue of target k's tree, and no other target has changed. -/
def Queued (s t : State) (k : Nat) (o : TOp) : Prop :=
  t.tgt k = { s.tgt k with opq := (s.tgt k).opq ++ [o] } ∧ ∀ j, j ≠ k → t.tgt j = s.tgt j

/-- A clear of an event's bit, as its lane takes it (07 R165): for a drop, for a clear command, or because the event has
entered the tree (R162). -/
def bitClear (k : Nat) (vpe : Option (BitVec 16)) (ev : EventId) (drop entered : Bool) (wid : Option Nat) : LaneW :=
  { set := false, t := k, ev := ev, vpe := vpe, prio := 0, drop := drop, wid := wid, entered := entered }

/-- From m to t the clear w has reached its lane: it waits there behind a set of the same table, of a spill or of the slow path,
or for its line; or else the bit, where its table is in use, is clear, and every other bit reads as before (07 R165, 13 R313). No
other lane has changed. -/
def BitCleared (m t : State) (w : LaneW) : Prop :=
  let l := m.lane (w.t / 16)
  let a := slowAhead m w
  (∀ j, j ≠ w.t / 16 → t.lane j = m.lane j) ∧
  if (setBefore l w || !a.isEmpty || lineWaits m w) = true then
    t.lane (w.t / 16) = l ++ [{ w with after := a }] ∧ t.mem = m.mem ∧ t.coh = m.coh
  else t.lane (w.t / 16) = l ∧
    if (tableOn m w.vpe && pendBit m w.t w.vpe w.ev) = true then BitPut m t w.t w.vpe w.ev false
    else t.mem = m.mem ∧ t.coh = m.coh

/-- Where an event of a target stands, its table being that of the vPE given, or the physical one (06 R142). -/
def homeOf (s : State) (k : Nat) (vpe : Option (BitVec 16)) : Dest :=
  match vpe with
  | some v => .vpe v
  | none => .tgt (globalT s k)

/-- No clear waits in a Shuttle lane. -/
def NoClears (s : State) : Prop := ∀ p ∈ s.lanes, ∀ w ∈ p.2, w.set = true

/-- WIN_ROUTE of line n chooses the global target g; `rot` is then the member chosen last (04 R85). -/
def RouteChooses (s : State) (n : Nat) (g : BitVec 14) (rot : Option (BitVec 4)) : Prop :=
  let w := s.rd (winOff n Reg.WIN_ROUTE)
  let c := field w 6 4
  let member := fun j => j < 16 ∧ bitAt w (16 + j) = true ∧ 16 * c + j < s.par.targets
  let here := fun j => BitVec.ofNat 14 (s.instId.toNat * 128 + 16 * c + j)
  let rp := fun j => (s.tgt (16 * c + j)).phys.rp
  let later := fun j => ∀ k, (s.line n).rot = some k → k.toNat < j
  match field w 15 14 with
  | 0 => g = BitVec.ofNat 14 (field w 13 0) ∧ rot = (s.line n).rot
  | 1 => ∃ j, member j ∧ g = here j ∧ rot = (s.line n).rot ∧ ∀ k, member k → k ≠ j → rp k < rp j ∨ (rp k = rp j ∧ j < k)
  | 2 => ∃ j, member j ∧ g = here j ∧ rot = some (BitVec.ofNat 4 j) ∧
      ((later j ∧ ∀ k, member k → later k → j ≤ k) ∨ ((∀ k, member k → ¬ later k) ∧ ∀ k, member k → j ≤ k))
  | _ => False

/-- A target once a pending event has left its tree: its entry is gone, and so is every insert that carries it. -/
def gone (x : Tg) (virt : Bool) (ev : EventId) : Tg :=
  Tg.mapOps { x with entries := x.entries.filter fun f => !f.same virt ev } fun l => l.filter fun o => !o.carries virt ev

/-- The table cache holds the source entry of a write, and its map entry (06 R131). -/
def srcHeld (s : State) (w : MWrite) : Bool := s.held (lineOf (srcAddr s w.src.toNat))
def mapLine (s : State) (w : MWrite) : Nat := lineOf (mapAddr (readSrc s w.src.toNat) (dataOf w))
def Cached (s : State) (w : MWrite) : Prop := srcHeld s w = true ∧ s.held (mapLine s w) = true

/-- The table cache once a lookup has used both entries (13 R309). -/
def usedBoth (s : State) (w : MWrite) : Coh := cohUse (cohUse s.coh (lineOf (srcAddr s w.src.toNat))) (mapLine s w)

/-- A lookup of a write passes every check of 06 R126. -/
def Passes (s : State) (en : Bool) (w : MWrite) : Prop :=
  checkHead s en w = none ∧ checkSrc s w false = none ∧ checkMap s w false = none

/-- A target once its tree's next operation has issued: it has left, and an issue cycle with it. -/
def popped (x : Tg) : Tg :=
  match x.urgent with
  | _ :: r => { x with urgent := r, slots := x.slots - 1 }
  | [] => { x with adm := x.adm.tail, slots := x.slots - 1 }

/-- The spill of a resident entry, or of an operation, of target k, as it waits in its lane (07 R165). -/
def spillOf (s : State) (k : Nat) (virt : Bool) (ev : EventId) (base : Byte) (wid : Option Nat) : LaneW :=
  { set := true, t := k, ev := ev, vpe := if virt then some (s.tgt k).vpe else none, prio := base, drop := false, wid := wid }

/-- The next operation of target k's tree is o, and it acts there: no redirect takes it, and if it is virtual its vPE is
resident (06 R142, 10 R230). -/
def Issues (s : State) (k : Nat) (o : TOp) : Prop :=
  running s = true ∧ headOp s k = some o ∧ redirected s k o = none ∧ offTreeNow s k o = false

/-! ### Commands of the rings (11) -/

/-- Descriptor d, of opcode op, starts on ring r (11 R256): it is the ring's turn, and nothing holds it back (R271). No other
descriptor is fetched behind it, and no host-memory access has failed that no command has met yet (13 R321). -/
def Starts (s : State) (r op : Nat) (d : Desc) : Prop :=
  running s = true ∧ startable s r op = some d ∧ startCheck s r d = none ∧ (s.ring r).fetched = [d] ∧
  mayStart s op = true ∧ ringTurn s r = true ∧ s.coh.failed = []

/-- From s to t the command d of ring r has completed: its record waits with the status and result. No other ring has
changed. -/
def Completes (s t : State) (r : Nat) (d : Desc) (status : Nat) (result : W64) : Prop :=
  t.ring r = { s.ring r with fetched := [], run := none, recs := (s.ring r).recs ++ [recOf s d status result] } ∧
  ∀ j, j ≠ r → t.ring j = s.ring j

/-- From s to t the command d of ring r has begun to run and goes on, waiting for k. -/
def GoesOn (s t : State) (r : Nat) (d : Desc) (status : Nat) (k : RunKind) : Prop :=
  t.ring r = { s.ring r with fetched := [], run := some { desc := d, status := status, kind := k } } ∧
  ∀ j, j ≠ r → t.ring j = s.ring j

/-- From s to t the word v is stored at the bytes a to a + 7 of host memory, and every other byte reads as before. -/
def Stored64 (s t : State) (a : Nat) (v : W64) : Prop :=
  t.load64 a = v ∧ ∀ x, (∀ n, n < 8 → x ≠ haddr (a + n)) → Memory.read t.mem x = Memory.read s.mem x

/-- The bytes a to a + m - 1 and b to b + n - 1 of host memory do not meet. -/
def Apart (a m b n : Nat) : Prop := (a + m ≤ b ∨ b + n ≤ a) ∧ a + m ≤ 2 ^ 52 ∧ b + n ≤ 2 ^ 52

/-- s once a command has started on ring r: activity, and the rotation of rings 2 to 7 goes on from r (11 R271). -/
def begunOn (s : State) (r : Nat) : State :=
  if 2 ≤ r then { begun s with cmdRot := BitVec.ofNat 3 r } else begun s

/-! ### The Weft link (12) -/

/-- Port x after the port reset of 02 R47, with the wft_phy_up_i level phy: credits and training state are clear, and the
flits not acknowledged are to be sent again (12 R287); while it trains its far end has 32 credits (12 R285). -/
def portAfterReset (s : State) (p : Nat) (phy : Bool) : WPort :=
  let x := wport s p
  let on := decide (x.loop = false ∧ pen s p = true)
  { st := if on then (if phy then .training else .down) else .disabled,
    phy := phy, loop := x.loop, nbr := 0, nbrPort := 0, gotTrain := false, gotAck := false, credits := 0, txSeq := 0,
    rxSeq := 0, rxAny := false, replay := [], resend := x.replay.map (·.2) ++ x.resend,
    failed := if x.st = .up then some x.nbr else x.failed, rxCred := if on && phy then 32 else 0, rxq := x.rxq,
    sent := x.sent }

/-- The contents of WFT_ERR_LOG for flag i, the flit being of type ty, SRC src, DST dst and EVENT ev, on port p (12 R307). -/
def weftLog (i ty src dst p ev : Nat) : W64 :=
  BitVec.ofNat 64 (ty + src * 2 ^ 8 + dst * 2 ^ 15 + p * 2 ^ 22 + ev * 2 ^ 24 + i * 2 ^ 45 + 2 ^ 63)

/-- From s to t port p has failed with flag i of WFT_ERR (12 R287), nothing else of the block changing; phy is the level of
its wft_phy_up_i. A free log has captured `log`. -/
def PortFails (s t : State) (p i : Nat) (phy : Bool) (log : W64) : Prop :=
  let o := Reg.WFT_PSTAT + 4 * p
  t = { s with wft := { s.wft with ports := t.wft.ports }, regs := t.regs, err := t.err } ∧
  Flagged s t 8 Reg.WFT_ERR i 0 (!s.bit (Reg.WFT_ERR_LOG + 4) 31) ∧
  t.rd64 Reg.WFT_ERR_LOG = (if s.bit (Reg.WFT_ERR_LOG + 4) 31 = true then s.rd64 Reg.WFT_ERR_LOG else log) ∧
  wport t p = portAfterReset s p phy ∧ (∀ q, q ≠ p → wport t q = wport s q) ∧
  t.fld o 31 24 = min 255 (s.fld o 31 24 + 1) ∧ t.fld o 23 0 = s.fld o 23 0 ∧
  RegsApart s t [Reg.WFT_ERR, Reg.WFT_ERR_LOG, Reg.WFT_ERR_LOG + 4, o]

/-- `PortFails`, and where the port was up while the flood runs, the HELLO of the new port map goes out (12 R290). -/
def Fails (s t : State) (p i : Nat) (phy : Bool) (log : W64) : Prop :=
  ∃ u, PortFails s u p i phy log ∧ t = if portUp s p && s.wft.disc then wftPump (sendHellos u) else u

/-- Flit y left a port whose state was x, of the given type, SRC, DST, BC, HOPS, SEQ and payload, with the port's ACK and a
good CHECK (12 R282, R286). -/
def Sent (x : WPort) (y : Flit) (f : OutFlit) (seq : Byte) : Prop :=
  flitType y = f.ty.toNat ∧ flitSrc y = f.src ∧ flitDst y = f.dst ∧ flitBc y = f.bc ∧ flitHops y = f.hops ∧ flitSeq y = seq ∧
  flitPay y = f.pay ∧ flitAckV y = x.rxAny ∧ (x.rxAny = true → flitAck y = x.rxSeq - 1) ∧ checkOk y = true

/-- Flit f of type ty arrives in order on port p, and it is well formed (12 R284, R286). IDLE and TRAIN, types 0 and 1, have
no order, and reach a port in training too; any other uses a credit (12 R285). -/
def Arrives (s : State) (p : BitVec 2) (f : Flit) (ty : Nat) : Prop :=
  running s = true ∧ p.toNat < s.par.weftPorts ∧ checkOk f = true ∧ flitType f = ty ∧ malformed f = false ∧
  (portUp s p.toNat = true ∧ (2 ≤ ty → flitSeq f = (wport s p.toNat).rxSeq ∧ (wport s p.toNat).rxCred ≠ 0) ∨
    ty ≤ 1 ∧ (wport s p.toNat).st = .training)

/-- No flit received before f waits in port p's receive buffer, and f finds room for its operation (12 R296, 07 R160). -/
def Free (s : State) (p : BitVec 2) (f : Flit) : Prop := (wport s p.toNat).rxq = [] ∧ mustWait s f = false

/-- As `Arrives`, and the flit is for this instance and leaves the receive buffer at once. -/
def Reaches (s : State) (p : BitVec 2) (f : Flit) (ty : Nat) : Prop :=
  Arrives s p f ty ∧ (ty ≤ 1 ∨ flitBc f = true ∨ flitDst f = s.instId) ∧ (2 ≤ ty → Free s p f)

/-- s once port p has taken flit f in: its ACK frees flits, a sequenced one is counted in and acknowledged from then on, and
WFT_RX_CNT counts (12 R286, R307); the types of 17 R403 are activity. -/
def heard (s : State) (p : BitVec 2) (f : Flit) : State :=
  let x := takeAck (wport s p.toNat) f
  let y := if flitType f ≤ 1 then x else { x with gotAck := true, rxSeq := x.rxSeq + 1, rxAny := true }
  let s := (setWport s p.toNat y).cnt64 Reg.WFT_RX_CNT
  if activeType (flitType f) then begun s else s

/-- The row i takes flit f in on port p, and P tells what the flit then does, from `heard` to u. With u, commands whose wait
is over complete, and what can be sent goes out. -/
def Hears (i : Instr) (s : State) (p : BitVec 2) (f : Flit) (P : State → State → Prop) : Prop :=
  ∃ u, exec i s = .next (wftPump (pollAll u)) ∧ P (heard s p f) u

/-- h with nothing but fields of the Weft link taken from u. -/
def weftOf (h u : State) : State := { h with wft := u.wft }

/-- No line of this instance is a level line, and no event of a line waits for a route. -/
def noLevels (s : State) : Prop := (∀ n, n < 4096 → winLevel s n = false) ∧ ∀ e ∈ s.win, (s.line e.1).unr = none

/-- A flit of this instance's own, by route. -/
def byRoute (s : State) (ty : Byte) (dst : BitVec 7) (pay : BitVec 160) : OutFlit :=
  { ty := ty, dst := dst, pay := pay, src := s.instId, bc := false, hops := 1, port := none }

/-- Every RAISE not acknowledged, as it goes out again (12 R300). -/
def resent (s : State) : List OutFlit := s.wft.ift.map fun e => byRoute s 0x10 e.2.dst e.2.pay

/-- Its HELLO (12 R283), on port q: flooded, or for the neighbour alone. -/
def helloOn (s : State) (q : Nat) (bc : Bool) (dst : BitVec 7) : OutFlit :=
  { ty := 2, dst := dst, pay := helloPay s, src := s.instId, bc := bc, hops := 1, port := some q }

/-- Flit f on its way on: one hop more (12 R294). -/
def onward (f : Flit) (port : Option Nat) : OutFlit :=
  { ty := BitVec.ofNat 8 (flitType f), dst := flitDst f, pay := flitPay f, src := flitSrc f, bc := flitBc f,
    hops := flitHops f + 1, port := port }

/-! ### The side-band port (15) -/

/-- A process call of the open session arrives, well formed, new, with no request in service and with presence where its
command asks for it: the checks 1, 2 and 4 of 15 R362 pass. -/
def Asks (s : State) (cmd : Byte) (d : List Byte) : Prop :=
  running s = true ∧ sbOn s = true ∧ frameFlag s cmd d = none ∧ s.sbd.token = some (d.getD 0 0) ∧
  s.sbd.last.map (·.1) ≠ some (d.getD 1 0) ∧ s.sbd.mirror = none ∧ s.sbd.closing = false ∧
  (needsWindow cmd = true → winOpen s = true)

/-- As `Asks`, and something serves: the primary's firmware, its boot ROM, or in SAFE the fallback state machine (15 R365). -/
def Served (s : State) (cmd : Byte) (d : List Byte) : Prop := Asks s cmd d ∧ server s ≠ 0

/-- s once a request has reached its server: activity, and SBD in the primary where firmware serves (14 R341). -/
def askedOf (s : State) : State :=
  if server s = 1 then (begun s).modCore (primary s) fun c => { c with ipend := c.ipend ||| 0x10 } else begun s

/-- From u to t the request of SEQ d[1] has been answered: its reply is on the bus and saved, and it is counted. -/
def Replied (u t : State) (d reply : List Byte) : Prop :=
  t = { u with sbd := { u.sbd with last := some (d.getD 1 0, reply), reply := reply, pec := t.sbd.pec }, regs := t.regs } ∧
  t.sbd.pec = pecAfter u [] reply ∧
  t.rd Reg.SBD_CNT = satInc (u.rd Reg.SBD_CNT) ∧ RegsApart u t [Reg.SBD_CNT]

end Sys2Proof.Machine
end

