-- ==== Sys2Proof/Certificates/Slice0/Obligations.lean ====
section
/-! DEFINITION. The statements for the provers: what the rules of spec/ say the commands do. -/

open Sys2Proof Sys2Proof.Machine

/-- A step of a state with command c at the front of its queue is c run with the queue's rest; on an empty queue the block
idles. The queue is the model's own (log 1), and so is the idling (log 27). (01 R8) -/
def Obligations.StepRunsFrontCommand : Prop :=
  (∀ (c : Instr) (rest : List Instr) (s : State),
    step { s with pending := c :: rest } = exec c { s with pending := rest }) ∧
  ∀ s : State, s.pending = [] → step s = .next s

/-- The machine after reset is held in cold reset: power state RUN with no preparation or round under way, not in SAFE,
STK_COUNT 0, no event resident, active or queued, both Burins at step B1 with Burin A primary, the save SRAM and the log
empty, the cache empty, and the proof on HOLD; every register reads its Reset value. (R41, R348, R326, R398, R395) -/
def Obligations.ResetLeaves : Prop :=
  State.reset.rst.phase = .cold ∧ pwrState State.reset = 0 ∧ pwrPhase State.reset = 0 ∧ State.reset.err.safe = .out ∧
  State.reset.count = 0 ∧ State.reset.tg = [] ∧ State.reset.lanes = [] ∧ State.reset.win = [] ∧ State.reset.pending = [] ∧
  (∀ u, (State.reset.core u).st = .boot ∧ (State.reset.core u).pc = 0x00080000 ∧ ∀ r, (State.reset.core u).gr r = 0) ∧
  primary State.reset = .a ∧ State.reset.pwr.save = none ∧ State.reset.err.slots = [] ∧ State.reset.coh.lines = [] ∧
  State.reset.prf.hold = true ∧ ∀ off, State.reset.rd off = regReset State.reset.par off

/-- The model's host memory after reset lists nothing, which is in canonical form. That a byte nothing has written reads as 0 is
the model's choice (log 2). (02 R41) -/
def Obligations.ResetMemoryCanonical : Prop :=
  Memory.wf State.reset.mem = true ∧ ∀ a, Memory.read State.reset.mem a = memDefault

/-- From every state whose host memory lists its addresses strictly rising and no byte equal to what an unlisted address reads
as, a step leaves a memory of that form. (01 R10, 00 R4) -/
def Obligations.MemoryStaysCanonical : Prop :=
  ∀ s t : State, Memory.wf s.mem = true → step s = .next t → Memory.wf t.mem = true

/-- For every instruction of a Burin that R331 to R333 give a word, with every value of its fields, decoding its word gives it
back, and encoding what any word decodes to gives an instruction that decodes alike. (R331, R332, R333) -/
def Obligations.BurinWordsRoundTrip : Prop :=
  (∀ i : BInstr, i.wf = true → burDecode (burEncode i) = i) ∧
  ∀ w : W32, (burDecode w).wf = true ∧ burDecode (burEncode (burDecode w)) = burDecode w

/-- Whatever command runs, the integration parameters of R20 stand, and the queue of waiting commands, which is the model's own
(log 1), is what it was. (01 R20, 02 R41) -/
def Obligations.QueueAndParametersStand : Prop :=
  ∀ (c : Instr) (s t : State), exec c s = .next t → t.par = s.par ∧ t.pending = s.pending

/-- Every command but STROKE_BOUNDARY, the resets (COLD_RESET, RST_COLD_FALL, WARM_QUIET) and the commands that advance time
across sleep (PWR_RET_ACK, DEEP_DOMAIN_RESTORE) leaves STK_COUNT as it is. (R178, R189, R41) -/
def Obligations.CountMovesOnlyHere : Prop :=
  ∀ (c : Instr) (s t : State), exec c s = .next t →
    (match c with
     | .strokeBoundary _ _ => True
     | .coldReset _ _ _ _ => True
     | .rstColdFall => True
     | .warmQuiet => True
     | .pwrRetAck _ _ => True
     | .deepDomainRestore _ _ _ => True
     | _ => t.count = s.count)

/-- When rst_cold_n_i falls, at any step, every register returns to its Reset value and trees, targets, rings, cache and count
are cleared, host memory standing; COLD_RESET then samples the straps into GLB_ID and GLB_WIN_BASE, shows the level of
seal_i in SBD_PRES.SEAL (15 R376) and begins the initialisation, every other register at its Reset value. With no reset
waiting, no stalled access and the block awake, SRAM_INIT_DONE sets READY, starts the strokes with STK_LEN in force without
advancing STK_COUNT, makes an epoch boundary due and raises HBEAT in both Burins. (R41, R46, R37, R47, R188, R350) -/
def Obligations.ColdReset : Prop :=
  ((∀ s : State, Gives .rstColdFall s fun t =>
    t.rst.phase = .cold ∧ (∀ off, t.rd off = regReset s.par off) ∧ t.count = 0 ∧ t.tg = [] ∧ t.lanes = [] ∧ t.rings = [] ∧
    t.coh.lines = [] ∧ t.err = errReset ∧ t.mem = s.mem ∧ t.par = s.par ∧ t.pending = s.pending) ∧
  ∀ (s : State) (inst smb : BitVec 7) (win : BitVec 41) (intact : Bool), s.rst.phase = .cold →
    Gives (.coldReset inst smb win intact) s fun t =>
      t.rst.phase = .init ∧ t.rd Reg.GLB_ID = BitVec.ofNat 32 (inst.toNat + 256 * smb.toNat) ∧
      (t.rd64 Reg.GLB_WIN_BASE).toNat = win.toNat * 2 ^ 23 ∧
      t.rd Reg.SBD_PRES = setBit (regReset s.par Reg.SBD_PRES) 9 intact ∧
      (∀ off, off ∉ [Reg.GLB_ID, Reg.GLB_WIN_BASE, Reg.GLB_WIN_BASE + 4, Reg.SBD_PRES] → t.rd off = regReset s.par off) ∧
      t.count = 0 ∧ t.tg = [] ∧ t.mem = s.mem ∧ t.par = s.par ∧ t.pending = s.pending) ∧
  (∀ s : State, s.rst.phase = .init → s.rst.pendingTrig = none → s.rst.pinAfterWake = false → s.port.stalled = [] →
    pwrPhase s ≠ 4 →
    Gives .sramInitDone s fun t =>
      t.rst.phase = .run ∧ t.bit Reg.GLB_STATUS 0 = true ∧ t.count = s.count ∧ t.stk.epochDue = true ∧
      t.stk.cur = s.fld Reg.STK_LEN 6 0 ∧ t.stk.len = s.fld Reg.STK_LEN 6 0 ∧ t.err = s.err ∧
      t.bur.a.ipend = s.bur.a.ipend ||| 1 ∧ t.bur.b.ipend = s.bur.b.ipend ||| 1)

/-- In RUN, rst_warm_n_i falling begins a warm reset at W3 with cause 2; a privileged write of 1 to GLB_RST_CTRL.WARM begins one
at W2 with cause 3 from the register port and 4 from a Burin. Running commands end without a record, a move stops, and the
side-band session closes. The same for a side-band write is the model's reading (cause 4). WARM_FLUSH_DONE ends W2 once
everything is flushed (stated with an empty eviction buffer: that the row makes its requests within itself is the model's
choice, log 86); WARM_QUIET ends W3 once the cache is clean and the records are out, enters W5 with warm_quiet_o high,
clears the count and the trees and leaves each register field that keeps its value as it was and every other at its Reset
value (stated with an empty log queue); WARM_DOMAIN_RELEASE goes on to the initialisation. RST_WARM_RISE only notes the
level, and an early rise. (R42, R43, R46, R278, R364, R44, R45) -/
def Obligations.WarmReset : Prop :=
  ((∀ s : State, running s = true →
    Gives .rstWarmFall s fun t =>
      t.rst.phase = .w3 ∧ t.rst.byPin = true ∧ t.rst.warmLow = true ∧ t.fld Reg.GLB_RST_CAUSE 3 0 = 2 ∧
      t.move = none ∧ t.sbd.token = none ∧ (∀ r, (t.ring r).run = none ∧ (t.ring r).fetched = []) ∧ t.count = s.count) ∧
  ∀ (s : State) (acc : RegAcc), running s = true → Admits s acc → acc.priv = true → acc.data.getLsbD 0 = true →
    Gives (.glbRstCtrlWarm acc) s fun t =>
      t.rst.phase = .w2 ∧ t.rst.byPin = false ∧ t.fld Reg.GLB_RST_CAUSE 3 0 = (if acc.src = .port then 3 else 4) ∧
      t.move = none ∧ t.sbd.token = none ∧ (∀ r, (t.ring r).run = none ∧ (t.ring r).fetched = []) ∧ t.count = s.count) ∧
  ((∀ s : State, s.rst.phase = .w2 → warmFlushed (discardPhys s) = true → s.coh.evb = [] →
    Gives (.warmFlushDone [] []) s fun t => t.rst.phase = .w3) ∧
  (∀ s : State, s.rst.phase = .w3 → cohClean s = true → recsOut s = true → s.err.queue = [] →
    Gives .warmQuiet s fun t =>
      t.rst.phase = .w5 ∧ t.rst.quiet = true ∧ t.count = 0 ∧ t.tg = [] ∧ t.lanes = [] ∧ t.rings = [] ∧ t.mem = s.mem ∧
      t.err = s.err ∧ (∀ n, (t.line n).holder = (s.line n).holder) ∧
      (∀ u, (t.core u).code = (s.core u).code) ∧
      ∀ off row, regRow s.par off = some row → t.rd off = (row.rst &&& ~~~row.keep) ||| (s.rd off &&& row.keep)) ∧
  (∀ s : State, s.rst.phase = .w5 → s.rst.byPin = false ∨ s.rst.earlyRise = true ∨ s.rst.warmLow = false →
    Gives .warmDomainRelease s
      (· = { s with rst := { s.rst with phase := .init, warmInit := true, earlyRise := false } })) ∧
  ∀ s : State, Gives .rstWarmRise s fun t =>
    t = { s with rst := t.rst } ∧ t.rst.warmLow = false ∧ t.rst.phase = s.rst.phase ∧
    t.rst.earlyRise = (s.rst.earlyRise || (s.rst.byPin && (decide (s.rst.phase = .w2) || decide (s.rst.phase = .w3)))))

/-- While the block runs and no common count is to be loaded, STROKE_BOUNDARY adds one to STK_COUNT, or one plus the jump that a
measured lag has decided, adds one stroke to the heartbeat window (256 to a window), and moves the proof on by one slot: the
actions of R17 run in their order on the state that the stroke's errors leave. Of the errors that it shows (their place
there is the model's, log 93): one in a cached line that is corrected is flagged; an uncorrectable one drops a clean line,
and of an M or O line clears the failing words, is flagged and has the line written back; one in an array is flagged in
GLB_ECC and captured where the log is free; an operation that fails parity is discarded, and so is a spill (which is then
written nowhere; stated where no clear and no direct spill waits for its place), each flagged in GLB_DPAR and captured where
the log is free; one that a running Burin meets raises its ECC trap while T is 0. (R178, R186, R350, R397, R17, R322, R431,
R432, R341) -/
def Obligations.StrokeBoundaryCounts : Prop :=
  (∀ (s : State) (held : Bool) (ups : List Upset), running s = true → s.stk.commitIn = none →
    Gives (.strokeBoundary held ups) s fun t =>
      t.count = s.count + 1 + (match s.stk.dec with | none => 0 | some (_, j) => BitVec.ofNat 48 j) ∧
      t.prf.pos = (if s.prf.pos = 65535 then 0 else s.prf.pos + 1) ∧
      (s.bur.due = false → t.bur.win = (if s.bur.win + 1 = 256 then 0 else s.bur.win + 1) ∧
        t.bur.due = decide (s.bur.win + 1 = 256)) ∧
      t = boundaryOrders (upsets (settle (trigOver (secondsPass s))) ups) held) ∧
  (∀ (s : State) (held : Bool), let u := boundaryTime (pollAll s) held
    boundaryOrders s held = wftPump (pollAll (flushGoesOn (alignOrder (proofSample (windowOrder (idleOrder (pnlBoundary
      (rxPumpAll (treesBoundary u u.stk.cur)))))))))) ∧
  (∀ (s : State) (l : BitVec 46) (words : Byte) (x : Moesi), lineState s l.toNat = some x → s.err.queue.length < 16 →
    let t := upset s (.line l words true)
    let log := fun (t : State) (i : Nat) => t.rd64 Reg.COH_ERR_LOG = if s.bit (Reg.COH_ERR_LOG + 4) 31 = true then
      s.rd64 Reg.COH_ERR_LOG else BitVec.ofNat 64 (i + l.toNat * 2 ^ 6 + 2 ^ 63)
    let flags := fun (t : State) (i : Nat) => Flagged s t 9 Reg.COH_ERR i 0 (!s.bit (Reg.COH_ERR_LOG + 4) 31) ∧ log t i
    let c := upset s (.line l words false)
    (c = { s with regs := c.regs, err := c.err } ∧ flags c 4) ∧
    (x = .s ∨ x = .e → (∀ j, j < 8 → (s.ring j).run = none) → t.regs = s.regs ∧ t.mem = s.mem ∧ lineState t l.toNat = none) ∧
    (x = .m ∨ x = .o → Memory.wf s.mem = true → flags t 5 ∧ (l.toNat, .upset) ∈ t.coh.drop ∧ lineState t l.toNat = some x ∧
      ∀ a, Memory.read t.mem a = if a / 64 = l.toNat ∧ words.getLsbD (a % 64 / 8) = true then 0 else Memory.read s.mem a)) ∧
  (∀ (s : State) (a : ArrayAt) (unc : Bool), s.bit Reg.GLB_ECC unc.toNat = false → s.err.queue.length < 16 →
    let t := eccErr s a unc
    upset s (.array a unc) = (if unc then arrayLose t a else t) ∧ t.bit Reg.GLB_ECC unc.toNat = true ∧
    (s.bit Reg.GLB_ECC_LOG 31 = false →
      t.rd Reg.GLB_ECC_LOG = BitVec.ofNat 32 (arrayCode a + arrayIndex a % 2 ^ 16 * 2 ^ 3 + unc.toNat * 2 ^ 19 + 2 ^ 31)) ∧
    t = { s with regs := t.regs, err := t.err }) ∧
  (∀ (s : State) (t : BitVec 7) (k : Byte) (id : Option (BitVec 21)) (o : TOp), s.err.queue.length < 16 → opAt (s.tgt t.toNat) k.toNat = some o →
    let u := upset s (.parity (.op t k) id)
    u.bit Reg.GLB_DPAR 0 = true ∧ (u.tgt t.toNat).ops.length + 1 = (s.tgt t.toNat).ops.length ∧
    (s.bit (Reg.GLB_DPAR_LOG + 4) 31 = false → u.rd64 Reg.GLB_DPAR_LOG =
      BitVec.ofNat 64 (id.isNone.toNat * 2 ^ 3 + (id.getD o.ev).toNat * 2 ^ 4 + t.toNat * 2 ^ 25 + 2 ^ 63))) ∧
  (∀ (s : State) (l : BitVec 3) (k : BitVec 9) (id : Option (BitVec 21)) (w : LaneW), s.err.queue.length < 16 →
    (s.lane l.toNat)[k.toNat]? = some w → w.set = true →
    let u := upset s (.parity (.spill l k) id)
    u.bit Reg.GLB_DPAR 1 = true ∧
    (s.bit (Reg.GLB_DPAR_LOG + 4) 31 = false → u.rd64 Reg.GLB_DPAR_LOG =
      BitVec.ofNat 64 (1 + id.isNone.toNat * 2 ^ 3 + (id.getD w.ev).toNat * 2 ^ 4 + w.t * 2 ^ 25 + 2 ^ 63)) ∧
    ((∀ v ∈ s.lane l.toNat, v.set = true) → (∀ e ∈ s.tg, e.1 / 16 = l.toNat → e.2.dsp = []) →
      u.lane l.toNat = (s.lane l.toNat).eraseIdx k.toNat ∧ u.mem = s.mem ∧ u.tg = s.tg)) ∧
  ∀ (s : State) (u : Bur) (a : W32), burRuns s u = true → (s.core u).st = .run → (s.core u).waiting = false →
    flagT (s.core u).flags = false → (s.core u).rep = none → s.err.queue.length < 16 →
    let v := burErr s 7
    v.bit Reg.BUR_ERR 7 = true ∧ Trapped v (upset s (.burin u a true)) u 7 (s.core u).pc a 0

/-- A due EPOCH_BOUNDARY gives every queue its budget, every queue and slice its translation slots of the epoch, starts the
Shuttle shares afresh, is then no longer due, and changes nothing else. At a boundary every target compares its summaries
with its roots, physical before virtual: the chosen chunk is the one with V 1 and the lowest PRIO, ties to the lowest
number, none whose lead is in flight, and where it beats the root its lead is requested and counted, or, its LEAD_OK being
0, it waits for its sweep. An AGE is queued for a class of which an entry steps, must hold its age or whose word has been
written, unless one waits already. A tree admits up to min(16, L / 2) operations: those at the front, then AGE operations up
to half, carried-over operations, what its queue held, and sweep inserts, each in their order; what is not admitted keeps
its order (stated where no redirect and no vPE that has left takes an operation); what waits at a source then takes the free
places of the queue. (R188, R101, R130, R17, R156, R157, R158, R159, R166, R167) -/
def Obligations.EpochRefills : Prop :=
  (∀ s : State, s.stk.epochDue = true →
    Gives .epochBoundary s fun t =>
      t = { s with stk := { s.stk with epochDue := false }, msg := { s.msg with left := t.msg.left, slots := t.msg.slots },
                   pnl := { s.pnl with sht := [] } } ∧
      (∀ q ∈ 0 :: (createdPanels s).map (· + 1), Tbl.find t.msg.left q = some (qBudget s q)) ∧
      ∀ q ∈ 0 :: (createdPanels s).map (· + 1), ∀ sl, sl < s.par.targets / 16 → s.par.targets ≤ 128 →
        Tbl.find t.msg.slots (q * 8 + sl) = some (xltRate s q * 2 ^ s.stk.shift)) ∧
  (∀ (s : State) (l : Nat), treesBoundary s l =
    let u := eachTgt (classesLoad s) fun s t =>
      compareSum (compareSum (s.modTgt t fun x => { x with fresh := false }) t false) t true
    let v := (u.tg.map fun p => (p.1, p.2.opq.length)).foldl (fun s p => admitSpills s l p.1 p.2) u
    { v with rnk := { v.rnk with classW := 0 } }) ∧
  (∀ (skip : Nat → Bool) (m : Tbl Sum) (k : Nat) (e : Sum), bestChunk skip m = some (k, e) →
    (k, e) ∈ m ∧ e.v = true ∧ skip k = false ∧
    ∀ p ∈ m, p.2.v = true → skip p.1 = false → e.prio < p.2.prio ∨ (e.prio = p.2.prio ∧ k ≤ p.1)) ∧
  (∀ (s : State) (t : Nat) (virt : Bool) (k : Nat) (e : Sum), refillOk s t virt = true →
    let x := s.tgt t
    let u := compareSum s t virt
    bestChunk (leadChunk x virt) (x.sums virt) = some (k, e) →
    (beatsRoot s t virt e.prio = false → u = s) ∧
    (beatsRoot s t virt e.prio = true → e.leadOk = true → x.lead virt = none →
      u = { s with tg := u.tg, regs := u.regs } ∧
      u.tgt t = x.setLead virt (some (BitVec.ofNat 21 (k * 1024 + e.lead.toNat))) ∧ (∀ j, j ≠ t → u.tgt j = s.tgt j) ∧
      u.rd64 Reg.RNK_LEAD_CNT = s.rd64 Reg.RNK_LEAD_CNT + 1 ∧ RegsApart s u [Reg.RNK_LEAD_CNT, Reg.RNK_LEAD_CNT + 4]) ∧
    (beatsRoot s t virt e.prio = true → e.leadOk = false →
      u = { s with tg := u.tg } ∧ (∀ j, j ≠ t → u.tgt j = s.tgt j) ∧
      u.tgt t = x.setSwp virt { x.swp virt with waiting := ((u.tgt t).swp virt).waiting } ∧
      (k ∈ ((u.tgt t).swp virt).waiting ∨ ∃ r, (x.swp virt).run = some r ∧ r.chunk = k) ∧
      ∀ j, j ∈ ((u.tgt t).swp virt).waiting ↔ j ∈ (x.swp virt).waiting ∨
        (j = k ∧ ∀ r, (x.swp virt).run = some r → r.chunk ≠ k))) ∧
  (∀ (s : State) (x : Tg) (c : BitVec 3),
    let y := ageQueue s x
    let n := s.count
    let steps := ∃ e ∈ x.entries, e.cls = c ∧
      (effPrio s c e.base e.arr n ≠ effPrio s c e.base e.arr (n - 1) ∨ effPrio s c e.base e.arr n ≠ e.eff ∨
       ageAt e.arr n = 2 ^ 47 - 1 ∨ bitAt s.rnk.classW c.toNat = true)
    let waits := ∃ o ∈ x.skip ++ x.adm ++ x.carry, o.kind = .age ∧ o.attr.cls = c
    y = { x with ages := y.ages } ∧ (c ∈ y.ages ↔ c ∈ x.ages ∨ (steps ∧ ¬ waits)) ∧
    ∃ new, y.ages = x.ages ++ new) ∧
  ∀ (s : State) (l t k : Nat),
    let x := ageQueue s (s.tgt t)
    let n0 := min 16 (l / 2) - x.urgent.length
    let a := x.ages.take (min n0 ((min 16 (l / 2) + 1) / 2))
    let n1 := n0 - a.length
    let c := x.skip ++ x.adm ++ x.carry
    let q := x.opq.take k
    let left := q.drop (n1 - c.length) ++ x.opq.drop k
    let u := admitSpills s l t k
    (∀ o ∈ c ++ q ++ x.sbuf, redirected s t o = none ∧ offTreeNow s t o = false) →
    u = { s with tg := u.tg } ∧ (∀ j, j ≠ t → u.tgt j = s.tgt j) ∧
    u.tgt t = { x with
      skip := [], adm := a.map ageOp ++ (c ++ q ++ x.sbuf).take n1, carry := c.drop n1,
      opq := left ++ x.src.take (64 - left.length), src := x.src.drop (64 - left.length),
      sbuf := x.sbuf.drop (n1 - c.length - q.length), ages := x.ages.drop a.length, fresh := false, slots := l / 2 }

/-- A due snapshot raises ref_snap_req_o while the pair is free and GLB_REFCNT_HZ is legal, noting STK_COUNT; the acknowledge
lowers the request with the value latched: the snapshot of a first legal rate, or of a loaded count, sets the origin to it
and the noted count, that of the TAG gives its low 32 bits; one taken to measure, off CLK_FAST, takes the lag with the P in
force, shows it, and decides for the next boundary by R185, a slip moving the origin to the snapshot and the noted count and
counting; P having changed meanwhile, the origin first moves to the snapshot and the count that the lag corrects; under a
legal rate one below the previous one sets STK_ERR.REF_BACK, moves the origin and ends a catch-up; the falling acknowledge
frees the pair. (R181, R182, R183, R185, R36, R35, R288) -/
def Obligations.SnapshotHandshake : Prop :=
  (∀ (s : State) (u : SnapUse), s.stk.snapDue = some u → s.stk.snap.req = false → s.stk.snap.ack = false → refLegal s = true →
    Gives .refcntSnapshot s fun t => t = { s with stk := t.stk } ∧
      t.stk = { s.stk with snapDue := none, snap := t.stk.snap, snapUse := u, snapAt := s.count } ∧
      t.stk.snap.req = true ∧ t.stk.snap.ack = false) ∧
  (∀ (s : State) (ref : W64), s.stk.snap.req = true → s.stk.snap.ack = false →
    Gives (.refSnapAck ref) s fun t => t.stk.snap.req = false ∧ t.stk.snap.ack = true ∧ t.stk.lastRef = some ref ∧
      t.count = s.count ∧
      (s.stk.snapUse = .tag → t.wft.tag = ref.truncate 32 ∧ (refLegal s = false ∨ refBack s ref = false → t.regs = s.regs)) ∧
      (refLegal s = true → refBack s ref = true → t.bit Reg.STK_ERR 0 = true ∧ t.stk.dec = some (0, 0) ∧
        t.rd64 Reg.STK_ORIGIN_REF = ref ∧ t.rd64 Reg.STK_ORIGIN_CNT = s.stk.snapAt.zeroExtend 64) ∧
      (refLegal s = true → s.stk.snapUse = .anchor ∨ s.stk.snapUse = .load → t.rd64 Reg.STK_ORIGIN_REF = ref ∧
        t.rd64 Reg.STK_ORIGIN_CNT = s.stk.snapAt.zeroExtend 64 ∧ t.stk.per = periodNow s) ∧
      (refLegal s = true → refBack s ref = false → s.stk.snapUse = .measure → s.bit Reg.STK_STAT 14 = false →
        let lag := lagAt s s.stk.per ref s.stk.snapAt
        let per := periodNow s
        let d := lagDecision lag per s.stk.len (s.fld Reg.STK_CATCH 6 0) (s.fld Reg.STK_CATCH 27 16)
        t.stk.dec = some (d.1, d.2.1) ∧ t.fld Reg.STK_STAT 11 0 = min 4095 lag.toNat ∧ t.stk.per = per ∧
        (d.2.2 = true → t.rd64 Reg.STK_ORIGIN_REF = ref ∧ t.rd64 Reg.STK_ORIGIN_CNT = s.stk.snapAt.zeroExtend 64 ∧
          t.rd64 Reg.STK_SLIP_CNT = s.rd64 Reg.STK_SLIP_CNT + 1) ∧
        (d.2.2 = false → t.rd64 Reg.STK_SLIP_CNT = s.rd64 Reg.STK_SLIP_CNT ∧
          (per = s.stk.per → t.rd64 Reg.STK_ORIGIN_REF = s.rd64 Reg.STK_ORIGIN_REF ∧
            t.rd64 Reg.STK_ORIGIN_CNT = s.rd64 Reg.STK_ORIGIN_CNT) ∧
          (per ≠ s.stk.per → t.rd64 Reg.STK_ORIGIN_REF = ref ∧
            t.rd64 Reg.STK_ORIGIN_CNT = (s.stk.snapAt + BitVec.ofInt 48 lag).zeroExtend 64))) ∧
      (refLegal s = true → refBack s ref = false → s.stk.snapUse = .measure → s.bit Reg.STK_STAT 14 = true →
        t.regs = s.regs ∧ t.stk.dec = s.stk.dec)) ∧
  ∀ s : State, s.stk.snap.req = false →
    Gives .refSnapAckFall s (· = { s with stk := { s.stk with snap := { req := false, ack := false } } })

/-- The nominal stroke, the lag and the decision of a lag are those of R180, R181 and R185: normal strokes for a lag of 0 or a
small lead, a slip for a larger lead, N catch-up strokes for a lag up to JUMP with a catch-up length below LEN, a jump
otherwise; N strokes of catch-up make up at least the lag, and N - 1 do not. At a boundary the count advances by one plus
the jump decided, which is counted; the stroke that begins has the fast length on CLK_FAST, LEN + 8 while a stretch lasts,
STK_CATCH.LEN while a catch-up lasts, which is counted, and else STK_LEN.LEN, a new decision replacing what is left of a
catch-up; the boundary is an epoch boundary where the count is a multiple of the epoch length in force or of the new one,
after a jump, and after a load. At order 8 a COMMIT loads the common count with its transit: every arrival stroke moves with
it, the next boundary is an epoch boundary and a snapshot for the origin is due; an ALIGN gives its offset, saturated, to
ALIGN_OFS; behind by 2 or more the count of the origin rises by the offset and a measurement is due; ahead by 2 or more it
falls by it and ceil(offset * LEN / 8) strokes stretch; beyond JUMP either way STK_ERR.ALIGN sets. An Anchor drops what is
left of a stretch. That a stretch begins with the stroke after the one that the boundary opens is the model's choice (log
72), and so is dropping it (log 104). (R178, R180, R181, R182, R185, R186, R188, R192, R193) -/
def Obligations.LagRules : Prop :=
  (∀ s : State, periodNow s = s.stk.len * (s.rd Reg.GLB_REFCNT_HZ).toNat * 2 ^ 32 / (fClk s * 1000000) % 2 ^ 48) ∧
  (∀ (s : State) (per : Nat) (r : W64) (n : Stroke), lagAt s per r n =
    (BitVec.ofNat 48 ((s.rd64 Reg.STK_ORIGIN_CNT).toNat +
      (r - s.rd64 Reg.STK_ORIGIN_REF).toNat * 2 ^ 32 / per) - n).toInt) ∧
  (∀ (per len cat jump : Nat), 0 < per →
    (∀ lag : Int, lag ≤ 0 → lagDecision lag per len cat jump = (0, 0, decide (((2 ^ 32 + per - 1) / per + 1 : Nat) < -lag))) ∧
    (∀ lag : Nat, 0 < lag → lag ≤ jump → cat < len → ∃ n, lagDecision lag per len cat jump = (n, 0, false) ∧
      lag * len ≤ n * (len - cat) ∧ (n - 1) * (len - cat) < lag * len) ∧
    (∀ lag : Nat, 0 < lag → jump < lag ∨ len ≤ cat → lagDecision lag per len cat jump = (0, lag, false))) ∧
  (∀ (s : State) (held : Bool),
    let t := boundaryTime s held
    let k := s.stk
    let len := s.fld Reg.STK_LEN 6 0
    let jump := (k.dec.map (·.2)).getD 0
    let again := (k.dec.map (·.1)).getD k.catchN
    let fast := s.bit Reg.STK_STAT 14 && !switchNow s
    let stretch := if isAnchor s then 0 else k.stretchN
    let sh := s.fld Reg.STK_EPOCH 3 0
    t.count = s.count + 1 + BitVec.ofNat 48 jump ∧ t.stk.dec = none ∧ t.stk.len = len ∧
    t.rd64 Reg.STK_JUMP_CNT = s.rd64 Reg.STK_JUMP_CNT + BitVec.ofNat 64 jump ∧
    (t.stk.kind, t.stk.cur, t.stk.stretchN, t.stk.catchN) =
      (if fast then (.fast, k.fastLen, stretch, again)
       else if stretch ≠ 0 then (.stretch, len + 8, stretch - 1, again)
       else if again ≠ 0 then (.catchUp, s.fld Reg.STK_CATCH 6 0, 0, again - 1)
       else (.normal, len, 0, 0)) ∧
    t.rd64 Reg.STK_CATCH_CNT = s.rd64 Reg.STK_CATCH_CNT + (if t.stk.kind = .catchUp then 1 else 0) ∧
    t.rd64 Reg.STK_LATE_CNT = s.rd64 Reg.STK_LATE_CNT + (if (held && k.freqOut || k.held) = true then 1 else 0) ∧
    (t.stk.epochDue = true ↔ t.count.toNat % 2 ^ k.shift = 0 ∨ jump ≠ 0 ∨ k.epochNext = true ∨
      (sh ≠ k.shift ∧ t.count.toNat % 2 ^ sh = 0)) ∧
    t.stk.epochNext = false) ∧
  (∀ (s : State) (n : Stroke) (h : Nat), s.stk.alignIn = none → s.stk.commitIn = some (n, h) →
    let t := alignOrder s
    let d := n + BitVec.ofNat 48 (transitOf s h) - s.count
    t.count = n + BitVec.ofNat 48 (transitOf s h) ∧ t.stk.commitIn = none ∧ t.stk.epochNext = true ∧
    (refLegal s = true → t.stk.snapDue = some .load) ∧ t.regs = s.regs ∧
    (∀ j, (t.tgt j).entries = (s.tgt j).entries.map fun e => { e with arr := e.arr + d }) ∧
    (∀ j, (t.tgt j).opq = (s.tgt j).opq.map fun o => { o with arr := o.arr + d }) ∧
    ∀ j, (t.line j).unr = (s.line j).unr.map (· + d)) ∧
  ∀ (s : State) (n : Stroke) (h : Nat), s.stk.alignIn = some (n, h) → s.stk.commitIn = none → s.err.queue.length < 16 →
    let t := alignOrder s
    let off : Int := (s.count - (n + BitVec.ofNat 48 (transitOf s h))).toInt
    let jump : Int := s.fld Reg.STK_CATCH 27 16
    t.count = s.count ∧ t.stk.alignIn = none ∧
    t.fld Reg.STK_STAT 23 16 = (BitVec.ofInt 8 (max (-128) (min 127 off))).toNat ∧
    (off < -jump ∨ jump < off → t.bit Reg.STK_ERR 1 = true) ∧
    (-jump ≤ off → off ≤ jump → t.rd Reg.STK_ERR = s.rd Reg.STK_ERR) ∧
    (off ≤ -2 ∨ 2 ≤ off →
      t.rd64 Reg.STK_ORIGIN_CNT = (originCnt s - BitVec.ofInt 48 off).zeroExtend 64) ∧
    (-2 < off → off < 2 → t.rd64 Reg.STK_ORIGIN_CNT = s.rd64 Reg.STK_ORIGIN_CNT) ∧
    (off ≤ -2 → refLegal s = true → t.stk.snapDue.isSome = true) ∧
    t.stk.stretchN = (if 2 ≤ off then (off.toNat * s.stk.len + 7) / 8 else s.stk.stretchN)

/-- A sweep that has ended puts its CRC into PRF_LAST and the four segment CRCs into PRF_SEG, and counts; when it is compared
and differs from PRF_REF, PRF_ERR.MISMATCH is set; when it completes an adoption during which no proofed slot changed,
PRF_REF takes its CRC, HOLD clears and the adoption ends. (R397, R398, R399, R396) -/
def Obligations.ProofSweeps : Prop :=
  ∀ (s : State) (e : SweepEnd), s.prf.done = some e →
    Gives .proofSweepComplete s fun t =>
      t.rd Reg.PRF_LAST = e.crc ∧ t.prf.done = none ∧ (∀ k, k < 4 → t.rd (Reg.PRF_SEG + 4 * k) = e.segs.getD k 0) ∧
      t.rd64 Reg.PRF_SWEEP_CNT = s.rd64 Reg.PRF_SWEEP_CNT + 1 ∧ t.count = s.count ∧ t.mem = s.mem ∧
      (e.cmp = true → e.crc ≠ s.rd Reg.PRF_REF → t.bit Reg.PRF_ERR 0 = true) ∧
      (e.cmp = false → t.rd Reg.PRF_ERR = s.rd Reg.PRF_ERR ∧ t.rd Reg.PRF_MIS_CNT = s.rd Reg.PRF_MIS_CNT) ∧
      (e.adopt = true → s.prf.adopting = true → s.prf.adoptOk = true →
        t.rd Reg.PRF_REF = e.crc ∧ t.prf.hold = false ∧ t.prf.adopting = false) ∧
      (e.adopt = false → t.rd Reg.PRF_REF = s.rd Reg.PRF_REF ∧ t.prf.adopting = s.prf.adopting)

/-- A synchronised change of an enabled line first brings the samples of the state that ends: one that has been present on more
than FLT_LEN consecutive samples is accepted. Then the asserted state, differing from the filtered one, begins the count of
the filter (with FLT_LEN 0 on CLK_MAIN the first sample accepts it), or, showing the filtered state again, ends a running
count as one rejected change, counted up to 255 where a sample saw it; a change that no CLK_AON sample shows leaves the
count as it goes on. The acceptance, once more than FLT_LEN samples are seen, makes the asserted state the filtered one and
gives an edge or level line its unprocessed change with its stroke, a level line's second change leaving none. The rest of
the block stands, activity apart. The samples ride on the rows (log 4). (R79, R82, R83, R81, R84, R442) -/
def Obligations.WiredLineFilters : Prop :=
  (∀ (s : State) (n : BitVec 12) (lvl : Bool) (samples : BitVec 17) (shown : Bool),
    let k := n.toNat
    let len := s.fld (winOff k Reg.WIN_FILT) 15 0
    let aon := s.bit (winOff k Reg.WIN_FILT) 16
    let seen := (s.line k).seen + samples.toNat
    let sees := shown = true ∨ aon = false
    let on := (lvl != winPol s k)
    k < s.par.wired → (s.line k).pin ≠ lvl → winEn s k = true → running s = true →
    ((s.line k).count = true → len < seen → ∃ u, exec (.wiredFilterAccept n samples) s = .next u ∧
      exec (.wiredLineChange n lvl samples shown) s = exec (.wiredLineChange n lvl 0 shown) u) ∧
    (((s.line k).count = false ∨ seen ≤ len) → sees → on ≠ winLine s k → aon = true ∨ len ≠ 0 →
      Gives (.wiredLineChange n lvl samples shown) s fun t =>
        t = { s with win := t.win } ∧ t.line k = { s.line k with pin := lvl, count := true } ∧ ∀ j, j ≠ k → t.line j = s.line j) ∧
    (((s.line k).count = false ∨ seen ≤ len) → on ≠ winLine s k → aon = false → len = 0 →
      exec (.wiredLineChange n lvl samples shown) s = exec (.wiredFilterAccept n 1)
        ((s.modLine k fun l => { l with pin := lvl }).modLine k fun l => { l with count := true })) ∧
    (on = winLine s k → (s.line k).count = true → seen ≤ len → sees →
      Gives (.wiredLineChange n lvl samples shown) s fun t =>
        t = { s with win := t.win, regs := t.regs, prf := t.prf } ∧
        t.line k = { s.line k with pin := lvl, count := false, seen := 0 } ∧
        t.fld (winOff k Reg.WIN_XSTAT) 28 21 =
          (if seen = 0 ∧ aon = true then s.fld (winOff k Reg.WIN_XSTAT) 28 21
           else min 255 (s.fld (winOff k Reg.WIN_XSTAT) 28 21 + 1)) ∧
        ∀ off, off ≠ winOff k Reg.WIN_XSTAT → t.rd off = s.rd off) ∧
    (((s.line k).count = false ∨ seen ≤ len) → ¬ sees → Gives (.wiredLineChange n lvl samples shown) s fun t =>
        t = { s with win := t.win } ∧ t.line k = { s.line k with
          pin := lvl, seen := if (s.line k).count = true ∧ on = winLine s k then seen else (s.line k).seen } ∧
        ∀ j, j ≠ k → t.line j = s.line j)) ∧
  ∀ (s : State) (n : BitVec 12) (samples : BitVec 17),
    let k := n.toNat
    let on := (s.line k).pin != winPol s k
    let enough := s.fld (winOff k Reg.WIN_FILT) 15 0 < (s.line k).seen + samples.toNat
    k < s.par.wired → (s.line k).count = true → winEn s k = true → running s = true → on ≠ winLine s k →
    (enough → Gives (.wiredFilterAccept n samples) s fun t =>
      let level := if (s.line k).change.isSome then none else some (on, s.count)
      let edge := if on || winBoth s k then (s.line k).change <|> some (true, s.count) else (s.line k).change
      t = { s with win := t.win, regs := t.regs, prf := t.prf, pwr := { s.pwr with act := true } } ∧ winLine t k = on ∧
      (∀ off, off ≠ winOff k Reg.WIN_XSTAT → t.rd off = s.rd off) ∧
      t.line k = { s.line k with count := false, seen := 0, change := if winLevel s k then level else edge } ∧
      ∀ j, j ≠ k → t.line j = s.line j) ∧
    (¬ enough → Gives (.wiredFilterAccept n samples) s (· = s))

/-- The configuration read of a bank takes the waiting change with the lowest line number, and completes: with no change waiting
nothing happens. A raise, outside SAFE and without a holder, goes to the target that WIN_ROUTE chooses: the one named, or of
the set's members below TARGETS the one whose running priority is numerically highest, ties to the lowest, or, rotating, the
first after the member chosen last, with wrap-around, which is then the one chosen last. Where that is a built local target
the raise becomes an insert of event 32 + n with the line's attributes and its arrival stroke in its queue (stated with room
in it), and the target becomes the holder; where no target is chosen, or the local one is not built, it is held unrouted,
and UNR going to 1 queues an occurrence. A drop of a line held here goes to its holder, and waits in its bank while the
holder's queue is full. (R80, R85, R86, R88, R57, 07 R160) -/
def Obligations.WiredRouting : Prop :=
  (∀ (s : State) (k : BitVec 4), running s = true → bankNext s k.toNat = none → Gives (.wiredConfigRead k) s (· = s)) ∧
  (∀ (s : State) (k : BitVec 4) (n : Nat) (arr : Stroke), running s = true → bankNext s k.toNat = some n →
    (s.line n).change = some (true, arr) → (s.line n).holder = none → inSafe s = false →
    (∀ (g : BitVec 14) (rot : Option (BitVec 4)), RouteChooses s n g rot → isLocal s g = true →
      let t' := g.toNat % 128
      t' < s.par.targets → (s.tgt t').opq.length < 64 →
      Gives (.wiredConfigRead k) s fun t =>
        t = { s with win := t.win, tg := t.tg } ∧
        t.line n = { s.line n with change := none, holder := some g, kept := (s.line n).kept.filter (fun b => b), unr := none,
                                   xid := winXid s n, told := none, rot := rot } ∧
        t.tgt t' = { s.tgt t' with opq := (s.tgt t').opq ++
          [{ mkOp .ins false (BitVec.ofNat 21 (32 + n)) (winAttr s n) arr with level := winLevel s n }] } ∧
        (∀ j, j ≠ t' → t.tgt j = s.tgt j) ∧ ∀ j, j ≠ n → t.line j = s.line j) ∧
    ((∀ g rot, RouteChooses s n g rot → isLocal s g = true ∧ s.par.targets ≤ g.toNat % 128) → (s.line n).unr = none →
      s.err.queue.length < 16 →
      Gives (.wiredConfigRead k) s fun t =>
        t = { s with win := t.win, err := t.err } ∧
        t.line n = { s.line n with change := none, unr := some arr, xid := winXid s n } ∧
        t.err = { s.err with queue := s.err.queue ++
          [{ src := 14, flag := 29, unit := n, stroke := s.count, fresh := false }] })) ∧
  (∀ (s : State) (k : BitVec 4) (n : Nat) (arr : Stroke) (g : BitVec 14), running s = true → bankNext s k.toNat = some n →
    (s.line n).change = some (false, arr) → (s.line n).holder = some g → isLocal s g = true →
    let t' := g.toNat % 128
    (opqFull s t' = false →
      Gives (.wiredConfigRead k) s fun t =>
        t = { s with win := t.win, tg := t.tg } ∧ t.line n = { s.line n with change := none, unr := none } ∧
        t.tgt t' = { s.tgt t' with opq := (s.tgt t').opq ++
          [mkOp .drop false (BitVec.ofNat 21 (32 + n)) (winAttr s n) arr] } ∧
        ∀ j, j ≠ t' → t.tgt j = s.tgt j) ∧
    (opqFull s t' = true → Gives (.wiredConfigRead k) s (· = s))) ∧
  ∀ (s : State) (k n : Nat), bankNext s k = some n → n / 256 = k ∧
    ∀ e ∈ s.win, e.1 / 256 = k → e.2.change.isSome = true → n ≤ e.1

/-- A privileged and secure write of a built line's entry, while the block runs and GLB_LOCK does not lock groups: WIN_CTL takes
its fields (WAKE apart, which R92 may refuse), setting EN re-arms the line: its filtered state is the asserted state and
GLITCH is 0; WIN_ROUTE takes its value, but for RMODE when 0b11 is written; XID takes its value unless it is one of the
reserved ones. For a line without an unrouted raise the last two change no other register and no queue. (R89, R87, R85,
R383, R90) -/
def Obligations.WiredEntryWrites : Prop :=
  ∀ (s : State) (n : BitVec 12) (acc : RegAcc), running s = true → Admits s acc → acc.priv = true → acc.sec = true → n.toNat < s.par.wired →
    let k := n.toNat
    (locked s 0 = false →
      Gives (.winCtlWrite n acc) s fun t =>
        t.rd (winOff k Reg.WIN_CTL) &&& 0xFFFF = acc.data &&& 0xFFFF ∧
        (acc.data.getLsbD 8 = true → winEn s k = false →
          winLine t k = ((s.line k).pin != acc.data.getLsbD 10) ∧ t.fld (winOff k Reg.WIN_XSTAT) 28 21 = 0)) ∧
    ((s.line k).unr = none →
      Gives (.winRouteWrite n acc) s (fun t =>
        t.rd (winOff k Reg.WIN_ROUTE) = (if field acc.data 15 14 = 3 then
          (acc.data &&& 0xFFFF3FFF) ||| (s.rd (winOff k Reg.WIN_ROUTE) &&& 0xC000) else acc.data) ∧
        (field acc.data 15 14 ≠ 3 → t.tg = s.tg ∧ t.win = s.win ∧
          ∀ off, off ≠ winOff k Reg.WIN_ROUTE → t.rd off = s.rd off)) ∧
      Gives (.winXstatWrite n acc) s (fun t =>
        let x := field acc.data 20 0
        t.fld (winOff k Reg.WIN_XSTAT) 20 0 =
          (if (1 ≤ x ∧ x ≤ 0x101F) ∨ x = 0x1FFFFF then s.fld (winOff k Reg.WIN_XSTAT) 20 0 else x) ∧
        (¬ ((1 ≤ x ∧ x ≤ 0x101F) ∨ x = 0x1FFFFF) → t.tg = s.tg ∧ t.win = s.win ∧
          ∀ off, off ≠ winOff k Reg.WIN_XSTAT → t.rd off = s.rd off)))

/-- A change of local input n of a built target sets its LINE; if the input is enabled its event 16 + n is raised, or dropped,
on that target's own tree with its configured attributes at the present stroke (stated with room in the queue). A privileged
and secure write of TGT_ICFG takes the fields (EN of IDs 0 to 15 apart) and queues a re-prioritise; nothing else of another
target changes. (R216, R220) -/
def Obligations.LocalInputs : Prop :=
  (∀ (s : State) (t : BitVec 7) (n : BitVec 4) (lvl : Bool), running s = true → t.toNat < s.par.targets →
    let i := 16 + n.toNat
    let o := icfgOff t.toNat i
    s.bit o 13 ≠ lvl →
    let pins := fun (u : State) => ∀ t' n', localPin u t' n' = if t' = t.toNat ∧ n' = n.toNat then lvl else localPin s t' n'
    (s.bit o 12 = false → Gives (.localInputChange t n lvl) s fun u =>
      u = { s with regs := u.regs, prf := u.prf, localPins := u.localPins } ∧ pins u ∧
      u.rd o = setBit (s.rd o) 13 lvl ∧ ∀ off, off ≠ o → u.rd off = s.rd off) ∧
    (s.bit o 12 = true → (s.tgt t.toNat).opq.length < 64 → lvl = true ∨ (s.tgt t.toNat).src = [] →
      Gives (.localInputChange t n lvl) s fun u =>
        u.rd o = setBit (s.rd o) 13 lvl ∧ pins u ∧ (∀ off, off ≠ o → u.rd off = s.rd off) ∧
        u.tgt t.toNat = { s.tgt t.toNat with opq := (s.tgt t.toNat).opq ++
          [if lvl then { mkOp .ins false (BitVec.ofNat 21 i) (icfgAttr s t.toNat i) s.count with level := true }
           else mkOp .drop false (BitVec.ofNat 21 i) (icfgAttr s t.toNat i) s.count] } ∧
        ∀ j, j ≠ t.toNat → u.tgt j = s.tgt j)) ∧
  ∀ (s : State) (t : BitVec 7) (i : BitVec 5) (acc : RegAcc), running s = true → Admits s acc → acc.priv = true → acc.sec = true →
    t.toNat < s.par.targets → locked s 0 = false → (s.tgt t.toNat).opq.length < 62 → (s.tgt t.toNat).src = [] →
    let o := icfgOff t.toNat i.toNat
    Gives (.tgtIcfgWrite t i acc) s fun u =>
      u.rd o = (s.rd o &&& 0xFFFFE000) ||| (acc.data &&& 0xFFF) |||
        ((if 16 ≤ i.toNat then acc.data else s.rd o) &&& 0x1000) ∧
      (∀ off, off ≠ o → u.rd off = s.rd off) ∧ (∀ j, j ≠ t.toNat → u.tgt j = s.tgt j) ∧
      (u.tgt t.toNat).opq.take ((s.tgt t.toNat).opq.length + 1) = (s.tgt t.toNat).opq ++
        [mkOp .rpr false (BitVec.ofNat 21 i.toNat) (icfgAttr u t.toNat i.toNat) s.count]

/-- While the block runs, the input stage has room and its oldest write does not wait for the slow path, an offered write joins
it with its arrival stroke and is activity; otherwise it is not transferred. A decode cycle takes the oldest write: one that
fails a check of R98 is dropped, counted and flagged, the log taking it while VALID is 0 (stated with room in the log's
queue); one that its queue admits joins it, taking one of the queue's budget if it has one; one that is not admitted takes a
slow-path entry, or, with all 64 taken, is held, and then takes the first that frees. Nothing else of the block changes.
(R96, R97, R98, R100, R101, R103, R106, R107, R115) -/
def Obligations.MessageWrites : Prop :=
  (∀ (s : State) (addr : W64) (data : W32) (be : BitVec 4) (src : BitVec 24), running s = true →
    (s.msg.stage.length < 4 → slowHeld s = false → Gives (.msgWrite addr data be src) s
      (· = { s with
        msg := { s.msg with
          stage := s.msg.stage ++ [{ addr := addr, data := data, be := be, src := src, arr := s.count, wid := s.msg.nextW }],
          nextW := s.msg.nextW + 1 },
        pwr := { s.pwr with act := true } })) ∧
    (4 ≤ s.msg.stage.length ∨ slowHeld s = true → Gives (.msgWrite addr data be src) s (· = s))) ∧
  ∀ (s : State) (w : MWrite) (rest : List MWrite), running s = true → s.msg.stage = w :: rest →
    let q := pageOf w
    (s.msg.held = true → Gives .msgDecode s fun t =>
      if s.msg.slow.length < 64 then
        t = { s with regs := t.regs,
                     msg := { s.msg with stage := rest, held := false,
                                         slow := s.msg.slow ++ [{ q := q, slice := sliceOf s w, w := w, stage := .lookup }] } } ∧
        t.rd64 Reg.MSG_SLOW_CNT = s.rd64 Reg.MSG_SLOW_CNT + 1 ∧ RegsApart s t [Reg.MSG_SLOW_CNT, Reg.MSG_SLOW_CNT + 4]
      else
        t = { s with regs := t.regs } ∧ t.rd64 Reg.MSG_BP_CNT = s.rd64 Reg.MSG_BP_CNT + 1 ∧
        RegsApart s t [Reg.MSG_BP_CNT, Reg.MSG_BP_CNT + 4]) ∧
    (s.msg.held = false →
    (∀ i, decodeFault s w = some i → s.err.queue.length < 16 → Gives .msgDecode s fun t =>
      t = { s with msg := { s.msg with stage := rest }, regs := t.regs, err := t.err } ∧
      Flagged s t 1 Reg.MSG_ERR i 0 (!s.bit Reg.MSG_ERR_LOG0 31) ∧
      t.rd Reg.MSG_ERR_CNT = satInc (s.rd Reg.MSG_ERR_CNT) ∧
      (if s.bit Reg.MSG_ERR_LOG0 31 then RegsApart s t [Reg.MSG_ERR, Reg.MSG_ERR_CNT] else
        RegsApart s t [Reg.MSG_ERR, Reg.MSG_ERR_CNT, Reg.MSG_ERR_LOG0, Reg.MSG_ERR_LOG1, Reg.MSG_ERR_LOG2] ∧
        t.rd Reg.MSG_ERR_LOG0 = BitVec.ofNat 32 (winOffset w + i * 2 ^ 23 + 2 ^ 31) ∧
        t.rd Reg.MSG_ERR_LOG1 = w.src.zeroExtend 32 ∧ t.rd Reg.MSG_ERR_LOG2 = w.data)) ∧
    (decodeFault s w = none → admits s q = true → Gives .msgDecode s fun t =>
      t = { s with regs := t.regs, msg := { s.msg with stage := rest, left := t.msg.left,
                                                       q := s.msg.q ++ [{ q := q, slice := sliceOf s w, w := w }] } } ∧
      (∀ p, budgetLeft t p = if p = q ∧ qBudget s q ≠ 0 then budgetLeft s q - 1 else budgetLeft s p) ∧
      t.rd64 Reg.MSG_ADMIT_CNT = s.rd64 Reg.MSG_ADMIT_CNT + 1 ∧
      RegsApart s t [Reg.MSG_ADMIT_CNT, Reg.MSG_ADMIT_CNT + 4]) ∧
    (decodeFault s w = none → admits s q = false → s.msg.slow.length < 64 → Gives .msgDecode s fun t =>
      t = { s with regs := t.regs,
                   msg := { s.msg with stage := rest,
                                       slow := s.msg.slow ++ [{ q := q, slice := sliceOf s w, w := w, stage := .lookup }] } } ∧
      t.rd64 Reg.MSG_SLOW_CNT = s.rd64 Reg.MSG_SLOW_CNT + 1 ∧ RegsApart s t [Reg.MSG_SLOW_CNT, Reg.MSG_SLOW_CNT + 4]) ∧
    (decodeFault s w = none → admits s q = false → 64 ≤ s.msg.slow.length → Gives .msgDecode s fun t =>
      t = { s with regs := t.regs, msg := { s.msg with held := true } } ∧
      t.rd64 Reg.MSG_BP_CNT = s.rd64 Reg.MSG_BP_CNT + 1 ∧ RegsApart s t [Reg.MSG_BP_CNT, Reg.MSG_BP_CNT + 4]))

/-- A slow-path set of a local physical event that no other target holds sets the event's pending bit, on a line that the table
cache holds E or M, and marks its chunk's live summary, and one that fails is dropped with SLOW_FAIL; either frees the
tracker entry (stated where no clear waits in a lane for it). A fence request covers every write transferred before it and
reads not done; it is done once every covered write is disposed of, and a SYNC that waits for it may then complete. A write
of MSG_PQ_CFG takes its fields, a reserved RSV leaving that field and setting RSV_VALUE; the queue's live reservation stands
until the next boundary. (R103, R104, R106, R110, R111, R117, R119) -/
def Obligations.SlowPathAndFence : Prop :=
  (∀ (s : State) (n : BitVec 6) (e : Slow) (r : XRes), running s = true → s.msg.slow[n.toNat]? = some e → e.stage = .set r →
    s.failures (.slowSet n) = 0 →
    NoClears s → setWaits s (redirDest s (destOf r) r.ev) r.ev e.w.wid = false →
    (s.err.queue.length < 16 → r.virt = true ∨ s.rnkEn = true →
      Gives (.slowSetDone n true) s fun t =>
      t = { s with msg := { s.msg with slow := s.msg.slow.filter fun x => decide (x.w.wid ≠ e.w.wid) }, regs := t.regs,
                   err := t.err } ∧
      Flagged s t 1 Reg.MSG_ERR 6 0 (!s.bit Reg.MSG_ERR_LOG0 31)) ∧
    (∀ g, s.rnkEn = true → Memory.wf s.mem = true → redirDest s (destOf r) r.ev = .tgt g → isLocal s g = true →
      r.virt = false → slowHolder s (g.toNat % 128) r.ev = g.toNat % 128 →
      Owned s (bitAddr s (g.toNat % 128) none r.ev) 1 → Gives (.slowSetDone n false) s fun t =>
      let k := g.toNat % 128
      t = { s with msg := { s.msg with slow := s.msg.slow.filter fun x => decide (x.w.wid ≠ e.w.wid) }, mem := t.mem,
                   coh := t.coh, tg := t.tg, win := t.win, wft := t.wft } ∧
      BitPut s t k none r.ev true ∧ (∀ j, j ≠ k → t.tgt j = s.tgt j) ∧
      Tbl.get Sum.empty (t.tgt k).sumP (chunkOf r.ev) =
        (Tbl.get Sum.empty (s.tgt k).sumP (chunkOf r.ev)).mark r.attr.prio (leadOff r.ev))) ∧
  (∀ (s : State) (acc : RegAcc), running s = true → Admits s acc → acc.priv = true → acc.sec = true → acc.data.getLsbD 0 = true →
    Gives (.msgFenceReq acc) s fun t =>
      t = { seen s acc Reg.MSG_FENCE with msg := { s.msg with fence := some s.msg.nextW }, regs := t.regs } ∧
      t.bit Reg.MSG_FENCE 1 = false ∧ RegsApart s t [Reg.MSG_FENCE]) ∧
  (∀ (s : State) (n : Nat), s.msg.fence = some n → (∀ w ∈ liveWids s, n ≤ w) → Polls .msgFenceDone s fun t =>
    t = { s with msg := { s.msg with fence := none }, regs := t.regs } ∧ t.bit Reg.MSG_FENCE 1 = true ∧
    RegsApart s t [Reg.MSG_FENCE]) ∧
  ∀ (s : State) (acc : RegAcc), running s = true → Admits s acc → acc.priv = true → acc.sec = true →
    let rsv := field acc.data 14 0
    let cap := field acc.data 30 16
    (pqRsvBad s acc.data = false → rsv ≤ cap → cap ≤ 16384 → Gives (.msgPqCfgWrite acc) s fun t =>
      t = { seen s acc Reg.MSG_PQ_CFG with regs := t.regs, prf := t.prf } ∧
      t.fld Reg.MSG_PQ_CFG 14 0 = rsv ∧ t.fld Reg.MSG_PQ_CFG 30 16 = cap ∧ RegsApart s t [Reg.MSG_PQ_CFG]) ∧
    (16384 < rsv → Gives (.msgPqCfgWrite acc) s fun t =>
      t.fld Reg.MSG_PQ_CFG 14 0 = s.fld Reg.MSG_PQ_CFG 14 0 ∧ t.bit Reg.GLB_ERR 1 = true ∧ t.msg = s.msg)

/-- A slice looks up the oldest write of the sub-queue that R130 picks and takes one of its slots, or, when the slow path has
had none of the three cycles before or no sub-queue is ready, the slow path's oldest write. A lookup whose two entries the
table cache holds and that passes every check of R126 with a local physical result becomes an insert in that target's tree
with the entry's attributes and the write's arrival stroke (stated with room in its queue, and no lookup of the slice
missing); on the slow path the result is held for its atomic set. A first failing check ends it with its cause flagged and
counted. An entry that the cache does not hold takes a miss slot, and its fill completes the lookup. (R125, R126, R127,
R128, R129, R130, R131, R144, R105) -/
def Obligations.Lookups : Prop :=
  (∀ (s : State) (sl : BitVec 3) (idle : BitVec 2) (q : Nat) (e : QWrite), running s = true → sl.toNat < s.par.targets / 16 →
    (∀ m ∈ s.miss, m.slice ≠ sl.toNat ∧ m.w.wid ≠ e.w.wid) → pickQueue s sl.toNat = some q → subHead s sl.toNat q = some e →
    let age := min 3 (Tbl.get 3 s.msg.slowAge sl.toNat + idle.toNat)
    slowNext s sl.toNat = none ∨ age < 3 →
    let w := e.w
    let issued := fun (t : State) =>
      t.msg = { s.msg with q := s.msg.q.filter fun x => decide (x.w.wid ≠ w.wid),
                           slots := Tbl.put s.msg.slots (q * 8 + sl.toNat) (slotsLeft s q sl.toNat - 1),
                           slowAge := t.msg.slowAge } ∧
      Tbl.get 3 t.msg.slowAge sl.toNat = min 3 (age + 1) ∧ t.rd64 Reg.XLT_LOOKUP_CNT = s.rd64 Reg.XLT_LOOKUP_CNT + 1
    let r := lookupRes s w
    let k := (r.dest.truncate 14).toNat % 128
    let m : Miss := { slice := sl.toNat, q := q, w := w, slow := false, atMap := false, en := xltEn s, slot := true }
    (Passes s (xltEn s) w → Cached s w → r.virt = false → isLocal s (r.dest.truncate 14) = true → (s.tgt k).opq.length < 64 →
      Gives (.lookupIssue sl idle) s fun t =>
        t = { s with msg := t.msg, tg := t.tg, regs := t.regs, coh := usedBoth s w } ∧ issued t ∧
        Queued s t k { mkOp .ins false r.ev r.attr w.arr with wid := some w.wid } ∧
        RegsApart s t [Reg.XLT_LOOKUP_CNT, Reg.XLT_LOOKUP_CNT + 4]) ∧
    (∀ c, s.err.queue.length < 16 →
      (checkHead s (xltEn s) w = some c ∨
       (checkHead s (xltEn s) w = none ∧ srcHeld s w = true ∧ checkSrc s w false = some c) ∨
       (checkHead s (xltEn s) w = none ∧ Cached s w ∧ checkSrc s w false = none ∧ checkMap s w false = some c)) →
      Gives (.lookupIssue sl idle) s fun t =>
        t = { s with msg := t.msg, regs := t.regs, err := t.err, coh := { s.coh with plru := t.coh.plru } } ∧ issued t ∧
        Flagged s t 2 Reg.XLT_FAULT c 0 (!s.bit Reg.XLT_FLOG0 31) ∧
        t.rd Reg.XLT_FAULT_CNT = satInc (s.rd Reg.XLT_FAULT_CNT)) ∧
    (checkHead s (xltEn s) w = none → srcHeld s w = false → Gives (.lookupIssue sl idle) s fun t =>
      t = { s with msg := t.msg, regs := t.regs, miss := s.miss ++ [{ m with line := lineOf (srcAddr s w.src.toNat) }] } ∧
      issued t ∧ t.rd64 Reg.XLT_MISS_CNT = s.rd64 Reg.XLT_MISS_CNT + 1) ∧
    (checkHead s (xltEn s) w = none → srcHeld s w = true → checkSrc s w false = none → s.held (mapLine s w) = false →
      Gives (.lookupIssue sl idle) s fun t =>
      t = { s with msg := t.msg, regs := t.regs, coh := { s.coh with plru := t.coh.plru },
                   miss := s.miss ++ [{ m with atMap := true, line := mapLine s w, new := true }] } ∧
      issued t ∧ t.rd64 Reg.XLT_MISS_CNT = s.rd64 Reg.XLT_MISS_CNT + 1)) ∧
  (∀ (s : State) (sl : BitVec 3) (idle : BitVec 2) (e : Slow), running s = true → sl.toNat < s.par.targets / 16 →
    (∀ m ∈ s.miss, m.slice ≠ sl.toNat) → slowNext s sl.toNat = some e →
    pickQueue s sl.toNat = none ∨ 3 ≤ Tbl.get 3 s.msg.slowAge sl.toNat + idle.toNat →
    Passes s (xltEn s) e.w → Cached s e.w →
    (lookupRes s e.w).virt = true ∨ isLocal s ((lookupRes s e.w).dest.truncate 14) = true →
    Gives (.lookupIssue sl idle) s fun t =>
      t = { s with msg := { s.msg with slow := t.msg.slow, slowAge := t.msg.slowAge }, regs := t.regs,
                   coh := usedBoth s e.w } ∧
      t.msg.slow = (s.msg.slow.map fun x => if x.w.wid = e.w.wid then { x with stage := .set (lookupRes s e.w) } else x) ∧
      t.rd64 Reg.XLT_LOOKUP_CNT = s.rd64 Reg.XLT_LOOKUP_CNT + 1 ∧ Tbl.get 3 t.msg.slowAge sl.toNat = 0) ∧
  ∀ (s : State) (sl n : BitVec 3) (m : Miss), running s = true → missNth s sl.toNat n.toNat = some m → m.slow = false →
    (∀ k ∈ s.miss, k.w.wid = m.w.wid ∨ k.slice ≠ sl.toNat) → s.coh.failed.contains (.lookup sl, m.line) = false →
    m.filled = true ∨ s.held m.line = true → Passes s m.en m.w → Cached s m.w →
    let r := lookupRes s m.w
    let k := (r.dest.truncate 14).toNat % 128
    r.virt = false → isLocal s (r.dest.truncate 14) = true → (s.tgt k).opq.length < 64 →
    Polls (.missFill sl n) s fun t =>
      t = { s with miss := s.miss.filter fun x => decide (x.w.wid ≠ m.w.wid), tg := t.tg, coh := usedBoth s m.w } ∧
      Queued s t k { mkOp .ins false r.ev r.attr m.w.arr with wid := some m.w.wid }

/-- Between two entries of one kind of a tree the lower effective priority ranks above; with it equal, the greater age; with
that equal too, the lower event ID; nothing else of the entries takes part, and the order is total and transitive over
distinct IDs. The head entry of a kind is resident and ranks above every other of its kind. (R78) -/
def Obligations.RankingOrder : Prop :=
  (∀ (n : Stroke) (a b : Entry),
    (a.eff < b.eff → ranksAbove n a b = true ∧ ranksAbove n b a = false) ∧
    (a.eff = b.eff → ageAt b.arr n < ageAt a.arr n → ranksAbove n a b = true ∧ ranksAbove n b a = false) ∧
    (a.eff = b.eff → ageAt a.arr n = ageAt b.arr n → a.ev < b.ev → ranksAbove n a b = true ∧ ranksAbove n b a = false) ∧
    (a.ev ≠ b.ev → ranksAbove n a b = !ranksAbove n b a)) ∧
  (∀ (n : Stroke) (a b c : Entry), ranksAbove n a b = true → ranksAbove n b c = true → ranksAbove n a c = true) ∧
  (∀ (n : Stroke) (a b a' b' : Entry), a.eff = a'.eff → a.arr = a'.arr → a.ev = a'.ev → b.eff = b'.eff → b.arr = b'.arr →
    b.ev = b'.ev → ranksAbove n a b = ranksAbove n a' b') ∧
  ∀ (s : State) (k : Nat) (virt : Bool) (h : Entry), headOf s k virt = some h →
    h ∈ (s.tgt k).entries ∧ h.virt = virt ∧
    ∀ e ∈ (s.tgt k).entries, e.virt = virt → e.ev ≠ h.ev → ranksAbove s.count h e = true

/-- The next operation of a tree leaves its queue with an issue cycle, and: an insert of a new event enters a free leaf with its
effective priority, or, the tree being full, takes the lowest entry's leaf, which spills, or spills itself, or, the spill
buffer being full, is carried over; an event that enters has its pending bit cleared; an insert of an event that another
target holds pending merges into that state; a claim's EXT takes its entry out; a drop of a level event with the latch
clear, and a clear with the line not asserted, take a pending event out of the tree and clear its bit; a drop of an active
event, or of one of edge sense by now, changes nothing; a re-prioritise rewrites the entry; an AGE brings every entry of its
class to its effective priority; an FLS spills its entry. No other target changes. The bit is cleared at once, or behind an
earlier set of the same table, or once its line has come. (R52, R152, R153, R154, R155, R156, R162, R165, R441, R75, R57,
R160) -/
def Obligations.TreeOperations : Prop :=
  (∀ (s : State) (k : BitVec 7) (o : TOp), Issues s k.toNat o →
    let x := s.tgt k.toNat
    let l := k.toNat / 16
    let spilled := fun (t : State) (w : LaneW) =>
      t.lane l = s.lane l ++ [w] ∧ (∀ j, j ≠ l → t.lane j = s.lane j) ∧ t.mem = s.mem ∧ t.coh = s.coh
    let becomes := fun (y : Tg) => s.setTgt k.toNat y
    let entered := bitClear k.toNat (entryVpe s k.toNat o.virt) o.ev false true none
    let rewritten := fun (e : Entry) => if e.same o.virt o.ev then
      { e with base := o.attr.prio, group := o.attr.group, cls := o.attr.cls,
               eff := effPrio s o.attr.cls o.attr.prio e.arr s.count } else e
    let aged := fun (e : Entry) => if e.cls = o.attr.cls then
      { e with eff := effPrio s o.attr.cls e.base e.arr s.count, arr := keepAge s.count e.arr } else e
    (o.kind = .ins → o.swept = false → insMeets s k.toNat o s.count = none → takesLeaf x o = true →
      Memory.wf s.mem = true → Polls (.ins k) s fun t =>
      t = { s with tg := t.tg, lanes := t.lanes, mem := t.mem, coh := t.coh, regs := t.regs, win := t.win, wft := t.wft,
                   pwr := { s.pwr with act := true } } ∧
      t.tgt k.toNat = { popped x with entries := x.entries ++ [entryOf s o] } ∧ (∀ j, j ≠ k.toNat → t.tgt j = s.tgt j) ∧
      BitCleared (becomes { popped x with entries := x.entries ++ [entryOf s o] }) t entered ∧
      t.bit Reg.RNK_STAT 2 = false) ∧
    (∀ u, o.kind = .ins → o.swept = false → meetsAt s k.toNat o s.count = none → heldElse s k.toNat o = some u →
      activeIn (s.tgt u) false o.ev = false → Memory.wf s.mem = true → Polls (.ins k) s fun t =>
      t = { s with tg := t.tg, lanes := t.lanes, mem := t.mem, coh := t.coh, regs := t.regs, win := t.win, wft := t.wft,
                   pwr := { s.pwr with act := true } } ∧
      t.tgt k.toNat = popped x ∧ (∀ j, j ≠ k.toNat → t.tgt j = s.tgt j) ∧
      if (residentIn (s.tgt u) false o.ev).isSome then
        BitCleared (becomes (popped x)) t (bitClear u none o.ev false true none)
      else t.lanes = s.lanes ∧ t.mem = s.mem ∧ t.coh = s.coh) ∧
    (∀ w, o.kind = .ins → o.swept = false → insMeets s k.toNat o s.count = none → takesLeaf x o = false →
      worstOf s.count x.entries = some w → spillFull s k.toNat = false → Memory.wf s.mem = true → Polls (.ins k) s fun t =>
      let up := ranksAbove s.count (entryOf s o) w
      let out := spillOf s k.toNat w.virt w.ev w.base none
      t = { s with tg := t.tg, lanes := t.lanes, mem := t.mem, coh := t.coh, regs := t.regs, win := t.win, wft := t.wft,
                   pwr := { s.pwr with act := true } } ∧
      t.tgt k.toNat = { popped x with
        entries := if up then x.entries.filter (fun f => !f.same w.virt w.ev) ++ [entryOf s o] else x.entries } ∧
      (∀ j, j ≠ k.toNat → t.tgt j = s.tgt j) ∧
      if up then BitCleared ((becomes { popped x with
        entries := x.entries.filter (fun f => !f.same w.virt w.ev) ++ [entryOf s o] }).setLane l (s.lane l ++ [out])) t entered
      else spilled t (spillOf s k.toNat o.virt o.ev o.attr.prio o.wid)) ∧
    (o.kind = .ins → insSpills s k.toNat o = true → spillFull s k.toNat = true → Polls (.ins k) s fun t =>
      t = { s with tg := t.tg, pwr := { s.pwr with act := true } } ∧
      t.tgt k.toNat = { popped x with skip := x.skip ++ [o] } ∧ ∀ j, j ≠ k.toNat → t.tgt j = s.tgt j) ∧
    (o.kind = .drop ∧ isLevel s o.virt o.ev = true ∧ latchOn s k.toNat o.virt o.ev = false ∨ o.kind = .clr ∧ lineOn s k.toNat o.virt o.ev = false →
      activeIn x o.virt o.ev = false → Memory.wf s.mem = true → Polls (.rem k) s fun t =>
      t = { s with tg := t.tg, lanes := t.lanes, mem := t.mem, coh := t.coh, regs := t.regs, win := t.win, wft := t.wft,
                   pwr := { s.pwr with act := true } } ∧
      t.tgt k.toNat = (if inTree s k.toNat o.virt o.ev then gone (popped x) o.virt o.ev else popped x) ∧
      (∀ j, j ≠ k.toNat → t.tgt j = s.tgt j) ∧
      BitCleared (becomes (if inTree s k.toNat o.virt o.ev then gone (popped x) o.virt o.ev else popped x)) t
        (bitClear k.toNat (if o.virt then some o.vpe else none) o.ev (decide (o.kind = .drop)) false
        (if o.kind = .drop then none else o.wid))) ∧
    (o.kind = .drop → isLevel s o.virt o.ev = false ∨ activeIn x o.virt o.ev = true → Polls (.rem k) s fun t =>
      t = { s with tg := t.tg, pwr := { s.pwr with act := true } } ∧
      t.tgt k.toNat = popped x ∧ ∀ j, j ≠ k.toNat → t.tgt j = s.tgt j) ∧
    (o.kind = .rpr → Gives (.rpr k) s fun t =>
      t = { s with tg := t.tg, pwr := { s.pwr with act := true } } ∧
      t.tgt k.toNat = { popped x with entries := x.entries.map rewritten } ∧
      ∀ j, j ≠ k.toNat → t.tgt j = s.tgt j) ∧
    (o.kind = .age → Gives (.age k) s fun t =>
      t = { s with tg := t.tg } ∧
      t.tgt k.toNat = { popped x with entries := x.entries.map aged } ∧
      ∀ j, j ≠ k.toNat → t.tgt j = s.tgt j) ∧
    (∀ e, o.kind = .fls → residentIn x o.virt o.ev = some e → spillFull s k.toNat = false → Gives (.fls k) s fun t =>
      t = { s with tg := t.tg, lanes := t.lanes, regs := t.regs } ∧
      t.tgt k.toNat = { popped x with entries := x.entries.filter fun f => !f.same o.virt o.ev } ∧
      t.lane l = s.lane l ++ [spillOf s k.toNat o.virt o.ev e.base none] ∧ (∀ j, j ≠ k.toNat → t.tgt j = s.tgt j) ∧
      ∀ j, j ≠ l → t.lane j = s.lane j)) ∧
  ∀ (s : State) (k : BitVec 7) (virt : Bool) (ev : EventId), running s = true → (s.tgt k.toNat).ext = some (virt, ev) →
    (s.tgt k.toNat).slots ≠ 0 → Gives (.ext k) s fun t =>
      let x := s.tgt k.toNat
      t = { s with tg := t.tg, pwr := { s.pwr with act := true } } ∧
      t.tgt k.toNat = { x with entries := x.entries.filter (fun f => !f.same virt ev), ext := none, slots := x.slots - 1,
                               wait := x.wait.map fun w => { w with done := true } } ∧
      ∀ j, j ≠ k.toNat → t.tgt j = s.tgt j

/-- A lead whose bit is still set clears it and enters its event as an urgent refill, and its chunk waits for a sweep; one whose
bit is gone enters nothing. A sweep starts on the best waiting chunk, a background sweep on the best chunk of a target below
LOW with its engine idle; the arrival of the lines takes the snapshot, exactly the chunk's set bits; a visited event's bit
is cleared and it becomes a buffered refill while free leaves exceed RESERVE and the sweep is not urgent. A failed lead read
flags REFILL_FAIL. Stated for an event that no redirect takes, where the table cache holds the lines and the coherent agent
has failed no read of the engine; sweeps of virtual tables are charged to their Panel, so three clauses state the physical
one. (R166, R167, R168, R169, R174, R234) -/
def Obligations.RefillsAndSweeps : Prop :=
  (∀ (s : State) (k : BitVec 7) (virt : Bool) (ev : EventId), running s = true → (s.tgt k.toNat).lead virt = some ev →
    s.failures (.refill k virt) = 0 →
    let vpe := vpeOf s k.toNat virt
    laneHas s k.toNat vpe ev = false →
    let x := clearLeadOk ((s.tgt k.toNat).setLead virt none) virt (chunkOf ev)
    let y := x.setSwp virt (waitSweep (x.swp virt) (chunkOf ev))
    (pendBit s k.toNat vpe ev = false → Held s (bitAddr s k.toNat vpe ev) 1 → Gives (.leadArrive k virt false) s fun t =>
      t = { s with tg := t.tg, coh := t.coh } ∧ Touched s t [] ∧ t.tgt k.toNat = y ∧ ∀ j, j ≠ k.toNat → t.tgt j = s.tgt j) ∧
    (pendBit s k.toNat vpe ev = true → noAttrs s vpe ev = false → redirOf s (homeOf s k.toNat vpe) ev = none →
      Owned s (bitAddr s k.toNat vpe ev) 1 → AttrHeld s vpe ev → Memory.wf s.mem = true →
      Gives (.leadArrive k virt false) s fun t =>
      t = { s with tg := t.tg, mem := t.mem, coh := t.coh } ∧ BitPut s t k.toNat vpe ev false ∧
      t.tgt k.toNat = { y with urgent := y.urgent ++
        [{ mkOp .ins virt ev (refillAttr t k.toNat vpe ev) s.count with refill := true, vpe := (s.tgt k.toNat).vpe }] } ∧
      ∀ j, j ≠ k.toNat → t.tgt j = s.tgt j) ∧
    (s.err.queue.length < 16 → Gives (.leadArrive k virt true) s fun t =>
      t = { s with tg := t.tg, regs := t.regs, err := t.err } ∧
      Flagged s t 3 Reg.RNK_ERR 3 0 (!s.bit Reg.RNK_ERR_LOG 31) ∧ t.tgt k.toNat = (s.tgt k.toNat).setLead virt none)) ∧
  (∀ (s : State) (k : BitVec 7) (c : Nat), running s = true → refillOk s k.toNat false = true →
    (s.tgt k.toNat).swpP.run = none →
    let from' : SweepEng := { (s.tgt k.toNat).swpP with
      waiting := (s.tgt k.toNat).swpP.waiting.filter (· ≠ c),
      run := some { chunk := c, taken := false, snap := [], result := Sum.empty } }
    (bestWaiting (s.tgt k.toNat) false = some c → Gives (.sweepStart k false) s fun t =>
      t = { s with tg := t.tg } ∧ t.tgt k.toNat = { s.tgt k.toNat with swpP := from' } ∧
      ∀ j, j ≠ k.toNat → t.tgt j = s.tgt j) ∧
    (∀ e, (s.tgt k.toNat).entries.length < s.fld Reg.RNK_REFILL 28 16 → (s.tgt k.toNat).swpP.waiting = [] →
      (s.tgt k.toNat).leadP = none → bestChunk (fun _ => false) (s.tgt k.toNat).sumP = some (c, e) →
      Gives (.backgroundSweep k false) s fun t =>
      t = { s with tg := t.tg } ∧ t.tgt k.toNat = { s.tgt k.toNat with swpP := from' } ∧
      ∀ j, j ≠ k.toNat → t.tgt j = s.tgt j)) ∧
  (∀ (s : State) (k : BitVec 7) (virt : Bool) (r : Sweep), running s = true → ((s.tgt k.toNat).swp virt).run = some r →
    r.taken = false → r.due = false → r.chunk < 2048 → s.failures (.refill k virt) = 0 →
    (∃ ev, chunkOf ev = r.chunk ∧ pendBit s k.toNat (vpeOf s k.toNat virt) ev = true) →
    Held s (bitAddr s k.toNat (vpeOf s k.toNat virt) (BitVec.ofNat 21 (r.chunk * 1024))) 128 →
    Gives (.sweepLinesArrive k virt false) s fun t => t = { s with tg := t.tg, coh := t.coh } ∧ Touched s t [] ∧
      (∃ q, ((t.tgt k.toNat).swp virt).run = some q ∧ q.chunk = r.chunk ∧ q.taken = true ∧ q.result = r.result ∧
        q.snap.Pairwise (· < ·) ∧
        ∀ ev, ev ∈ q.snap ↔ chunkOf ev = r.chunk ∧ pendBit s k.toNat (vpeOf s k.toNat virt) ev = true) ∧
      (Tbl.get Sum.empty ((t.tgt k.toNat).sums virt) r.chunk).leadOk = false ∧ ∀ j, j ≠ k.toNat → t.tgt j = s.tgt j) ∧
  ∀ (s : State) (k : BitVec 7) (r : Sweep) (ev : EventId) (rest : List EventId), running s = true →
    (s.tgt k.toNat).swpP.run = some r → r.taken = true → r.snap = ev :: rest → rest ≠ [] → laneHas s k.toNat none ev = false →
    ((s.tgt k.toNat).buf false).length < 16 → s.failures (.refill k false) = 0 → sweepUrgent s k.toNat false = false → pendBit s k.toNat none ev = true →
    noAttrs s none ev = false → s.fld Reg.RNK_REFILL 12 0 < 4096 - (s.tgt k.toNat).entries.length →
    redirOf s (homeOf s k.toNat none) ev = none → Owned s (bitAddr s k.toNat none ev) 1 → AttrHeld s none ev →
    Memory.wf s.mem = true →
    Gives (.sweepAttrArrive k false false) s fun t =>
      t = { s with tg := t.tg, mem := t.mem, coh := t.coh } ∧ BitPut s t k.toNat none ev false ∧
      t.tgt k.toNat = { s.tgt k.toNat with
        swpP := { (s.tgt k.toNat).swpP with run := some { r with snap := rest } },
        sbuf := (s.tgt k.toNat).sbuf ++ [{ mkOp .ins false ev (refillAttr t k.toNat none ev) s.count with
          refill := true, swept := true, vpe := (s.tgt k.toNat).vpe }] } ∧
      ∀ j, j ≠ k.toNat → t.tgt j = s.tgt j

/-- The oldest spill of a lane sets its event's pending bit and marks its chunk's live summary, or, having failed, flags
SPILL_FAIL; it leaves the lane. With every tree empty, the flush writes the live summaries to their tables, a chunk without
an entry as 0, and sets FLUSHED. A privileged and secure write of EN starts the load with its REBUILD, which returns to 0,
and EN is not taken back; the reads of a target's table give its summaries (stated where every word is usable and no mark
came meanwhile), and the last of them ends LOADING. Stated without failed accesses and without a direct spill that waits,
the spill's line held E or M, and the flush with an empty eviction buffer (that its row makes its requests within itself is
the model's choice, log 86). (R163, R164, R165, R172, R173, R175) -/
def Obligations.SpillsFlushAndLoad : Prop :=
  (∀ (s : State) (l : BitVec 3) (w : LaneW) (rest : List LaneW), running s = true → s.lane l.toNat = w :: rest → w.set = true →
    w.vpe = none → s.rnkEn = true → (∀ c ∈ rest, c.set = true) → s.failures (.spill l) = 0 →
    (∀ e ∈ s.tg, e.2.dsp = []) →
    (Memory.wf s.mem = true → Owned s (bitAddr s w.t none w.ev) 1 → Polls (.spillSetDone l false) s fun t =>
      t = { s with lanes := t.lanes, mem := t.mem, coh := t.coh, tg := t.tg, win := t.win, wft := t.wft } ∧
      BitPut s t w.t none w.ev true ∧ t.lane l.toNat = rest ∧ (∀ j, j ≠ l.toNat → t.lane j = s.lane j) ∧
      (∀ j, j ≠ w.t → t.tgt j = s.tgt j) ∧
      Tbl.get Sum.empty (t.tgt w.t).sumP (chunkOf w.ev) =
        (Tbl.get Sum.empty (s.tgt w.t).sumP (chunkOf w.ev)).mark w.prio (leadOff w.ev)) ∧
    (s.err.queue.length < 16 → w.wid = none → Polls (.spillSetDone l true) s fun t =>
      t = { s with lanes := t.lanes, regs := t.regs, err := t.err, win := t.win, wft := t.wft } ∧
      Flagged s t 3 Reg.RNK_ERR 2 0 (!s.bit Reg.RNK_ERR_LOG 31) ∧ t.lane l.toNat = rest)) ∧
  (∀ s : State, pwrPhase s = 1 ∨ s.rst.phase = .w2 → treesEmpty s = true → prepPanels s = false → s.rnkEn = false ∨ s.coh.evb = [] →
    Gives .flushDone s fun t =>
    t = { s with mem := t.mem, coh := t.coh, regs := t.regs } ∧ t.bit Reg.RNK_STAT 2 = true ∧
    RegsApart s t [Reg.RNK_STAT] ∧
    (s.rnkEn = false → t.mem = s.mem ∧ t.coh = s.coh) ∧
    (s.rnkEn = true → Memory.wf s.mem = true → Tbl.nodup s.tg = true → sumBase s s.par.targets ≤ 2 ^ 52 →
      (∀ e ∈ s.tg, e.1 < s.par.targets ∧ Tbl.nodup e.2.sumP = true ∧ ∀ c ∈ e.2.sumP, c.1 < 2048) →
      ∀ k c, k < s.par.targets → c < 2048 →
        t.load32 (sumBase s k + 4 * c) = ((Tbl.find (s.tgt k).sumP c).map Sum.word).getD 0)) ∧
  (∀ (s : State) (acc : RegAcc), running s = true → acc.priv = true → acc.sec = true → Admits s acc →
    (s.rnkEn = false → acc.data.getLsbD 0 = true → Gives (.rnkCtrlWrite acc) s fun t =>
      t = { seen s acc Reg.RNK_CTRL with regs := t.regs, prf := t.prf,
                                            rnk := { s.rnk with rebuild := t.rnk.rebuild, loaded := [] } } ∧
      t.rd Reg.RNK_CTRL &&& 3 = 1 ∧ t.bit Reg.RNK_STAT 0 = true ∧ t.rnk.rebuild = (acc.data.getLsbD 1 || s.bit Reg.RNK_STAT 1) ∧
      RegsApart s t [Reg.RNK_CTRL, Reg.RNK_STAT]) ∧
    (s.rnkEn = true → acc.data.getLsbD 0 = false → s.err.queue.length < 16 → Gives (.rnkCtrlWrite acc) s fun t =>
      t.rnkEn = true ∧ Flagged s t 0 Reg.GLB_ERR 0 0 true ∧ t.tg = s.tg)) ∧
  ∀ s : State, running s = true → s.bit Reg.RNK_STAT 0 = true → s.rnk.rebuild = false → s.coh.failed = [] →
    let loaded := fun (t : State) (k : Nat) => ∀ c, c < 2048 → (s.tgt k).sumP = [] → sumBase s k + 0x2000 ≤ 2 ^ 52 →
      let m := (Sum.ofWord (s.load32 (sumBase s k + 4 * c))).getD Sum.empty
      Tbl.get Sum.empty (t.tgt k).sumP c = if m.v then m else Sum.empty
    ((∀ k, k < s.par.targets → badWords s [] k = []) → Gives (.loadDone none []) s fun t =>
      t = { s with tg := t.tg, regs := t.regs, rnk := { s.rnk with rebuild := false, loaded := [] } } ∧
      t.bit Reg.RNK_STAT 0 = false ∧ ∀ k ∈ toLoad s, loaded t k) ∧
    ∀ k : BitVec 7, nextLoad s k.toNat = true → toLoad s ≠ [k.toNat] → badWords s [] k.toNat = [] →
      Gives (.loadDone (some k) []) s fun t =>
      t = { s with tg := t.tg, rnk := { s.rnk with loaded := k.toNat :: s.rnk.loaded } } ∧ loaded t k.toNat ∧
      ∀ j, j ≠ k.toNat → t.tgt j = s.tgt j

/-- An accepted claim takes the eligible head its context may take: the event becomes active on top of its stack with preemption
value max(0, E - 2^SPLIT + 1), its EXT waits, and the response is presented once that has issued; without one the answer is
NONE and nothing else changes. A peek answers without a change. While one claim waits for its response no other is accepted.
A completion of the active event moves it to the split list while split completion is on, and else ends it; a deactivation
ends it from either; an ended event with a recorded raise, or whose line or latch still asserts it, is queued again, with
that raise's attributes and arrival where it has them, or, where its vPE takes no insert, parked. An event that is not
active is ignored, flagged and counted. Context 0b11 is answered BAD_OP. Over the frame each does the same in the context of
its attributes: a read answers the access on its byte lanes, with the peek beside the claim in a 64-bit read (made at the
claim's response, the model's choice of log 68), and a write leaves its status in TGT_OPSTAT. (R199, R201, R202, R203, R204,
R205, R206, R214, R217, R229, R61, R67) -/
def Obligations.ClaimsAndCompletions : Prop :=
  (∀ (s : State) (k : BitVec 7) (p : Path), running s = true → k.toNat < s.par.targets → Offers s k.toNat p → p.ctx ≠ 3 →
    let x := s.tgt k.toNat
    let c := p.ctx
    (∀ e, x.wait = none → claimPick s k.toNat c = some e → Gives (.claim k p) s fun t =>
      t = { took s p none with tg := t.tg, regs := t.regs, win := t.win, wft := t.wft } ∧
      (∃ a : Act, a.ev = e.ev ∧ a.group = e.group ∧ a.eff = e.eff ∧ a.pend = none ∧
        a.pv.toNat = e.eff.toNat + 1 - 2 ^ ((x.ctx e.virt).splitOf e.virt e.group).toNat ∧
        t.tgt k.toNat = { x.setCtx e.virt { x.ctx e.virt with stack := a :: (x.ctx e.virt).stack } with
          ext := some (e.virt, e.ev), hold := if e.virt then x.hold else e.group,
          wait := some { virt := e.virt, ev := e.ev, done := false, resp := claimWord e.ev e.group e.eff true,
                         src := if p.isFrame then some p.src else none, slot := portLast (took s p none),
                         sec := decide (c = 0), wide := p.acc.wide } }) ∧
      (∀ j, j ≠ k.toNat → t.tgt j = s.tgt j) ∧ e ∈ x.entries ∧ eligible (x.ctx e.virt) e = true ∧ (c = 1 → e.group = true) ∧
      (e.virt = true ↔ c = 2)) ∧
    (x.wait = none → claimPick s k.toNat c = none → Gives (.claim k p) s fun t =>
      t = { took s p (some (0x001FFFFF ||| peekBeside s k.toNat p)) with tg := t.tg } ∧
      t.tgt k.toNat = shows x p 0x001FFFFF ∧ ∀ j, j ≠ k.toNat → t.tgt j = s.tgt j) ∧
    (x.wait ≠ none → Gives (.claim k p) s fun t => t = { s with port := t.port }) ∧
    ((x.ctx (decide (c = 2))).stack.length = 16 → claimPick s k.toNat c = none) ∧
    Gives (.peek k p) s fun t =>
      t = { took s p (some ((peekWord s k.toNat c).zeroExtend 64 <<< 32)) with tg := t.tg } ∧
      t.tgt k.toNat = shows x p (peekWord s k.toNat c) ∧ ∀ j, j ≠ k.toNat → t.tgt j = s.tgt j) ∧
  (∀ (s : State) (k : BitVec 7) (w : ClaimWait), running s = true → (s.tgt k.toNat).wait = some w → w.done = true →
    Gives (.claimResponse k) s fun t =>
      let u := { s with tg := t.tg }
      t = (if w.src = some .port then
             portAnswer u w.slot false (w.resp.zeroExtend 64 ||| peekBeside u k.toNat (.frame w.sec .port { wide := w.wide }))
           else u) ∧
      t.tgt k.toNat = { s.tgt k.toNat with wait := none, rsp := if w.src = none then w.resp else (s.tgt k.toNat).rsp } ∧
      ∀ j, j ≠ k.toNat → t.tgt j = s.tgt j) ∧
  (∀ (s : State) (k : BitVec 7) (p : Path) (arg : W32), running s = true → k.toNat < s.par.targets → Offers s k.toNat p →
    p.ctx ≠ 3 → (p.ctx = 2 → guestOn (s.tgt k.toNat) = true) → field arg 31 21 = 0 →
    let x := s.tgt k.toNat
    let c := p.ctx
    let v := decide (c = 2)
    let ev : EventId := arg.truncate 21
    let y := x.ctx v
    let h := took s p (some 0)
    let gone := shows (x.setCtx v { y with stack := y.stack.filter fun b => decide (b.ev ≠ ev),
                                           split := y.split.filter fun b => decide (b.ev ≠ ev) }) p (statusWord 0 false)
    (∀ a, onStack x v ev = some a → mayComplete c a = true → y.splitcOf v a.group = true → y.split.length < 16 →
      onSplit x v ev = none → Gives (.complete k p arg) s fun t =>
      t = { h with tg := t.tg, regs := t.regs } ∧ Status s t k.toNat p 0 false [] ∧
      t.tgt k.toNat = shows (x.setCtx v { y with stack := y.stack.filter (fun b => decide (b.ev ≠ ev)), split := y.split ++ [a] })
        p (statusWord 0 false) ∧
      ∀ j, j ≠ k.toNat → t.tgt j = s.tgt j) ∧
    (∀ a i, mayComplete c a = true → a.pend = none → lineOn s k.toNat v ev = false → latchOn s k.toNat v ev = false →
      (i = .complete k p arg ∧ onStack x v ev = some a ∧ y.splitcOf v a.group = false) ∨
      (i = .deactivate k p arg ∧ (onStack x v ev = some a ∨ (onStack x v ev = none ∧ onSplit x v ev = some a))) →
      Gives i s fun t =>
      t = { h with tg := t.tg, regs := t.regs, win := t.win, wft := t.wft } ∧ Status s t k.toNat p 0 false [] ∧
      t.tgt k.toNat = gone ∧ ∀ j, j ≠ k.toNat → t.tgt j = s.tgt j) ∧
    (∀ a at' arr, onStack x v ev = some a → mayComplete c a = true → x.opq.length < 64 →
      (a.pend = some (some (at', arr)) ∨
        (a.pend = some none ∨ (a.pend = none ∧ (lineOn s k.toNat v ev = true ∨ latchOn s k.toNat v ev = true))) ∧
          at' = refillAttr s k.toNat (if v then some x.vpe else none) ev ∧ arr = s.count) →
      ((c = 2 → vpeInsertable s x.vpe = true) → Gives (.deactivate k p arg) s fun t =>
      t = { h with tg := t.tg, regs := t.regs, win := t.win, wft := t.wft } ∧ Status s t k.toNat p 0 false [] ∧
      t.tgt k.toNat = { gone with opq := x.opq ++
        [{ mkOp .ins v ev at' arr with vpe := x.vpe, level := isLevel s v ev, reent := true }] } ∧
      ∀ j, j ≠ k.toNat → t.tgt j = s.tgt j) ∧
      (c = 2 → vpeInsertable s x.vpe = false → Gives (.deactivate k p arg) s fun t =>
      t = { h with tg := t.tg, pnl := { s.pnl with parkQ := s.pnl.parkQ ++
              [{ v := x.vpe, ev := ev, prio := at'.prio, wid := none }] } } ∧
      t.tgt k.toNat = gone ∧ ∀ j, j ≠ k.toNat → t.tgt j = s.tgt j)) ∧
    (∀ i, i = .complete k p arg ∨ i = .deactivate k p arg → onStack x v ev = none → onSplit x v ev = none →
      s.err.queue.length < 16 → Gives i s fun t =>
      t = { h with tg := t.tg, regs := t.regs, err := t.err } ∧
      Flagged s t 5 (tgtOff k.toNat Reg.TGT_ERR) 0 k.toNat false ∧
      t.rd (tgtOff k.toNat Reg.TGT_BADC_CNT) = satInc (s.rd (tgtOff k.toNat Reg.TGT_BADC_CNT)) ∧
      Status s t k.toNat p 0 true [tgtOff k.toNat Reg.TGT_ERR, tgtOff k.toNat Reg.TGT_BADC_CNT] ∧
      t.tgt k.toNat = shows x p (statusWord 0 true) ∧ ∀ j, j ≠ k.toNat → t.tgt j = s.tgt j)) ∧
  ∀ (s : State) (k : BitVec 7) (arg : W32), running s = true → k.toNat < s.par.targets → (s.tgt k.toNat).wait = none →
    s.err.queue.length < 16 →
    ∀ i ∈ [Instr.claim k (.chan 3), .peek k (.chan 3), .complete k (.chan 3) arg, .deactivate k (.chan 3) arg,
        .send k (.chan 3) arg, .setPmask k (.chan 3) arg, .setSplit k (.chan 3) arg],
      Gives i s fun t =>
      t = { begun s with tg := t.tg, regs := t.regs, err := t.err } ∧
      Flagged s t 5 (tgtOff k.toNat Reg.TGT_ERR) 1 k.toNat false ∧ RegsApart s t [tgtOff k.toNat Reg.TGT_ERR] ∧
      t.tgt k.toNat = { s.tgt k.toNat with rsp := statusWord 2 false } ∧ ∀ j, j ≠ k.toNat → t.tgt j = s.tgt j

/-- A SEND to one built local target queues its inter-target event there with that target's attributes at the present stroke
(stated with room), unless it comes from context 0b01 and the event is of group 0, which only flags SEC_SEND there; one to
all targets does so on every built target but the sender; one to another instance present sends it a RAISE of KIND 2 with
the sender's context (a RAISE for all its targets has LINE 0xFFF, the model's choice of log 15); an absent instance and a
target out of range answer their codes. A guest's SEND raises the event on the vPE of its own Panel, in its tree or parked.
SET_PMASK sets the mask of its context, from 0b01 not below the floor; SET_SPLIT sets the splits its context may set;
SET_VPE of a valid vPE that is nowhere resident, or of none, begins a switch: the leaving and the arriving vPE switch, the
leaving one's doorbell is armed, and every virtual entry is queued to be flushed. Over the frame each has the context of its
attributes; there SET_PMASK carries NSFLOOR too, and the status is left in TGT_OPSTAT. Opcodes 0x0 to 0x7 name the
operations of these rows; an undefined one is flagged and answered BAD_OP, as a SET_VPE from a guest is. Nothing else
changes. (R198, R199, R207, R208, R209, R210, R211, R212, R217, R229, R235, R69) -/
def Obligations.SendsAndSettings : Prop :=
  (∀ (s : State) (k : BitVec 7) (p : Path) (arg : W32), running s = true → k.toNat < s.par.targets → Offers s k.toNat p →
    let x := s.tgt k.toNat
    let c := p.ctx
    let h := took s p (some 0)
    let v := arg.truncate 8
    let id := field arg 3 0
    let o := fun u => mkOp .ins false (BitVec.ofNat 21 id) (icfgAttr s u id) s.count
    let at0 : Attr := { prio := 0, group := false, cls := 0 }
    let inst : BitVec 7 := BitVec.ofNat 7 (field arg 17 11)
    let u := field arg 10 4
    (c = 0 ∨ c = 1 → field arg 31 18 = 0 → inst = s.instId → u < s.par.targets →
      (c = 0 ∨ (icfgAttr s u id).group = true → (s.tgt u).opq.length < 64 → Gives (.send k p arg) s fun t =>
        t = { h with tg := t.tg, regs := t.regs } ∧ Status s t k.toNat p 0 false [] ∧
        ∀ j, t.tgt j = let z := { s.tgt j with opq := (s.tgt j).opq ++ if j = u then [o u] else [] }
                       if j = k.toNat then shows z p (statusWord 0 false) else z) ∧
      (c = 1 → (icfgAttr s u id).group = false → s.err.queue.length < 16 → Gives (.send k p arg) s fun t =>
        t = { h with tg := t.tg, regs := t.regs, err := t.err } ∧
        Flagged s t 5 (tgtOff u Reg.TGT_ERR) 3 u false ∧ Status s t k.toNat p 0 false [tgtOff u Reg.TGT_ERR] ∧
        ∀ j, t.tgt j = if j = k.toNat then shows x p (statusWord 0 false) else s.tgt j)) ∧
    (c = 0 ∨ c = 1 → field arg 31 20 = 0 → field arg 19 18 = 1 ∨ (field arg 19 18 = 2 ∧ s.wft.ift = []) →
      (∀ j, j < s.par.targets → j ≠ k.toNat → (c = 0 ∨ (icfgAttr s j id).group = true) ∧ (s.tgt j).opq.length < 64) →
      Gives (.send k p arg) s fun t =>
        t = { h with tg := t.tg, regs := t.regs, wft := t.wft } ∧ Status s t k.toNat p 0 false [] ∧
        (∀ j, t.tgt j = let z := { s.tgt j with opq := (s.tgt j).opq ++
                                     if j < s.par.targets ∧ j ≠ k.toNat then [o j] else [] }
                        if j = k.toNat then shows z p (statusWord 0 false) else z) ∧
        (field arg 19 18 = 1 → t.wft = s.wft) ∧
        (field arg 19 18 = 2 → ∀ i : BitVec 7, i ≠ s.instId → present s i.toNat = true → ∃ n e, n < 512 ∧
          Tbl.find t.wft.ift n = some e ∧ e.dst = i ∧
          e.pay = raisePay (BitVec.ofNat 21 id) 0 at0 2 c.toNat 0 false s.count 0xFFF 0 ||| BitVec.ofNat 160 (n * 2 ^ 44) ∧
          byRoute s 0x10 i e.pay ∈ t.wft.outq)) ∧
    (c = 0 ∨ c = 1 → field arg 31 18 = 0 →
      (present s inst.toNat = false → Gives (.send k p arg) s fun t =>
        t = { h with tg := t.tg, regs := t.regs } ∧ Status s t k.toNat p 9 false [] ∧
        ∀ j, t.tgt j = if j = k.toNat then shows x p (statusWord 9 false) else s.tgt j) ∧
      (present s inst.toNat = true → targetsOf s inst.toNat ≤ u → Gives (.send k p arg) s fun t =>
        t = { h with tg := t.tg, regs := t.regs } ∧ Status s t k.toNat p 4 false [] ∧
        ∀ j, t.tgt j = if j = k.toNat then shows x p (statusWord 4 false) else s.tgt j) ∧
      ∀ n, present s inst.toNat = true → inst ≠ s.instId → u < targetsOf s inst.toNat → iftFree s = some n →
        Gives (.send k p arg) s fun t =>
        let pay := raisePay (BitVec.ofNat 21 id) u at0 2 c.toNat 0 false s.count 0 0 ||| BitVec.ofNat 160 (n * 2 ^ 44)
        t = { h with tg := t.tg, regs := t.regs, wft := { s.wft with
          ift := Tbl.put s.wft.ift n { dst := inst, pay := pay, q := 0 }, outq := s.wft.outq ++ [byRoute s 0x10 inst pay] } } ∧
        Status s t k.toNat p 0 false [] ∧
        ∀ j, t.tgt j = if j = k.toNat then shows x p (statusWord 0 false) else s.tgt j) ∧
    (c = 2 → guestOn x = true → field arg 31 20 = 0 →
      let q : BitVec 16 := BitVec.ofNat 16 (field arg 19 4)
      let a := refillAttr s 0 (some q) (BitVec.ofNat 21 id)
      let here := q.toNat < s.par.vpes ∧ (s.vword q).v = true ∧ (s.vword q).panel = (s.vword x.vpe).panel
      (here → vpeInsertable s q = true → (s.tgt (s.vword q).target).opq.length < 64 → Gives (.send k p arg) s fun t =>
        t = { h with tg := t.tg } ∧
        ∀ j, t.tgt j = let z := { s.tgt j with opq := (s.tgt j).opq ++
                                    if j = (s.vword q).target then [virtOp q (BitVec.ofNat 21 id) a s.count none] else [] }
                       if j = k.toNat then shows z p (statusWord 0 false) else z) ∧
      (here → vpeInsertable s q = false → Gives (.send k p arg) s fun t =>
        t = { h with tg := t.tg, pnl := { s.pnl with parkQ := s.pnl.parkQ ++
                [{ v := q, ev := BitVec.ofNat 21 id, prio := a.prio, wid := none }] } } ∧
        ∀ j, t.tgt j = if j = k.toNat then shows x p (statusWord 0 false) else s.tgt j) ∧
      (¬ here → Gives (.send k p arg) s fun t =>
        t = { h with tg := t.tg } ∧
        ∀ j, t.tgt j = if j = k.toNat then shows x p (statusWord 4 false) else s.tgt j)) ∧
    (field arg 31 (if p.isFrame then 16 else 8) = 0 → c ≠ 3 → (c = 2 → guestOn x = true) →
      (p.isFrame = true → c = 0 → locked s 0 = false) → Gives (.setPmask k p arg) s fun t =>
      t = { h with tg := t.tg, regs := t.regs } ∧ Status s t k.toNat p 0 false [] ∧
      (c = 0 → t.tgt k.toNat = shows { x with phys := { x.phys with pmask := v }, nsfloor := bif p.isFrame then (arg >>> 8).truncate 8 else x.nsfloor }
        p (statusWord 0 false)) ∧
      (c = 1 → t.tgt k.toNat = shows { x with phys := { x.phys with pmask := if v < x.nsfloor then x.nsfloor else v } } p
        (statusWord 0 false)) ∧
      (c = 2 → t.tgt k.toNat = shows { x with virt := { x.virt with pmask := v } } p (statusWord 0 false)) ∧
      ∀ j, j ≠ k.toNat → t.tgt j = s.tgt j) ∧
    (field arg 31 8 = 0 → c ≠ 3 → (c = 2 → guestOn x = true ∧ field arg 7 4 = 0) → (c = 0 → locked s 0 = false) →
      Gives (.setSplit k p arg) s fun t =>
      let sp : BitVec 3 := arg.truncate 3
      let on := arg.getLsbD 3
      t = { h with tg := t.tg, regs := t.regs } ∧ Status s t k.toNat p 0 false [] ∧
      (c = 0 → t.tgt k.toNat = shows { x with phys := { x.phys with
        split1 := sp, splitc1 := on, split0 := (arg >>> 4).truncate 3, splitc0 := arg.getLsbD 7 } } p (statusWord 0 false)) ∧
      (c = 1 → t.tgt k.toNat = shows { x with phys := { x.phys with split1 := sp, splitc1 := on } } p (statusWord 0 false)) ∧
      (c = 2 → t.tgt k.toNat = shows { x with virt := { x.virt with split1 := sp, splitc1 := on } } p (statusWord 0 false)) ∧
      ∀ j, j ≠ k.toNat → t.tgt j = s.tgt j) ∧
    (∀ new : Option (BitVec 16), c = 0 ∨ c = 1 → x.sw = none → x.ext = none →
      (new = none ∧ field arg 31 16 = 0 ∨ ∃ q, new = some q ∧ field arg 31 16 = 1 ∧ q = arg.truncate 16 ∧
        q.toNat < s.par.vpes ∧ (s.vword q).v = true ∧ (s.vword q).switching = false ∧ (s.vword q).res = false ∧ x.vpe ≠ q) →
      Gives (.setVpe k p arg) s fun t =>
      let old := if x.vpeV then some x.vpe else none
      t = { h with tg := t.tg, pnl := t.pnl, regs := t.regs } ∧ Status s t k.toNat p 0 false [] ∧
      (t.tgt k.toNat).sw = some { step := .s2, old := old, new := new } ∧ (t.tgt k.toNat).entries = x.entries ∧
      (t.tgt k.toNat).rsp = (shows x p (statusWord 0 false)).rsp ∧
      (∀ q, new = some q → t.vword q = { s.vword q with switching := true }) ∧
      (x.vpeV = true → t.vword x.vpe = { s.vword x.vpe with switching := true, dbarm := true }) ∧
      (∀ e ∈ x.entries, e.virt = true → ∃ o ∈ (t.tgt k.toNat).ops,
        o.kind = .fls ∧ o.virt = true ∧ o.ev = e.ev) ∧
      ∀ j, j ≠ k.toNat → t.tgt j = s.tgt j)) ∧
  ∀ (s : State) (k : BitVec 7) (c : BitVec 2) (arg : W32), running s = true → k.toNat < s.par.targets →
    (s.tgt k.toNat).wait = none →
    (∀ i ∈ [(0, Instr.claim k (.chan c)), (1, .complete k (.chan c) arg), (2, .deactivate k (.chan c) arg),
        (3, .send k (.chan c) arg), (4, .setPmask k (.chan c) arg), (5, .setSplit k (.chan c) arg),
        (6, .setVpe k (.chan c) arg), (7, .peek k (.chan c))], exec (.undefinedOp k i.1 c arg) s = exec i.2 s) ∧
    ∀ i : Instr, (∃ op : BitVec 4, 8 ≤ op.toNat ∧ i = .undefinedOp k op c arg) ∨
        (2 ≤ c.toNat ∧ (s.tgt k.toNat).ext = none ∧ i = .setVpe k (.chan c) arg) →
      s.err.queue.length < 16 → Gives i s fun t =>
      t = { begun s with tg := t.tg, regs := t.regs, err := t.err } ∧
      Flagged s t 5 (tgtOff k.toNat Reg.TGT_ERR) 1 k.toNat false ∧ RegsApart s t [tgtOff k.toNat Reg.TGT_ERR] ∧
      t.tgt k.toNat = { s.tgt k.toNat with rsp := statusWord 2 false } ∧ ∀ j, j ≠ k.toNat → t.tgt j = s.tgt j

/-- A park takes the head of the waiting ones and is counted; its set sets the event's bit in its vPE's table and, while the vPE
is resident and not leaving, marks the live summary; where another vPE of the Panel, resident, has come to hold the event,
the raise goes into that one's pending part; and a failed set flags PARK_FAIL. The save of a switch writes the virtual state
to the leaving vPE's context, which is then not resident (stated with no summary to merge and its doorbell off); the load
reads the arriving vPE's context and summary table, which it clears, and makes it resident; the end names the new vPE, or
none, and counts. Stated without a move in progress, where the coherent agent has failed no access of these, with the lines
of a park in the table cache, and for a switch with no line in the eviction buffer (which it would wait for; log 86). (R231,
R232, R233, R235, R236, R237, R238, R226, R227, R53, R313) -/
def Obligations.ParksAndSwitches : Prop :=
  (∀ (s : State) (k : Park) (rest : List Park), running s = true → s.move = none → s.pnl.parkQ = k :: rest →
    s.pnl.parks.length < 128 → Held s (vctx s k.v) 64 → Polls (.park false) s fun t =>
      t = { s with pnl := { s.pnl with parkQ := rest, parks := s.pnl.parks ++ [k] }, regs := t.regs, coh := t.coh } ∧
      Touched s t [] ∧
      t.rd64 Reg.PNL_PARK_CNT = s.rd64 Reg.PNL_PARK_CNT + 1 ∧ RegsApart s t [Reg.PNL_PARK_CNT, Reg.PNL_PARK_CNT + 4]) ∧
  (∀ (s : State) (n : BitVec 7) (k : Park), running s = true → s.move = none → s.pnl.parks[n.toNat]? = some k →
    vpeLaneHas s k.v k.ev = false → s.failures (.park n) = 0 →
    (Memory.wf s.mem = true → (s.vword k.v).res = true → leavingVpe s k.v = false →
      vHeldElse s k.v k.ev (s.pnl.parks.take n.toNat) = none → Owned s (bitAddr s 0 (some k.v) k.ev) 1 →
      Polls (.parkSetDone n .good) s fun t =>
      let u := (s.vword k.v).target
      t = { s with pnl := { s.pnl with parks := s.pnl.parks.eraseIdx n.toNat }, mem := t.mem, coh := t.coh, tg := t.tg } ∧
      BitPut s t 0 (some k.v) k.ev true ∧ (∀ j, j ≠ u → t.tgt j = s.tgt j) ∧
      Tbl.get Sum.empty (t.tgt u).sumV (chunkOf k.ev) =
        (Tbl.get Sum.empty (s.tgt u).sumV (chunkOf k.ev)).mark k.prio (leadOff k.ev)) ∧
    (∀ u, vHeldElse s k.v k.ev (s.pnl.parks.take n.toNat) = some u → (s.vword u).res = true → AttrHeld s (some u) k.ev →
      Polls (.parkSetDone n .good) s fun t =>
      let j := (s.vword u).target
      t = { s with pnl := { s.pnl with parks := s.pnl.parks.eraseIdx n.toNat }, coh := t.coh, tg := t.tg } ∧ Touched s t [] ∧
      t.tgt j = setPendPart (s.tgt j) true k.ev (refillAttr s 0 (some u) k.ev) s.count ∧ ∀ i, i ≠ j → t.tgt i = s.tgt i) ∧
    (s.err.queue.length < 16 → k.wid = none → Polls (.parkSetDone n .setFail) s fun t =>
      t = { s with pnl := { s.pnl with parks := s.pnl.parks.eraseIdx n.toNat }, regs := t.regs, err := t.err } ∧
      Flagged s t 6 Reg.PNL_ERR 0 0 (!s.bit Reg.PNL_ERR_LOG 31))) ∧
  (∀ (s : State) (k : BitVec 7) (o : BitVec 16) (new : Option (BitVec 16)), running s = true → Memory.wf s.mem = true →
    s.coh.failed = [] → (s.tgt k.toNat).sw = some { step := .s2, old := some o, new := new } → flushedOut s k.toNat o = true →
    (s.tgt k.toNat).sumV = [] → bitAt (dbWord s o) 8 = false → s.coh.evb = [] → Gives (.switchSave k false []) s fun t =>
      let x := s.tgt k.toNat
      t = { s with mem := t.mem, coh := t.coh, tg := t.tg, pnl := { s.pnl with vpes := t.pnl.vpes } } ∧
      Touched s t [(vctx s o + 32, 8), (vctx s o + 64, 192)] ∧
      t.tgt k.toNat = { x with virt := Ctx.empty, swpV := SweepEng.empty,
                               sw := some { step := if new.isSome then .s3 else .s4, old := some o, new := new } } ∧
      (∀ j, j ≠ k.toNat → t.tgt j = s.tgt j) ∧ t.vword o = { s.vword o with res := false, switching := false } ∧
      (∀ v, v ≠ o → t.vword v = s.vword v) ∧ t.load64 (vctx s o + 32) = ctxWord4 x.virt ∧
      ∀ i, i < 24 → t.load64 (vctx s o + 64 + 8 * i) = (ctxLists x.virt).getD i 0) ∧
  (∀ (s : State) (k : BitVec 7) (sw : Switch) (n : BitVec 16), running s = true → Memory.wf s.mem = true →
    s.coh.failed = [] → (s.tgt k.toNat).sw = some sw → sw.new = some n → mayLoad s sw n = true →
    (s.panel (s.vword n).panel).vbits ≤ 21 → s.coh.evb = [] → Gives (.switchLoad k false []) s fun t =>
      let base := vsumBase s n
      t = { s with mem := t.mem, coh := t.coh, tg := t.tg, pnl := { s.pnl with vpes := t.pnl.vpes } } ∧
      Touched s t ((List.range (2 ^ ((s.panel (s.vword n).panel).vbits - 10))).map fun c => (base + 4 * c, 4)) ∧
      t.vword n = { s.vword n with res := true, target := k.toNat, best := 0xFF, dbarm := false } ∧
      (∀ v, v ≠ n → t.vword v = s.vword v) ∧ (t.tgt k.toNat).virt = ctxLoad s n ∧
      (t.tgt k.toNat).sw = some { sw with step := .s4 } ∧ (∀ j, j ≠ k.toNat → t.tgt j = s.tgt j) ∧
      ∀ c, c < 2 ^ ((s.panel (s.vword n).panel).vbits - 10) →
        let m := (Sum.ofWord (s.load32 (base + 4 * c))).getD Sum.sweepAll
        t.load32 (base + 4 * c) = 0 ∧ Tbl.get Sum.empty (t.tgt k.toNat).sumV c = if m.v then m else Sum.empty) ∧
  ∀ (s : State) (k : BitVec 7) (old new : Option (BitVec 16)), running s = true →
    (s.tgt k.toNat).sw = some { step := .s4, old := old, new := new } →
    (∀ n, new = some n → (s.panel (s.vword n).panel).state ≠ .resetting) → Gives (.switchDone k) s fun t =>
      t = { s with tg := t.tg, regs := t.regs, pnl := { s.pnl with vpes := t.pnl.vpes } } ∧
      t.tgt k.toNat = { s.tgt k.toNat with vpe := new.getD 0, vpeV := new.isSome, sw := none,
                                            fresh := new.isSome || (s.tgt k.toNat).fresh } ∧
      (∀ j, j ≠ k.toNat → t.tgt j = s.tgt j) ∧
      (∀ v, t.vword v = if new = some v then { s.vword v with switching := false } else s.vword v) ∧
      t.rd64 Reg.PNL_SWITCH_CNT = s.rd64 Reg.PNL_SWITCH_CNT + 1

/-- At its boundary a quiesce, a reset or a destroy that is due ends: the Panel is QUIESCED, RESET with live MIN 0, or FREE with
its share row 0, and its command's record waits with the command's status. A privileged and secure write of PNL_CTRL.EN
enables the Panels, begins a restore if RESTORE and SAVED are 1, and RESTORE returns to 0. The restore's end gives every
Panel its saved state, VBITS and shares, and every vPE of a created Panel its saved word (stated where every entry is
usable). (R239, R241, R245, R246, R247, R248) -/
def Obligations.PanelPhasesEnd : Prop :=
  (∀ (s : State) (p : BitVec 10) (r : Nat) (u : Run), running s = true →
    let x := s.panel p.toNat
    let row := shareOff p.toNat
    x.ring = some r → (s.ring r).run = some u → (s.ring r).fetched = [] →
    let done := fun (t : State) => t.ring r = { s.ring r with run := none, recs := (s.ring r).recs ++ [recOf s u.desc u.status 0] } ∧
      (∀ j, j ≠ r → t.ring j = s.ring j) ∧ ∀ q, q ≠ p.toNat → t.panel q = s.panel q
    (x.state = .quiescing → x.due = true → Gives (.quiesceDone p) s fun t =>
      t = { s with pnl := { s.pnl with panels := t.pnl.panels }, rings := t.rings } ∧ done t ∧
      t.panel p.toNat = { x with state := .quiesced, due := false, drain := [], ring := none }) ∧
    (x.state = .resetting → x.due = true → Gives (.panelResetDone p) s fun t =>
      t = { s with pnl := { s.pnl with panels := t.pnl.panels }, rings := t.rings, regs := t.regs, prf := t.prf } ∧ done t ∧
      t.panel p.toNat = { x with state := .reset, due := false, ring := none } ∧ t.fld (row Reg.PNL_SHR_LIVE0) 14 0 = 0 ∧
      RegsApart s t [row Reg.PNL_SHR_LIVE0]) ∧
    (x.state = .destroying → (∀ e ∈ s.msg.slow, e.q ≠ p.toNat + 1) →
      (∀ k ∈ s.pnl.parkQ ++ s.pnl.parks, panelOf s k.v ≠ p.toNat) → Gives (.panelDestroyDone p) s fun t =>
      t = { s with pnl := { s.pnl with panels := t.pnl.panels }, rings := t.rings, regs := t.regs, prf := t.prf } ∧ done t ∧
      t.panel p.toNat = Panel.empty ∧ t.rd (row Reg.PNL_SHR_LIVE0) = 0 ∧ t.rd (row Reg.PNL_SHR_LIVE1) = 0 ∧
      t.rd (row Reg.PNL_SHR_REQ0) = 0 ∧ t.rd (row Reg.PNL_SHR_REQ1) = 0)) ∧
  (∀ (s : State) (acc : RegAcc), running s = true → acc.priv = true → acc.sec = true → Admits s acc → s.bit Reg.PNL_CTRL 0 = false →
    acc.data.getLsbD 0 = true → Gives (.pnlCtrlWrite acc) s fun t =>
      t = { seen s acc Reg.PNL_CTRL with regs := t.regs, prf := t.prf,
                                         pnl := { s.pnl with restoring := acc.data.getLsbD 1 && s.pnl.saved } } ∧
      t.rd Reg.PNL_CTRL = 1 ∧ RegsApart s t [Reg.PNL_CTRL]) ∧
  ∀ s : State, running s = true → s.pnl.restoring = true → s.par.vpes ≤ 65536 → s.coh.failed = [] →
    let w := fun (p i : Nat) => s.load64 (saveAddr s p + 8 * i)
    (∀ p, p < s.par.panels → entryBad (w p 0) (w p 1) (w p 2) (w p 3) = false) → Gives (.panelRestoreDone [] []) s fun t =>
      t = { s with regs := t.regs, prf := t.prf, pnl := t.pnl } ∧ t.pnl.restoring = false ∧ t.pnl.restored = true ∧
      (∀ p, p < s.par.panels → field (w p 0) 2 0 ≠ 0 →
        t.panel p = { Panel.empty with state := restoredState (field (w p 0) 2 0), vbits := field (w p 0) 8 4,
                                       vattBase := base4k (w p 0), closed := decide (field (w p 0) 2 0 ≠ 1) } ∧
        t.rd (shareOff p Reg.PNL_SHR_LIVE0) = (w p 1).truncate 32 ∧
        t.rd (shareOff p Reg.PNL_SHR_LIVE1) = (w p 1 >>> 32).truncate 32) ∧
      (∀ p, p < s.par.panels → field (w p 0) 2 0 = 0 → t.panel p = s.panel p) ∧
      ∀ v : BitVec 16, v.toNat < s.par.vpes →
        let k := VWord.ofWord (s.load64 (vctx s v + 40))
        t.vword v = if k.v ∧ (t.panel k.panel).state ≠ .free then k else s.vword v

/-- With Panels enabled and none restoring, each command on a Panel or vPE in range with no other command of its kind running:
CREATE of a FREE Panel stages its shares and takes it to ACTIVE at the next boundary; VATTR rewrites priority and class of
an inter-target event's entry; SHARE stages a change that passes its checks; QUIESCE, RESUME, RESET and DESTROY take a Panel
in the state they need on its way; VPE_CREATE of a local doorbell event makes the vPE with its context, VPE_DOORBELL stores
the doorbell word, VPE_DESTROY takes the vPE away. Those that end at once leave an OK record. At order 3 of a boundary
outside a warm reset (its time part, boundaryTime) every accepted change becomes the live row, every Panel on its way to
ACTIVE is ACTIVE with its queue open, and the command that waited completes with its status. Stated with no line in the
eviction buffer where a command writes (log 86). (R223, R224, R228, R239, R241, R242, R243, R17, R313) -/
def Obligations.PanelAndVpeCommands : Prop :=
  (∀ (s : State) (held : Bool) (p : Nat), s.rst.phase ≠ .w2 →
    let x := s.panel p
    let t := boundaryTime s held
    (x.pend = none → x.toActive = false → t.panel p = x) ∧
    (x.pend.isSome = true ∨ x.toActive = true →
      t.panel p = { x with state := if x.toActive then .active else x.state, closed := x.closed && !x.toActive,
                           pend := none, toActive := false, ring := none } ∧
      (∀ w, x.pend = some w → t.rd (shareOff p Reg.PNL_SHR_LIVE0) = w.1 ∧ t.rd (shareOff p Reg.PNL_SHR_LIVE1) = w.2) ∧
      ∀ r u, x.ring = some r → (s.ring r).run = some u → (t.ring r).run = none ∧
        ∃ e ∈ (t.ring r).recs, e.index = u.desc.index ∧ e.status = u.status ∧ e.tag = u.desc.tag ∧ e.op = u.desc.op)) ∧
  ∀ (s : State) (r : BitVec 3) (op : Nat) (d : Desc), Starts s r.toNat op d → s.bit Reg.PNL_CTRL 0 = true →
    s.pnl.restoring = false → s.pnl.restored = false → s.coh.evb = [] →
    let p := d.panel
    let x := s.panel p
    let onward := fun (t : State) (y : Panel) => t.panel p = { y with ring := some r.toNat } ∧
      (∀ q, q ≠ p → t.panel q = s.panel q) ∧ GoesOn s t r.toNat d stOk (.panel p)
    let only := fun (t : State) => t = { begunOn s r.toNat with pnl := { s.pnl with panels := t.pnl.panels }, rings := t.rings }
    (p < s.par.panels → x.ring = none →
      (op = 0x30 → x.state = .free → 13 ≤ field (d.word 1) 14 10 → field (d.word 1) 14 10 ≤ 21 → capBad s p = false →
        overcommit s p = false → Gives (.panelCreate r) s fun t => only t ∧
        onward t { Panel.empty with vbits := field (d.word 1) 14 10, vattBase := base4k (d.word 2),
                                    pend := some (staged s p), toActive := true }) ∧
      (op = 0x31 → x.state ≠ .free → field (d.word 1) 14 10 < 16 → Memory.wf s.mem = true →
        Gives (.panelVattr r false) s fun t =>
        let a := attEntry s true p (BitVec.ofNat 21 (field (d.word 1) 14 10))
        t = { begunOn s r.toNat with mem := t.mem, coh := t.coh, tg := t.tg, rings := t.rings } ∧
        Touched s t [(a, 8)] ∧ Stored64 s t a (setField (setField (s.load64 a) 7 0 (field (d.word 1) 23 16)) 11 9 (field (d.word 1) 26 24)) ∧
        (∀ j, hosts s j p = false → t.tgt j = s.tgt j) ∧ Completes s t r.toNat d stOk 0) ∧
      (op = 0x32 → x.state ≠ .free → shareCheck s p = none → Gives (.panelShare r) s fun t => only t ∧
        onward t { x with pend := some (staged s p) }) ∧
      (op = 0x33 → x.state = .active → Gives (.panelQuiesce r) s fun t =>
        (∃ y, onward t y ∧ y.state = .quiescing ∧ y.closed = true ∧ y.due = false) ∧ t.mem = s.mem ∧ t.regs = s.regs) ∧
      (op = 0x34 → x.state = .quiesced → Gives (.panelResume r) s fun t => only t ∧ onward t { x with toActive := true }) ∧
      (op = 0x35 → x.state = .quiesced → Gives (.panelReset r) s fun t =>
        onward t { x with state := .resetting, due := false } ∧ t.mem = s.mem ∧ t.regs = s.regs ∧
        ∀ j, hosts s j p = false → t.tgt j = s.tgt j) ∧
      (op = 0x36 → x.state = .reset → vpesOf s p = [] → Gives (.panelDestroy r) s fun t => only t ∧
        onward t { x with state := .destroying })) ∧
    (let v := d.vpe
     let w := d.db
     let a := attAddr s (dbEvt w)
     v.toNat < s.par.vpes → vpeBusy s v = false → Memory.wf s.mem = true →
     let clear := fun (n : Nat) => vctx s v + n ≤ a ∧ a + 8 ≤ 2 ^ 52
     (op = 0x38 → (s.vword v).v = false → field (d.word 1) 25 16 < s.par.panels →
       (s.panel (field (d.word 1) 25 16)).state ≠ .free → (s.panel (field (d.word 1) 25 16)).state ≠ .destroying →
       reqFree s = true → dbRange s w = false → dbGroup s r.toNat w = false → dbLate s w = none →
       isLocal s (dbTgt w) = true → clear 256 →
       Gives (.vpeCreate r .good) s fun t =>
       t = { begunOn s r.toNat with mem := t.mem, coh := t.coh, pnl := { s.pnl with vpes := t.pnl.vpes }, rings := t.rings } ∧
       Touched s t [(vctx s v, 256), (a, 8)] ∧
       t.vword v = { VWord.empty with v := true, dbarm := true, panel := field (d.word 1) 25 16 } ∧
       (∀ u, u ≠ v → t.vword u = s.vword u) ∧ Completes s t r.toNat d stOk 0 ∧
       t.load64 (vctx s v) = BitVec.ofNat 64 (1 + field (d.word 1) 25 16 * 2 ^ 8) ∧ t.load64 (vctx s v + 8) = d.word 2 ∧
       t.load64 (vctx s v + 16) = d.word 3 ∧ t.load64 (vctx s v + 24) = d.word 4 ∧
       (∀ i, 4 ≤ i → i < 32 → t.load64 (vctx s v + 8 * i) = 0) ∧ t.load64 a = dbEntry r.toNat w (s.load64 a)) ∧
     (op = 0x39 → (s.vword v).v = true → (s.vword v).res = true → reqFree s = true → dbRange s w = false →
       dbGroup s r.toNat w = false → dbLate s w = none → isLocal s (dbTgt w) = true → clear 32 → Gives (.vpeDoorbell r .good) s fun t =>
       t = { begunOn s r.toNat with mem := t.mem, coh := t.coh, rings := t.rings } ∧
       Touched s t [(vctx s v + 24, 8), (a, 8)] ∧
       Completes s t r.toNat d stOk 0 ∧ t.load64 (vctx s v + 24) = w ∧ t.load64 a = dbEntry r.toNat w (s.load64 a)) ∧
     (op = 0x3A → (s.vword v).v = true → (s.panel (s.vword v).panel).state ≠ .active → (s.vword v).res = false →
       (s.vword v).switching = false → Gives (.vpeDestroy r false) s fun t =>
       t = { begunOn s r.toNat with mem := t.mem, coh := t.coh, pnl := { s.pnl with vpes := t.pnl.vpes }, rings := t.rings } ∧
       Touched s t [(vctx s v, 8)] ∧ t.vword v = { s.vword v with v := false } ∧ (∀ u, u ≠ v → t.vword u = s.vword u) ∧
       Stored64 s t (vctx s v) (setBit (s.load64 (vctx s v)) 0 false) ∧ Completes s t r.toNat d stOk 0))

/-- A doorbell of an enabled ring takes a tail in range that does not take descriptors back. With the slot's line in the table
cache (held to be read, E or M to be written; log 86), a fetch reads the next descriptor from its slot, and one that fails
checks 1 and 2 completes with that status when nothing is before it; a failed fetch sets FETCH_ERR once nothing is before
it. The oldest record is written to its slot with its phase, HEAD advances and turns PHASE over at a wrap, and CMD_CNT
counts (stated without a completion event, and with nothing else waiting for it). EN going to 1 resets the indices; writing
1 clears the flags of CMD_RSTAT; MBX_ACK frees the mailbox and clears its words. Ring 1 and the register port are stated for
a secure access. (R252, R253, R254, R256, R259, R260, R274, R276, R277, R313) -/
def Obligations.CommandRings : Prop :=
  (∀ (s : State) (r : BitVec 3) (acc : RegAcc), running s = true → acc.priv = true → acc.sec = true → Admits s acc →
    let o := ringOff r.toNat
    let tail := field acc.data 15 0
    (ringEn s r.toNat = true → tail < ringN s r.toNat →
      outstanding s r.toNat (ringTail s r.toNat) ≤ outstanding s r.toNat tail → Gives (.cmdDbWrite r acc) s fun t =>
      t = { seen s acc (o Reg.CMD_DB) with regs := t.regs } ∧ t.rd (o Reg.CMD_TAIL) = BitVec.ofNat 32 tail ∧
      RegsApart s t [o Reg.CMD_TAIL]) ∧
    (ringEn s r.toNat = true → ringN s r.toNat ≤ tail → Gives (.cmdDbWrite r acc) s fun t =>
      t.rd (o Reg.CMD_TAIL) = s.rd (o Reg.CMD_TAIL) ∧ t.bit Reg.GLB_ERR 1 = true) ∧
    (ringEn s r.toNat = false → s.bit (o Reg.CMD_RSTAT) 1 = false → acc.data.getLsbD 0 = true → 6 ≤ field acc.data 8 4 →
      field acc.data 8 4 ≤ 16 → locked s 3 = false → Gives (.cmdRctrlWrite r acc) s fun t =>
      t = { seen s acc (o Reg.CMD_RCTRL) with regs := t.regs, prf := t.prf, rings := t.rings } ∧
      ringEn t r.toNat = true ∧ ringN t r.toNat = 2 ^ field acc.data 8 4 ∧ ringTail t r.toNat = 0 ∧ ringHead t r.toNat = 0 ∧
      ringPhase t r.toNat = true ∧ RegsApart s t [o Reg.CMD_RCTRL, o Reg.CMD_TAIL, o Reg.CMD_HEAD] ∧
      t.ring r.toNat = { s.ring r.toNat with fetched := [], bad := false } ∧ ∀ j, j ≠ r.toNat → t.ring j = s.ring j) ∧
    Gives (.cmdRstatClear r acc) s (fun t =>
      t = { seen s acc (o Reg.CMD_RSTAT) with regs := t.regs } ∧
      t.rd (o Reg.CMD_RSTAT) = s.rd (o Reg.CMD_RSTAT) &&& ~~~(acc.data &&& 0x1C) ∧ RegsApart s t [o Reg.CMD_RSTAT]) ∧
    (mbxValid s = true → acc.data.getLsbD 0 = true → Gives (.mbxAck acc) s fun t =>
      t = { seen s acc Reg.MBX_ACK with regs := t.regs } ∧ mbxValid t = false ∧
      (∀ k, k < 4 → t.rd64 (Reg.MBX_DATA + 8 * k) = 0) ∧ t.rd Reg.MBX_STAT = setBit (s.rd Reg.MBX_STAT) 0 false ∧
      t.rd (Reg.MBX_STAT + 4) = s.rd (Reg.MBX_STAT + 4))) ∧
  (∀ (s : State) (r : BitVec 3) (i : Nat), running s = true → s.failures (.desc r) = 0 → nextFetch s r.toNat = some i →
    let x := s.ring r.toNat
    let d := readDesc s r.toNat i
    let got := fun (t : State) => t = { s with rings := t.rings, coh := t.coh } ∧ Touched s t []
    (∀ k, k < 8 → d.word k = s.load64 (ringBase s r.toNat + i * 64 + 8 * k)) ∧
    (x.fetched ≠ [] ∨ x.run.isSome = true ∨ descCheck d = none → (∀ e ∈ x.fetched.head?, descCheck e = none) →
      Held s (ringBase s r.toNat + i * 64) 64 → Gives (.descriptorFetch r false) s fun t => got t ∧
      t.ring r.toNat = { x with fetched := x.fetched ++ [d] } ∧
      ∀ j, j ≠ r.toNat → t.ring j = s.ring j) ∧
    (∀ st, x.fetched = [] → x.run = none → descCheck d = some st → Held s (ringBase s r.toNat + i * 64) 64 →
      Gives (.descriptorFetch r false) s fun t => got t ∧ Completes s t r.toNat d st 0) ∧
    (x.fetched = [] → x.run = none → x.recs = [] → s.err.queue.length < 16 → Polls (.descriptorFetch r true) s fun t =>
      t = { s with rings := t.rings, regs := t.regs, err := t.err } ∧ (∀ j, t.ring j = s.ring j) ∧
      Flagged s t 7 (ringOff r.toNat Reg.CMD_RSTAT) 2 r.toNat false) ∧
    (x.fetched ≠ [] ∨ x.run.isSome = true ∨ x.recs ≠ [] → Gives (.descriptorFetch r true) s fun t =>
      t = { s with rings := t.rings } ∧ t.ring r.toNat = { x with bad := true } ∧ ∀ j, j ≠ r.toNat → t.ring j = s.ring j)) ∧
  ∀ (s : State) (r : BitVec 3) (e : Rec) (rest : List Rec), running s = true → (s.ring r.toNat).recs = e :: rest →
    s.failures (.record r) = 0 → (∀ j, j < 8 → (s.ring j).run = none) → s.bit (ringOff r.toNat Reg.CMD_RSTAT) 3 = false →
    (e.cev = false → ringN s r.toNat ≤ 65536 → s.wft.owed = [] → Memory.wf s.mem = true →
      (∀ d ∈ (s.ring r.toNat).fetched.head?, descCheck d = none) → (s.ring r.toNat).bad = false →
      Owned s (ringCpl s r.toNat + e.index * 32) 32 → Gives (.completionRecordWrite r false) s fun t =>
      let a := ringCpl s r.toNat + e.index * 32
      let h := (ringHead s r.toNat + 1) % ringN s r.toNat
      t = { s with mem := t.mem, coh := t.coh, regs := t.regs, rings := t.rings } ∧
      Touched s t [(a, 32)] ∧ (∀ k, k < 4 → t.load64 (a + 8 * k) = (recWords r.toNat (ringPhase s r.toNat) e).getD k 0) ∧
      (∀ x, (∀ n, n < 32 → x ≠ haddr (a + n)) → Memory.read t.mem x = Memory.read s.mem x) ∧
      ringHead t r.toNat = h ∧ ringPhase t r.toNat = (ringPhase s r.toNat != decide (h = 0)) ∧
      t.rd64 (ringOff r.toNat Reg.CMD_CNT) = s.rd64 (ringOff r.toNat Reg.CMD_CNT) + 1 ∧
      (t.ring r.toNat).recs = rest ∧ ∀ j, j ≠ r.toNat → t.ring j = s.ring j) ∧
    (s.err.queue.length < 16 → Polls (.completionRecordWrite r true) s fun t =>
      t = { s with regs := t.regs, err := t.err } ∧ Flagged s t 7 (ringOff r.toNat Reg.CMD_RSTAT) 3 r.toNat false)

/-- NOP leaves an OK record. A SYNC that names no other ring and no fence does too; one with a fence opens it and waits.
SAFE_EXIT outside SAFE leaves an OK record and changes nothing; in SAFE without a Burin that runs an authenticated image it
leaves BUSY and changes nothing; else it begins the exit and waits, and when SAFE is left GLB_SAFE reads so and its OK
record follows. (R257, R267, R268, R434, R436, R437, R262) -/
def Obligations.SyncAndSafeCommands : Prop :=
  (∀ (s : State) (r : BitVec 3) (d : Desc),
    (Starts s r.toNat 0x00 d → Gives (.cmdNop r) s fun t =>
      t = { begunOn s r.toNat with rings := t.rings } ∧ Completes s t r.toNat d stOk 0) ∧
    (Starts s r.toNat 0x01 d → (∀ m, m < 9 → (d.word 1).getLsbD m = true → m = r.toNat) → Gives (.sync r) s fun t =>
      t = { begunOn s r.toNat with rings := t.rings } ∧ Completes s t r.toNat d stOk 0) ∧
    (Starts s r.toNat 0x01 d → (d.word 1).getLsbD 8 = true → Gives (.sync r) s fun t =>
      t.msg = { s.msg with fence := some s.msg.nextW } ∧ t.bit Reg.MSG_FENCE 1 = false ∧ RegsApart s t [Reg.MSG_FENCE] ∧
      (∃ goals, GoesOn s t r.toNat d stOk (.sync goals true)) ∧
      t = { begunOn s r.toNat with rings := t.rings, msg := t.msg, regs := t.regs }) ∧
    (Starts s r.toNat 0x40 d → s.err.safe = .out → Gives (.safeExit r) s fun t =>
      t = { begunOn s r.toNat with rings := t.rings } ∧ Completes s t r.toNat d stOk 0) ∧
    (Starts s r.toNat 0x40 d → s.err.safe = .safe → (∀ u, (s.core u).st ≠ .run) → Gives (.safeExit r) s fun t =>
      t = { begunOn s r.toNat with rings := t.rings } ∧ Completes s t r.toNat d stBusy 0) ∧
    (Starts s r.toNat 0x40 d → s.err.safe = .safe → (∃ u, (s.core u).st = .run) → Gives (.safeExit r) s fun t =>
      t = { begunOn s r.toNat with rings := t.rings, err := { s.err with safe := .leaving (some r.toNat) none }, regs := t.regs } ∧
      GoesOn s t r.toNat d stOk .safeExit ∧ t.fld Reg.GLB_SAFE 1 0 = 3 ∧ RegsApart s t [Reg.GLB_SAFE])) ∧
  ∀ (s : State) (r : Nat) (u : Run), s.err.safe = .leaving (some r) none → (s.ring r).run = some u → u.kind = .safeExit →
    (s.ring r).fetched = [] → (∀ q ∈ s.sbd.mirror, safeWaits s q = false ∨ q.claimed = false) → Gives .safeLeave s fun t =>
      t = { s with rings := t.rings, err := { s.err with safe := .out }, regs := t.regs } ∧ t.fld Reg.GLB_SAFE 1 0 = 0 ∧
      RegsApart s t [Reg.GLB_SAFE] ∧ Completes s t r u.desc stOk 0

/-- With no lookup and no translated write under way, the entries in the table cache (those written E or M), and every access
good, each leaves an OK record and the lines written modified: SRC_MAP writes a valid source entry with the fields it names;
SRC_UNMAP of an entry with no map entry clears VALID; EV_MAP of a local event writes the attribute entry, the map entry and
MAPCNT plus 1; EV_UNMAP clears VALID and MAPPED and takes MAPCNT down; EV_ATTR rewrites the attributes in both entries and
queues a re-prioritise at the holder; XLT_INV with no cached line of its tables ends at once. The entries are taken to lie
apart in memory. (R120, R121, R122, R123, R134, R135, R136, R137, R138, R131, R313) -/
def Obligations.TableCommands : Prop :=
  ∀ (s : State) (r : BitVec 3) (op : Nat) (d : Desc), Starts s r.toNat op d → transWids s = [] →
    Memory.wf s.mem = true →
    let e := readSrc s d.src
    let c := srcAddr s d.src
    let only := fun (t : State) (w : List (Nat × Nat)) =>
      t = { begunOn s r.toNat with mem := t.mem, coh := t.coh, rings := t.rings } ∧ Touched s t w
    let ok := fun (t : State) => Completes s t r.toNat d stOk 0
    (op = 0x10 → d.src < 2 ^ srcBits s → d.dbits ≤ 21 → (d.pnlOk = true → d.srcPanel < s.par.panels) → e.valid = false →
      Owned s c 32 → Gives (.srcMap r .good) s fun t => only t [(c, 32)] ∧ ok t ∧
      let n := readSrc t d.src
      n.valid = true ∧ n.physOk = d.physOk ∧ n.pnlOk = d.pnlOk ∧ n.panel = d.srcPanel ∧ n.dbits = d.dbits ∧
      n.w1 = d.word 2 ∧ n.mapCnt = 0 ∧ n.w3 = 0 ∧
      ∀ x, (∀ k, k < 32 → x ≠ haddr (c + k)) → Memory.read t.mem x = Memory.read s.mem x) ∧
    (op = 0x11 → d.src < 2 ^ srcBits s → e.valid = true → e.mapCnt = 0 → Owned s c 32 →
      Gives (.srcUnmap r .good) s fun t => only t [(c, 8)] ∧ ok t ∧
      Stored64 s t c (setBit e.w0 0 false)) ∧
    (∀ a, keyMap s d = some a →
      let n := d.ent
      let aa := attEntry s n.virt e.panel n.event
      op = 0x12 → n.attr.group = true → mapCheck s e n = none → (readMap s a).valid = false →
      remoteDest s n.virt n.dest = false → wordGroup0 (s.load64 aa) = false → attMapped (s.load64 aa) = false →
      attUsed (s.load64 aa) = false → Apart aa 8 a 8 → Apart aa 8 (c + 16) 8 → Apart a 8 (c + 16) 8 →
      Serves s (mapReads s d) → Owned s aa 8 → Owned s a 8 → Owned s (c + 16) 8 →
      Gives (.evMap r .good) s fun t => only t [(aa, 8), (a, 8), (c + 16, 8)] ∧ ok t ∧ t.load64 aa = attWord n.attr true true n.dest ∧
        t.load64 a = setBit n.w0 0 true ∧ t.load64 (c + 16) = setField e.w2 21 0 (e.mapCnt + 1)) ∧
    (∀ a, keyMap s d = some a →
      let m := readMap s a
      let aa := entAtt s e m
      m.valid = true → remoteDest s m.virt m.dest = false → keyGroup0 s d = false → hasAtt s m.virt e.panel m.event = true →
      Apart aa 8 a 8 → Serves s (keyReads s d) → Owned s aa 8 → Owned s a 8 →
      (op = 0x13 → Apart aa 8 (c + 16) 8 → Apart a 8 (c + 16) 8 → Owned s (c + 16) 8 →
        Gives (.evUnmap r .good) s fun t => only t [(aa, 8), (a, 8), (c + 16, 8)] ∧ ok t ∧
        t.load64 a = setBit m.w0 0 false ∧ t.load64 aa = setBit (s.load64 aa) 12 false ∧
        t.load64 (c + 16) = setField e.w2 21 0 (e.mapCnt - 1)) ∧
      (op = 0x14 → m.virt = false → d.newAttr.group = true → isLocal s ((attDest (s.load64 aa)).truncate 14) = true →
        opqFull s (((attDest (s.load64 aa)).truncate 14 : BitVec 14).toNat % 128) = false →
        Gives (.evAttr r .good) s fun t =>
        t = { begunOn s r.toNat with mem := t.mem, coh := t.coh, rings := t.rings, tg := t.tg } ∧
        Touched s t [(aa, 8), (a, 8)] ∧ ok t ∧ t.load64 aa = attAttr (s.load64 aa) d.newAttr ∧ t.load64 a = mapAttr m.w0 d.newAttr ∧
        Queued s t (((attDest (s.load64 aa)).truncate 14 : BitVec 14).toNat % 128) (mkOp .rpr false m.event d.newAttr s.count))) ∧
    (op = 0x16 → s.coh.lines = [] → s.coh.drop = [] → bitAt (d.word 1) 24 = true ∨ d.src < 2 ^ srcBits s →
      (∀ j, j < 8 → (s.ring j).run = none) → Gives (.xltInv r false) s fun t => t = { begunOn s r.toNat with rings := t.rings } ∧ ok t)

/-- A move of a message event between two local targets queues the move-out on the old tree and waits; the move-out of a
resident, inactive event takes its entry out, installs the redirect and inserts the event at the new target with its
attributes and arrival stroke; the tables then name the new target; and with the old tree and the lookups clear the redirect
goes and the command's record follows. An active event ends the move with BUSY. Stated with the lines that a step reads in
the table cache, those that it writes E or M, and no move of another instance. (R140, R141, R142, R143, R139, R134, R52) -/
def Obligations.Moves : Prop :=
  (∀ (s : State) (r : BitVec 3) (d : Desc) (a : Nat), Starts s r.toNat 0x15 d →
    bitAt (d.word 1) 45 = false → keyMap s d = some a → keyGroup0 s d = false →
    let m := readMap s a
    let e := readSrc s d.src
    let aa := entAtt s e m
    let old : BitVec 14 := (attDest (s.load64 aa)).truncate 14
    let new := field (d.word 2) 63 48
    m.valid = true → m.virt = false → isLocal s (m.dest.truncate 14) = true → hasAtt s false e.panel m.event = true →
    opqFull s (old.toNat % 128) = false → (attDest (s.load64 aa)).toNat < 2 ^ 14 →
    isLocal s old = true → new = s.instId.toNat * 128 + new % 128 → new % 128 < s.par.targets → old.toNat ≠ new →
    Serves s (keyReads s d) → Gives (.evMove r .good) s fun t =>
      t = { begunOn s r.toNat with rings := t.rings, tg := t.tg, move := t.move, coh := t.coh } ∧ Touched s t [] ∧ GoesOn s t r.toNat d stOk .move ∧
      t.move = some { step := .v1, ring := r.toNat, ev := m.event, wired := false, old := .tgt old,
                      new := .tgt (BitVec.ofNat 14 new), panel := e.panel, attr := m.attr, found := false, redir := false,
                      mapA := a, attA := aa, mapping := false, waits := [] } ∧
      Queued s t (old.toNat % 128) { mkOp .mvo false m.event m.attr s.count with wid := some (cmdWid r.toNat) }) ∧
  (∀ (s : State) (k : BitVec 7) (o : TOp) (m : Move) (g : BitVec 14) (e : Entry), running s = true →
    s.wft.redirs = [] → headOp s k.toNat = some o → o.kind = .mvo → o.virt = false → s.move = some m → m.step = .v1 → m.ev = o.ev →
    m.off = false → activeIn (s.tgt k.toNat) false o.ev = false → residentIn (s.tgt k.toNat) false o.ev = some e → m.new = .tgt g →
    isLocal s g = true → g.toNat % 128 ≠ k.toNat → (s.tgt (g.toNat % 128)).opq.length < 64 → Gives (.mvo k) s fun t =>
      let x := s.tgt k.toNat
      let u := g.toNat % 128
      t = { begun s with tg := t.tg, move := some { m with step := .v3, redir := true, found := true } } ∧
      t.tgt k.toNat = { popped x with entries := x.entries.filter fun f => !f.same false o.ev } ∧
      t.tgt u = { s.tgt u with opq := (s.tgt u).opq ++
        [{ mkOp .ins false m.ev { prio := e.base, group := e.group, cls := e.cls } e.arr with level := isLevel s false m.ev, reent := true }] } ∧
      ∀ j, j ≠ k.toNat → j ≠ u → t.tgt j = s.tgt j) ∧
  (∀ (s : State) (k : BitVec 7) (o : TOp) (m : Move) (u : Run) (g : BitVec 14), running s = true →
    s.wft.redirs = [] → headOp s k.toNat = some o → o.kind = .mvo → o.virt = false → s.move = some m → m.step = .v1 → m.ev = o.ev →
    activeIn (s.tgt k.toNat) false o.ev = true → m.new = .tgt g → isLocal s g = true → (s.ring m.ring).run = some u →
    (s.ring m.ring).fetched = [] → Gives (.mvo k) s fun t =>
      t = { begun s with tg := t.tg, move := none, rings := t.rings } ∧ Completes s t m.ring u.desc stBusy 0 ∧
      t.tgt k.toNat = popped (s.tgt k.toNat)) ∧
  (∀ (s : State) (m : Move) (g h : BitVec 14), running s = true → s.coh.failed = [] → Memory.wf s.mem = true →
    s.move = some m → m.step = .v3 → m.wired = false → m.mapping = false → m.found = true → m.old = .tgt g → m.new = .tgt h →
    isLocal s g = true → isLocal s h = true → laneHas s (g.toNat % 128) none m.ev = false → Apart m.mapA 8 m.attA 8 →
    Owned s m.mapA 8 → Owned s m.attA 8 → Gives (.moveTablesVisible .good) s fun t =>
      t = { s with mem := t.mem, coh := t.coh, move := some { m with step := .v5, waits := transWids s } } ∧
      Touched s t [(m.mapA, 8), (m.attA, 8)] ∧
      t.load64 m.mapA = setField (s.load64 m.mapA) 63 48 h.toNat ∧
      t.load64 m.attA = setField (s.load64 m.attA) 31 16 h.toNat) ∧
  ∀ (s : State) (m : Move) (u : Run), running s = true → oldThere s m = false → s.move = some m → m.step = .v5 →
    (∀ w ∈ m.waits, w ∉ transWids s) → oldHolds s m = false → s.wft.cmds = [] → s.wft.reqWait = [] → (s.ring m.ring).run = some u →
    (s.ring m.ring).fetched = [] → Gives .moveRedirectRemove s fun t =>
      t = { s with move := none, rings := t.rings } ∧ Completes s t m.ring u.desc u.status 0

/-- On an event that a local target holds, and that is not of group 0 unless the ring is ring 1: EV_SET_PEND queues an insert
with the event's attributes at the present stroke, EV_CLR_PEND a clear, and each waits for it; a wired line without a holder
is then held there, and a set-pending forgets what a reset had kept of a discarded occurrence. What the command reads is in
the table cache. EV_QUERY samples the target, fills the mailbox with the sample and STK_COUNT, and leaves an OK record whose
result is the sample's first word. (R263, R264, R265, R259, R313, R86) -/
def Obligations.EventStateCommands : Prop :=
  ∀ (s : State) (r : BitVec 3) (op : Nat) (d : Desc) (k : Nat) (ev : EventId) (a : Attr), Starts s r.toNat op d →
    reqFree s = true → findHolder s d = .tgt k ev a → r = 1 ∨ a.group = true →
    Serves s (evReads s d) →
    let id := some (cmdWid r.toNat)
    let only := fun (t : State) => t = { begunOn s r.toNat with
      rings := t.rings, tg := t.tg, win := t.win, regs := t.regs, coh := t.coh } ∧ Touched s t []
    (op = 0x20 → (s.tgt k).opq.length < 64 → Gives (.evSetPend r .good) s fun t =>
      only t ∧ t.regs = s.regs ∧ GoesOn s t r.toNat d stOk .ops ∧
      Queued s t k { mkOp .ins false ev a s.count with wid := id, setp := true } ∧
      ∀ n, t.line n = if wiredEv s ev = true ∧ n = ev.toNat - 32 then
        { s.line n with holder := (s.line n).holder <|> some (globalT s k), kept := (s.line n).kept.filter (fun b => b) } else s.line n) ∧
    (op = 0x21 → opqFull s k = false → Gives (.evClrPend r .good) s fun t =>
      only t ∧ t.regs = s.regs ∧ t.win = s.win ∧ GoesOn s t r.toNat d stOk .ops ∧
      Queued s t k { mkOp .clr false ev a s.count with wid := id }) ∧
    (op = 0x22 → mbxBusy s = false → (queryReads s (.tgt k ev a) = true → Held s (bitAddr s k none ev) 1) →
      Gives (.evQuery r .good) s fun t =>
      let q := samplePhys s k ev a
      only t ∧ t.tg = s.tg ∧ t.win = s.win ∧ Completes s t r.toNat d stOk q.w0 ∧
      t.rd64 Reg.MBX_DATA = q.w0 ∧ t.rd64 (Reg.MBX_DATA + 8) = q.arr.zeroExtend 64 ∧
      t.rd64 (Reg.MBX_DATA + 24) = s.count.zeroExtend 64 ∧ t.rd64 Reg.MBX_STAT =
        BitVec.ofNat 64 (1 + r.toNat * 2 + d.tag * 2 ^ 16 + d.index * 2 ^ 32) ∧
      field q.w0 20 0 = ev.toNat ∧ RegsApart s t [Reg.MBX_DATA, Reg.MBX_DATA + 4, Reg.MBX_DATA + 8, Reg.MBX_DATA + 12,
        Reg.MBX_DATA + 16, Reg.MBX_DATA + 20, Reg.MBX_DATA + 24, Reg.MBX_DATA + 28, Reg.MBX_STAT, Reg.MBX_STAT + 4])

/-- The transport of a port comes up and an enabled port trains; when it goes down, a port that is not disabled fails. An up
port fails when its oldest flit stays unacknowledged, any working port on a flit with a wrong CHECK, or on a sequenced flit
of any type beyond the credits it has returned: it takes the port reset, keeping its buffered flits to be sent again, with
the flag of its cause (where no flit is concerned, WFT_ERR_LOG shows 0 in the flit's fields: the model's reading of log 57).
A credit is counted up to 32; the flit that waits for it is sent with the next SEQ, kept for replay and counted. In training
TRAIN goes out with port and TAG, once the TAG is taken, and a port that has received a sequenced flit, or in training a
TRAIN, sends IDLE with its ACK (that it answers a TRAIN so is the model's reading of log 18); neither takes a SEQ, a credit
or a replay slot, and neither goes out from W1 of a warm reset on. WFT_PRST resets the ports it names (stated while no flood
runs). A port that fails while the flood runs sends a new HELLO. (R47, R43, R282, R285, R286, R287, R288, R307, R284) -/
def Obligations.WeftPorts : Prop :=
  ∀ (s : State) (p : BitVec 2), p.toNat < s.par.weftPorts →
    let x := wport s p.toNat
    let ports := fun (t : State) => { s with wft := { s.wft with ports := t.wft.ports } }
    let sends := fun (t : State) => { ports t with regs := t.regs }
    let alone := fun (t : State) => ∀ q, q ≠ p.toNat → wport t q = wport s q
    let counts := fun (t : State) => t.rd64 Reg.WFT_TX_CNT = s.rd64 Reg.WFT_TX_CNT + 1 ∧
      RegsApart s t [Reg.WFT_TX_CNT, Reg.WFT_TX_CNT + 4]
    let plain := fun (ty : Byte) (pay : BitVec 160) =>
      ({ ty := ty, dst := x.nbr, pay := pay, src := s.instId, bc := false, hops := 1, port := some p.toNat } : OutFlit)
    let on := decide (x.loop = false ∧ pen s p.toNat = true)
    (Gives (.wftPhyUp p) s fun t => t = ports t ∧ alone t ∧ wport t p.toNat =
      if x.phy then x
      else { x with phy := true, st := if on then .training else .disabled, rxCred := if on then 32 else 0 }) ∧
    (x.phy = false ∨ x.st = .disabled → Gives (.wftPhyDown p) s fun t => t = ports t ∧ alone t ∧
      wport t p.toNat = { x with phy := false }) ∧
    (x.phy = true → x.st ≠ .disabled → s.err.queue.length < 16 → Gives (.wftPhyDown p) s fun t =>
      Fails s t p.toNat 7 false (weftLog 7 0 0 0 p.toNat 0)) ∧
    (wftOn s = true → x.st = .up → x.replay ≠ [] → s.err.queue.length < 16 → Gives (.replayTimeout p) s fun t =>
      Fails s t p.toNat 7 x.phy (weftLog 7 0 0 0 p.toNat 0)) ∧
    (∀ f, wftOn s = true → x.st = .up ∨ x.st = .training → checkOk f = false → s.err.queue.length < 16 →
      Gives (.checkErrorFlit p f) s fun t => Fails s t p.toNat 2 x.phy (weftLog 2 (flitType f) (flitSrc f).toNat
        (flitDst f).toNat p.toNat (flitEvent (flitType f) (flitPay f)))) ∧
    (∀ f m fail i, wftOn s = true → x.st = .up ∨ x.st = .training → checkOk f = true → x.rxCred = 0 →
      (flitType f, i) ∈ [(0x02, Instr.hello p f), (0x03, .route p f), (0x04, .tmap p f), (0x05, .commit p f), (0x06, .align p f),
        (0x07, .join p f), (0x08, .linkdn p f), (0x10, .raise p f), (0x11, .level p f), (0x12, .hstate p f), (0x13, .dack p f),
        (0x21, .crsp p f m)] ∨
      (flitType f = 0x20 ∧ (field (flitPay f) 3 0, i) ∈ [(1, Instr.wftSetPend p f), (2, .wftClrPend p f),
        (3, .wftAttWrite p f fail), (4, .wftAttClaim p f fail), (5, .wftAttRelease p f fail), (6, .wftPendTest p f fail),
        (7, .wftQuery p f fail)]) ∨
      (2 ≤ flitType f ∧ malformed f = true ∧ i = .unknownFlit p f) → s.err.queue.length < 16 →
      Gives i s fun t => Fails s t p.toNat 3 x.phy (weftLog 3 (flitType f) (flitSrc f).toNat (flitDst f).toNat p.toNat
        (flitEvent (flitType f) (flitPay f)))) ∧
    (s.rst.phase ≠ .run → Gives (.trainTimer p) s (· = s) ∧ Gives (.idleTimer p) s (· = s)) ∧
    (wftOn s = true → s.wft.outq = [] → (∀ q, (wport s q).resend = []) → Gives (.wftCredit p) s fun t =>
      t = ports t ∧ alone t ∧ wport t p.toNat = { x with credits := min 32 (x.credits + 1) }) ∧
    (∀ f, wftOn s = true → s.rst.phase = .run → s.wft.outq = [f] → (∀ q, (wport s q).resend = []) → x.st = .up → x.credits = 0 →
      x.replay.length < 64 →
      f.port = some p.toNat ∨ f.port = none ∧ (Tbl.find s.wft.routes f.dst.toNat).map (·.port) = some p →
      Gives (.wftCredit p) s fun t =>
      t = { sends t with wft := { s.wft with ports := t.wft.ports, outq := [] } } ∧ alone t ∧ counts t ∧
      let y := wport t p.toNat
      y = { x with sent := y.sent, replay := x.replay ++ [(x.txSeq, f)], txSeq := x.txSeq + 1 } ∧ Sent x y.sent f x.txSeq) ∧
    (wftOn s = true → s.rst.phase = .run → tagged s = true → x.st = .training → Gives (.trainTimer p) s fun t => t = sends t ∧ alone t ∧ counts t ∧
      let y := wport t p.toNat
      ∃ pay : BitVec 160, y = { x with sent := y.sent } ∧ Sent x y.sent (plain 0x01 pay) 0 ∧
        field pay 1 0 = p.toNat ∧ field pay 33 2 = s.wft.tag.toNat ∧ field pay 159 34 = 0) ∧
    (wftOn s = true → s.rst.phase = .run → s.wft.jst ≠ .isolated → x.rxAny = true ∨ x.st = .training ∧ x.gotTrain = true →
      Gives (.idleTimer p) s fun t => t = sends t ∧ alone t ∧ counts t ∧
      let y := wport t p.toNat
      y = { x with sent := y.sent } ∧ Sent x y.sent (plain 0x00 0) 0) ∧
    ∀ acc, running s = true → acc.priv = true → Admits s acc → s.wft.disc = false → Gives (.wftPrst acc) s fun t =>
      t = { seen s acc Reg.WFT_PRST with wft := { s.wft with ports := t.wft.ports }, regs := t.regs } ∧
      (∀ q, wport t q = if q < s.par.weftPorts ∧ acc.data.getLsbD q = true then portAfterReset s q (wport s q).phy
        else wport s q) ∧
      (∀ q, q < 4 → t.rd (Reg.WFT_PSTAT + 4 * q) =
        if q < s.par.weftPorts ∧ acc.data.getLsbD q = true then
          setField (s.rd (Reg.WFT_PSTAT + 4 * q)) 31 24 (min 255 (s.fld (Reg.WFT_PSTAT + 4 * q) 31 24 + 1))
        else s.rd (Reg.WFT_PSTAT + 4 * q)) ∧
      RegsApart s t [Reg.WFT_PSTAT, Reg.WFT_PSTAT + 4, Reg.WFT_PSTAT + 8, Reg.WFT_PSTAT + 12]

/-- An undefined or malformed flit is dropped, counted and flagged UNK_FLIT. The ACK of an IDLE frees the buffered flits up to
it; the first port that has its TRAIN and acknowledgement is up, and discovery floods a HELLO. A TRAIN of a neighbour is
answered by IDLE (log 18); one with the own ID and TAG disables the port with LOOP, and one with another TAG isolates the
instance with DUP_ID: nothing that its ports had still to send goes out, and no common count is loaded. A new HELLO of the
flood enters the table and goes on through the other up ports; a newcomer's is sent to the Anchor as a JOIN, which the
Anchor enters in its table for new routes; one that names a present ID with another TAG it refuses, by a LINKDN to the
neighbour and a JOIN to the present instance; one with the same TAG is that instance's own (log 18). The settled flood makes
the lowest ID the Anchor, and flags ANCHOR_LOST when an Anchor is gone. A LINKDN of a warm reset fails its port, and at the
Anchor the neighbour is absent at once; one that names the ID of an instance not yet joined isolates it; any other takes the
link out of the Anchor's table (what a LINKDN tells, and what isolation drops, is the model's reading of log 58). A port
that stays down is reported to the Anchor (that the report goes by route while the port of the route is up is the model's
reading of log 88). REDISC at the joined Anchor floods again. (R284, R286, R288, R289, R290, R297, R300, R302, R303, R304) -/
def Obligations.WeftJoining : Prop :=
  (∀ (s : State) (p : BitVec 2) (f : Flit),
    let k := p.toNat
    let x := wport s k
    let id := (flitSrc f).toNat
    let pay := flitPay f
    let hello : Hello := { tag := BitVec.ofNat 32 (field pay 31 0), ports := mapOf (field pay 95 64) }
    let alone := fun (h u : State) =>
      u = { weftOf h u with regs := u.regs, err := u.err, stk := { h.stk with commitIn := none } } ∧
      Flagged h u 8 Reg.WFT_ERR 1 0 (!h.bit (Reg.WFT_ERR_LOG + 4) 31) ∧
      u.wft = { h.wft with
        ports := u.wft.ports, jst := .isolated, routes := [], itab := [], disc := false, anchor := some s.instId, genIn := none,
        compute := false, tmapWait := [], members := [], joinAt := none, outq := [] } ∧
      ∀ q, q < s.par.weftPorts → wport u q = { portAfterReset h q (wport h q).phy with rxq := [], resend := [] }
    (running s = true → k < s.par.weftPorts → portUp s k = true → checkOk f = true → malformed f = true → 2 ≤ flitType f →
      flitSeq f = x.rxSeq → x.rxCred ≠ 0 → s.err.queue.length < 16 → Hears (.unknownFlit p f) s p f fun h u =>
      u = { h with regs := u.regs, err := u.err } ∧ Flagged h u 8 Reg.WFT_ERR 0 0 (!h.bit (Reg.WFT_ERR_LOG + 4) 31) ∧
      u.rd Reg.WFT_ERR_CNT = satInc (h.rd Reg.WFT_ERR_CNT) ∧ u.rd64 Reg.WFT_ERR_LOG =
        (if h.bit (Reg.WFT_ERR_LOG + 4) 31 = true then h.rd64 Reg.WFT_ERR_LOG
         else weftLog 0 (flitType f) id (flitDst f).toNat k (flitEvent (flitType f) pay)) ∧
      RegsApart h u [Reg.WFT_ERR, Reg.WFT_ERR_LOG, Reg.WFT_ERR_LOG + 4, Reg.WFT_ERR_CNT]) ∧
    (Reaches s p f 0x00 → x.st = .up → Hears (.idle p f) s p f fun h u =>
      u = weftOf h u ∧ u.wft = { h.wft with ports := u.wft.ports } ∧ (∀ q, q ≠ k → wport u q = wport s q) ∧
      wport u k = { x with gotAck := true, replay := (wport u k).replay } ∧
      (flitAckV f = false → (wport u k).replay = x.replay) ∧
      ∀ pre g post, flitAckV f = true → x.replay = pre ++ (flitAck f, g) :: post → (∀ e ∈ pre, e.1 ≠ flitAck f) →
        (wport u k).replay = post) ∧
    (Reaches s p f 0x00 → x.st = .training → x.gotTrain = true → s.wft.jst = .training → Hears (.idle p f) s p f fun h u =>
      u = weftOf h u ∧ u.wft = { h.wft with
        ports := u.wft.ports, jst := .discovery, disc := true, itab := [(s.instId.toNat, ownHello u)],
        compute := false, tmapWait := [], genIn := none,
        outq := h.wft.outq ++ (upPorts u).map fun q => helloOn u q true 0 } ∧
      (∀ q, q ≠ k → wport u q = wport s q) ∧ wport u k = { takeAck x f with gotAck := true, st := .up, failed := none }) ∧
    (Reaches s p f 0x01 → flitSrc f ≠ s.instId → x.gotAck = false → s.wft.jst ≠ .isolated → Hears (.train p f) s p f fun h u =>
      u = { weftOf h u with regs := u.regs } ∧ u.wft = { h.wft with ports := u.wft.ports } ∧
      (∀ q, q ≠ k → wport u q = wport s q) ∧ u.rd64 Reg.WFT_TX_CNT = h.rd64 Reg.WFT_TX_CNT + 1 ∧
      RegsApart h u [Reg.WFT_TX_CNT, Reg.WFT_TX_CNT + 4] ∧ wport u k = { takeAck x f with
        gotTrain := true, nbr := flitSrc f,
        nbrPort := BitVec.ofNat 2 (field pay 1 0), sent := (wport u k).sent } ∧ flitType (wport u k).sent = 0 ∧
      checkOk (wport u k).sent = true) ∧
    (Reaches s p f 0x01 → flitSrc f = s.instId → field pay 33 2 = s.wft.tag.toNat → s.err.queue.length < 16 →
      Hears (.train p f) s p f fun h u =>
      u = { weftOf h u with regs := u.regs, err := u.err } ∧ Flagged h u 8 Reg.WFT_ERR 4 0 (!h.bit (Reg.WFT_ERR_LOG + 4) 31) ∧
      u.wft = { h.wft with ports := u.wft.ports } ∧ (∀ q, q ≠ k → wport u q = wport s q) ∧ (wport u k).loop = true ∧
      (wport u k).st = .disabled) ∧
    (Reaches s p f 0x01 → flitSrc f = s.instId → field pay 33 2 ≠ s.wft.tag.toNat → s.wft.routes = [] → s.wft.rwait = [] →
      s.wft.reqWait = [] → s.err.queue.length < 16 → Hears (.train p f) s p f fun h u => alone h u) ∧
    (Reaches s p f 0x02 → flitSrc f = s.instId → hello ≠ ownHello s → s.wft.routes = [] → s.wft.rwait = [] →
      s.wft.reqWait = [] → s.err.queue.length < 16 → Hears (.hello p f) s p f fun h u => alone h u) ∧
    (Reaches s p f 0x02 → flitSrc f ≠ s.instId → flitBc f = true → s.wft.jst = .training ∨ s.wft.jst = .discovery →
      Hears (.hello p f) s p f fun h u =>
      (Tbl.find s.wft.itab id = some hello → u = h) ∧
      (Tbl.find s.wft.itab id ≠ some hello → u = weftOf h u ∧ u.wft = { h.wft with
        itab := Tbl.put h.wft.itab id hello,
        outq := h.wft.outq ++ ((upPorts s).filter (· ≠ k)).map fun q => onward f (some q) })) ∧
    (Reaches s p f 0x02 → flitSrc f ≠ s.instId → flitBc f = false → field pay 39 32 ≠ 0 →
      s.wft.jst = .training ∨ s.wft.jst = .discovery → Hears (.hello p f) s p f fun h u =>
      u = weftOf h u ∧ u.wft = { h.wft with jst := .joining, disc := false }) ∧
    (Reaches s p f 0x02 → flitSrc f ≠ s.instId → s.wft.jst = .joined → s.wft.disc = false →
      field pay 39 32 = 0 ∨ flitBc f = false ∧ Tbl.find s.wft.routes id = none → isAnchor s = false → Hears (.hello p f) s p f fun h u => ∃ join : BitVec 160,
      u = weftOf h u ∧ u.wft = { h.wft with outq := h.wft.outq ++ [byRoute s 7 (anchorId s) join] } ∧
      field join 31 0 = field pay 31 0 ∧ field join 38 32 = id ∧ field join 40 39 = x.nbrPort.toNat ∧
      field join 95 64 = mapWord (mapOf (field pay 95 64))) ∧
    (Reaches s p f 0x07 → isAnchor s = true → s.wft.jst = .joined → field pay 38 32 ≠ s.instId.toNat →
      Tbl.find s.wft.routes (field pay 38 32) = none → Hears (.join p f) s p f fun h u =>
      u = weftOf h u ∧ u.wft = { h.wft with itab := Tbl.put h.wft.itab (field pay 38 32) hello, compute := true }) ∧
    (Reaches s p f 0x07 → isAnchor s = true → s.wft.jst = .joined → field pay 38 32 ≠ s.instId.toNat →
      Tbl.find s.wft.routes (field pay 38 32) ≠ none → flitSrc f ≠ s.instId →
      (∀ e, Tbl.find s.wft.itab (field pay 38 32) = some e → e.tag ≠ hello.tag) →
      (reached s.wft.itab s.instId.toNat).contains (field pay 38 32) = true → Hears (.join p f) s p f fun h u => ∃ pay2,
      u = weftOf h u ∧ u.wft = { h.wft with
        itab := Tbl.del h.wft.itab (field pay 38 32), compute := true,
        outq := h.wft.outq ++ [byRoute s 8 (flitSrc f) (BitVec.ofNat 160 (field pay 40 39 + field pay 38 32 * 4)),
                               byRoute s 7 (BitVec.ofNat 7 (field pay 38 32)) pay2] } ∧
      field pay2 31 0 = hello.tag.toNat ∧ field pay2 38 32 = field pay 38 32) ∧
    (∀ e, Reaches s p f 0x07 → isAnchor s = true → s.wft.jst = .joined → field pay 38 32 ≠ s.instId.toNat →
      (reached s.wft.itab s.instId.toNat).contains (field pay 38 32) = true →
      Tbl.find s.wft.itab (field pay 38 32) = some e → e.tag = hello.tag → Hears (.join p f) s p f fun h u =>
      u = weftOf h u ∧ u.wft = { h.wft with itab := Tbl.put h.wft.itab (field pay 38 32) hello, compute := true }) ∧
    (Reaches s p f 0x08 → bitAt pay 9 = true → s.err.queue.length < 16 → s.wft.disc = false →
      s.wft.jst ≠ .joined ∨ isAnchor s = true → Hears (.linkdn p f) s p f fun h u =>
      let tells := decide (s.wft.jst = .joined)
      ∃ v, PortFails h v k 7 x.phy (weftLog 7 8 id (flitDst f).toNat k 0) ∧ u = weftOf v u ∧ u.wft = { v.wft with
        ports := u.wft.ports, outq := h.wft.outq.filter fun g => decide (g.port ≠ some k), itab := u.wft.itab,
        compute := tells || h.wft.compute } ∧
      wport u k = { wport v k with failed := none } ∧ (∀ q, q ≠ k → wport u q = wport s q) ∧
      (tells = false → u.wft.itab = s.wft.itab) ∧
      ∀ e, tells = true → Tbl.find s.wft.itab s.instId.toNat = some e →
        Tbl.find u.wft.itab s.instId.toNat = some { e with ports := e.ports.set k none }) ∧
    (Reaches s p f 0x08 → bitAt pay 9 = false → s.wft.jst = .discovery ∨ s.wft.jst = .joining →
      field pay 8 2 = s.instId.toNat → s.wft.routes = [] → s.wft.rwait = [] → s.wft.reqWait = [] → s.err.queue.length < 16 →
      Hears (.linkdn p f) s p f fun h u => alone h u) ∧
    (∀ e, Reaches s p f 0x08 → bitAt pay 9 = false → isAnchor s = true → s.wft.jst = .joined → Tbl.find s.wft.itab id = some e →
      Hears (.linkdn p f) s p f fun h u => u = weftOf h u ∧ u.wft = { h.wft with
        compute := true, itab := Tbl.put h.wft.itab id { e with ports := e.ports.set (field pay 1 0) none } }) ∧
    (∀ n r, running s = true → x.failed = some n → portUp s k = false → s.wft.disc = false → s.wft.jst = .joined →
      isAnchor s = false → Tbl.find s.wft.routes (anchorId s).toNat = some r → portUp s r.port.toNat = true →
      Gives (.portDownTimeout p) s fun t => ∃ u, t = wftPump u ∧ u = weftOf s u ∧
      u.wft = { s.wft with
        ports := u.wft.ports, itab := Tbl.put s.wft.itab s.instId.toNat (ownHello s),
        outq := (s.wft.outq.filter fun g => decide (g.port ≠ some k)) ++ [byRoute s 8 (anchorId s) (BitVec.ofNat 160 (k + n.toNat * 4))] } ∧
      wport u k = { x with failed := none } ∧ ∀ q, q ≠ k → wport u q = wport s q)) ∧
  (∀ (s : State) (a : Nat), wftOn s = true → s.wft.disc = true → (∃ e ∈ s.wft.itab, e.1 = a) → (∀ e ∈ s.wft.itab, a ≤ e.1) →
    let settled := { s.wft with disc := false, anchor := some (BitVec.ofNat 7 a), compute := decide (a = s.instId.toNat),
                                members := if s.wft.jst = .joined then others s else s.wft.members }
    let fixed := fun (t : State) => { s with wft := settled, regs := t.regs, err := t.err }
    (s.wft.jst ≠ .joined ∨ (∃ e ∈ s.wft.itab, s.wft.anchor = some (BitVec.ofNat 7 e.1) ∧ e.1 < 128) →
      Gives .floodSettled s fun t => t = fixed s) ∧
    (∀ o, s.wft.jst = .joined → s.wft.anchor = some o → Tbl.find s.wft.itab o.toNat = none → s.err.queue.length < 16 →
      Gives .floodSettled s fun t => t = fixed t ∧ Flagged s t 8 Reg.WFT_ERR 8 0 (!s.bit (Reg.WFT_ERR_LOG + 4) 31) ∧
      RegsApart s t [Reg.WFT_ERR, Reg.WFT_ERR_LOG, Reg.WFT_ERR_LOG + 4])) ∧
  ∀ (s : State) (acc : RegAcc), running s = true → acc.priv = true → acc.data = s.rd Reg.WFT_CTRL ||| 0x100 → Admits s acc →
    4 ≤ s.fld Reg.WFT_CTRL 7 4 → isAnchor s = true → s.wft.jst = .joined → s.wft.outq = [] → (∀ q, (wport s q).resend = []) →
    (∀ q, q < s.par.weftPorts → pen s q = true ∧ (wport s q).st ≠ .disabled) → Gives (.wftRedisc acc) s fun t => ∃ u,
      t = wftPump u ∧ u = { weftOf (seen s acc Reg.WFT_CTRL) u with regs := u.regs, prf := u.prf } ∧
      u.wft = { s.wft with disc := true, itab := [(s.instId.toNat, ownHello s)], compute := false, tmapWait := [],
                           genIn := none, outq := (upPorts s).map fun q => helloOn s q true 0 } ∧ RegsApart s u []

/-- With new routes due, the Anchor takes the next GEN (after 255 it is 1: the model's choice of log 105) and its own routes,
queues the 8 ROUTE flits of each other instance and waits for the TMAPs; a route leads through the lowest port whose
neighbour is one hop nearer. The parts of a GEN are collected; the eighth makes the instance adopt its routes, PARENT and
CHILD, take the sender as Anchor and answer with its TMAP. An instance that is joined, the Anchor too, first sends every
RAISE not acknowledged again as it adopts a GEN (stated where no instance is lost with it and no line is a level line or
unrouted). A TMAP is held, and one of the broadcast goes down the tree; with the last that it waits for the Anchor sends
every map down the tree, and COMMIT: to every instance, or, once joined, by route to those that had none. COMMIT gives
JOIN_AT, the count to load at the next boundary, which an instance that rejoins after DEEP does not take, and ALIGN_SHIFT;
at JOIN_AT the instance is joined (stated where every neighbour has a route). At an alignment stroke the Anchor sends its
count down the tree, and another instance keeps it for the next boundary. (R283, R290, R291, R293, R294, R295, R193, R303,
R300, R301) -/
def Obligations.WeftRoutes : Prop :=
  (∀ s : State, wftOn s = true → isAnchor s = true → s.wft.compute = true →
    (s.wft.jst ≠ .joined ∧ s.wft.routes = [] ∨ s.wft.jst = .joined ∧ noLevels s ∧
      ∀ e ∈ s.wft.routes, Tbl.find (routesOf s.wft.itab s.instId.toNat s.instId.toNat) e.1 ≠ none) →
    s.wft.rwait = [] → s.wft.reqWait = [] →
    let a := s.instId.toNat
    let t := s.wft.itab
    let gen : Byte := if s.wft.gen = 255 then 1 else s.wft.gen + 1
    let order := ((distTo t a 12).map (·.1)).filter fun i => decide (i ≠ a) && (routedSet t a).contains i
    (routedSet t a).length = (reached t a).length → order ≠ [] → Gives .routesComputed s fun r => ∃ u, r = wftPump u ∧
      u = weftOf s u ∧ u.wft = { s.wft with
        gen := gen, routes := routesOf t a a, parent := 0, child := childOf t a a,
        genIn := none, compute := false, tmapWait := order,
        members := s.wft.members.filter fun i => (Tbl.find (routesOf t a a) i).isSome,
        outq := s.wft.outq ++ (if s.wft.jst = .joined then resent s else []) ++ order.flatMap fun i =>
          (List.range 8).map fun g => byRoute s 3 (BitVec.ofNat 7 i) (routePay t gen a i g) }) ∧
  (∀ (t : Tbl Hello) (i d : Nat) (r : Route), routeTo t i d = some r → ∃ e ∈ nbrs t i, r.port = BitVec.ofNat 2 e.1 ∧ ∃ n,
    Tbl.find (distTo t d 12) i = some n ∧ Tbl.find (distTo t d 12) e.2 = some (n - 1) ∧ r.hops = BitVec.ofNat 4 n ∧
    ∀ e' ∈ nbrs t i, Tbl.find (distTo t d 12) e'.2 = some (n - 1) → e.1 ≤ e'.1) ∧
  (∀ (s : State) (p : BitVec 2) (f : Flit),
    let pay := flitPay f
    let src := flitSrc f
    let gen : Byte := BitVec.ofNat 8 (field pay 7 0)
    let group := field pay 10 8
    let tm : TMap := { targets := field pay 7 0, attBits := field pay 12 8, xltEn := bitAt pay 13 }
    let kids := (portList s).filter fun q => bitAt s.wft.child q
    (Reaches s p f 0x03 → s.wft.jst = .discovery → s.wft.disc = false → s.wft.anchor = some src → gen ≠ s.wft.gen →
      s.wft.genIn = none →
      Hears (.route p f) s p f fun h u => u = weftOf h u ∧ u.wft = { h.wft with genIn := some {
        gen := gen, src := src, groups := [(group, BitVec.ofNat 128 (field pay 159 32))], parent := BitVec.ofNat 2 (field pay 16 15),
        child := BitVec.ofNat 4 (field pay 14 11) } }) ∧
    (∀ g, Reaches s p f 0x03 → s.wft.disc = false → s.wft.reqWait = [] → s.wft.anchor = some src → gen ≠ s.wft.gen → s.wft.genIn = some g →
      g.gen = gen → g.src = src → g.groups.length = 7 → Tbl.find g.groups group = none →
      (let b := fun i => (if i / 16 = group then field pay 159 32 else (Tbl.get 0 g.groups (i / 16)).toNat) >>> (8 * (i % 16))
       s.wft.jst = .discovery ∧ s.wft.routes = [] ∨
       s.wft.jst = .joined ∧ noLevels s ∧ ∀ e ∈ s.wft.routes, e.1 < 128 ∧ b e.1 >>> 6 % 2 = 1) →
      s.wft.rwait = [] → Hears (.route p f) s p f fun h u =>
      u = weftOf h u ∧ u.wft = { h.wft with
        gen := gen, routes := u.wft.routes, parent := g.parent, child := g.child,
        members := s.wft.members.filter fun i => (Tbl.find u.wft.routes i).isSome, genIn := none,
        outq := h.wft.outq ++ (if s.wft.jst = .joined then resent s else []) ++ [byRoute s 4 src (tmapPay (ownTmap s))] } ∧
      ∀ i, i < 128 →
        let b := (if i / 16 = group then field pay 159 32 else (Tbl.get 0 g.groups (i / 16)).toNat) >>> (8 * (i % 16))
        Tbl.find u.wft.routes i = if b >>> 6 % 2 = 1 then
          some { port := BitVec.ofNat 2 b, hops := BitVec.ofNat 4 (b >>> 2) } else none) ∧
    (Reaches s p f 0x04 → src ≠ s.instId → isAnchor s = false → Hears (.tmap p f) s p f fun h u =>
      u = weftOf h u ∧ u.wft = { h.wft with
        tmaps := Tbl.put h.wft.tmaps src.toNat tm,
        outq := h.wft.outq ++ if flitBc f then kids.map fun q => onward f (some q) else [] }) ∧
    (Reaches s p f 0x04 → src ≠ s.instId → flitBc f = false → isAnchor s = true →
      (∃ j ∈ s.wft.tmapWait, j ≠ src.toNat) → Hears (.tmap p f) s p f fun h u =>
      u = weftOf h u ∧ u.wft = { h.wft with
        tmaps := Tbl.put h.wft.tmaps src.toNat tm,
        tmapWait := s.wft.tmapWait.filter (· ≠ src.toNat) }) ∧
    (Reaches s p f 0x04 → src ≠ s.instId → flitBc f = false → isAnchor s = true → s.wft.tmapWait = [src.toNat] →
      Hears (.tmap p f) s p f fun h u =>
      let maps := Tbl.put h.wft.tmaps src.toNat tm
      let tree := fun (ty : Byte) (of : BitVec 7) (body : BitVec 160) => kids.map fun q =>
        ({ ty := ty, dst := 0, pay := body, src := of, bc := true, hops := 1, port := some q } : OutFlit)
      let new := (s.wft.routes.map (·.1)).filter fun i => !s.wft.members.contains i
      let joined := decide (s.wft.jst = .joined)
      u = { weftOf h u with regs := u.regs } ∧ u.wft = { h.wft with
        tmaps := maps, tmapWait := [], members := s.wft.routes.map (·.1),
        joinAt := if joined then h.wft.joinAt else some (s.count + BitVec.ofNat 48 (joinStrokes s)),
        outq := h.wft.outq ++ ((maps.filter fun e => (Tbl.find s.wft.routes e.1).isSome).flatMap fun e =>
            tree 4 (BitVec.ofNat 7 e.1) (tmapPay e.2)) ++ tree 4 s.instId (tmapPay (ownTmap s)) ++
          if joined then new.map fun i => byRoute s 5 (BitVec.ofNat 7 i) (commitPay s) else tree 5 s.instId (commitPay s) } ∧
      u.fld Reg.STK_ALIGN 3 0 = (if joined then h.fld Reg.STK_ALIGN 3 0 else h.fld Reg.WFT_CTRL 7 4) ∧
      u.fld Reg.STK_ALIGN 31 4 = h.fld Reg.STK_ALIGN 31 4 ∧ RegsApart h u [Reg.STK_ALIGN]) ∧
    (Reaches s p f 0x05 → s.wft.jst = .discovery ∨ s.wft.jst = .joining → Hears (.commit p f) s p f fun h u =>
      u = { weftOf h u with stk := { h.stk with commitIn := if s.wft.keepCount then h.stk.commitIn
                                       else some (BitVec.ofNat 48 (field pay 47 0), (flitHops f).toNat) },
                            regs := u.regs } ∧
      u.wft = { h.wft with
        joinAt := some (BitVec.ofNat 48 (field pay 111 64)), jst := .joining,
        outq := h.wft.outq ++ if flitBc f then kids.map fun q => onward f (some q) else [] } ∧
      u.fld Reg.STK_ALIGN 3 0 = field pay 115 112 ∧ u.fld Reg.STK_ALIGN 31 4 = h.fld Reg.STK_ALIGN 31 4 ∧
      RegsApart h u [Reg.STK_ALIGN]) ∧
    (Reaches s p f 0x06 → s.wft.jst = .joined → isAnchor s = false → Hears (.align p f) s p f fun h u =>
      u = { weftOf h u with stk := { h.stk with alignIn := some (BitVec.ofNat 48 (field pay 47 0), (flitHops f).toNat) } } ∧
      u.wft = { h.wft with outq := h.wft.outq ++ if flitBc f then kids.map fun q => onward f (some q) else [] })) ∧
  (∀ (s : State) (us : BitVec 16) (n : Stroke), wftOn s = true → s.wft.joinAt = some n → s.stk.commitIn = none →
    ¬(s.count - n).toInt < 0 → (∀ e ∈ s.win, (s.line e.1).unr = none) →
    (∀ q ∈ upPorts s, Tbl.find s.wft.routes (wport s q).nbr.toNat ≠ none) →
    (isAnchor s = true → ∀ i ∈ reached s.wft.itab s.instId.toNat, i ≠ s.instId.toNat → Tbl.find s.wft.routes i ≠ none) →
    Gives (.joinAtReached us) s fun t => ∃ u,
      t = wftPump u ∧ u = { s with wft := { s.wft with jst := .joined, joinAt := none, keepCount := false }, regs := u.regs } ∧
      u.rd Reg.WFT_DISC_TIME = us.zeroExtend 32 ∧ RegsApart s u [Reg.WFT_DISC_TIME]) ∧
  ∀ s : State, wftOn s = true → s.stk.alignDue = true → Gives .alignStroke s fun t => ∃ u, t = wftPump u ∧
    let count : BitVec 160 := BitVec.ofNat 160 s.count.toNat
    let tell := fun (p : Nat) =>
      ({ ty := 6, dst := 0, pay := count, src := s.instId, bc := true, hops := 1, port := some p } : OutFlit)
    u = { s with
      stk := { s.stk with alignDue := false },
      wft := { s.wft with outq := s.wft.outq ++ ((portList s).filter fun p => bitAt s.wft.child p).map tell } }

/-- A RAISE whose event and target are here enters the target's queue with the attributes and arrival it carries (stated with
room there), a SEND with those of its configuration here, one to all targets (LINE 0xFFF, the model's choice of log 15) on
every built one, a wired one recording its origin, and is answered by a DACK; one whose target is not built is not applied:
DACK carries FAULT, and XLT_FAULT.DEST and its log tell SOURCE and EVENT. A LEVEL 1 to 127 steps after the last applied one
of its line sets the line's state, a removal queuing a drop; another changes no state of the line (one of an asserted line
still tells that the next RAISE of it is a level line's: the model's choice, log 83). An HSTATE from the holder's instance
sets HCODE, and 3 releases the holder. A DACK frees its in-flight entry. (R296, R298, R86, R127) -/
def Obligations.WeftDelivery : Prop :=
  ∀ (s : State) (p : BitVec 2) (f : Flit),
    let pay := flitPay f
    let src := flitSrc f
    let ev : EventId := BitVec.ofNat 21 (field pay 20 0)
    let k := field pay 27 21
    let a : Attr := { prio := BitVec.ofNat 8 (field pay 35 28), group := bitAt pay 39, cls := BitVec.ofNat 3 (field pay 38 36) }
    let arr : Stroke := BitVec.ofNat 48 (field pay 111 64)
    let kind := field pay 41 40
    let answered := fun (h u : State) (fault : Nat) =>
      { h with tg := u.tg, wft := { h.wft with rl := u.wft.rl, outq := h.wft.outq ++
        [byRoute s 0x13 src (BitVec.ofNat 160 (field pay 52 44 + fault * 2 ^ 9))] } }
    (Reaches s p f 0x10 → k < s.par.targets → (s.tgt k).opq.length < 64 →
      (ownMsg s ev = true → kind = 1 ∨ kind = 0 ∧ bitAt pay 53 = false → Hears (.raise p f) s p f fun h u =>
        u = answered h u 0 ∧ u.wft.rl = s.wft.rl ∧
        Queued h u k { mkOp .ins false ev a arr with setp := decide (kind = 1) }) ∧
      (ownMsg s ev = true → kind = 0 → bitAt pay 53 = true → Hears (.raise p f) s p f fun h u =>
        u = answered h u 0 ∧ ∃ r : RLine, Tbl.find u.wft.rl ev.toNat = some r ∧ r.origin = src ∧
          r.lineNo = BitVec.ofNat 12 (field pay 123 112) ∧ (∀ j, j ≠ ev.toNat → Tbl.find u.wft.rl j = Tbl.find s.wft.rl j) ∧
          (∀ o, Tbl.find s.wft.rl ev.toNat = some o → r.level = o.fresh ∧ r.state = o.state ∧ r.latch = o.latch) ∧
          (Tbl.find s.wft.rl ev.toNat = none → r.level = false) ∧
          Queued h u k { mkOp .ins false ev a arr with level := r.level }) ∧
      (ownMsg s ev = true → kind = 2 → Hears (.raise p f) s p f fun h u =>
        u = answered h u 0 ∧ u.wft.rl = s.wft.rl ∧ Queued h u k (mkOp .ins false ev (attrOf (s.load64 (attAddr s ev))) arr)) ∧
      (ev.toNat < 16 → kind = 2 → field pay 123 112 ≠ allLine → field pay 43 42 ≠ 1 ∨ (icfgAttr s k ev.toNat).group = true →
        Hears (.raise p f) s p f fun h u =>
        u = answered h u 0 ∧ u.wft.rl = s.wft.rl ∧ Queued h u k (mkOp .ins false ev (icfgAttr s k ev.toNat) arr)) ∧
      (ev.toNat < 16 → kind = 2 → field pay 123 112 = allLine →
        (∀ j, j < s.par.targets → (field pay 43 42 ≠ 1 ∨ (icfgAttr s j ev.toNat).group = true) ∧ (s.tgt j).opq.length < 64) →
        Hears (.raise p f) s p f fun h u =>
        u = answered h u 0 ∧ u.wft.rl = s.wft.rl ∧ ∀ j, u.tgt j = { h.tgt j with opq := (h.tgt j).opq ++
          if j < s.par.targets then [mkOp .ins false ev (icfgAttr s j ev.toNat) arr] else [] })) ∧
    (Reaches s p f 0x10 → s.par.targets ≤ k → s.err.queue.length < 16 → Hears (.raise p f) s p f fun h u =>
      let free := !h.bit Reg.XLT_FLOG0 31
      u = { answered h u 1 with tg := h.tg, regs := u.regs, err := u.err } ∧ u.wft.rl = s.wft.rl ∧
      Flagged h u 2 Reg.XLT_FAULT cDest 0 free ∧ u.rd Reg.XLT_FAULT_CNT = satInc (h.rd Reg.XLT_FAULT_CNT) ∧
      (free = true → u.fld Reg.XLT_FLOG0 23 0 = field pay 151 128 ∧ u.fld Reg.XLT_FLOG0 27 24 = cDest ∧
        u.bit Reg.XLT_FLOG0 31 = true ∧ u.fld Reg.XLT_FLOG1 20 0 = ev.toNat) ∧
      RegsApart h u ([Reg.XLT_FAULT, Reg.XLT_FAULT_CNT] ++ if free then [Reg.XLT_FLOG0, Reg.XLT_FLOG1] else [])) ∧
    (Reaches s p f 0x11 → k < s.par.targets → ownMsg s ev = true →
      let q : Byte := BitVec.ofNat 8 (field pay 36 29)
      let old := Tbl.find s.wft.rl ev.toNat
      let on := bitAt pay 28
      let line := src.toNat * 4096 + field pay 48 37
      let last := Tbl.find s.wft.lseqIn line
      (∀ l, last = some l → (q - l).toNat = 0 ∨ 127 < (q - l).toNat → Hears (.level p f) s p f fun h u =>
        (old = none → u = h) ∧ ∀ o, old = some o →
        u = if on && lineIs o f then weftOf h { h with wft := { h.wft with rl := Tbl.put h.wft.rl ev.toNat { o with fresh := true } } }
            else h) ∧
      ((last = none ∨ ∃ l, last = some l ∧ 1 ≤ (q - l).toNat ∧ (q - l).toNat ≤ 127) →
        (s.tgt k).opq.length < 64 → Hears (.level p f) s p f fun h u =>
        u = { h with tg := u.tg, wft := { h.wft with rl := u.wft.rl, lseqIn := Tbl.put h.wft.lseqIn line q,
                                                     early := h.wft.early.filter (· ≠ ev) } } ∧
        (∃ r : RLine, Tbl.find u.wft.rl ev.toNat = some r ∧ r.origin = src ∧ r.lineNo = BitVec.ofNat 12 (field pay 48 37) ∧
          r.level = true ∧ r.state = on ∧ r.fresh = (on || (old.map (·.fresh)).getD false) ∧
          r.latch = (old.map (·.latch)).getD (s.wft.early.contains ev)) ∧
        (∀ j, j ≠ ev.toNat → Tbl.find u.wft.rl j = Tbl.find s.wft.rl j) ∧ (on = true → u.tg = h.tg) ∧
        (on = false → Queued h u k (mkOp .drop false ev (attrOf 0) arr)))) ∧
    (Reaches s p f 0x12 → ∀ (n : Nat) (g : BitVec 14), n = field pay 11 0 → n < s.par.wired → (s.line n).holder = some g →
      g.toNat / 128 = src.toNat → Hears (.hstate p f) s p f fun h u =>
      let o := winOff n Reg.WIN_FILT
      u = { h with win := u.win, regs := u.regs, prf := u.prf } ∧ u.fld o 18 17 = field pay 13 12 ∧
      u.fld o 16 0 = h.fld o 16 0 ∧ u.fld o 31 19 = h.fld o 31 19 ∧ RegsApart h u [o] ∧
      ∀ j, u.line j = if j = n ∧ field pay 13 12 = 3 then { s.line n with holder := none } else s.line j) ∧
    (Reaches s p f 0x13 → ∀ e, Tbl.find s.wft.ift (field pay 8 0) = some e → e.dst = src → s.wft.rwait = [] →
      Hears (.dack p f) s p f fun h u => u = weftOf h u ∧
      u.wft = { h.wft with ift := Tbl.del h.wft.ift (field pay 8 0) })

/-- A request of another instance for a message event of this space on a built target, its memory accesses good, no move of the
event under way here: SET_PEND and CLR_PEND queue their operation, of an ID below 32 with the target's own attributes, and
owe an answer until it is applied; ATT_CLAIM answers BUSY where the entry is mapped and otherwise writes it, remembering
what it held; ATT_RELEASE clears MAPPED, or undoes a claim; ATT_WRITE, as MAPPED and USED of its word say, maps a free entry
or claims one that names another destination, rewrites the attributes, unmaps, or enters a doorbell's destination, and with
the move's mark writes the entry whole or makes the checks alone; PEND_TEST, as those bits say, queues a move-out, ends a
redirect, or answers BUSY for an active event, and clears and reports the pending bit of one that is not resident; QUERY
answers its sample in two parts. A request of an event or a target not here is answered with the range status, a QUERY in
two parts too (ATT_RELEASE for the event alone). That the word's bits tell these uses apart, the marks of a ring and of a
move (logs 17, 19, 74), and how a claim is undone (log 75) are the model's choices. A CRSP frees its request and ends the
command that waited for it with its status; the second part of a sample fills the mailbox. (R299, R264, R266, R141, R142,
R138, R137, R61, R127) -/
def Obligations.WeftCommands : Prop :=
  (∀ (s : State) (p : BitVec 2) (f : Flit), Reaches s p f 0x20 →
    let ev := cmdEvent f
    let k := cmdTarget f
    let a := attAddr s ev
    let w := cmdAtt f
    let code := field (flitPay f) 3 0
    let wid := reqWid (flitSrc f).toNat (cmdReq f)
    let crsp := fun (status : Nat) (pend : Bool) => byRoute s 0x21 (flitSrc f) (crspPay (cmdReq f) status pend false false false 0)
    let replies := fun (h u : State) (l : List OutFlit) =>
      { h with mem := u.mem, coh := u.coh, wft := { h.wft with claims := u.wft.claims, outq := h.wft.outq ++ l } }
    let stores := fun (h u : State) (v : W64) => Stored64 h u a v ∧ Touched h u [(a, 8)]
    let kept := fun (h u : State) => u.wft.claims = h.wft.claims
    let owes := fun (h u : State) (kind : OpKind) (at' : Attr) =>
      u = { h with tg := u.tg, wft := { h.wft with owed := h.wft.owed ++
        [{ wid := wid, inst := (flitSrc f).toNat, req := cmdReq f, status := stOk }] } } ∧
      Queued h u k { mkOp kind false ev at' s.count with wid := some wid, setp := decide (kind = .ins) }
    (ev.toNat < 32 → k < s.par.targets → (s.tgt k).opq.length < 64 →
      cmdGrp1 f = false ∨ (icfgAttr s k ev.toNat).group = true →
      (code = 1 → Hears (.wftSetPend p f) s p f fun h u => owes h u .ins (icfgAttr s k ev.toNat)) ∧
      (code = 2 → Hears (.wftClrPend p f) s p f fun h u => owes h u .clr (icfgAttr s k ev.toNat))) ∧
    (ownMsg s ev = true → k < s.par.targets → (s.tgt k).opq.length < 64 → Memory.wf s.mem = true → s.coh.evb = [] →
      s.move = none → s.wft.redirs = [] →
      (cmdMoves f = true →
        (code = 3 → attMapped w = true → attUsed w = true → isLocal s ((attDest w).truncate 14) = false →
          Hears (.wftAttWrite p f false) s p f fun h u => u = replies h u [crsp stOk false] ∧ stores h u w ∧
          u.wft.claims = Tbl.del h.wft.claims ev.toNat) ∧
        (code = 3 → attMapped w = false → attUsed w = true → cmdGrp1 f = false ∨ wordGroup0 (s.load64 a) = false →
          Hears (.wftAttWrite p f false) s p f fun h u => u = replies h h [crsp stOk false])) ∧
      (cmdGrp1 f = false ∨ wordGroup0 (s.load64 a) = false → cmdMoves f = false →
      (code = 1 → Hears (.wftSetPend p f) s p f fun h u => owes h u .ins (attrOf w)) ∧
      (code = 2 → Hears (.wftClrPend p f) s p f fun h u => owes h u .clr (attrOf w)) ∧
      (code = 3 → attMapped w = true → attUsed w = true → attMapped (s.load64 a) = false → attUsed (s.load64 a) = false →
        Hears (.wftAttWrite p f false) s p f fun h u => u = replies h u [crsp stOk false] ∧ stores h u w ∧ kept h u) ∧
      (code = 3 → attMapped w = true → attUsed w = true → attMapped (s.load64 a) = false → attUsed (s.load64 a) = true →
        attDest (s.load64 a) ≠ attDest w → Hears (.wftAttWrite p f false) s p f fun h u =>
        u = replies h u [byRoute s 0x21 (flitSrc f) (crspPay (cmdReq f) stOk true false false false (s.load64 a))] ∧
        stores h u (setBit (s.load64 a) 12 true) ∧ u.wft.claims = Tbl.put h.wft.claims ev.toNat (s.load64 a)) ∧
      (code = 3 → attMapped w = true → attUsed w = true → attMapped (s.load64 a) = true →
        Hears (.wftAttWrite p f false) s p f fun h u => u = replies h h [crsp stBusy false]) ∧
      (code = 3 → attMapped w = false → attUsed w = true → Hears (.wftAttWrite p f false) s p f fun h u =>
        u = replies h u [crsp stOk false] ∧ stores h u (setBit (s.load64 a) 12 false) ∧ kept h u) ∧
      (code = 3 → attMapped w = true → attUsed w = false → isLocal s ((attDest (s.load64 a)).truncate 14) = false →
        Hears (.wftAttWrite p f false) s p f fun h u =>
        u = replies h u [crsp stOk false] ∧ stores h u (attAttr (s.load64 a) (attrOf w)) ∧ kept h u) ∧
      (code = 3 → attMapped w = false → attUsed w = false → (attrOf w).group = false → attMapped (s.load64 a) = false →
        Hears (.wftAttWrite p f false) s p f fun h u => u = replies h u [crsp stOk false] ∧
        stores h u (setBit (setField (s.load64 a) 31 16 (attDest w).toNat) 13 true) ∧ kept h u) ∧
      (code = 4 → attMapped (s.load64 a) = true → Hears (.wftAttClaim p f false) s p f fun h u => u = replies h h [crsp stBusy false]) ∧
      (code = 4 → attMapped (s.load64 a) = false → Hears (.wftAttClaim p f false) s p f fun h u =>
        u = replies h u [crsp stOk false] ∧ stores h u w ∧
        u.wft.claims = Tbl.put h.wft.claims ev.toNat (s.load64 a)) ∧
      (code = 5 → Hears (.wftAttRelease p f false) s p f fun h u =>
        let free := setBit (s.load64 a) 12 false
        u = replies h u [crsp stOk false] ∧ u.wft.claims = Tbl.del h.wft.claims ev.toNat ∧
        stores h u (if attMapped w then (Tbl.find s.wft.claims ev.toNat).getD free else free)) ∧
      (code = 6 → attUsed w = true → opqFull s k = false → Hears (.wftPendTest p f false) s p f fun h u =>
        u = { h with tg := u.tg, wft := { h.wft with redirs := [{ inst := (flitSrc f).toNat, req := cmdReq f, move :=
          { step := .v1, ring := 0, ev := ev, wired := false, old := .tgt (globalT s k), new := .tgt ((attDest w).truncate 14),
            panel := 0, attr := attrOf w, found := false, redir := false, mapA := 0, attA := 0, mapping := false,
            waits := [] } }] } } ∧
        Queued h u k { mkOp .mvo false ev (attrOf w) s.count with wid := some wid }) ∧
      (code = 6 → attUsed w = false → attMapped w = true → Hears (.wftPendTest p f false) s p f fun h u =>
        u = replies h h [crsp stOk false]) ∧
      (code = 6 → attUsed w = false → attMapped w = false → activeIn (s.tgt k) false ev = true →
        Hears (.wftPendTest p f false) s p f fun h u => u = replies h h [crsp stBusy false]) ∧
      (code = 6 → attUsed w = false → attMapped w = false → activeIn (s.tgt k) false ev = false → s.rnkEn = true →
        residentIn (s.tgt k) false ev = none → wiredEv s ev = false →
        Tbl.find s.wft.rl ev.toNat = none → Hears (.wftPendTest p f false) s p f fun h u =>
        u = replies h u [crsp stOk (pendBit s k none ev)] ∧
        (if pendBit s k none ev = true then BitPut h u k none ev false else u.mem = h.mem ∧ u.coh = h.coh) ∧ kept h u) ∧
      (code = 7 → Hears (.wftQuery p f false) s p f fun h u =>
        let q := samplePhys s k ev (attrOf w)
        u = replies h h [byRoute s 0x21 (flitSrc f) (crspPay (cmdReq f) stOk false false false false q.w0),
                      byRoute s 0x21 (flitSrc f) (crspPay (cmdReq f) stOk false true q.mapped q.bit (q.arr.zeroExtend 64))]))) ∧
    (32 ≤ ev.toNat ∧ ownMsg s ev = false ∨ s.par.targets ≤ k →
      (∀ i ∈ [(1, Instr.wftSetPend p f), (2, .wftClrPend p f), (3, .wftAttWrite p f false), (4, .wftAttClaim p f false),
          (6, .wftPendTest p f false)], code = i.1 → Hears i.2 s p f fun h u => u = replies h h [crsp stBadRange false]) ∧
      (code = 7 → Hears (.wftQuery p f false) s p f fun h u => u = replies h h [crsp stBadRange false,
        byRoute s 0x21 (flitSrc f) (crspPay (cmdReq f) stBadRange false true false false 0)])) ∧
    (ownMsg s ev = false → code = 5 → Hears (.wftAttRelease p f false) s p f fun h u => u = replies h h [crsp stBadRange false])) ∧
  ∀ (s : State) (p : BitVec 2) (f : Flit) (m : CmdMem) (q : Req) (u : Run), Reaches s p f 0x21 →
    let i := field (flitPay f) 11 4
    let status := field (flitPay f) 19 12
    let data : W64 := BitVec.ofNat 64 (field (flitPay f) 127 64)
    Tbl.find s.wft.cmds i = some q → s.wft.reqWait = [] → q.inst = (flitSrc f).toNat → (s.ring q.ring).run = some u → (s.ring q.ring).fetched = [] →
    let freed := fun (h v : State) => { h with rings := v.rings, wft := { h.wft with cmds := Tbl.del h.wft.cmds i } }
    (q.cont = .setClr → Hears (.crsp p f m) s p f fun h v => v = freed h v ∧ Completes h v q.ring u.desc status 0) ∧
    (q.cont = .query → status ≠ stOk → Hears (.crsp p f m) s p f fun h v => v = { freed h v with wft := { h.wft with
        cmds := if q.part0.isSome || q.part1.isSome then Tbl.del h.wft.cmds i
                else Tbl.put h.wft.cmds i { q with cont := .rest } } } ∧
      Completes h v q.ring u.desc status 0) ∧
    (q.cont = .rest → Hears (.crsp p f m) s p f fun h v => v = freed h v) ∧
    (q.cont = .query → status = stOk → bitAt (flitPay f) 21 = false → q.part1 = none → Hears (.crsp p f m) s p f fun h v =>
      v = weftOf h v ∧ v.wft = { h.wft with cmds := Tbl.put h.wft.cmds i { q with part0 := some data } }) ∧
    ∀ w, q.cont = .query → status = stOk → bitAt (flitPay f) 21 = true → q.part0 = some w → Hears (.crsp p f m) s p f fun h v =>
      v = { freed h v with regs := v.regs } ∧ Completes h v q.ring u.desc stOk w ∧ v.rd64 Reg.MBX_DATA = w ∧
      v.rd64 (Reg.MBX_DATA + 8) = data &&& 0xFFFFFFFFFFFF ∧
      v.rd64 (Reg.MBX_DATA + 16) = BitVec.ofNat 64 (field (flitPay f) 23 22) ∧ v.rd64 (Reg.MBX_DATA + 24) = s.count.zeroExtend 64

/-- Of the accesses that ask and can go on the first, by the class of what makes it unless one has waited, gets the request of
R313 with a free tag and, for a fill, the lowest free way of its set; in a full set it evicts the line that tree pseudo-LRU
gives, and with no access to serve a line that is to be dropped is evicted. A legal grant ends its request and leaves the
line in the granted state, M where the access writes, with the data that came, used and with the lookups that waited for it
filled; the UPG whose line was taken becomes an RD_U and counts a retry. RETRY gives the request a delay of 4 to 64 cycles
and counts it; the 1,024th is flagged STARVE; its reissue is the request again. Poison and ERR end the request without the
line, flagged, and leave its access failed; ERR of an eviction frees its buffer entry. A response without a request, a
reserved response or snoop encoding and a stray data beat are flagged PROTO. The failures are stated with no snoop held and
no line to be dropped; a grant then lets the lanes go on whose clears waited for the line. The lowest free way is the
model's choice, and how the pseudo-LRU bits stand for the uses its reading (log 10); that an ERR of a UPG leaves the line it
has, that a poisoned GNT_D takes it, and that an illegal response sets RSP_ERR beside PROTO are its reading of R319 and R321
(log 35). (R10, R309, R313, R314, R320, R321, R311, R319, R325, R440) -/
def Obligations.CoherentRequests : Prop :=
  (∀ (s : State) (l : List CohAcc) (a : CohAcc), accFirst s l = some a → a ∈ l ∧ ∀ b ∈ l,
    (a.waited = true ∨ b.waited = false) ∧ (a.waited = b.waited → accClass s a.who ≤ accClass s b.who)) ∧
  (∀ (s : State) (tag : Byte), running s = true → Tbl.find s.coh.reqs tag.toNat = none →
    let k := tag.toNat
    let asked := fun (t : State) (q : CReq) => Tbl.find t.coh.reqs k = some q ∧
      (∀ j, j ≠ k → Tbl.find t.coh.reqs j = Tbl.find s.coh.reqs j) ∧
      t.coh.out = some { op := q.op.code, line := q.line, tag := tag } ∧
      Reg.COH_MODE ∈ t.wol ∧ ∀ r, r ≠ Reg.COH_MODE → (r ∈ t.wol ↔ r ∈ s.wol)
    let evicts := fun (v : Nat) (x : Moesi) (t : State) =>
      let d : Bool := x = .m || x = .o
      (∃ q, asked t q ∧ q.line = v ∧ q.who = none ∧ q.op = if d then .wbD else .evC) ∧
      t.coh.evb = s.coh.evb ++ [{ line := v, dirty := d, snooped := false, tag := k, data := if d then lineData s v else 0 }] ∧
      lineState t v = none ∧ (∀ j, j ≠ v → lineState t j = lineState s j) ∧ t.coh.ways = Tbl.del s.coh.ways v ∧
      t.rd64 Reg.COH_EVICT_CNT = s.rd64 Reg.COH_EVICT_CNT + 1 ∧
      t = { s with
        coh := { s.coh with reqs := t.coh.reqs, lines := t.coh.lines, ways := t.coh.ways, evb := t.coh.evb, out := t.coh.out },
        wol := t.wol, regs := t.regs } ∧
      RegsApart s t [Reg.COH_EVICT_CNT, Reg.COH_EVICT_CNT + 4]
    (∀ accs a op, accFirst s (accs.filter fun a => accWaits s a && accReady s a) = some a →
      let l := a.line.toNat
      (lineState s l = none ∧ op = (if a.unique = true then CohOp.rdU else .rdS)) ∨
        (lineState s l ≠ none ∧ a.unique = true ∧ op = .upg) →
      (∀ ways, (op = .upg ∧ ways = s.coh.ways ∨ op ≠ .upg ∧ ∃ w, freeWay s l = some w ∧ ways = Tbl.put s.coh.ways l w) →
        Gives (.cohRequestIssue accs tag) s fun t =>
          t = { s with coh := { s.coh with reqs := t.coh.reqs, ways := ways, out := t.coh.out }, wol := t.wol } ∧
          asked t { op := op, line := l, who := some a.who, cls := accClass s a.who, unique := a.unique, retries := 0,
                    delay := none, lost := false, held := none, pnls := accPanels s a, pre := [] }) ∧
      (∀ v x, op ≠ .upg → freeWay s l = none → victim s l = some v → lineState s v = some x →
        Gives (.cohRequestIssue accs tag) s (evicts v x))) ∧
    ∀ accs v x, (∀ a ∈ accs, accWaits s a = false ∨ accReady s a = false) → nextDrop s = some v → lineState s v = some x →
      Gives (.cohRequestIssue accs tag) s (evicts v x)) ∧
  (∀ (s : State) (tag : Byte), running s = true → s.coh.drop = [] → (∀ j, j < 8 → (s.ring j).run = none) →
    let k := tag.toNat
    let others := fun (t : State) => ∀ j, j ≠ k → Tbl.find t.coh.reqs j = Tbl.find s.coh.reqs j
    let ended := fun (t : State) => Tbl.find t.coh.reqs k = none ∧ others t
    let lines := fun (t : State) (l : Nat) => ∀ j, j ≠ l → lineState t j = lineState s j
    let log := fun (i cls l : Nat) => if s.bit (Reg.COH_ERR_LOG + 4) 31 = true then s.rd64 Reg.COH_ERR_LOG
      else BitVec.ofNat 64 (i + cls * 2 ^ 3 + l * 2 ^ 6 + 2 ^ 63)
    let errs := fun (t : State) (i : Nat) => Flagged s t 9 Reg.COH_ERR i 0 (!s.bit (Reg.COH_ERR_LOG + 4) 31)
    let errRegs := [Reg.COH_ERR, Reg.COH_ERR_LOG, Reg.COH_ERR_LOG + 4]
    let asks := fun (t : State) (q : CReq) => Tbl.find t.coh.reqs k = some q ∧ others t ∧
      t.coh.out = some { op := q.op.code, line := q.line, tag := tag } ∧
      Reg.COH_MODE ∈ t.wol ∧ ∀ r, r ≠ Reg.COH_MODE → (r ∈ t.wol ↔ r ∈ s.wol)
    (∀ q, Tbl.find s.coh.reqs k = some q → q.delay = none → q.held = none → q.line < 2 ^ 46 → 1 ≤ q.cls → q.cls < 8 →
      let granted := fun (t : State) (x : Moesi) => ended t ∧ lineState t q.line = some x ∧ lines t q.line ∧
        t.coh = { cohUse s.coh q.line with reqs := t.coh.reqs, lines := t.coh.lines } ∧
        t.miss = s.miss.map fun m => if m.slot ∧ m.line = q.line then { m with filled := true } else m
      let failed := fun (t : State) (w : AccWho) (i : Nat) =>
        t.coh = { s.coh with reqs := t.coh.reqs, lines := t.coh.lines, ways := t.coh.ways,
                             failed := s.coh.failed ++ [(w, q.line)] } ∧
        t = { s with coh := t.coh, regs := t.regs, err := t.err } ∧ ended t ∧ errs t i ∧
        t.rd64 Reg.COH_ERR_LOG = log i q.cls q.line ∧ RegsApart s t errRegs
      (∀ st : BitVec 3, q.op = .upg → q.unique = true → q.lost = false → st = 2 ∨ st = 4 → Gives (.gnt tag st) s fun t =>
        ∃ u, t = lanesDrain u ∧ u = { s with coh := u.coh, miss := u.miss } ∧ granted u .m) ∧
      (∀ st : BitVec 3, q.op = .upg → q.lost = true → st = 2 ∨ st = 4 → q.retries < 1000 → Gives (.gnt tag st) s fun t =>
        t = { s with coh := { s.coh with reqs := t.coh.reqs, out := t.coh.out }, wol := t.wol, regs := t.regs } ∧
        asks t { q with op := .rdU, lost := false, retries := q.retries + 1 } ∧
        t.rd64 Reg.COH_RETRY_CNT = s.rd64 Reg.COH_RETRY_CNT + 1 ∧
        t.fld Reg.COH_RETRY_MAX 15 0 = max (s.fld Reg.COH_RETRY_MAX 15 0) (q.retries + 1) ∧
        RegsApart s t [Reg.COH_RETRY_CNT, Reg.COH_RETRY_CNT + 4, Reg.COH_RETRY_MAX]) ∧
      (∀ (st : BitVec 3) (d : BitVec 512) (x : Moesi), Memory.wf s.mem = true →
        (q.op = .rdS ∧ (st = 1 ∧ x = .s ∨ st = 2 ∧ x = .e ∨ st = 3 ∧ x = .o)) ∨
          ((q.op = .rdU ∨ q.op = .upg) ∧ (st = 2 ∧ x = .e ∨ st = 4 ∧ x = .m)) → Gives (.gntD tag st d false) s fun t =>
        ∃ u, t = lanesDrain u ∧
        u = { s with coh := u.coh, miss := u.miss, mem := u.mem, regs := u.regs } ∧ granted u (if q.unique then .m else x) ∧
        (∀ a, Memory.read u.mem a = if q.line * 64 ≤ a ∧ a < q.line * 64 + 64 then
          (d >>> (8 * (a - q.line * 64))).truncate 8 else Memory.read s.mem a) ∧
        u.rd64 Reg.COH_FILL_CNT = s.rd64 Reg.COH_FILL_CNT + 1 ∧ RegsApart s u [Reg.COH_FILL_CNT, Reg.COH_FILL_CNT + 4]) ∧
      (∀ (st : BitVec 3) (d : BitVec 512) (w : AccWho), (q.op = .rdS ∧ st = 1 ∨ q.op = .upg ∧ st = 2) → q.who = some w →
        s.err.queue.length < 16 → Gives (.gntD tag st d true) s fun t =>
        failed t w 1 ∧ lineState t q.line = none ∧ lines t q.line) ∧
      (∀ w, q.who = some w → s.err.queue.length < 16 → Gives (.err tag .err) s fun t =>
        failed t w 2 ∧ t.coh.lines = s.coh.lines) ∧
      (∀ w (op : BitVec 4), q.who = some w → op = 0 ∨ 6 < op.toNat → Gives (.err tag (.rsp op)) s fun t =>
        t.coh.failed = s.coh.failed ++ [(w, q.line)] ∧ ended t ∧ t.coh.lines = s.coh.lines ∧
        t.bit Reg.COH_ERR 3 = true ∧ t.bit Reg.COH_ERR 2 = true ∧ t.rd64 Reg.COH_ERR_LOG = log 3 q.cls q.line ∧
        t = { s with coh := t.coh, regs := t.regs, err := t.err } ∧ RegsApart s t errRegs) ∧
      (q.who = none → s.err.queue.length < 16 → Gives (.err tag .err) s fun t =>
        t = { s with coh := { s.coh with reqs := t.coh.reqs, ways := t.coh.ways, evb := t.coh.evb }, regs := t.regs, err := t.err } ∧
        t.coh.evb = s.coh.evb.filter (fun e => decide (e.tag ≠ k)) ∧ ended t ∧ errs t 2 ∧
        t.rd64 Reg.COH_ERR_LOG = log 2 q.cls q.line ∧ RegsApart s t errRegs) ∧
      (q.retries ≠ 1023 ∨ s.err.queue.length < 16 → Gives (.retry tag) s fun t =>
        t = { s with coh := { s.coh with reqs := t.coh.reqs, draws := s.coh.draws + 1 }, regs := t.regs, err := t.err } ∧ others t ∧
        (∃ n, 4 ≤ n ∧ n ≤ 64 ∧ Tbl.find t.coh.reqs k = some { q with retries := q.retries + 1, delay := some n }) ∧
        t.rd64 Reg.COH_RETRY_CNT = s.rd64 Reg.COH_RETRY_CNT + 1 ∧
        t.fld Reg.COH_RETRY_MAX 15 0 = max (s.fld Reg.COH_RETRY_MAX 15 0) (min 65535 (q.retries + 1)) ∧
        (q.retries = 1023 → errs t 0 ∧ t.rd64 Reg.COH_ERR_LOG = log 0 q.cls q.line) ∧
        (q.retries ≠ 1023 → t.err = s.err) ∧ RegsApart s t ([Reg.COH_RETRY_CNT, Reg.COH_RETRY_CNT + 4, Reg.COH_RETRY_MAX] ++
          if q.retries = 1023 then errRegs else []))) ∧
    (∀ q n, Tbl.find s.coh.reqs k = some q → q.delay = some n → Gives (.retryReissue tag) s fun t =>
      t = { s with coh := { s.coh with reqs := t.coh.reqs, out := t.coh.out }, wol := t.wol } ∧
      asks t { q with delay := none }) ∧
    ∀ (st : BitVec 3) (op : BitVec 4) (l : BitVec 46), s.err.queue.length < 16 → op = 0 ∨ 6 < op.toNat →
      let lone := fun (i : Instr) (n : Nat) => Gives i s fun t =>
        t = { s with regs := t.regs, err := t.err } ∧ errs t 3 ∧ t.rd64 Reg.COH_ERR_LOG = log 3 0 n ∧ RegsApart s t errRegs
      (Tbl.find s.coh.reqs k = none →
        lone (.gnt tag st) 0 ∧ lone (.err tag .err) 0 ∧ lone (.err tag (.rsp op)) 0 ∧ lone (.err tag .beat) 0) ∧
      ∀ sop : BitVec 4, sop = 0 ∨ 3 < sop.toNat → lone (.err tag (.snp sop l)) l.toNat)

/-- A snoop of a line for which no request is outstanding is answered from the line's state by the table of R315, or from the
eviction buffer by that of R317, and a snoop that finds a request outstanding in owner-ordered mode is held with it; a
second one there is answered as a miss and flagged PROTO. A way belongs from then on to a line that the cache holds or a
request is out for. WB_GO frees the eviction entry and releases its data, dirty unless it was snooped; EV_ACK frees its
entry; the oldest writeback goes out with its last beat. A flush names every valid line and clears DONE; DONE is 1 again
once none of them is left. Stated with no line yet to be dropped. (R315, R317, R318, R312, R324) -/
def Obligations.CoherentSnoops : Prop :=
  (∀ (s : State) (l : BitVec 46) (tag : Byte), running s = true → s.coh.drop = [] → (∀ j, j < 8 → (s.ring j).run = none) →
    trimWays s.coh = s.coh →
    let k := l.toNat
    let d := lineData s k
    let rsp := fun (op : BitVec 4) (data : Option (Bool × BitVec 512)) =>
      some ({ op := op, tag := tag, data := data.map fun x => { tag := tag, dirty := x.1, data := x.2 } } : SRsp)
    let replies := fun (i : Instr) (op : BitVec 4) (data : Option (Bool × BitVec 512)) (left : Option Moesi)
        (evb : List EvEnt) => Gives i s fun t => t.coh.evb = evb ∧ t.coh.srsp = rsp op data ∧ lineState t k = left ∧ (∀ j, j ≠ k → lineState t j = lineState s j) ∧
        (∀ j, (∀ q, Tbl.find s.coh.reqs j = some q → q.line ≠ k ∨ q.op ≠ .upg) →
          Tbl.find t.coh.reqs j = Tbl.find s.coh.reqs j) ∧
        (∀ j q, Tbl.find s.coh.reqs j = some q → q.line = k → q.op = .upg →
          Tbl.find t.coh.reqs j = some { q with lost := q.lost || left.isNone }) ∧
        t.rd64 Reg.COH_SNOOP_CNT = s.rd64 Reg.COH_SNOOP_CNT + 1 ∧
        t.rd64 Reg.COH_SNOOP_HIT_CNT = s.rd64 Reg.COH_SNOOP_HIT_CNT + (if data.isSome then 1 else 0) ∧
        t = { s with
          coh := { s.coh with lines := t.coh.lines, reqs := t.coh.reqs, evb := t.coh.evb, srsp := t.coh.srsp, ways := t.coh.ways },
          regs := t.regs } ∧ t.coh.ways = (trimWays { t.coh with ways := s.coh.ways }).ways ∧
        RegsApart s t [Reg.COH_SNOOP_CNT, Reg.COH_SNOOP_CNT + 4, Reg.COH_SNOOP_HIT_CNT, Reg.COH_SNOOP_HIT_CNT + 4]
    (let evb := s.coh.evb
    inEvb s k = false → reqFor s k = none ∨ (ownerMode s = false ∧ lineState s k ≠ none) →
      (lineState s k = none → replies (.snS l tag) 1 none none evb ∧ replies (.snU l tag) 1 none none evb ∧ replies (.snI l tag) 1 none none evb) ∧
      (lineState s k = some .s → replies (.snS l tag) 2 none (some .s) evb ∧ replies (.snU l tag) 1 none none evb ∧ replies (.snI l tag) 1 none none evb) ∧
      (lineState s k = some .e → replies (.snS l tag) 5 (some (false, d)) (some .s) evb ∧
        replies (.snU l tag) 4 (some (false, d)) none evb ∧ replies (.snI l tag) 1 none none evb) ∧
      (lineState s k = some .o ∨ lineState s k = some .m → replies (.snS l tag) 6 (some (false, d)) (some .o) evb ∧
        replies (.snU l tag) 4 (some (true, d)) none evb ∧ replies (.snI l tag) 4 (some (true, d)) none evb)) ∧
    (∀ e, s.coh.evb = [e] → e.line = k → lineState s k = none →
      let hit := e.dirty && !e.snooped
      let ans := fun (i : Instr) => replies i (if hit then 4 else 1) (if hit then some (true, e.data) else none) none
        [{ e with snooped := e.snooped || e.dirty }]
      reqFor s k = none → ans (.snS l tag) ∧ ans (.snU l tag) ∧ ans (.snI l tag)) ∧
    (∀ q t', inEvb s k = false → reqFor s k = some (t', q) → ownerMode s = true → q.held = none →
      Gives (.snU l tag) s fun t =>
      Tbl.find t.coh.reqs t' = some { q with held := some (.snU, tag) } ∧ t.coh.srsp = s.coh.srsp ∧
      (∀ j, j ≠ t' → Tbl.find t.coh.reqs j = Tbl.find s.coh.reqs j) ∧
      t = { s with coh := { s.coh with reqs := t.coh.reqs }, regs := t.regs }) ∧
    ∀ q t', inEvb s k = false → reqFor s k = some (t', q) → ownerMode s = true → q.held ≠ none →
      Gives (.snU l tag) s fun t => t.coh = { s.coh with srsp := rsp 1 none } ∧ t.bit Reg.COH_ERR 3 = true ∧
      t = { s with coh := t.coh, regs := t.regs, err := t.err }) ∧
  (∀ (s : State) (tag : Byte) (q : CReq) (e : EvEnt), running s = true → s.coh.drop = [] →
    (∀ j, j < 8 → (s.ring j).run = none) → Tbl.find s.coh.reqs tag.toNat = some q → q.delay = none → s.coh.evb = [e] →
    e.tag = tag.toNat →
    let freed := fun (t : State) =>
      { s with coh := { s.coh with reqs := t.coh.reqs, evb := [], wbq := t.coh.wbq, ways := t.coh.ways } }
    let gone := fun (t : State) => Tbl.find t.coh.reqs tag.toNat = none ∧
      t.coh.ways = (trimWays { t.coh with ways := s.coh.ways }).ways ∧
      ∀ j, j ≠ tag.toNat → Tbl.find t.coh.reqs j = Tbl.find s.coh.reqs j
    (q.op = .wbD → Gives (.wbGo tag) s fun t => t = freed t ∧ gone t ∧
      t.coh.wbq = s.coh.wbq ++ [{ tag := tag, dirty := !e.snooped, data := e.data }]) ∧
    (q.op = .evC → Gives (.evAck tag) s fun t => t = freed t ∧ gone t ∧ t.coh.wbq = s.coh.wbq)) ∧
  (∀ (s : State) (d : DOut) (r : List DOut), running s = true → s.coh.wbq = d :: r → Gives .writebackLastBeatAccept s fun t =>
    t = { s with coh := { s.coh with wbq := r, dout := some d } }) ∧
  (∀ (s : State) (acc : RegAcc), running s = true → Admits s acc → acc.priv = true → acc.data = 1 → Gives (.cohFlushReq acc) s fun t =>
    t = { seen s acc Reg.COH_FLUSH with
      coh := { s.coh with drop := s.coh.drop ++ s.coh.lines.map fun e => (e.1, .flush) }, regs := t.regs } ∧
    t.bit Reg.COH_FLUSH 1 = false ∧ RegsApart s t [Reg.COH_FLUSH]) ∧
  ∀ s : State, running s = true → s.bit Reg.COH_FLUSH 1 = false → (∀ e ∈ s.coh.drop, e.2 ≠ .flush) →
    Gives .cohFlushDone s fun t => t = { s with regs := t.regs } ∧ t.bit Reg.COH_FLUSH 1 = true ∧
      RegsApart s t [Reg.COH_FLUSH]

/-- IDENT gives its 12 bytes, with the PEC over its transaction, and changes nothing else. A process call's reply goes out with
its PEC: the CRC-8 over an accepted write half is 0, so that over the whole transaction is the one over the read half. OPEN
without a session opens one with a TOKEN that is not 0; with one it is answered BUSY. CLOSE answers OK and ends the session.
An undefined code, an illegal count or CHK, a write half without its read half and a read half alone set CODE, LEN, CHK and
PROTO and are not executed; a Quick Command has no effect. The session ends after its idle time and on SBD_CTRL.CLOSE,
unless a request is in service. A request that no server has claimed in time is answered BUSY; a claimed one that is late is
taken off the bus and flagged; a bus reset flags TIMEOUT; in each of these, and for a read half alone, the controller reads
0xFF. A claim marks the request. Firmware answers with what SBD_MRSP holds, and a command with presence that it answers OK
then takes effect (log 41). A debounced press opens the window for 120 s and counts, its end closes it; a break of the seal
is latched, counted and flagged. (R357, R358, R359, R361, R362, R363, R364, R365, R366, R371, R372, R47) -/
def Obligations.SidebandPort : Prop :=
  (∀ s : State, sbOn s = true → Gives .ident s fun t =>
    t = { s with sbd := { s.sbd with reply := t.sbd.reply, pec := t.sbd.pec } } ∧
    t.sbd.pec = crc8 ([smbAddr s ++ (0 : BitVec 1), 0x00, smbAddr s ++ (1 : BitVec 1), 12] ++ t.sbd.reply) ∧
    t.sbd.reply = bytesOf (regView s Reg.GLB_VERSION true).toNat 4 ++ bytesOf (fwVersion s).toNat 4 ++
      [byteN s.instId.toNat, sbFlags s, byteN (server s), byteN s.sbd.token.isSome.toNat]) ∧
  (∀ (s : State) (d : List Byte), running s = true → sbOn s = true → s.sbd.mirror = none → s.sbd.closing = false →
    (frameFlag s 0x01 d = none → s.sbd.token = none → Gives (.sbOpen d) s fun t => ∃ tok : Byte, tok ≠ 0 ∧
      Replied { begun s with sbd := { s.sbd with token := some tok, opens := s.sbd.opens + 1 } } t d [0, 1, tok]) ∧
    (frameFlag s 0x01 d = none → s.sbd.token.isSome = true → Gives (.sbOpen d) s fun t =>
      t = { begun s with sbd := { s.sbd with reply := t.sbd.reply, pec := pecAfter s [] t.sbd.reply }, regs := t.regs } ∧
      t.sbd.reply.take 2 = [1, 1] ∧
      t.rd Reg.SBD_CNT = satInc (s.rd Reg.SBD_CNT) ∧ RegsApart s t [Reg.SBD_CNT]) ∧
    (Asks s 0x02 d → Gives (.sbClose d) s fun t =>
      t = { begun s with sbd := { s.sbd with token := none, last := none, reply := [0, 2], pec := pecAfter s [] [0, 2] },
                         regs := t.regs } ∧
      t.rd Reg.SBD_CNT = satInc (s.rd Reg.SBD_CNT) ∧ RegsApart s t [Reg.SBD_CNT]) ∧
    (∀ cmd i, s.err.queue.length < 16 → frameFlag s cmd d = some i → Gives (.sbMalformedTransaction (some cmd) d) s fun t =>
      t = { s with regs := t.regs, err := t.err } ∧ Flagged s t 11 Reg.SBD_ERR i 0 false ∧ RegsApart s t [Reg.SBD_ERR])) ∧
  (∀ (s : State) (cmd : Byte) (d : List Byte),
    (frameFlag s cmd d = some 0 ↔ cmd.toNat ∉ [0, 1, 2, 3, 0x10, 0x11, 0x12, 0x20, 0x21, 0x22, 0x28, 0x29, 0x2A, 0x2B, 0x2C, 0x30]) ∧
    (frameFlag s cmd d = none → cmd ≠ 0 → d.getLast? = some (chkOf s cmd d) ∧ d.length ∈ sbLens cmd ∧
      crc8 ((smbAddr s ++ (0 : BitVec 1)) :: cmd :: BitVec.ofNat 8 d.length :: d) = 0)) ∧
  (∀ s : State, Gives .sbQuickCommand s fun t => t = s) ∧
  (∀ s : State, sbOn s = true → s.err.queue.length < 16 →
    let flags := fun (t : State) (i : Nat) =>
      t = { s with sbd := t.sbd, regs := t.regs, err := t.err } ∧ Flagged s t 11 Reg.SBD_ERR i 0 false ∧
      RegsApart s t [Reg.SBD_ERR]
    (∀ cmd, sbLens cmd = [] → cmd ≠ 0 → Gives (.sbUndefinedCode cmd) s fun t => flags t 0 ∧ t.sbd = s.sbd) ∧
    (∀ cmd d, frameFlag s cmd d = none → Gives (.sbMalformedTransaction (some cmd) d) s fun t => flags t 3 ∧ t.sbd = s.sbd) ∧
    (∀ d, Gives (.sbMalformedTransaction none d) s fun t => flags t 3 ∧ t.sbd = { s.sbd with reply := [], pec := 0xFF }) ∧
    Gives .smbusTimeout s (fun t => flags t 4 ∧
      t.sbd = { s.sbd with mirror := s.sbd.mirror.map fun q => { q with onBus := false }, reply := [], pec := 0xFF }) ∧
    (∀ q, s.sbd.mirror = some q → q.claimed = true → q.onBus = true → Gives .stretchLimit s fun t => flags t 5 ∧
      t.sbd = { s.sbd with mirror := some { q with onBus := false }, reply := [], pec := 0xFF })) ∧
  (∀ s : State,
    (s.sbd.mirror = none → Gives .sessionIdleTimeout s fun t => t.sbd.token = none ∧
      t = { s with sbd := t.sbd } ∧ (s.sbd.token ≠ none → t.sbd = { s.sbd with token := none, last := none, closing := false })) ∧
    (∀ q, s.sbd.mirror = some q → q.claimed = false → q.onBus = true → s.sbd.closing = false → s.sbd.token ≠ none →
      Gives .replyBusyTimeout s fun t => ∃ reply, t = { s with
        sbd := { s.sbd with mirror := none, last := some (q.seq, reply), reply := reply, pec := pecAfter s [] reply }, regs := t.regs } ∧
      reply.take 2 = [1, q.cmd] ∧ t.rd Reg.SBD_CNT = satInc (s.rd Reg.SBD_CNT) ∧ RegsApart s t [Reg.SBD_CNT]) ∧
    (∀ q, s.sbd.mirror = some q → server s ≠ 0 → Gives .mirrorClaim s fun t =>
      t = { s with sbd := { s.sbd with mirror := some { q with claimed := true } } }) ∧
    (∀ q reply, s.sbd.mirror = some q → q.claimed = true → server s = 1 → s.sbd.closing = false → s.sbd.token ≠ none →
      reply = (List.range (min 27 (mrspByte s 0).toNat)).map (fun k => mrspByte s (k + 1)) →
      let ok : Bool := reply.head? = some 0
      let answers := fun (u t : State) => t = { u with sbd := t.sbd, regs := t.regs } ∧
        t.sbd = { u.sbd with mirror := none, last := some (q.seq, reply), reply := if q.onBus then reply else s.sbd.reply,
                             pec := if q.onBus then pecAfter s [] reply else s.sbd.pec } ∧
        t.rd Reg.SBD_CNT = satInc (s.rd Reg.SBD_CNT) ∧ RegsApart u t [Reg.SBD_CNT]
      safeWaits s q = false →
      (ok = false ∨ q.cmd.toNat ∉ [0x20, 0x21, 0x22, 0x28, 0x2A, 0x2B, 0x2C] → Gives .mirrorDone s (answers s)) ∧
      (ok = true → q.cmd.toNat ∈ [0x20, 0x21, 0x22, 0x28, 0x2A, 0x2B] → Gives .mirrorDone s fun t =>
        ∃ u, u = (windowDo s q).s ∧ answers u t ∧
        (q.cmd = 0x28 → s.err.safe = .out → u.err.safe = .safe ∧ u.fld Reg.GLB_SAFE 3 0 = 14) ∧
        (q.cmd = 0x2A → u = { s with regs := u.regs } ∧ RegsApart s u [Reg.SBD_PRES] ∧
          u.rd Reg.SBD_PRES = if s.bit Reg.SBD_PRES 9 = true then s.rd Reg.SBD_PRES &&& ~~~0x400 else s.rd Reg.SBD_PRES) ∧
        (q.cmd = 0x2B → u = { s with regs := u.regs, prf := u.prf } ∧ RegsApart s u [Reg.GLB_LOCK] ∧
          u.rd Reg.GLB_LOCK = s.rd Reg.GLB_LOCK &&& ~~~0x17)) ∧
      (ok = true → q.cmd = 0x2C → running s = true → Gives .mirrorDone s fun t =>
        t.rst.phase = .w2 ∧ t.fld Reg.GLB_RST_CAUSE 3 0 = 5 ∧ t.sbd.token = none ∧ t.sbd.mirror = none ∧
        (q.onBus = true → t.sbd.reply = reply)))) ∧
  (∀ (s : State) (acc : RegAcc), running s = true → Admits s acc → acc.priv = true → acc.sec = true → acc.data = 1 → s.sbd.token ≠ none →
    Gives (.sbdCtrlClose acc) s fun t => t = { seen s acc Reg.SBD_CTRL with sbd := t.sbd, regs := t.regs } ∧
      RegsApart s t [] ∧ (s.sbd.mirror = none → t.sbd = { s.sbd with token := none, last := none, closing := false }) ∧
      (s.sbd.mirror ≠ none → t.sbd = { s.sbd with closing := true })) ∧
  ∀ s : State, running s = true → s.err.queue.length < 16 →
    let n := Reg.SBD_CNT + 4
    (s.bit Reg.SBD_PRES 8 = false → Gives .presenceWindowOpen s fun t =>
      t = { s with regs := t.regs, sbd := { s.sbd with left := 120 } } ∧
      t.rd Reg.SBD_PRES = s.rd Reg.SBD_PRES ||| 0x101 ∧ t.fld n 15 0 = min 0xFFFF (s.fld n 15 0 + 1) ∧
      t.fld n 31 16 = s.fld n 31 16 ∧ RegsApart s t [Reg.SBD_PRES, n]) ∧
    Gives .presenceWindowExpire s (fun t => t = { s with regs := t.regs } ∧
      t.rd Reg.SBD_PRES = s.rd Reg.SBD_PRES &&& ~~~1 ∧ RegsApart s t [Reg.SBD_PRES]) ∧
    Gives .presenceButtonRelease s (fun t => t = { s with regs := t.regs } ∧
      t.rd Reg.SBD_PRES = s.rd Reg.SBD_PRES &&& ~~~0x100 ∧ RegsApart s t [Reg.SBD_PRES]) ∧
    Gives .sealBreak s (fun t => t = { s with regs := t.regs, err := t.err } ∧
      t.rd Reg.SBD_PRES = (s.rd Reg.SBD_PRES &&& ~~~0x200) ||| 0x400 ∧ t.fld n 31 16 = min 0xFFFF (s.fld n 31 16 + 1) ∧
      t.fld n 15 0 = s.fld n 15 0 ∧ Flagged s t 11 Reg.SBD_ERR 6 0 false ∧ RegsApart s t [Reg.SBD_PRES, n, Reg.SBD_ERR])

/-- A request of the open session with a server completes: STATUS gives its six bytes; REG_READ of a built register of 32 or 64
bits gives what both attributes reach there, and of a target's operation words what the access answers; REG_WRITE writes,
secure only inside a window, as a side-band access, a dangerous register outside one being refused; a width that is neither,
and a word that does not exist, is BAD_RANGE; LOG_READ gives an entry of the 64. FW_BEGIN holds the Burins it names, in SAFE
or where another serves, and is BUSY otherwise; FW_DATA writes their code words through BUR_LOAD_CTL, whose address goes on;
FW_END releases them. SAFE_ENTER enters SAFE, or in SAFE is one more cause, recorded and counted (log 95); SAFE_EXIT is OK
outside SAFE, BUSY with no Burin in RUN, and else begins the exit and waits; while one is under way either waits for its
end. SEAL_CLEAR clears the latch where the seal is intact and is BUSY where it is not; LOCK_CLEAR clears the locks 0, 1, 2
and 4; WARM_RESET is answered, and the reset of cause 0x5 begins. FW_CALL waits in the mirror for firmware, and without it
is BUSY; a request for a server that takes its time waits there too. A request that firmware serves sets SBD in the primary.
Without a server any command is BUSY, and any that needs a window is answered NEEDS_PRESENCE without one. (R365, R366, R367,
R368, R369, R370, R389, R42, R362, R268, R341, 18 R437) -/
def Obligations.SidebandCommands : Prop :=
  (∀ (s : State) (d : List Byte),
    let b := askedOf s
    let ok := fun (cmd : Byte) (u t : State) => Replied u t d [0, cmd]
    let no := fun (cmd : Byte) (t : State) (status : Nat) => ∃ r, Replied b t d (byteN status :: cmd :: r)
    let off := numOf ((d.drop 2).take 3)
    let width := (d.getD 5 0).toNat
    let sel := (d.getD 2 0).toNat
    let entry := sel + 256 * (d.getD 3 0).toNat
    (Served s 0x03 d → Gives (.sbStatus d false) s fun t => Replied b t d [0, 3, byteN (server s),
      byteN (s.bur.a.st.code + s.bur.b.st.code * 16), byteN (pwrState s), sbFlags s, byteN (field (sbdPres s) 7 1),
      byteN (s.bur.a.auth + s.bur.b.auth * 16)]) ∧
    (Served s 0x10 d → width = 4 → off % 4 = 0 → builtFor s .side off = true → isTgtOff off = false →
      Gives (.regRead d false) s fun t => Replied b t d (0 :: 0x10 :: bytesOf (regRead b off true true).toNat 8)) ∧
    (Served s 0x10 d → width = 8 → off % 8 = 0 → builtFor s .side off = true → builtFor s .side (off + 4) = true →
      isTgtOff off = false → isTgtOff (off + 4) = false → Gives (.regRead d false) s fun t =>
        Replied b t d (0 :: 0x10 :: (bytesOf (regRead b off true true).toNat 4 ++ bytesOf (regRead b (off + 4) true true).toNat 4))) ∧
    (∀ size u v, Served s 0x10 d → frameWaits s off = false → width = 4 ∧ size = 2 ∨ width = 8 ∧ size = 3 →
      busRead b off size true true .side = some (u, v) → u.sbd = s.sbd → Gives (.regRead d false) s fun t =>
      Replied u t d (0 :: 0x10 :: bytesOf (downLane v off).toNat 8)) ∧
    (Served s 0x10 d → (width ≠ 4 ∧ width ≠ 8) ∨ (width = 4 ∧ busWords s off 2 .side = []) → frameWaits s off = false →
      Gives (.regRead d false) s fun t => no 0x10 t stBadRange) ∧
    (∀ size : Nat, Served s 0x11 d → vpeWaits s off = false → width = 4 ∧ size = 2 ∨ width = 8 ∧ size = 3 →
      busWords s off size .side ≠ [] → winOpen s = true ∨ (∀ w ∈ busWords s off size .side, dangerous s w.1 = false) →
      let u := (busWrite b off size (upLane (BitVec.ofNat 64 (numOf ((d.drop 6).take (2 ^ size)))) off) true (winOpen s) .side).1
      u.sbd = s.sbd → Gives (.regWrite d false) s fun t => ok 0x11 u t) ∧
    (Served s 0x11 d → width = 4 → off = Reg.STK_LEN →
      let len := (d.getD 6 0).toNat % 128
      24 ≤ len → len ≤ 64 → Gives (.regWrite d false) s fun t => ∃ u, ok 0x11 u t ∧ u = { b with regs := u.regs, prf := u.prf } ∧
        u.fld Reg.STK_LEN 6 0 = len ∧ u.fld Reg.STK_LEN 31 7 = s.fld Reg.STK_LEN 31 7 ∧ RegsApart s u [Reg.STK_LEN]) ∧
    (Served s 0x11 d → (width ≠ 4 ∧ width ≠ 8) ∨ (width = 4 ∧ busWords s off 2 .side = []) → vpeWaits s off = false →
      Gives (.regWrite d false) s fun t => no 0x11 t stBadRange) ∧
    (Served s 0x11 d → width = 4 → winOpen s = false → off % 4 = 0 → builtFor s .side off = true → dangerous s off = true →
      vpeWaits s off = false → Gives (.regWrite d false) s fun t => no 0x11 t stNeedsPresence) ∧
    (Served s 0x12 d → entry < 64 → Gives (.logRead d false) s fun t =>
      let v := logSlot s entry
      Replied b t d (0 :: 0x12 :: (bytesOf v.w0.toNat 8 ++ bytesOf v.w1.toNat 8 ++ bytesOf v.w2.toNat 8))) ∧
    (Served s 0x12 d → 64 ≤ entry → Gives (.logRead d false) s fun t => no 0x12 t stBadRange) ∧
    (Served s 0x20 d → 1 ≤ sel → sel ≤ 3 →
      (inSafe s = true ∨ servesAfter s sel = true → Gives (.fwBegin d false) s fun t => ∃ u, ok 0x20 u t ∧
        u = { b with bur := u.bur, regs := u.regs, sbd := { s.sbd with fwSel := BitVec.ofNat 2 sel } } ∧
        u.bit Reg.BUR_CTL 0 = (s.bit Reg.BUR_CTL 0 || decide (sel % 2 = 1)) ∧
        u.bit Reg.BUR_CTL 1 = (s.bit Reg.BUR_CTL 1 || decide (2 ≤ sel)) ∧ RegsApart s u [Reg.BUR_CTL] ∧
        ∀ x, (x ∈ burSel sel → holdBit s x = false → (u.core x).st = .held) ∧ (x ∉ burSel sel → u.core x = b.core x)) ∧
      (inSafe s = false → servesAfter s sel = false → Gives (.fwBegin d false) s fun t => no 0x20 t stBusy)) ∧
    (Served s 0x21 d → selHeld s s.sbd.fwSel.toNat = true →
      let n := (d.length - 5) / 4
      entry + n ≤ 0x6000 → Gives (.fwData d false) s fun t => ∃ u, ok 0x21 u t ∧ u = { b with bur := u.bur, regs := u.regs } ∧
      u.fld Reg.BUR_LOAD_CTL 1 0 = s.sbd.fwSel.toNat ∧ u.fld Reg.BUR_LOAD_CTL 16 2 = (entry + n) % 0x6000 ∧
      u.fld Reg.BUR_LOAD_CTL 31 17 = s.fld Reg.BUR_LOAD_CTL 31 17 ∧ RegsApart s u [Reg.BUR_LOAD_CTL] ∧
      ∀ x, u.core x = { b.core x with code := (u.core x).code } ∧ ∀ w, Tbl.get 0 (u.core x).code w =
        if x ∈ burSel s.sbd.fwSel.toNat ∧ entry ≤ w ∧ w < entry + n then w32 (numOf ((d.drop (4 + 4 * (w - entry))).take 4))
        else Tbl.get 0 (s.core x).code w) ∧
    (Served s 0x22 d → 1 ≤ sel → sel ≤ 3 → selHeld s sel = true → (∀ x, x ∈ burSel sel → holdBit s x = true) →
      Gives (.fwEnd d false) s fun t => ∃ u, ok 0x22 u t ∧ u = { b with bur := u.bur, regs := u.regs } ∧
      (∀ x, x ∈ burSel sel → holdBit u x = false ∧ (u.core x).st = .boot ∧ (u.core x).miss = 0) ∧
      (∀ x, x ∉ burSel sel → holdBit u x = holdBit s x ∧ u.core x = b.core x) ∧ RegsApart s u [Reg.BUR_CTL]) ∧
    (Served s 0x28 d → s.err.safe = .safe ∨ s.err.safe = .out → s.err.queue.length < 16 → Gives (.safeEnter d false) s fun t =>
      ∃ u, ok 0x28 u t ∧ u = { b with regs := u.regs, err := { s.err with safe := .safe, queue := s.err.queue ++
        [{ src := 17, flag := 3, unit := 0, stroke := s.count, fresh := false }] } } ∧
      u.fld Reg.GLB_SAFE 1 0 = (if s.err.safe = .out then 2 else s.fld Reg.GLB_SAFE 1 0) ∧ u.fld Reg.GLB_SAFE 3 2 = 3 ∧
      u.fld Reg.GLB_SAFE 11 4 = min 255 (s.fld Reg.GLB_SAFE 11 4 + 1) ∧ RegsApart s u [Reg.GLB_SAFE]) ∧
    (Served s 0x29 d → s.err.safe = .out → Gives (.sbSafeExit d false) s fun t => ok 0x29 b t) ∧
    (Served s 0x29 d → s.err.safe = .safe → (∀ x, (s.core x).st ≠ .run) → Gives (.sbSafeExit d false) s fun t =>
      no 0x29 t stBusy) ∧
    (let waits := fun (cmd : Byte) (claimed : Bool) =>
       (some { cmd := cmd, seq := d.getD 1 0, data := d.dropLast, claimed := claimed, onBus := true, win := winOpen s } : Option SbReq)
     (Served s 0x29 d → s.err.safe = .safe → burinRuns s = true → Gives (.sbSafeExit d false) s fun t =>
       t = { b with sbd := { s.sbd with mirror := waits 0x29 true }, err := { s.err with safe := .leaving none none },
                    regs := t.regs } ∧ t.fld Reg.GLB_SAFE 1 0 = 3 ∧ RegsApart s t [Reg.GLB_SAFE]) ∧
     (∀ r c, s.err.safe = .leaving r c →
       (Served s 0x29 d → Gives (.sbSafeExit d false) s fun t => t = { b with sbd := { s.sbd with mirror := waits 0x29 true } }) ∧
       (Served s 0x28 d → Gives (.safeEnter d false) s fun t =>
         t = { b with sbd := { s.sbd with mirror := waits 0x28 true }, err := { s.err with safe := .leaving r (some 3) } })) ∧
     (∀ (i : Instr) (cmd : Byte), (i, cmd) ∈ [(.sbStatus d true, 0x03), (.regRead d true, 0x10), (.regWrite d true, 0x11), (.logRead d true, 0x12),
         (.fwBegin d true, 0x20), (.fwData d true, 0x21), (.fwEnd d true, 0x22), (.safeEnter d true, 0x28), (.sbSafeExit d true, 0x29),
         (.lockClear d true, 0x2B), (.warmReset d true, 0x2C)] → Served s cmd d →
       Gives i s fun t => t = { b with sbd := { s.sbd with mirror := waits cmd false } }) ∧
     (Served s 0x30 d → server s = 1 → Gives (.fwCall d) s fun t => t = { b with sbd := { s.sbd with mirror := waits 0x30 false } })) ∧
    (Served s 0x30 d → server s ≠ 1 → Gives (.fwCall d) s fun t => no 0x30 t stBusy) ∧
    (Served s 0x2A d → Gives (.sealClear d false true) s fun t => ∃ u, ok 0x2A u t ∧ u = { b with regs := u.regs } ∧
      u.rd Reg.SBD_PRES = (s.rd Reg.SBD_PRES ||| 0x200) &&& ~~~0x400 ∧ RegsApart s u [Reg.SBD_PRES]) ∧
    (Served s 0x2A d → Gives (.sealClear d false false) s fun t => ∃ u r, Replied u t d (1 :: 0x2A :: r) ∧
      u = { b with regs := u.regs } ∧ u.rd Reg.SBD_PRES = s.rd Reg.SBD_PRES &&& ~~~0x200 ∧ RegsApart s u [Reg.SBD_PRES]) ∧
    (Served s 0x2B d → Gives (.lockClear d false) s fun t => ∃ u, ok 0x2B u t ∧ u = { b with regs := u.regs, prf := u.prf } ∧
      u.rd Reg.GLB_LOCK = s.rd Reg.GLB_LOCK &&& ~~~0x17 ∧ RegsApart s u [Reg.GLB_LOCK]) ∧
    (Served s 0x2C d → Gives (.warmReset d false) s fun t => t.rst.phase = .w2 ∧ t.fld Reg.GLB_RST_CAUSE 3 0 = 5 ∧
      t.sbd.reply = [0, 0x2C] ∧ t.sbd.token = none)) ∧
  ∀ (s : State) (cmd : Byte) (d : List Byte), running s = true → sbOn s = true → frameFlag s cmd d = none →
    s.sbd.token = some (d.getD 0 0) → s.sbd.last.map (·.1) ≠ some (d.getD 1 0) → s.sbd.mirror = none → s.sbd.closing = false →
    (server s = 0 → ∀ (i : Instr) (later : Bool),
      (i, cmd) ∈ [(.sbStatus d later, 0x03), (.regRead d later, 0x10), (.regWrite d later, 0x11), (.logRead d later, 0x12),
        (.fwBegin d later, 0x20), (.fwData d later, 0x21), (.fwEnd d later, 0x22), (.safeEnter d later, 0x28),
        (.sbSafeExit d later, 0x29), (.lockClear d later, 0x2B), (.warmReset d later, 0x2C), (.fwCall d, 0x30)] →
      Gives i s fun t => ∃ r, Replied (begun s) t d (1 :: cmd :: r)) ∧
    (winOpen s = false → server s ≠ 0 → ∀ i : Instr,
    (i, cmd) ∈ [(.fwBegin d false, 0x20), (.fwData d false, 0x21), (.fwEnd d false, 0x22), (.safeEnter d false, 0x28),
      (.sbSafeExit d false, 0x29), (.lockClear d false, 0x2B), (.warmReset d false, 0x2C)] →
    Gives i s fun t => Replied (begun s) t d [8, cmd])

/-- For a privileged 32-bit write of either half of XLT_SRC_BASE or XLT_ATT_BASE, or a 64-bit write of one of them, while the
block runs: with XLT_CTRL.EN 1 the register keeps its value, the answer on the register port is OK, GLB_ERR.LOCK_WRITE is
set and GLB_ERR_ADDR holds the register's address; with EN 0 a write whose BITS field is legal takes effect and flags
nothing. (R147) -/
def Obligations.XltBasesLocked : Prop :=
  ∀ (s : State) (a : BusAcc) (reg : Nat), running s = true → a.priv = true → a.read = false → Admits s (attrsOf a) →
    reg = Reg.XLT_SRC_BASE ∨ reg = Reg.XLT_ATT_BASE →
    (a.size = 2 ∧ (a.off.toNat = reg ∨ a.off.toNat = reg + 4)) ∨ (a.size = 3 ∧ a.off.toNat = reg) →
    (s.bit Reg.XLT_CTRL 0 = true → Gives (.registerWrite a) s fun t =>
      t.rd64 reg = s.rd64 reg ∧ t.port = (seen s (attrsOf a) a.off.toNat).port ∧
      t.bit Reg.GLB_ERR 0 = true ∧ t.fld Reg.GLB_ERR_ADDR 23 0 = reg ∧ t.bit Reg.GLB_ERR_ADDR 26 = false ∧
      (s.err.queue.length < 16 →
        t = { seen s (attrsOf a) a.off.toNat with regs := t.regs, err := t.err } ∧ Flagged s t 0 Reg.GLB_ERR 0 0 true ∧
        RegsApart s t [Reg.GLB_ERR, Reg.GLB_ERR_ADDR, Reg.GLB_ERR_ADDR + 4])) ∧
    (s.bit Reg.XLT_CTRL 0 = false →
      (a.off.toNat = reg → if reg = Reg.XLT_SRC_BASE then 1 ≤ a.data.toNat % 32 ∧ a.data.toNat % 32 ≤ 24
        else 13 ≤ a.data.toNat % 32 ∧ a.data.toNat % 32 ≤ 21) →
      Gives (.registerWrite a) s fun t =>
        let half : W64 := if a.size = 3 then BitVec.allOnes 64 else if a.off.toNat = reg then 0xFFFFFFFF else 0xFFFFFFFF00000000
        let m := 0x000FFFFFFFFFF01F &&& half
        t.rd64 reg = (s.rd64 reg &&& ~~~m) ||| (a.data &&& m) ∧
        t = { seen s (attrsOf a) a.off.toNat with regs := t.regs, prf := t.prf } ∧ RegsApart s t [reg, reg + 4])

/-- While the block runs: a 32-bit write on the register port that is misaligned or names no implemented word is a bus error and
changes nothing; a read of a register is answered with its fields as the access reaches them, and while 8 accesses are
unanswered none is accepted (that a read rides on this row, and that the responses taken are an operand of it, is the
model's choice, log 67); a reserved value is not taken and sets RSV_VALUE; a write without privilege changes no PRIV field;
a legal value is taken. A bit of GLB_LOCK written 1 sets, and 0 written to a set bit flags LOCK_WRITE. A write of PRF_REF
clears HOLD and ends an adoption, ADOPT begins one, and under the PRF lock both are ignored and flagged. ERROR_LOG_WRITE
puts the oldest waiting occurrence into slot NEXT and sets the log interrupt in both Burins (stated with the error event
off). (R32, R377, R379, R382, R386, R387, R388, R398, R399, R429, R430) -/
def Obligations.RegisterWrites : Prop :=
  (∀ (s : State) (a : BusAcc), running s = true → a.src = .port → Admits s (attrsOf a) → a.size = 2 →
    let off := a.off.toNat
    (off % 4 ≠ 0 ∨ regRow s.par off = none → portHeld s a = false →
      Gives (.registerWrite a) s (· = served s (attrsOf a) off true 0)) ∧
    (off % 4 = 0 → (regRow s.par off).isSome = true → off < 0x38100 ∨ 0x38200 ≤ off → isTgtOff off = false → a.read = true →
      Gives (.registerWrite a) s (· = served s (attrsOf a) off false
        ((regRead s off a.priv a.sec).zeroExtend 64 <<< (if off % 8 = 4 then 32 else 0))))) ∧
  (∀ (s : State) (a : BusAcc), running s = true → a.src = .port → portRoom (portTaken s a.taken) = false →
    Gives (.registerWrite a) s (· = portTaken s a.taken)) ∧
  (∀ (s : State) (a : BusAcc), running s = true → a.size = 2 → a.off.toNat = Reg.STK_LEN → a.read = false →
    Admits s (attrsOf a) →
    let len := a.data.toNat % 128
    (a.priv = true → len < 24 ∨ 64 < len → s.err.queue.length < 16 → Gives (.registerWrite a) s fun t =>
      t = { seen s (attrsOf a) Reg.STK_LEN with regs := t.regs, err := t.err } ∧ Flagged s t 0 Reg.GLB_ERR 1 0 true ∧
      t.fld Reg.GLB_ERR_ADDR 23 0 = Reg.STK_LEN ∧ t.bit Reg.GLB_ERR_ADDR 26 = true ∧
      RegsApart s t [Reg.GLB_ERR, Reg.GLB_ERR_ADDR, Reg.GLB_ERR_ADDR + 4]) ∧
    (a.priv = true → 24 ≤ len → len ≤ 64 → Gives (.registerWrite a) s fun t =>
      t = { seen s (attrsOf a) Reg.STK_LEN with regs := t.regs, prf := t.prf } ∧ t.fld Reg.STK_LEN 6 0 = len ∧
      t.fld Reg.STK_LEN 31 7 = s.fld Reg.STK_LEN 31 7 ∧ RegsApart s t [Reg.STK_LEN]) ∧
    (a.priv = false → Gives (.registerWrite a) s (· = seen s (attrsOf a) Reg.STK_LEN))) ∧
  (∀ (s : State) (acc : RegAcc), running s = true → Admits s acc → acc.priv = true → acc.sec = true → s.err.queue.length < 16 →
    let lost := s.rd Reg.GLB_LOCK &&& ~~~acc.data &&& 0x1F
    Gives (.glbLockWrite acc) s fun t =>
      t = { seen s acc Reg.GLB_LOCK with regs := t.regs, prf := t.prf, err := t.err } ∧
      t.rd Reg.GLB_LOCK = s.rd Reg.GLB_LOCK ||| (acc.data &&& 0x1F) ∧
      (lost = 0 → t.err = s.err ∧ RegsApart s t [Reg.GLB_LOCK]) ∧
      (lost ≠ 0 → Flagged s t 0 Reg.GLB_ERR 0 0 true ∧ t.fld Reg.GLB_ERR_ADDR 23 0 = Reg.GLB_LOCK ∧
        t.bit Reg.GLB_ERR_ADDR 26 = false ∧
        RegsApart s t [Reg.GLB_LOCK, Reg.GLB_ERR, Reg.GLB_ERR_ADDR, Reg.GLB_ERR_ADDR + 4])) ∧
  (∀ (s : State) (acc : RegAcc), running s = true → Admits s acc → acc.priv = true → acc.sec = true → s.bit Reg.GLB_LOCK 1 = false →
    Gives (.prfRefWrite acc) s (fun t =>
      t = { seen s acc Reg.PRF_REF with regs := t.regs, prf := { s.prf with hold := false, adopting := false } } ∧
      t.rd Reg.PRF_REF = acc.data ∧ RegsApart s t [Reg.PRF_REF]) ∧
    (acc.data.getLsbD 1 = true → Gives (.prfAdopt acc) s fun t =>
      t = { seen s acc Reg.PRF_CTRL with
            regs := t.regs
            prf := { s.prf with adopting := true, adoptOk := false, cmp := s.prf.cmp && acc.data.getLsbD 0 } } ∧
      t.bit Reg.PRF_CTRL 0 = acc.data.getLsbD 0 ∧ RegsApart s t [Reg.PRF_CTRL])) ∧
  (∀ (s : State) (acc : RegAcc), running s = true → Admits s acc → acc.priv = true → acc.sec = true → s.bit Reg.GLB_LOCK 1 = true →
    s.err.queue.length < 16 → ∀ i off, i = .prfRefWrite acc ∧ off = Reg.PRF_REF ∨ i = .prfAdopt acc ∧ off = Reg.PRF_CTRL →
    Gives i s fun t =>
      t = { seen s acc off with regs := t.regs, err := t.err } ∧ Flagged s t 0 Reg.GLB_ERR 0 0 true ∧
      t.fld Reg.GLB_ERR_ADDR 23 0 = off ∧ t.bit Reg.GLB_ERR_ADDR 26 = false ∧
      RegsApart s t [Reg.GLB_ERR, Reg.GLB_ERR_ADDR, Reg.GLB_ERR_ADDR + 4]) ∧
  ∀ (s : State) (o : Occ) (rest : List Occ), running s = true → s.err.queue = o :: rest → s.bit Reg.GLB_EIRQ 0 = false →
    Gives .errorLogWrite s fun t =>
      let next := s.fld Reg.GLB_ELOG_STAT 5 0
      t = { s with regs := t.regs, err := t.err, bur := t.bur } ∧
      t.err = { s.err with queue := rest, seq := nextSeq s.err.seq,
                           slots := Tbl.put s.err.slots next (slotOf s o (nextSeq s.err.seq)) } ∧
      t.fld Reg.GLB_ELOG_STAT 5 0 = (next + 1) % 64 ∧
      t.bit Reg.GLB_ELOG_STAT 6 = (s.bit Reg.GLB_ELOG_STAT 6 || decide (next = 63)) ∧
      t.fld Reg.GLB_ELOG_STAT 31 7 = s.fld Reg.GLB_ELOG_STAT 31 7 ∧ RegsApart s t [Reg.GLB_ELOG_STAT] ∧
      ∀ u, (t.core u).ipend = (s.core u).ipend ||| 0x20

/-- IDLE_THRESHOLD chooses the deepest state whose threshold is nonzero and not above the idle count and which is allowed: it
raises STOP for DOZE or NAP, with the PWR interrupt of both Burins, and begins the preparation for DEEP. DEEP_PREP_DONE,
with the vPEs out, first saves the Panels and begins the flush of every tree, and once that is done makes STOP due (stated
with no line in the eviction buffer and no access failed). CONSENT_POINT stops the groups of the point when all fourteen
subsystems consent, the scheduler always for DOZE, ending after A5 in DOZE or in the commit, and otherwise aborts with
PWR_LAST_ABORT, the abort count and an idle count of 0, the target engines seeing their local lines as they then stand; that
a wake cause seen in the round then ends DOZE is the model's choice (log 47). The stop, retention and power-off acknowledges
lead to NAP and to DEEP, where the save set of R412 is written, the outputs are held and the countdown and the Burins stand
as R404 and R411 say. That for DEEP the request and the acknowledge of CLK_MAIN fall into one row, with the REFCNT snapshot,
is the model's choice (log 56). (R402, R403, R404, R405, R406, R407, R408, R409, R410, R411, R412, R416) -/
def Obligations.PowerEntry : Prop :=
  (∀ s : State, running s = true → s.pwr.due = true →
    let thr := fun (k : Nat) => (s.rd (if k = 1 then Reg.PWR_IDLE_DOZE else if k = 2 then Reg.PWR_IDLE_NAP else Reg.PWR_IDLE_DEEP)).toNat
    let allowed := fun (k : Nat) => thr k ≠ 0 ∧ thr k ≤ (s.rd Reg.PWR_IDLE_CNT).toNat ∧ k ≤ s.fld Reg.PWR_OVR 1 0 ∧
      (2 ≤ k → inSafe s = false) ∧ (k = 3 → (s.rd64 Reg.PWR_TSAVE_BASE).toNat / 4096 % 2 ^ 40 ≠ 0)
    Gives .idleThreshold s fun t => t.pwr.due = false ∧ t.count = s.count ∧ t.mem = s.mem ∧
      ((∀ k, 1 ≤ k → k ≤ 3 → ¬ allowed k) → t = { s with pwr := { s.pwr with due := false } }) ∧
      ∀ k, 1 ≤ k → k ≤ 3 → allowed k → (∀ j, k < j → j ≤ 3 → ¬ allowed j) →
        t.pwr.target.toNat = k ∧ pwrState t = 0 ∧ t.pwr.ready = false ∧
        (k = 3 → pwrPhase t = 1) ∧ (k < 3 → pwrPhase t = 2 ∧ t.pwr.point = 1 ∧ t.pwr.stopped = 0 ∧ t.pwr.wakeSeen = false ∧
          ∀ u, (t.core u).ipend = (s.core u).ipend ||| 0x40)) ∧
  (∀ s : State, s.rst.phase = .run → pwrPhase s = 1 → s.pwr.ready = false → vpesOut s = true →
    let first : Bool := s.bit Reg.PNL_CTRL 0 && !s.pwr.prepSaved
    (first = true → s.coh.failed = [] → s.coh.evb = [] → Gives (.deepPrepDone [] []) s fun t =>
      t = { s with mem := t.mem, coh := t.coh, pnl := t.pnl, tg := t.tg, pwr := { s.pwr with prepSaved := true } } ∧
      t.pnl.saved = true ∧ t.coh = { s.coh with lines := t.coh.lines, plru := t.coh.plru } ∧
      ∀ k, t.tgt k = { s.tgt k with opq := (t.tgt k).opq, src := (t.tgt k).src } ∧
        ∀ e ∈ (s.tgt k).entries, ∃ o ∈ (t.tgt k).ops, o.kind = .fls ∧ o.virt = e.virt ∧ o.ev = e.ev) ∧
    (first = false → s.bit Reg.RNK_STAT 2 = true → Gives (.deepPrepDone [] []) s
      (· = { s with pwr := { s.pwr with ready := true } }))) ∧
  (∀ s : State, s.pwr.target = 1 → refuses s 6 = false) ∧
  (∀ s : State, refuses s 13 = true ↔
    s.pwr.wakeSeen = true ∨ (∃ n, n < 16 ∧ (wakeStat s).getLsbD n = true ∧ s.bit Reg.PWR_WAKE_CFG n = true) ∨
    (∃ e ∈ s.win, s.bit (winOff e.1 Reg.WIN_CTL) 16 = true ∧ winAsserted s e.1 = true) ∨
    (s.pwr.freq.req = true ∨ s.pwr.volt.req = true ∨ s.pwr.fHeld ≠ none ∨ s.pwr.vHeld ≠ none) ∨
    s.fld Reg.PWR_OVR 1 0 < s.pwr.target.toNat ∨ (2 ≤ s.pwr.target.toNat ∧ inSafe s = true)) ∧
  (∀ (s : State) (ref : W64), s.rst.phase = .run → pwrPhase s = 2 →
    ((∀ k, 1 ≤ k → k ≤ 14 → refuses s k = false) →
      (s.pwr.point < 5 → Gives (.consentPoint ref []) s
        (· = { s with pwr := { s.pwr with stopped := s.pwr.point, point := s.pwr.point + 1 } })) ∧
      (s.pwr.point = 5 → Gives (.consentPoint ref []) s fun t => t.count = s.count ∧
        (s.pwr.target = 1 → pwrState t = 1 ∧ pwrPhase t = 0 ∧ t.pwr.stopped = 0) ∧
        (s.pwr.target = 2 → pwrState t = pwrState s ∧ pwrPhase t = 3 ∧ t.pwr.main.req = true ∧ t.mem = s.mem) ∧
        (s.pwr.target = 3 → pwrState t = pwrState s ∧ pwrPhase t = 3 ∧ t.pwr.main = s.pwr.main ∧
          (∀ e ∈ s.coh.lines, (e.1, .flush) ∈ t.coh.drop) ∧ t.pwr.save = s.pwr.save) ∧
        (s.pwr.target = 2 → ∃ v, t.pwr.save = some v ∧ v.snap = ref ∧ v.count = s.count ∧ v.refPer = s.stk.per % 2 ^ 64))) ∧
    (∀ k, 1 ≤ k → k ≤ 14 → refuses s k = true → (∀ j, 1 ≤ j → j < k → refuses s j = false) → s.rst.pendingTrig = none → s.pwr.point ≤ 5 →
      Gives (.consentPoint ref []) s fun t =>
        pwrPhase t = 0 ∧ t.rd Reg.PWR_IDLE_CNT = 0 ∧ t.rd Reg.PWR_ABORT_CNT = satInc (s.rd Reg.PWR_ABORT_CNT) ∧
        t.fld Reg.PWR_LAST_ABORT 6 3 = k ∧ t.fld Reg.PWR_LAST_ABORT 2 0 = s.pwr.point ∧
        t.fld Reg.PWR_LAST_ABORT 9 8 = s.pwr.target.toNat ∧
        (∀ j, 1 ≤ j → j ≤ 14 → t.bit Reg.PWR_LAST_ABORT (9 + j) = refuses s j) ∧
        t.rd (Reg.PWR_LAST_ABORT + 4) = s.count.truncate 32 ∧ t.pwr.stopped = 0 ∧ t.mem = s.mem ∧ t.count = s.count ∧
        t.msg = s.msg ∧ t.rings = s.rings ∧
        (∀ e ∈ s.localPins, e.1 < s.par.targets → ∀ n, n < 16 → t.bit (icfgOff e.1 (16 + n)) 13 = localPin s e.1 n) ∧
        ((∀ e ∈ s.localPins, localUnformed s e.1 = false) → t.tg = s.tg ∧ (s.pwr.wakeSeen = false → pwrState t = pwrState s)) ∧
        (s.pwr.wakeSeen = true → pwrState s = 1 → pwrState t = 0))) ∧
  (∀ (s : State) (ref : W64), pwrPhase s = 3 → s.pwr.main.ack = false →
    (s.pwr.target = 2 → s.pwr.main.req = true → Gives (.clkMainStopAck true ref) s
      (· = { s with pwr := { s.pwr with main := { req := true, ack := true }, ret := { s.pwr.ret with req := true },
                                        errKept := blkErr s } })) ∧
    (s.pwr.target = 3 → cohClean s = true → s.err.queue = [] → refBack s ref = false →
      Gives (.clkMainStopAck true ref) s fun t => ∃ v,
      t = { s with regs := t.regs, pwr := t.pwr, stk := if refLegal s then { s.stk with lastRef := some ref } else s.stk } ∧
      t.bit Reg.PWR_STAT 5 = true ∧ t.bit Reg.PWR_STAT 6 = false ∧
      t.fld Reg.PWR_STAT 4 0 = s.fld Reg.PWR_STAT 4 0 ∧ RegsApart s t [Reg.PWR_STAT] ∧
      t.pwr = { s.pwr with main := { req := true, ack := true }, fast := { s.pwr.fast with req := true }, save := some v,
                           errKept := blkErr s } ∧
      v = saveSet s ref ∧ v.snap = ref ∧ v.count = s.count ∧ v.refPer = s.stk.per % 2 ^ 64 ∧
      (s.par.targets ≤ 128 → v.ok = true))) ∧
  (∀ (s : State) (ref : W64), s.pwr.main.ack = true → s.pwr.main.req = false → Gives (.clkMainStopAck false ref) s
    (· = { s with pwr := { s.pwr with main := { req := false, ack := false } } })) ∧
  (∀ s : State,
    (s.pwr.fast = { req := true, ack := false } → Gives (.clkFastStopAck true) s
      (· = { s with pwr := { s.pwr with fast := { req := true, ack := true }, off := { s.pwr.off with req := true } } })) ∧
    (s.pwr.fast = { req := false, ack := true } → Gives (.clkFastStopAck false) s
      (· = { s with pwr := { s.pwr with fast := { req := false, ack := false } } }))) ∧
  (∀ (s : State) (ref : W64), pwrPhase s = 3 → s.pwr.ret = { req := true, ack := false } → s.pwr.latched = none →
    (wakeOn s).isEmpty = true → s.bur.a.ipend &&& s.bur.a.imask = 0 → s.bur.b.ipend &&& s.bur.b.imask = 0 →
    Gives (.pwrRetAck true ref) s fun t =>
      let r := (s.rd Reg.PWR_IDLE_DEEP).toNat - (s.rd Reg.PWR_IDLE_CNT).toNat
      let hz := oppMhz s (fAck s) * 1000000
      t = { s with regs := t.regs, pwr := t.pwr } ∧ pwrState t = 2 ∧ pwrPhase t = 4 ∧ t.pwr.ret = { req := true, ack := true } ∧
      (r = 0 → t.pwr.countdown = none) ∧
      (0 < r → 0 < hz → ∃ c, t.pwr.countdown = some c ∧ r * s.fld Reg.STK_LEN 6 0 * 32768 ≤ c * hz ∧
        c * hz < r * s.fld Reg.STK_LEN 6 0 * 32768 + hz)) ∧
  ∀ s : State, pwrPhase s = 3 → s.pwr.off = { req := true, ack := false } → s.pwr.latched = none → (wakeOn s).isEmpty = true →
    Gives (.pwrOffAck true) s fun t =>
      pwrState t = 3 ∧ pwrPhase t = 4 ∧ t.pwr.off = { req := true, ack := true } ∧ t.sbd.token = none ∧ t.count = s.count ∧
      t.mem = s.mem ∧ t.tg = s.tg ∧ ∀ u, (t.core u).st = .off ∧ (t.core u).code = []

/-- An enabled wake input that is asserted, and a wake-capable line that stands at the state of its POL for the samples of its
filter, wake NAP and DEEP with their codes, and one that does not is but seen; the countdown wakes NAP with code 6; a
waiting port access wakes DOZE with code 5. The falling acknowledges lead on: time advances by R189 and fast running begins,
after DEEP with the save set restored or, when its header or CRC fails or a word of the save SRAM cannot be corrected, with
every lock set; only the latter is an uncorrectable error. That the count is then 0, and that the TAG is the wake's
snapshot, is the model's choice (logs 50, 87); how far length and CRC reach is its reading (log 96). SWITCH_BACK returns to
RUN, TARGET_RESTORE_DONE puts the targets back and sets TREST; after a warm reset that has come between it sets TREST alone,
which is the model's choice (log 89). TO_MAIN, the release of the held outputs, and DVFS requests issued in the voltage
order of R423, held otherwise, act as R416, R420 and R424 say. (R402, R404, R406, R412, R414, R416, R417, R418, R420, R421,
R423, R424) -/
def Obligations.PowerWakeAndPoints : Prop :=
  (∀ (s : State) (n : BitVec 4) (lvl : Bool),
    (pwrPhase s = 0 → pwrState s = 0 → Gives (.wakeInput (.input n lvl)) s fun t => t = { s with pwr := { s.pwr with wakeIn := t.pwr.wakeIn } } ∧
      ∀ i, i < 16 → t.pwr.wakeIn.getLsbD i = if i = n.toNat then lvl else s.pwr.wakeIn.getLsbD i) ∧
    (pwrPhase s = 4 → pwrState s = 2 ∨ pwrState s = 3 → s.pwr.step < 12 → s.bit Reg.PWR_WAKE_CFG n.toNat = true →
      lvl = !s.bit Reg.PWR_WAKE_CFG (16 + n.toNat) → Gives (.wakeInput (.input n lvl)) s fun t =>
        t.rd Reg.PWR_LAST_WAKE = BitVec.ofNat 32 (1 + n.toNat * 16 + pwrState s * 2 ^ 16) ∧ t.pwr.step = 12 ∧
        (pwrState s = 2 → t.pwr.ret.req = false ∧ t.pwr.countdown = none) ∧ (pwrState s = 3 → t.pwr.off.req = false) ∧
        RegsApart s t [Reg.PWR_LAST_WAKE])) ∧
  (∀ (s : State) (n : BitVec 12), pwrPhase s = 4 → pwrState s = 2 ∨ pwrState s = 3 → s.pwr.step < 12 → n.toNat < s.par.wired →
    ∀ (lvl : Bool) (samples : BitVec 17),
    let k := n.toNat
    let asserted := s.bit (winOff k Reg.WIN_CTL) 16 = true ∧ lvl ≠ winPol s k
    let long := (if s.bit (winOff k Reg.WIN_FILT) 16 = true then s.fld (winOff k Reg.WIN_FILT) 15 0 else 0) < samples.toNat
    (asserted ∧ long → Gives (.wakeInput (.line n lvl samples)) s fun t =>
      t.rd Reg.PWR_LAST_WAKE = BitVec.ofNat 32 (2 + k * 16 + pwrState s * 2 ^ 16) ∧ t.pwr.wokeLine = some k ∧
      t.pwr.step = 12 ∧ RegsApart s t [Reg.PWR_LAST_WAKE] ∧ t.line k = { s.line k with pin := lvl }) ∧
    (¬ (asserted ∧ long) → Gives (.wakeInput (.line n lvl samples)) s fun t =>
      t = { s with win := t.win } ∧ t.line k = { s.line k with pin := lvl } ∧ ∀ j, j ≠ k → t.line j = s.line j)) ∧
  (∀ s : State, pwrPhase s = 4 → pwrState s = 2 → s.pwr.step < 12 → s.pwr.countdown ≠ none → Gives .deepCountdown s fun t =>
    t.rd Reg.PWR_LAST_WAKE = BitVec.ofNat 32 (6 + 2 * 2 ^ 16) ∧ t.rd Reg.PWR_IDLE_CNT = s.rd Reg.PWR_IDLE_DEEP ∧
    t.pwr.prepNext = true ∧ t.pwr.ret.req = false ∧ RegsApart s t [Reg.PWR_LAST_WAKE, Reg.PWR_IDLE_CNT]) ∧
  (∀ (s : State) (p : Option (BitVec 7)),
    (pwrPhase s = 0 → pwrState s = 1 → Gives (.portValidWithoutReady p) s fun t => pwrState t = 0 ∧ pwrPhase t = 0 ∧
      t.rd Reg.PWR_LAST_WAKE = BitVec.ofNat 32 (5 + 2 ^ 16) ∧ RegsApart s t [Reg.PWR_STAT, Reg.PWR_LAST_WAKE] ∧
      t = { s with regs := t.regs }) ∧
    (pwrPhase s = 2 → Gives (.portValidWithoutReady p) s fun t => t.pwr.wakeSeen = true ∧ t.regs = s.regs)) ∧
  (∀ (s : State) (ref : W64) (v : Save), pwrPhase s = 4 → s.pwr.ret = { req := false, ack := true } → s.pwr.save = some v →
    (∀ n, s.pwr.wokeLine = some n → n < 4096) → Gives (.pwrRetAck false ref) s fun t =>
      let hz := (s.rd Reg.GLB_REFCNT_HZ).toNat
      let adv := if 1000000 ≤ hz ∧ hz ≤ 1000000000 ∧ v.refPer ≠ 0 then (ref - v.snap).toNat * 2 ^ 32 / v.refPer else 0
      pwrPhase t = 5 ∧ t.count = s.count + BitVec.ofNat 48 adv ∧ t.pwr.ret = { req := false, ack := false } ∧
      t.pwr.main.req = false ∧ t.bit Reg.STK_STAT 14 = true ∧ t.bit Reg.PWR_CTRL 1 = (s.bit Reg.PWR_CTRL 1 || s.bit Reg.PWR_CTRL 0) ∧
      (t.rd64 Reg.STK_SLEEP_ADV).toNat = adv % 2 ^ 48) ∧
  (∀ s : State, s.pwr.off = { req := false, ack := true } → Gives (.pwrOffAck false) s
    (· = { s with pwr := { s.pwr with off := { req := false, ack := false }, fast := { s.pwr.fast with req := false } } })) ∧
  (∀ (s : State) (ref : W64) (bad : Option (BitVec 16)) (flips : List (BitVec 13 × Byte)), pwrPhase s = 4 → pwrState s = 3 →
    12 ≤ s.pwr.step → s.pwr.off = { req := false, ack := false } → s.pwr.fast = { req := false, ack := false } →
    let read := (s.pwr.save.map fun v => v.flip flips).filter Save.ok
    Gives (.deepDomainRestore ref bad flips) s fun t =>
      pwrPhase t = 5 ∧ pwrState t = 3 ∧ t.pwr.main.req = false ∧ t.bit Reg.GLB_STATUS 0 = true ∧ t.prf.hold = true ∧
      t.tg = [] ∧ t.rings = [] ∧ t.mem = s.mem ∧
      (∀ u, (t.core u).st = (if holdBit t u then .held else .boot) ∧ (t.core u).code = []) ∧
      (∀ v, bad = none → read = some v → t.pnl.saved = v.panels ∧
        ∀ off w, Tbl.find (savedWords s.par.targets v) off = some w → (off = Reg.STK_ERR → v.snap.toNat ≤ ref.toNat) →
        t.rd off = (regReset s.par off &&& ~~~saveMask s off) |||
          (if off = Reg.RNK_CTRL ∨ off = Reg.PNL_CTRL then w &&& ~~~1 else w)) ∧
      (bad ≠ none ∨ read = none → t.rd Reg.GLB_LOCK = 0x1F ∧ t.bit Reg.PWR_ERR 0 = true ∧ t.count = 0 ∧ t.pnl.saved = false) ∧
      (bad ≠ none → t.bit Reg.GLB_ECC 1 = true) ∧ (bad = none → read = none → t.bit Reg.GLB_ECC 1 = false) ∧
      t.wft.tag = ref.truncate 32 ∧ t.wft.keepCount = (decide (s.wft.jst = .joined) || s.wft.keepCount)) ∧
  (∀ s : State, s.rst.phase = .run → s.pwr.switchDue = true → s.rst.pinAfterWake = false → s.rst.pendingTrig = none →
    Gives .switchBack s fun t =>
      pwrState t = 0 ∧ pwrPhase t = 0 ∧ t.bit Reg.STK_STAT 14 = false ∧ t.bit Reg.PWR_CTRL 1 = false ∧
      t.pwr = { s.pwr with switchDue := false, restore := s.pwr.restore || decide (pwrState s = 3),
                           restoreCut := s.pwr.restoreCut && !decide (pwrState s = 3) } ∧
      (s.stk.snapDue = none → t.stk.snapDue = some .measure) ∧
      t = { s with regs := t.regs, pwr := t.pwr, stk := t.stk }) ∧
  (∀ (s : State) (bad : List (BitVec 7)), s.rst.phase = .run → pwrPhase s = 0 → pwrState s = 0 → s.pwr.restore = true →
    s.pwr.restoreCut = false →
    let lost := fun (k : Nat) => s.lostIn .tgtSave (tsaveAddr s k) 512
    Gives (.targetRestoreDone bad) s fun t =>
      t.pwr.restore = false ∧ t.bit Reg.PWR_STAT 6 = true ∧
      t.bit Reg.PWR_STAT 5 = (s.bit Reg.PWR_STAT 5 && !s.pwr.relWait) ∧
      (∀ k, k < s.par.targets → (∀ b ∈ bad, b.toNat ≠ k) → lost k = false → k ∉ s.pwr.tsaveBad →
        (t.tgt k).phys = tsaveCtx s k ∧ (t.tgt k).nsfloor = tsaveFloor s k) ∧
      (∀ k, k < s.par.targets → (∃ b ∈ bad, b.toNat = k) ∨ lost k = true →
        (t.tgt k).phys = (s.tgt k).phys ∧ t.bit Reg.PWR_ERR 2 = true) ∧
      (∀ k ∈ s.pwr.tsaveBad, (t.tgt k).phys = (s.tgt k).phys) ∧
      ((savedWord s Reg.RNK_CTRL).getLsbD 0 = true → t.rnkEn = true) ∧
      ((savedWord s Reg.PNL_CTRL).getLsbD 0 = true → t.bit Reg.PNL_CTRL 0 = true)) ∧
  (∀ (s : State) (bad : List (BitVec 7)), s.rst.phase = .run → pwrPhase s = 0 → pwrState s = 0 → s.pwr.restore = true →
    s.pwr.restoreCut = true → Gives (.targetRestoreDone bad) s fun t =>
      t = { s with regs := t.regs, pwr := { s.pwr with restore := false, restoreCut := false, relWait := false } } ∧
      t.bit Reg.PWR_STAT 6 = true ∧ t.bit Reg.PWR_STAT 5 = (s.bit Reg.PWR_STAT 5 && !s.pwr.relWait) ∧
      RegsApart s t [Reg.PWR_STAT]) ∧
  (∀ (s : State) (acc : RegAcc), Admits s acc → acc.priv = true → acc.data.getLsbD 1 = true →
    running s = true ∨ (s.rst.phase = .run ∧ pwrPhase s = 5 ∧ acc.src ≠ .port) → Gives (.pwrToMain acc) s fun t =>
      t = { seen s acc Reg.PWR_CTRL with regs := t.regs } ∧ t.bit Reg.PWR_CTRL 1 = true ∧
      t.bit Reg.PWR_CTRL 0 = acc.data.getLsbD 0 ∧ RegsApart s t [Reg.PWR_CTRL]) ∧
  (∀ (s : State) (acc : RegAcc), Admits s acc → acc.priv = true → acc.data.getLsbD 0 = true → running s = true →
    Gives (.pwrHoldRelease acc) s fun t =>
      t = { seen s acc Reg.PWR_HOLD_RELEASE with
            regs := t.regs
            pwr := { s.pwr with relWait := s.pwr.relWait || (s.bit Reg.PWR_STAT 5 && !s.bit Reg.PWR_STAT 6) } } ∧
      t.bit Reg.PWR_STAT 5 = (s.bit Reg.PWR_STAT 5 && !s.bit Reg.PWR_STAT 6) ∧
      (∀ i, i ≠ 5 → t.bit Reg.PWR_STAT i = s.bit Reg.PWR_STAT i) ∧ RegsApart s t [Reg.PWR_STAT]) ∧
  (∀ (s : State) (acc : RegAcc), Admits s acc → acc.priv = true → running s = true →
    s.pwr.freq = { req := false, ack := false } → s.pwr.volt = { req := false, ack := false } →
    let f : BitVec 3 := acc.data.extractLsb' 0 3
    let v : BitVec 3 := acc.data.extractLsb' 4 3
    let fGo := decide (f.toNat ≠ fAck s ∧ oppMv s f.toNat ≤ oppMv s (vAck s))
    let vGo := decide (v.toNat ≠ vAck s ∧ oppMv s (fAck s) ≤ oppMv s v.toNat ∧
      (fGo = true → oppMv s f.toNat ≤ oppMv s v.toNat))
    Gives (.pwrDvfsReqWrite acc) s fun t =>
      t = { seen s acc Reg.PWR_DVFS_REQ with regs := t.regs, pwr := t.pwr, stk := t.stk } ∧
      t.rd Reg.PWR_DVFS_REQ &&& 0x77 = acc.data &&& 0x77 ∧ t.pwr.freq.req = fGo ∧ t.pwr.volt.req = vGo ∧
      (fGo = true → t.pwr.freqPt = f ∧ t.stk.freqOut = true) ∧ (vGo = true → t.pwr.voltPt = v) ∧
      t.pwr.fHeld = (if f.toNat ≠ fAck s ∧ fGo = false then some f else none) ∧
      t.pwr.vHeld = (if v.toNat ≠ vAck s ∧ vGo = false then some v else none) ∧
      t.bit Reg.PWR_DVFS_STATUS 8 = fGo ∧ t.bit Reg.PWR_DVFS_STATUS 9 = vGo ∧
      t.bit Reg.PWR_DVFS_STATUS 10 = t.pwr.fHeld.isSome ∧ t.bit Reg.PWR_DVFS_STATUS 11 = t.pwr.vHeld.isSome ∧
      RegsApart s t [Reg.PWR_DVFS_REQ, Reg.PWR_DVFS_STATUS]) ∧
  ∀ s : State, dvfsUp s = true → s.pwr.fHeld = none → s.pwr.vHeld = none →
    (s.pwr.freq = { req := true, ack := false } → Gives (.dvfsFreqAck true) s fun t =>
      t = { s with regs := t.regs, stk := { s.stk with freqAck := true },
                   pwr := { s.pwr with freq := { req := false, ack := true } } } ∧
      t.fld Reg.PWR_DVFS_STATUS 2 0 = s.pwr.freqPt.toNat ∧ vAck t = vAck s) ∧
    (s.pwr.freq = { req := false, ack := true } → Gives (.dvfsFreqAck false) s fun t =>
      t = { s with regs := t.regs, pwr := { s.pwr with freq := { req := false, ack := false } } } ∧ fAck t = fAck s) ∧
    (s.pwr.volt = { req := true, ack := false } → Gives (.dvfsVoltAck true) s fun t =>
      t = { s with regs := t.regs, pwr := { s.pwr with volt := { req := false, ack := true } } } ∧
      t.fld Reg.PWR_DVFS_STATUS 6 4 = s.pwr.voltPt.toNat ∧ fAck t = fAck s) ∧
    (s.pwr.volt = { req := false, ack := true } → Gives (.dvfsVoltAck false) s fun t =>
      t = { s with regs := t.regs, pwr := { s.pwr with volt := { req := false, ack := false } } } ∧ vAck t = vAck s)

/-- ADD, SUB, AND, OR, XOR, SHL, SHR, SAR, MUL and CRC write rd with ra func rb, CMP writes no register; Z and N follow the
result, ADD, SUB and CMP alone set C and V (carry out, no borrow, signed overflow), the other flags stand, the PC advances
by 4, and nothing else of the block changes. ADDI and CMPI extend the sign of imm18, ANDI, ORI and XORI fill with zeros, SHI
shifts by five bits left, right or with the sign, LUI writes imm18 << 14; flags as R332 marks them, the PC advances by 4,
and nothing else of the block changes. (R332, R328, R335, R331) -/
def Obligations.BurinArithmetic : Prop :=
  (∀ (s : State) (u : Bur) (rd ra rb : RegNo), BurSteps s u →
    let c := s.core u
    let a := c.gr ra
    let b := c.gr rb
    (∀ p ∈ [(Instr.and u rd ra rb, a &&& b), (.or u rd ra rb, a ||| b), (.xor u rd ra rb, a ^^^ b),
        (.shl u rd ra rb, a <<< (b.toNat % 32)), (.shr u rd ra rb, a >>> (b.toNat % 32)),
        (.sar u rd ra rb, a.sshiftRight (b.toNat % 32)), (.mul u rd ra rb, a * b), (.crc u rd ra rb, crcWord a b)],
      Gives p.1 s fun t => Retired s t u [(rd, p.2)] [] (c.pc + 4) ∧ FlagsZN c.flags (t.core u).flags p.2) ∧
    Gives (.add u rd ra rb) s (fun t => Retired s t u [(rd, a + b)] [] (c.pc + 4) ∧
      FlagsZNCV c.flags (t.core u).flags (a + b) (decide (2 ^ 32 ≤ a.toNat + b.toNat))
        (decide ((a + b).toInt ≠ a.toInt + b.toInt))) ∧
    Gives (.sub u rd ra rb) s (fun t => Retired s t u [(rd, a - b)] [] (c.pc + 4) ∧
      FlagsZNCV c.flags (t.core u).flags (a - b) (decide (b.toNat ≤ a.toNat)) (decide ((a - b).toInt ≠ a.toInt - b.toInt))) ∧
    Gives (.cmp u ra rb) s (fun t => Retired s t u [] [] (c.pc + 4) ∧
      FlagsZNCV c.flags (t.core u).flags (a - b) (decide (b.toNat ≤ a.toNat)) (decide ((a - b).toInt ≠ a.toInt - b.toInt)))) ∧
  (∀ (s : State) (u : Bur) (rd ra : RegNo) (imm : BitVec 18) (amt : BitVec 5), BurSteps s u →
    let c := s.core u
    let a := c.gr ra
    let i := imm.signExtend 32
    let z := imm.zeroExtend 32
    (∀ p ∈ [(Instr.andi u rd ra imm, a &&& z), (.ori u rd ra imm, a ||| z), (.xori u rd ra imm, a ^^^ z),
        (.shiLeft u rd ra amt, a <<< amt.toNat), (.shiRight u rd ra amt, a >>> amt.toNat),
        (.shiArith u rd ra amt, a.sshiftRight amt.toNat)],
      Gives p.1 s fun t => Retired s t u [(rd, p.2)] [] (c.pc + 4) ∧ FlagsZN c.flags (t.core u).flags p.2) ∧
    Gives (.lui u rd imm) s (fun t => Retired s t u [(rd, z <<< 14)] [] (c.pc + 4) ∧ (t.core u).flags = c.flags) ∧
    Gives (.addi u rd ra imm) s (fun t => Retired s t u [(rd, a + i)] [] (c.pc + 4) ∧
      FlagsZNCV c.flags (t.core u).flags (a + i) (decide (2 ^ 32 ≤ a.toNat + i.toNat))
        (decide ((a + i).toInt ≠ a.toInt + i.toInt))) ∧
    Gives (.cmpi u ra imm) s (fun t => Retired s t u [] [] (c.pc + 4) ∧
      FlagsZNCV c.flags (t.core u).flags (a - i) (decide (i.toNat ≤ a.toNat)) (decide ((a - i).toInt ≠ a.toInt - i.toInt))))

/-- LDB, LDH and LDW read 1, 2 or 4 bytes, zero-extended, at ra + sext(imm18), LDD two words into an even rd and its successor,
LDWP one word at ra and then steps ra; the loaded registers take their values after the next instruction, flags stand, the
PC advances by 4, and nothing else of the block changes but how the table cache has used the line. At a block register each
gives what a privileged and secure access of its width reads there, with what that access does; a word outside the target
frames gives its fields. A load whose line the table cache lacks waits. (R332, R329, R330, R335, R333, R313, R377, R217) -/
def Obligations.BurinLoads : Prop :=
  ∀ (s : State) (u : Bur) (rd ra : RegNo) (imm : BitVec 18) (fail : Bool), BurSteps s u →
    let c := s.core u
    let a := c.gr ra + imm.signExtend 32
    (∀ p ∈ [(Instr.ldb u rd ra imm fail, 1), (.ldh u rd ra imm fail, 2), (.ldw u rd ra imm fail, 4)],
      a.toNat % p.2 = 0 → Loadable s u a p.2 fail →
      Gives p.1 s fun t => LoadServed s t a ∧
        Retired (withCache s t) t u [] [(rd, BitVec.ofNat 32 (loadAt s u a p.2))] (c.pc + 4) ∧ (t.core u).flags = c.flags) ∧
    (rd.getLsbD 0 = false → a.toNat % 8 = 0 → Loadable s u a 8 fail →
      Gives (.ldd u rd ra imm fail) s fun t => LoadServed s t a ∧
        Retired (withCache s t) t u [] [(rd, BitVec.ofNat 32 (loadAt s u a 4)), (rd + 1, BitVec.ofNat 32 (loadAt s u (a + 4) 4))]
          (c.pc + 4) ∧ (t.core u).flags = c.flags) ∧
    (rd ≠ ra → (c.gr ra).toNat % 4 = 0 → Loadable s u (c.gr ra) 4 fail →
      Gives (.ldwp u rd ra imm fail) s fun t => LoadServed s t (c.gr ra) ∧
        Retired (withCache s t) t u [(ra, a)] [(rd, BitVec.ofNat 32 (loadAt s u (c.gr ra) 4))] (c.pc + 4) ∧
        (t.core u).flags = c.flags) ∧
    (∀ p ∈ [(Instr.ldb u rd ra imm fail, a, 1), (.ldh u rd ra imm fail, a, 2), (.ldw u rd ra imm fail, a, 4)] ++
        (if rd.getLsbD 0 then [] else [(.ldd u rd ra imm fail, a, 8)]) ++
        (if rd = ra then [] else [(.ldwp u rd ra imm fail, c.gr ra, 4)]),
      p.2.1.toNat % p.2.2 = 0 → regionOf p.2.1 = .host → running s = true → fail = false →
      ¬ Held s (hostAddr c p.2.1) p.2.2 → Gives p.1 s (· = s)) ∧
    (running s = true → ∀ (x : State) (w : W64),
      let lo : Nat → RegNo × W32 := fun off => (rd, (downLane w off).truncate 32)
      ∀ p ∈ [(Instr.ldb u rd ra imm fail, a, 0, [], []), (.ldh u rd ra imm fail, a, 1, [], []), (.ldw u rd ra imm fail, a, 2, [], [])] ++
          (if rd.getLsbD 0 then [] else [(.ldd u rd ra imm fail, a, 3, [], [(rd + 1, (w >>> 32).truncate 32)])]) ++
          (if rd = ra then [] else [(.ldwp u rd ra imm fail, c.gr ra, 2, [(ra, a)], [])]),
        let off := p.2.1.toNat - 0x1000000
        regionOf p.2.1 = .block → p.2.1.toNat % 2 ^ p.2.2.1 = 0 → frameWaits s off = false →
        busRead s off p.2.2.1 true true (burSrc u) = some (x, w) → x.core u = c → Serves s x → x.coh.failed = s.coh.failed →
        Gives p.1 s fun t => Retired x t u p.2.2.2.1 (lo off :: p.2.2.2.2) (c.pc + 4) ∧ (t.core u).flags = c.flags) ∧
    (running s = true → regionOf a = .block → a.toNat % 4 = 0 →
      let off := a.toNat - 0x1000000
      builtFor s (burSrc u) off = true → isTgtOff off = false → Gives (.ldw u rd ra imm fail) s fun t =>
        Retired s t u [] [(rd, regRead s off true true)] (c.pc + 4) ∧ (t.core u).flags = c.flags)

/-- STB, STH and STW store the low 1, 2 or 4 bytes of rd at ra + sext(imm18), STD the even rd and its successor, STWP one word
at ra and then steps ra; every other byte of host memory and of data SRAM reads as before, and nothing else of the block
changes but the PC and the state of the lines. Host-window stores are stated outside SAFE; one whose line the table cache
does not hold E or M waits. At a block register each writes as a privileged and secure access of its width does; a legal
length of STK_LEN is taken. ATOR loads the word at ra into rd (after the next instruction) and stores it with the bits of rb
set, ATCLR with the bits of rb cleared, in data SRAM and the host window; on an aligned address in any other region both
raise BUS while T is 0. (R332, R329, R330, R435, R313, R382, R335) -/
def Obligations.BurinStores : Prop :=
  (∀ (s : State) (u : Bur) (rd ra : RegNo) (imm : BitVec 18) (fail : Bool), BurSteps s u →
    let c := s.core u
    let a := c.gr ra + imm.signExtend 32
    (∀ p ∈ [(Instr.stb u rd ra imm fail, 1), (.sth u rd ra imm fail, 2), (.stw u rd ra imm fail, 4)],
      a.toNat % p.2 = 0 → Storable s u a p.2 fail →
      Gives p.1 s fun t => Stored s t u a p.2 (c.gr rd).toNat ∧ Retired (withStore s t u) t u [] [] (c.pc + 4) ∧
        (t.core u).flags = c.flags) ∧
    (rd.getLsbD 0 = false → a.toNat % 8 = 0 → Storable s u a 8 fail →
      Gives (.std u rd ra imm fail) s fun t => Stored s t u a 8 ((c.gr rd).toNat + 2 ^ 32 * (c.gr (rd + 1)).toNat) ∧
        Retired (withStore s t u) t u [] [] (c.pc + 4) ∧ (t.core u).flags = c.flags) ∧
    ((c.gr ra).toNat % 4 = 0 → Storable s u (c.gr ra) 4 fail →
      Gives (.stwp u rd ra imm fail) s fun t => Stored s t u (c.gr ra) 4 (c.gr rd).toNat ∧
        Retired (withStore s t u) t u [(ra, a)] [] (c.pc + 4) ∧ (t.core u).flags = c.flags) ∧
    (let pair : W64 := c.gr (rd + 1) ++ c.gr rd
     ∀ p ∈ [(Instr.stb u rd ra imm fail, a, 0, (c.gr rd).zeroExtend 64, []), (.sth u rd ra imm fail, a, 1, (c.gr rd).zeroExtend 64, []),
          (.stw u rd ra imm fail, a, 2, (c.gr rd).zeroExtend 64, []), (.stwp u rd ra imm fail, c.gr ra, 2, (c.gr rd).zeroExtend 64, [(ra, a)])] ++
          (if rd.getLsbD 0 then [] else [(.std u rd ra imm fail, a, 3, pair, [])]),
        p.2.1.toNat % 2 ^ p.2.2.1 = 0 → running s = true →
        (regionOf p.2.1 = .host → fail = false → inSafe s = false → ¬ Owned s (hostAddr c p.2.1) (2 ^ p.2.2.1) →
          Gives p.1 s (· = s)) ∧
        (let off := p.2.1.toNat - 0x1000000
         regionOf p.2.1 = .block → vpeWaits s off = false → busWords s off p.2.2.1 (burSrc u) ≠ [] → s.coh.failed = [] →
         ∃ x, Retired s x u p.2.2.2.2 [] (c.pc + 4) ∧ (x.core u).flags = c.flags ∧
           let t := (busWrite (trigOver x) off p.2.2.1 (upLane p.2.2.2.1 off) true true (burSrc u)).1
           (Serves s t → t.coh.failed = [] → Gives p.1 s (· = t)) ∧
           (off = Reg.STK_LEN → p.2.2.1 = 2 → 24 ≤ p.2.2.2.1.toNat % 128 → p.2.2.2.1.toNat % 128 ≤ 64 →
             Gives p.1 s fun t => t = { trigOver x with regs := t.regs, prf := t.prf } ∧
               t.fld Reg.STK_LEN 6 0 = p.2.2.2.1.toNat % 128 ∧ RegsApart s t [Reg.STK_LEN])))) ∧
  (∀ (s : State) (u : Bur) (rd ra rb : RegNo) (fail : Bool), BurSteps s u →
    let c := s.core u
    let a := c.gr ra
    let old : W32 := BitVec.ofNat 32 (loadAt s u a 4)
    a.toNat % 4 = 0 →
    ∀ p ∈ [(Instr.ator u rd ra rb fail, old ||| c.gr rb), (.atclr u rd ra rb fail, old &&& ~~~(c.gr rb))],
      (Storable s u a 4 fail →
        Gives p.1 s fun t => Stored s t u a 4 p.2.toNat ∧ Retired (withStore s t u) t u [] [(rd, old)] (c.pc + 4) ∧
          (t.core u).flags = c.flags) ∧
      (regionOf a ≠ .data → regionOf a ≠ .host → flagT c.flags = false →
        Gives p.1 s fun t => Trapped s t u 2 c.pc a 0))

/-- While T is 0, a load or store at an address that is not a multiple of its width takes the ALIGN trap, and an aligned one at
an unmapped address, a store to the boot ROM, a store to code SRAM by an instruction outside the boot ROM, a host-window
access that failed, or one of a block register that the register port would answer with a bus error takes the BUS trap;
either names the instruction and the data address and changes nothing else. With T 0: LDW at 0x0020_0000 plus a listed
offset of R345 loads that register (the write-only ones read as 0), a counting TIMER being read as one of the values that it
has still to count down; STW to TPC, TFLAGS, TREP, IMASK, SP_LO, SP_HI, HWIN, TIMER and VETO writes it, to IPEND clears the
bits written with 1, to HB beats; a byte, halfword or 64-bit access there, or a word access at an offset not listed, takes
the BUS trap. The value that a counting TIMER reads is the model's free value (log 20). IMASK is stated where no interrupt
can wake the block. (R329, R330, R341, R342, R335, R321, R345) -/
def Obligations.BurinAccessRules : Prop :=
  (∀ (s : State) (u : Bur) (rd ra : RegNo) (imm : BitVec 18) (fail : Bool), BurSteps s u →
    let c := s.core u
    let a := c.gr ra + imm.signExtend 32
    let b := c.gr ra
    flagT c.flags = false →
    let lds := [(Instr.ldb u rd ra imm fail, a, 1), (.ldh u rd ra imm fail, a, 2), (.ldw u rd ra imm fail, a, 4)] ++
      (if rd.getLsbD 0 then [] else [(.ldd u rd ra imm fail, a, 8)]) ++
      (if rd = ra then [] else [(.ldwp u rd ra imm fail, b, 4)])
    let sts := [(Instr.stb u rd ra imm fail, a, 1), (.sth u rd ra imm fail, a, 2), (.stw u rd ra imm fail, a, 4),
      (.stwp u rd ra imm fail, b, 4)] ++ (if rd.getLsbD 0 then [] else [(.std u rd ra imm fail, a, 8)])
    (∀ p ∈ lds ++ sts, p.2.1.toNat % p.2.2 ≠ 0 → Gives p.1 s fun t => Trapped s t u 1 c.pc p.2.1 0) ∧
    (∀ p ∈ lds ++ sts, p.2.1.toNat % p.2.2 = 0 →
      let off := p.2.1.toNat - 0x1000000
      regionOf p.2.1 = .none ∨ (regionOf p.2.1 = .host ∧ running s = true ∧ fail = true) ∨
        (regionOf p.2.1 = .block ∧ running s = true ∧ busWords s off (Nat.log2 p.2.2) (burSrc u) = []) →
      Gives p.1 s fun t => Trapped s t u 2 c.pc p.2.1 0) ∧
    (∀ x : State, s = x.forget (.burin u) → ∀ p ∈ lds ++ sts, p.2.1.toNat % p.2.2 = 0 → regionOf p.2.1 = .host →
      running s = true → x.lost (.burin u) (hostAddr c p.2.1) = true → Gives p.1 x fun t => Trapped s t u 2 c.pc p.2.1 0) ∧
    (∀ p ∈ sts, p.2.1.toNat % p.2.2 = 0 →
      regionOf p.2.1 = .rom ∨ (regionOf p.2.1 = .code ∧ regionOf c.pc ≠ .rom) →
      Gives p.1 s fun t => Trapped s t u 2 c.pc p.2.1 0)) ∧
  (∀ (s : State) (u : Bur) (rd ra : RegNo) (imm : BitVec 18) (fail : Bool), BurSteps s u → flagT (s.core u).flags = false →
    let c := s.core u
    let a := c.gr ra + imm.signExtend 32
    let o := a.toNat - 0x200000
    regionOf a = .loc →
    (∀ p ∈ [(0x00, whoami s u), (0x04, c.tpc), (0x08, c.tflags), (0x0C, c.tcause), (0x10, c.taddr), (0x14, c.trep),
        (0x18, c.ipend), (0x1C, c.imask), (0x20, c.spLo), (0x24, c.spHi), (0x28, 0),
        (0x2C, BitVec.ofNat 32 (256 - s.bur.win + c.miss * 2 ^ 9 + (s.core (burOther u)).miss * 2 ^ 12)), (0x30, c.hwin), (0x34, 0),
        (0x38, c.peerIn), (0x40, c.veto), (0x44, c.hostIn), (0x48, 0)], o = p.1 →
      Gives (.ldw u rd ra imm fail) s fun t => Retired s t u [] [(rd, p.2)] (c.pc + 4) ∧ (t.core u).flags = c.flags) ∧
    (∀ p ∈ [(0x04, { c with tpc := c.gr rd }), (0x08, { c with tflags := c.gr rd }), (0x20, { c with spLo := c.gr rd }),
        (0x24, { c with spHi := c.gr rd }), (0x18, { c with ipend := c.ipend &&& ~~~(c.gr rd) }), (0x28, { c with beat := true }),
        (0x14, { c with trep := c.gr rd }), (0x30, { c with hwin := c.gr rd &&& 0x1FFFFF }), (0x40, { c with veto := c.gr rd &&& 1 })],
      o = p.1 → Gives (.stw u rd ra imm fail) s fun t =>
        Retired (s.setCore u p.2) t u [] [] (c.pc + 4) ∧ (t.core u).flags = c.flags) ∧
    (o = 0x1C → pwrPhase s ∉ [2, 3, 4] → Gives (.stw u rd ra imm fail) s fun t =>
        Retired (s.setCore u { c with imask := c.gr rd }) t u [] [] (c.pc + 4) ∧ (t.core u).flags = c.flags) ∧
    (o = 0x3C →
      (c.timer = 0 → Gives (.ldw u rd ra imm fail) s fun t => Retired s t u [] [(rd, 0)] (c.pc + 4) ∧ (t.core u).flags = c.flags) ∧
      (c.timer ≠ 0 → Gives (.ldw u rd ra imm fail) s fun t => ∃ v : W32, 1 ≤ v.toNat ∧ v.toNat ≤ c.timer.toNat ∧
        Retired (s.setCore u { c with timer := v }) t u [] [(rd, v)] (c.pc + 4) ∧ (t.core u).flags = c.flags) ∧
      Gives (.stw u rd ra imm fail) s fun t => t = s.setCore u (t.core u) ∧ (t.core u).timer = c.gr rd ∧
        (t.core u).pc = c.pc + 4 ∧ (t.core u).flags = c.flags ∧ ∀ r, (t.core u).gr r = leaves c [] r) ∧
    (o % 4 = 0 → 0x48 < o → ∀ i ∈ [Instr.ldw u rd ra imm fail, .stw u rd ra imm fail],
        Gives i s fun t => Trapped s t u 2 c.pc a 0) ∧
    (∀ p ∈ [(Instr.ldb u rd ra imm fail, 1), (.stb u rd ra imm fail, 1), (.ldh u rd ra imm fail, 2), (.sth u rd ra imm fail, 2)] ++
        (if rd.getLsbD 0 then [] else [(.ldd u rd ra imm fail, 8), (.std u rd ra imm fail, 8)]),
      a.toNat % p.2 = 0 → Gives p.1 s fun t => Trapped s t u 2 c.pc a 0))

/-- NOP only advances the PC; B goes to PC + 4 * sext(off22) when its condition of R332 holds and to PC + 4 otherwise; FLG reads
FLAGS, writes them from ra with bit 5 ignored, and sets or clears IE alone; WAIT advances the PC and begins to wait. No
other part of the block changes. (R332, R331, R328, R343) -/
def Obligations.BurinControlFlow : Prop :=
  ∀ (s : State) (u : Bur) (rd ra : RegNo) (off : BitVec 22), BurSteps s u →
    let c := s.core u
    let f := c.flags
    Gives (.nop u) s (fun t => Retired s t u [] [] (c.pc + 4) ∧ (t.core u).flags = f) ∧
    (∀ p ∈ [((0 : BitVec 4), true), (1, flagZ f), (2, !flagZ f), (3, flagN f != flagV f), (4, flagN f == flagV f),
        (5, !flagC f), (6, flagC f), (7, flagN f), (8, !flagN f)],
      Gives (.b u p.1 off) s fun t =>
        Retired s t u [] [] (c.pc + if p.2 then off.signExtend 32 <<< 2 else 4) ∧ (t.core u).flags = f) ∧
    Gives (.flgRead u rd) s (fun t => Retired s t u [(rd, f)] [] (c.pc + 4) ∧ (t.core u).flags = f) ∧
    Gives (.flgWrite u ra) s (fun t => Retired s t u [] [] (c.pc + 4) ∧
      ∀ i, i < 6 → (t.core u).flags.getLsbD i = if i = 5 then f.getLsbD 5 else (c.gr ra).getLsbD i) ∧
    Gives (.flgIeSet u) s (fun t => Retired s t u [] [] (c.pc + 4) ∧
      ∀ i, (t.core u).flags.getLsbD i = if i = 4 then true else f.getLsbD i) ∧
    Gives (.flgIeClear u) s (fun t => Retired s t u [] [] (c.pc + 4) ∧
      ∀ i, (t.core u).flags.getLsbD i = if i = 4 then false else f.getLsbD i) ∧
    Gives (.wait u) s (fun t => t.core u = { c with g := (t.core u).g, slot := [], pc := c.pc + 4, waiting := true, ran := c.ran + 1 } ∧
      t = s.setCore u (t.core u) ∧ ∀ r, (t.core u).gr r = leaves c [] r)

/-- With n mask bits set and new = g14 - 4(n + 2): from a word-aligned g14 with new at or above SP_LO, and a frame that lies in
data SRAM or in the host window, CALL and CALLR store the return address, the mask and the named registers ascending from
new, set g14 to new and go to the target; nothing else changes. From a g14 that is unaligned or too low they take the STACK
trap while T is 0. From a word-aligned g14 whose frame lies in memory that the Burin can load, with bits 31:8 of its mask
word 0 and its end not above SP_HI, RET restores the named registers, sets g14 to the end of the frame and goes to the
return address; nothing else changes. A bad mask word, or an end above SP_HI, takes the STACK trap while T is 0. (R336,
R329, R331, R337) -/
def Obligations.BurinCalls : Prop :=
  (∀ (s : State) (u : Bur) (mask : Byte) (off : BitVec 18) (rt : RegNo) (fail : Bool), BurSteps s u →
    let c := s.core u
    let sp := c.gr 14
    let rs : List RegNo := ((List.range 8).filter fun k => mask.getLsbD k).map fun k => BitVec.ofNat 4 (4 + k)
    let size := 4 * (rs.length + 2)
    let new := sp - BitVec.ofNat 32 size
    let frame := ((c.pc + 4) :: mask.zeroExtend 32 :: rs.map c.gr).foldr (fun w n => w.toNat + 2 ^ 32 * n) 0
    ∀ p ∈ [(Instr.call u mask off fail, c.pc + (off.signExtend 32 <<< 2)), (.callr u mask rt fail, c.gr rt)],
      (sp.toNat % 4 = 0 → size ≤ sp.toNat → c.spLo.toNat ≤ new.toNat → regionOf new = regionOf (sp - 1) → Storable s u new size fail 4 →
        Gives p.1 s fun t => Stored s t u new size frame 4 ∧ Retired (withStore s t u) t u [(14, new)] [] p.2 ∧
          (t.core u).flags = c.flags) ∧
      (flagT c.flags = false → sp.toNat % 4 ≠ 0 ∨ sp.toNat < size ∨ new.toNat < c.spLo.toNat →
        Gives p.1 s fun t => Trapped s t u 6 c.pc sp 0)) ∧
  (∀ (s : State) (u : Bur) (fail : Bool), BurSteps s u →
    let c := s.core u
    let sp := c.gr 14
    let word : Nat → W32 := fun k => BitVec.ofNat 32 (loadAt s u (sp + BitVec.ofNat 32 (4 * k)) 4)
    let rs : List RegNo := ((List.range 8).filter fun k => (word 1).getLsbD k).map fun k => BitVec.ofNat 4 (4 + k)
    let size := 4 * (rs.length + 2)
    sp.toNat % 4 = 0 → (∀ k, k < rs.length + 2 → Loadable s u (sp + BitVec.ofNat 32 (4 * k)) 4 fail) →
    ((word 1).toNat < 256 → sp.toNat + size ≤ c.spHi.toNat →
      Gives (.ret u fail) s fun t => Touched s t [] ∧ (regionOf sp ≠ .host → regionOf (sp + BitVec.ofNat 32 (size - 4)) ≠ .host → t.coh = s.coh) ∧
        Retired (withCache s t) t u (rs.zip ((List.range rs.length).map fun k => word (k + 2)) ++ [(14, sp + BitVec.ofNat 32 size)]) [] (word 0) ∧
          (t.core u).flags = c.flags) ∧
    (flagT c.flags = false → 256 ≤ (word 1).toNat ∨ c.spHi.toNat < sp.toNat + size →
      Gives (.ret u fail) s fun t => Trapped s t u 6 c.pc sp 0))

/-- REP of an instruction that R339 allows latches g(rc) as the count and the next word as the instruction, a count of 0 skips
it, and one that R339 forbids takes ILLEGAL_REP; while a REP of ADDI runs, each ADDI step writes rd at once, counts one
iteration off, and the last one leaves the REP and goes on behind the instruction. (R338, R339, R340) -/
def Obligations.BurinRepeats : Prop :=
  (∀ (s : State) (u : Bur) (rc : RegNo), BurSteps s u →
    let c := s.core u
    let i := burDecode (BitVec.ofNat 32 (sramLoad c (c.pc + 4).toNat 4))
    let n := (c.gr rc).toNat
    fetchable (c.pc + 4) = true →
    (repIllegal i = true → flagT c.flags = false → Gives (.rep u rc) s fun t => Trapped s t u 3 c.pc 0 0) ∧
    (repIllegal i = false → n = 0 → Gives (.rep u rc) s fun t => Retired s t u [] [] (c.pc + 8) ∧ (t.core u).flags = c.flags) ∧
    (repIllegal i = false → n ≠ 0 → Gives (.rep u rc) s fun t =>
      t.core u = { c with g := (t.core u).g, slot := [], pc := c.pc + 4, waiting := false, ran := c.ran + 1,
                          rep := some { left := n, instr := i, addr := c.pc, began := false } } ∧
      t = s.setCore u (t.core u) ∧ ∀ r, (t.core u).gr r = leaves c [] r)) ∧
  ∀ (s : State) (u : Bur) (rd ra : RegNo) (imm : BitVec 18) (r : Rep), burReady s u = true → s.failures (.burin u) = 0 →
    let c := s.core u
    c.rep = some r → r.instr = .imm .addi rd ra imm → 0 < r.left → c.slot = [] →
    Gives (.addi u rd ra imm) s fun t =>
      (∀ q, (t.core u).gr q = if q = rd then c.gr ra + imm.signExtend 32 else c.gr q) ∧
      (t.core u).rep = (if r.left = 1 then none else some { r with left := r.left - 1, began := true }) ∧
      (t.core u).pc = (if r.left = 1 then c.pc + 4 else c.pc) ∧ t = s.setCore u (t.core u)

/-- With T 0, SYS takes its trap with the next instruction as TPC and zext(imm18) as TADDR, an undefined word and a RETT take
EMUL with the instruction word. With T 1, RETT restores PC and FLAGS, resuming a REP when TREP is nonzero, and SYS and an
undefined word halt the Burin and set its double-fault flag. (R341, R342, R333, R340, R344) -/
def Obligations.BurinSystemRows : Prop :=
  ∀ (s : State) (u : Bur) (imm : BitVec 18) (w : W32), BurSteps s u →
    let c := s.core u
    (flagT c.flags = false →
      Gives (.sys u imm) s (fun t => Trapped s t u 5 (c.pc + 4) (imm.zeroExtend 32) 0) ∧
      (decodeOp w = none → Gives (.emul u w) s fun t => Trapped s t u 4 c.pc w 0) ∧
      Gives (.rett u) s (fun t => Trapped s t u 4 c.pc 0x78000000 0)) ∧
    (flagT c.flags = true →
      (c.trep = 0 → Gives (.rett u) s fun t => Retired s t u [] [] c.tpc ∧
        ∀ i, i < 6 → (t.core u).flags.getLsbD i = c.tflags.getLsbD i) ∧
      (c.trep ≠ 0 → fetchable (c.tpc + 4) = true → Gives (.rett u) s fun t =>
        t.core u = { c with g := (t.core u).g, flags := (t.core u).flags, slot := [], pc := c.tpc + 4, waiting := false,
                            ran := c.ran + 1, rep := (t.core u).rep } ∧
        (t.core u).rep = some ⟨c.trep.toNat, burDecode (BitVec.ofNat 32 (sramLoad c (c.tpc + 4).toNat 4)), c.tpc, true⟩ ∧
        t = s.setCore u (t.core u) ∧ (∀ r, (t.core u).gr r = leaves c [] r) ∧
        ∀ i, i < 6 → (t.core u).flags.getLsbD i = c.tflags.getLsbD i) ∧
      (∀ i ∈ [Instr.sys u imm] ++ (if decodeOp w = none then [.emul u w] else []),
        Gives i s fun t => (t.core u).st = .halted ∧ t.bit Reg.BUR_ERR (2 + burNum u) = true))

/-- The lowest interrupt set in IPEND and IMASK is taken while IE is 1 and T is 0, saving the PC and FLAGS; a timer that reaches
0 sets bit 7 of IPEND; HB marks the beat; PEER_OUT hands its word to the other Burin and sets its PEER bit; HOST_OUT writes
BUR_HOST_RSP with VALID and without LOST, and ends the outstanding message. The rows that can wake the block are stated
outside the round, the commit and sleep. (R343, R342, R345, R354, R350, R341) -/
def Obligations.BurinInterrupts : Prop :=
  ∀ (s : State) (u : Bur) (w : W32), burRuns s u = true →
    let c := s.core u
    let o := s.core (burOther u)
    (∀ k, k < 8 → flagIE c.flags = true → flagT c.flags = false → c.slot = [] → c.rep = none →
      (c.ipend &&& c.imask).getLsbD k = true → (∀ j, j < k → (c.ipend &&& c.imask).getLsbD j = false) →
      Gives (.interruptTake u) s fun t => Trapped s t u (k + 8) c.pc 0 0) ∧
    (c.timer ≠ 0 → pwrPhase s ∉ [2, 3, 4] →
      Gives (.timerExpire u) s (· = s.setCore u { c with timer := 0, ipend := c.ipend ||| 0x80 })) ∧
    Gives (.hbWrite u) s (· = s.setCore u { c with beat := true }) ∧
    (pwrPhase s ∉ [2, 3, 4] → Gives (.peerOutWrite u w) s
      (· = s.setCore (burOther u) { o with peerIn := w, ipend := o.ipend ||| 4 })) ∧
    Gives (.hostOutWrite u w) s (fun t =>
      t.rd Reg.BUR_HOST_RSP = (w &&& 0xFFFFFCFF ||| 0x100) ∧ (∀ off, off ≠ Reg.BUR_HOST_RSP → t.rd off = s.rd off) ∧
      t = { s with regs := t.regs, bur := { s.bur with asked := false } })

/-- BOOT_READY: with READY set, MAGIC in the header leads to the checks, else BUR_IMG_BASE.V to the copy, else to EMPTY.
IMAGE_COPY_DONE: a failed read leaves word 0 at 0 with AUTH code 7 and ends in EMPTY; a good one leaves the header in code
SRAM. BOOT_AUTH: an image that passes every check enters RUN at address 0 with WHOAMI in g0 and the other state code in g2;
one that fails enters AUTHFAIL with its code and flag, and SAFE is entered. (R348, R346, R347, R326, R434) -/
def Obligations.BurinBoot : Prop :=
  ∀ (s : State) (u : Bur), burRuns s u = true →
    let c := s.core u
    c.st = .boot →
    (c.boot = .ready → s.bit Reg.GLB_STATUS 0 = true →
      (hdrWord c 0 = 0x504C5644 → Gives (.bootReady u) s (· = s.setCore u { c with boot := .check })) ∧
      (hdrWord c 0 ≠ 0x504C5644 → s.bit Reg.BUR_IMG_BASE 0 = true →
        Gives (.bootReady u) s (· = s.setCore u { c with boot := .copy })) ∧
      (hdrWord c 0 ≠ 0x504C5644 → s.bit Reg.BUR_IMG_BASE 0 = false →
        Gives (.bootReady u) s fun t => t.core u = { c with st := .empty } ∧ t.core (burOther u) = s.core (burOther u))) ∧
    (c.boot = .copy → hostReach s = true →
      (∀ fail : Bool, fail = true ∨ s.failures (.burin u) ≠ 0 → Gives (.imageCopyDone u fail) s fun t =>
        t.core u = { c with st := .empty, auth := 7, code := (t.core u).code } ∧ hdrWord (t.core u) 0 = 0) ∧
      (s.failures (.burin u) = 0 → Gives (.imageCopyDone u false) s (fun t => ∀ i, i < 16 →
        hdrWord (t.core u) i = s.load32 (haddr (base4k (s.rd64 Reg.BUR_IMG_BASE) + 4 * i))))) ∧
    (c.boot = .check →
      (authCode c = 0 → Gives (.bootAuth u) s fun t => (t.core u).st = .run ∧ (t.core u).pc = 0 ∧
        (t.core u).gr 0 = whoami s u ∧ (t.core u).gr 2 = BitVec.ofNat 32 (s.core (burOther u)).st.code) ∧
      (authCode c ≠ 0 → Gives (.bootAuth u) s fun t => (t.core u).st = .authFail ∧ (t.core u).auth = authCode c ∧
        t.bit Reg.BUR_ERR (burNum u) = true ∧ (s.err.safe = .out → t.err.safe = .safe)))

/-- A privileged and secure write of BUR_CTL that no lock keeps back: a newly held Burin is HELD and one released boots; holding
the primary while the other stays unheld in RUN hands the role over; RST puts a Burin back to its reset values, held if HOLD
is 1. A write of BUR_LOAD_DATA goes to the selected word of every selected Burin while all are HELD, and otherwise sets
LOAD_RUN and leaves the code. (R349, R356, R326, R388) -/
def Obligations.BurinHoldResetLoad : Prop :=
  ∀ (s : State) (acc : RegAcc), running s = true → Admits s acc → acc.priv = true → acc.sec = true → locked s 2 = false →
    Gives (.burHold acc) s (fun t =>
      t.fld Reg.BUR_CTL 1 0 = field acc.data 1 0 ∧
      (∀ u, acc.data.getLsbD (burNum u) = true → holdBit s u = false → (t.core u).st = .held) ∧
      (∀ u, acc.data.getLsbD (burNum u) = false → holdBit s u = true → (t.core u).st = .boot) ∧
      (∀ u, primary s = u → acc.data.getLsbD (burNum u) = true → holdBit s u = false →
        acc.data.getLsbD (burNum (burOther u)) = false → (s.core (burOther u)).st = .run → primary t = burOther u)) ∧
    (field acc.data 1 0 = s.fld Reg.BUR_CTL 1 0 →
      Gives (.burRst acc) s fun t => ∀ u, t.core u = if acc.data.getLsbD (2 + burNum u) then
        { (s.core u).fresh with st := if holdBit s u then .held else .boot } else s.core u) ∧
    (let sel := s.fld Reg.BUR_LOAD_CTL 1 0
     let w := s.fld Reg.BUR_LOAD_CTL 16 2
     (selHeld s sel = true → Gives (.burLoadData acc) s fun t =>
        (∀ u ∈ burSel sel, ∀ k, Tbl.get 0 (t.core u).code k = if k = w then acc.data else Tbl.get 0 (s.core u).code k) ∧
        t.fld Reg.BUR_LOAD_CTL 16 2 = (w + 1) % 0x6000) ∧
     (selHeld s sel = false → Gives (.burLoadData acc) s fun t =>
        t.bit Reg.BUR_ERR 5 = true ∧ ∀ u, (t.core u).code = (s.core u).code))

/-- HEARTBEAT_WINDOW_END counts a miss for each monitored Burin that has not beaten, sets HBEAT, and, when exactly one Burin
comes to four misses while the other is monitored, resets it, makes the survivor primary, sets its TAKEOVER bit and flags
the takeover; with the other not monitored it resets it alone; when both have four, both are reset, A is primary, and SAFE
is entered with cause 1. In a warm reset the reset is absorbed and nothing is logged, but SAFE is entered all the same. A
window that begins in the boot ROM is beaten by it. PING is answered OK with DATA 0, a code that is not defined with BAD_OP,
HANDOVER OK with the role passed on when the other Burin is in RUN, else BUSY. (R350, R351, R352, R354, R327, R46) -/
def Obligations.BurinWatchAndMessages : Prop :=
  (∀ s : State, s.bur.due = true → pwrPhase s ∉ [2, 3, 4] →
    (missNext s .a < 4 → missNext s .b < 4 → Gives .heartbeatWindowEnd s fun t =>
      let a := { s.bur.a with miss := missNext s .a, beat := romBeats s.bur.a, ipend := s.bur.a.ipend ||| 1 }
      let b := { s.bur.b with miss := missNext s .b, beat := romBeats s.bur.b, ipend := s.bur.b.ipend ||| 1 }
      t = { s with bur := { s.bur with win := 0, due := false, a := a, b := b } }) ∧
    (∀ x, s.rst.phase = .run → missNext s x = 4 → missNext s (burOther x) < 4 → monitored s (burOther x) = true →
      Gives .heartbeatWindowEnd s fun t =>
        (t.core x).st = (if holdBit s x then .held else .boot) ∧ (t.core x).miss = 0 ∧
        primary t = (if primary s = x then burOther x else primary s) ∧
        (t.core (burOther x)).ipend.getLsbD 1 = true ∧ t.bit Reg.BUR_ERR 4 = true ∧
        t.rd Reg.BUR_TAKE_CNT = satInc (s.rd Reg.BUR_TAKE_CNT)) ∧
    (∀ x, s.rst.phase = .run → missNext s x = 4 → missNext s (burOther x) < 4 → monitored s (burOther x) = false →
      Gives .heartbeatWindowEnd s fun t => (t.core x).st = (if holdBit s x then .held else .boot) ∧ (t.core x).miss = 0 ∧
        primary t = primary s ∧ t.regs = s.regs) ∧
    (s.rst.phase ≠ .run → Gives .heartbeatWindowEnd s fun t => primary t = primary s ∧
      (∀ x, (t.core x).st = (s.core x).st ∧ (t.core x).miss = missNext s x) ∧ t.bit Reg.BUR_ERR 4 = s.bit Reg.BUR_ERR 4 ∧
      t.rd Reg.BUR_TAKE_CNT = s.rd Reg.BUR_TAKE_CNT ∧
      (missNext s .a = 4 → missNext s .b = 4 → s.err.safe = .out → t.err.safe = .safe ∧ t.fld Reg.GLB_SAFE 3 2 = 1)) ∧
    (s.rst.phase = .run → missNext s .a = 4 → missNext s .b = 4 → Gives .heartbeatWindowEnd s fun t => primary t = .a ∧
      (∀ x, (t.core x).st = (if holdBit s x then .held else .boot) ∧ (t.core x).miss = 0) ∧ t.bit Reg.BUR_ERR 4 = true ∧
      (s.err.safe = .out → t.err.safe = .safe ∧ t.fld Reg.GLB_SAFE 3 2 = 1))) ∧
  ∀ s : State, s.bur.asked = true → (s.core (primary s)).st = .run → burRuns s (primary s) = true →
    (s.fld Reg.BUR_HOST_MSG 7 0 = 0 → Gives .ping s fun t =>
      t.rd Reg.BUR_HOST_RSP = 0x100 ∧ t = { s with regs := t.regs, bur := { s.bur with asked := false } }) ∧
    (2 ≤ s.fld Reg.BUR_HOST_MSG 7 0 → Gives .ping s fun t => t.fld Reg.BUR_HOST_RSP 7 0 = stBadOp ∧
      t.fld Reg.BUR_HOST_RSP 9 8 = 1 ∧ RegsApart s t [Reg.BUR_HOST_RSP] ∧
      t = { s with regs := t.regs, bur := { s.bur with asked := false } }) ∧
    (s.fld Reg.BUR_HOST_MSG 7 0 = 1 → Gives .handover s fun t => t.bur.asked = false ∧ t.bit Reg.BUR_HOST_RSP 8 = true ∧
      ((s.core (burOther (primary s))).st = .run → t.fld Reg.BUR_HOST_RSP 7 0 = 0 ∧ primary t = burOther (primary s)) ∧
      ((s.core (burOther (primary s))).st ≠ .run → t.fld Reg.BUR_HOST_RSP 7 0 = stBusy ∧ primary t = primary s))
end

