-- ==== Sys2Proof/Laws/Bits.lean ====
section
/-! SUPPORT. The laws of bit fields: what a field that was set reads as, and that the other bits stand. -/

namespace Sys2Proof

/-- Bit j of a word whose field [hi:lo] was set. -/
theorem getLsbD_setField {n : Nat} (w : BitVec n) (hi lo v j : Nat) (hj : j < n) :
    (setField w hi lo v).getLsbD j =
      if lo ≤ j ∧ j < lo + (hi + 1 - lo) then v.testBit (j - lo) else w.getLsbD j := by
  simp only [setField, BitVec.getLsbD_or, BitVec.getLsbD_and, BitVec.getLsbD_not, BitVec.getLsbD_ofNat, hj,
    decide_true, Bool.true_and, Nat.testBit_shiftLeft, Nat.testBit_two_pow_sub_one, Nat.testBit_mod_two_pow]
  by_cases h1 : lo ≤ j
  · by_cases h2 : j - lo < hi + 1 - lo
    · rw [if_pos (by omega)]; simp [h1, h2]
    · rw [if_neg (by omega)]; simp [h2]
  · rw [if_neg (by omega)]; simp [h1]

theorem getLsbD_setBit {n : Nat} (w : BitVec n) (i j : Nat) (b : Bool) (hi : i < n) :
    (setBit w i b).getLsbD j = if j = i then b else w.getLsbD j := by
  by_cases hj : j < n
  · unfold setBit
    rw [getLsbD_setField w i i b.toNat j hj]
    by_cases h : j = i
    · subst h; cases b <;> simp
    · rw [if_neg (by omega), if_neg h]
  · have h : j ≠ i := by omega
    rw [if_neg h, BitVec.getLsbD_of_ge _ _ (by omega), BitVec.getLsbD_of_ge _ _ (by omega)]

/-- The number of a field that was set. -/
theorem field_setField_same {n : Nat} (w : BitVec n) (hi lo v : Nat) (h : hi < n) (hl : lo ≤ hi) :
    field (setField w hi lo v) hi lo = v % 2 ^ (hi + 1 - lo) := by
  apply Nat.eq_of_testBit_eq
  intro k
  unfold field
  rw [Nat.testBit_mod_two_pow, Nat.testBit_mod_two_pow, Nat.testBit_shiftRight]
  by_cases hk : k < hi + 1 - lo
  · have := getLsbD_setField w hi lo v (lo + k) (by omega)
    rw [BitVec.getLsbD] at this
    rw [this, if_pos (by omega)]
    simp
  · simp [hk]

end Sys2Proof
end

