-- ==== Sys2Proof/Laws/Memory.lean ====
section
/-! SUPPORT. The laws of host memory: reads after writes, and that every memory operation keeps the canonical form. -/

namespace Sys2Proof.Machine

theorem memSorted_tail {a : Nat} {v : Byte} {r : List Host.Cell} (h : memSorted ((a, v) :: r) = true) :
    memSorted r = true := by
  cases r with
  | nil => rfl
  | cons e r => simp only [memSorted, Bool.and_eq_true] at h; exact h.2

theorem memSorted_head_ne {a : Nat} {v : Byte} {r : List Host.Cell} (h : memSorted ((a, v) :: r) = true) :
    v ≠ memDefault := by
  cases r with
  | nil => simpa [memSorted] using h
  | cons e r => simp only [memSorted, Bool.and_eq_true, decide_eq_true_eq] at h; exact h.1.1

/-- Every address of a canonical list's tail is above its head's. -/
theorem memSorted_lt {a : Nat} {v : Byte} {r : List Host.Cell} (h : memSorted ((a, v) :: r) = true) :
    ∀ c ∈ r, a < c.1 := by
  induction r generalizing a v with
  | nil => simp
  | cons e r ih =>
    obtain ⟨b, w⟩ := e
    have hab : a < b := by simp only [memSorted, Bool.and_eq_true, decide_eq_true_eq] at h; exact h.1.2
    have ht := memSorted_tail h
    intro c hc
    rcases List.mem_cons.1 hc with rfl | hc
    · exact hab
    · exact Nat.lt_trans hab (ih ht c hc)

theorem memSorted_cons {a : Nat} {v : Byte} {r : List Host.Cell} (hv : v ≠ memDefault) (hr : memSorted r = true)
    (hlt : ∀ c ∈ r, a < c.1) : memSorted ((a, v) :: r) = true := by
  cases r with
  | nil => simpa [memSorted] using hv
  | cons e r =>
    obtain ⟨b, w⟩ := e
    have : a < b := hlt (b, w) (by simp)
    simp [memSorted, hv, this, hr]

/-- An address below every listed one reads as the default. -/
theorem Memory.read_of_lt {m : List Host.Cell} {i : Nat} (h : ∀ c ∈ m, i < c.1) : Memory.read m i = memDefault := by
  induction m with
  | nil => rfl
  | cons e r ih =>
    obtain ⟨a, v⟩ := e
    have ha : i < a := h (a, v) (by simp)
    simp [Memory.read, Nat.ne_of_gt ha, ih fun c hc => h c (by simp [hc])]

theorem Memory.insert_mem {m : List Host.Cell} {i : Nat} {v : Byte} {c : Host.Cell} (h : c ∈ Memory.insert m i v) :
    c.1 = i ∨ c ∈ m := by
  induction m with
  | nil => simp [Memory.insert] at h; simp [h]
  | cons e r ih =>
    obtain ⟨a, w⟩ := e
    unfold Memory.insert at h
    split at h
    · rcases List.mem_cons.1 h with rfl | h
      · exact .inl rfl
      · exact .inr h
    · split at h
      · rcases List.mem_cons.1 h with rfl | h
        · exact .inl rfl
        · exact .inr (by simp [h])
      · rcases List.mem_cons.1 h with rfl | h
        · exact .inr (by simp)
        · rcases ih h with h | h
          · exact .inl h
          · exact .inr (by simp [h])

theorem Memory.insert_wf {m : List Host.Cell} (h : Memory.wf m = true) (i : Nat) {v : Byte} (hv : v ≠ memDefault) :
    Memory.wf (Memory.insert m i v) = true := by
  unfold Memory.wf at *
  induction m with
  | nil => simpa [Memory.insert, memSorted] using hv
  | cons e r ih =>
    obtain ⟨a, w⟩ := e
    unfold Memory.insert
    split
    · rename_i hia
      exact memSorted_cons hv h fun c hc => by
        rcases List.mem_cons.1 hc with rfl | hc
        · exact hia
        · exact Nat.lt_trans hia (memSorted_lt h c hc)
    · split
      · rename_i _ hia
        subst hia
        exact memSorted_cons hv (memSorted_tail h) (memSorted_lt h)
      · rename_i h1 h2
        refine memSorted_cons (memSorted_head_ne h) (ih (memSorted_tail h)) fun c hc => ?_
        rcases Memory.insert_mem hc with hc | hc
        · omega
        · exact memSorted_lt h c hc

theorem Memory.erase_mem {m : List Host.Cell} {i : Nat} {c : Host.Cell} (h : c ∈ Memory.erase m i) : c ∈ m := by
  induction m with
  | nil => simp [Memory.erase] at h
  | cons e r ih =>
    obtain ⟨a, w⟩ := e
    unfold Memory.erase at h
    split at h
    · simp [h]
    · rcases List.mem_cons.1 h with rfl | h
      · simp
      · simp [ih h]

theorem Memory.erase_wf {m : List Host.Cell} (h : Memory.wf m = true) (i : Nat) : Memory.wf (Memory.erase m i) = true := by
  unfold Memory.wf at *
  induction m with
  | nil => rfl
  | cons e r ih =>
    obtain ⟨a, w⟩ := e
    unfold Memory.erase
    split
    · exact memSorted_tail h
    · exact memSorted_cons (memSorted_head_ne h) (ih (memSorted_tail h)) fun c hc =>
        memSorted_lt h c (Memory.erase_mem hc)

/-- A write keeps the canonical form. -/
theorem Memory.write_wf {m : List Host.Cell} (h : Memory.wf m = true) (i : Nat) (v : Byte) :
    Memory.wf (Memory.write m i v) = true := by
  unfold Memory.write
  split
  · exact Memory.erase_wf h i
  · rename_i hv; exact Memory.insert_wf h i hv

theorem memStore_wf {m : List Host.Cell} (h : Memory.wf m = true) (a n v : Nat) : Memory.wf (memStore m a n v) = true := by
  induction n with
  | zero => exact h
  | succ n ih => exact Memory.write_wf ih _ _

theorem Memory.read_cons (a j : Nat) (v : Byte) (r : List Host.Cell) :
    Memory.read ((a, v) :: r) j = if j = a then v else Memory.read r j := by
  by_cases h : j = a
  · simp [Memory.read, h]
  · rw [if_neg h]; exact if_neg (Ne.symm h)

theorem Memory.read_insert (m : List Host.Cell) (i j : Nat) (v : Byte) (h : Memory.wf m = true) :
    Memory.read (Memory.insert m i v) j = if j = i then v else Memory.read m j := by
  unfold Memory.wf at h
  induction m with
  | nil => exact Memory.read_cons i j v []
  | cons e r ih =>
    obtain ⟨a, w⟩ := e
    unfold Memory.insert
    split
    · exact Memory.read_cons i j v _
    · split
      · rename_i _ hia
        subst hia
        rw [Memory.read_cons, Memory.read_cons]
        by_cases hj : j = i <;> simp [hj]
      · rename_i _ hia
        rw [Memory.read_cons, Memory.read_cons, ih (memSorted_tail h)]
        by_cases hj : j = a
        · have : j ≠ i := fun h' => hia (h' ▸ hj)
          simp [hj, Ne.symm hia]
        · simp [hj]

theorem Memory.read_erase (m : List Host.Cell) (i j : Nat) (h : Memory.wf m = true) :
    Memory.read (Memory.erase m i) j = if j = i then memDefault else Memory.read m j := by
  unfold Memory.wf at h
  induction m with
  | nil => simp [Memory.erase, Memory.read]
  | cons e r ih =>
    obtain ⟨a, w⟩ := e
    unfold Memory.erase
    split
    · rename_i hia
      subst hia
      rw [Memory.read_cons]
      by_cases hj : j = i
      · subst hj
        simp [Memory.read_of_lt (memSorted_lt h)]
      · simp [hj]
    · rename_i hia
      rw [Memory.read_cons, Memory.read_cons, ih (memSorted_tail h)]
      by_cases hj : j = a
      · simp [hj, Ne.symm hia]
      · simp [hj]

/-- A read after a write: the byte written there, and every other byte as before. -/
theorem Memory.read_write (m : List Host.Cell) (i j : Nat) (v : Byte) (h : Memory.wf m = true) :
    Memory.read (Memory.write m i v) j = if j = i then v else Memory.read m j := by
  unfold Memory.write
  split
  · rename_i hv; rw [Memory.read_erase m i j h, hv]
  · exact Memory.read_insert m i j v h

/-- Memory after a store of n bytes that does not wrap. -/
theorem read_memStore (m : List Host.Cell) (a n v j : Nat) (h : Memory.wf m = true) (hn : a + n ≤ 2 ^ 52) :
    Memory.read (memStore m a n v) j =
      if a ≤ j ∧ j < a + n then BitVec.ofNat 8 (v >>> (8 * (j - a))) else Memory.read m j := by
  induction n with
  | zero => rw [if_neg (by omega)]; rfl
  | succ n ih =>
    have hh : haddr (a + n) = a + n := Nat.mod_eq_of_lt (by omega)
    rw [memStore, Memory.read_write _ _ _ _ (memStore_wf h a n v), hh, ih (by omega)]
    by_cases hj : j = a + n
    · simp [hj]
    · by_cases h1 : a ≤ j ∧ j < a + n
      · rw [if_neg hj, if_pos h1, if_pos (by omega)]
      · rw [if_neg hj, if_neg h1, if_neg (by omega)]

end Sys2Proof.Machine
end

