-- ==== Sys2Proof/Laws/Tables.lean ====
section
/-! SUPPORT. The laws of the sparse tables: a read after a write of the same key gives the value written, and a write leaves
every other key alone. -/

namespace Sys2Proof.Machine

variable {α : Type}

@[simp] theorem Tbl.find_nil (i : Nat) : Tbl.find ([] : Tbl α) i = none := rfl
@[simp] theorem Tbl.get_nil (d : α) (i : Nat) : Tbl.get d [] i = d := rfl

theorem Tbl.get_eq_find (d : α) (m : Tbl α) (i : Nat) : Tbl.get d m i = (Tbl.find m i).getD d := by
  induction m with
  | nil => rfl
  | cons e r ih =>
    obtain ⟨k, v⟩ := e
    by_cases h : k = i <;> simp [Tbl.get, Tbl.find, h, ih]

theorem Tbl.find_cons (k j : Nat) (v : α) (r : Tbl α) :
    Tbl.find ((k, v) :: r) j = if j = k then some v else Tbl.find r j := by
  by_cases h : j = k
  · simp [Tbl.find, h]
  · rw [if_neg h]; exact if_neg (Ne.symm h)

theorem Tbl.find_del (m : Tbl α) (i j : Nat) : Tbl.find (Tbl.del m i) j = if j = i then none else Tbl.find m j := by
  induction m with
  | nil => simp [Tbl.del]
  | cons e r ih =>
    obtain ⟨k, v⟩ := e
    unfold Tbl.del
    split
    · rename_i hk
      subst hk
      rw [ih, Tbl.find_cons]
      by_cases hj : j = k <;> simp [hj]
    · rename_i hk
      rw [Tbl.find_cons, Tbl.find_cons, ih]
      by_cases hj : j = k
      · subst hj; simp [hk]
      · simp [hj]

theorem Tbl.find_put (m : Tbl α) (i j : Nat) (v : α) :
    Tbl.find (Tbl.put m i v) j = if j = i then some v else Tbl.find m j := by
  unfold Tbl.put
  rw [Tbl.find_cons, Tbl.find_del]
  by_cases h : j = i <;> simp [h]

@[simp] theorem Tbl.find_put_same (m : Tbl α) (i : Nat) (v : α) : Tbl.find (Tbl.put m i v) i = some v := by
  simp [Tbl.find_put]

theorem Tbl.get_put (d : α) (m : Tbl α) (i j : Nat) (v : α) :
    Tbl.get d (Tbl.put m i v) j = if j = i then v else Tbl.get d m j := by
  by_cases h : j = i <;> simp [Tbl.get_eq_find, Tbl.find_put, h]

@[simp] theorem Tbl.get_put_same (d : α) (m : Tbl α) (i : Nat) (v : α) : Tbl.get d (Tbl.put m i v) i = v := by
  simp [Tbl.get_put]

theorem Tbl.get_put_other (d : α) (m : Tbl α) {i j : Nat} (v : α) (h : j ≠ i) :
    Tbl.get d (Tbl.put m i v) j = Tbl.get d m j := by
  simp [Tbl.get_put, h]

/-- What holds of the default and of every value listed holds of whatever is read. -/
theorem Tbl.get_of_all (P : α → Prop) (d : α) (m : Tbl α) (i : Nat) (hd : P d) (h : ∀ e ∈ m, P e.2) : P (Tbl.get d m i) := by
  induction m with
  | nil => exact hd
  | cons e r ih =>
    obtain ⟨k, v⟩ := e
    unfold Tbl.get
    split
    · exact h (k, v) (List.mem_cons_self ..)
    · exact ih fun e he => h e (List.mem_cons_of_mem _ he)

end Sys2Proof.Machine
end

