-- ==== Sys2Proof/Laws/Burin.lean ====
section
/-! SUPPORT. What a Burin's step leaves: registers, retirement, traps, loads and stores. -/

namespace Sys2Proof.Machine

/-! ### Cores -/

@[simp] theorem core_setCore (s : State) (u : Bur) (c : BurCore) : (s.setCore u c).core u = c := by cases u <;> rfl
@[simp] theorem core_setCore_other (s : State) (u : Bur) (c : BurCore) :
    (s.setCore u c).core (burOther u) = s.core (burOther u) := by cases u <;> rfl
@[simp] theorem core_setCore_other' (s : State) (u : Bur) (c : BurCore) :
    (s.setCore (burOther u) c).core u = s.core u := by cases u <;> rfl
@[simp] theorem setCore_setCore (s : State) (u : Bur) (c d : BurCore) : (s.setCore u c).setCore u d = s.setCore u d := by
  cases u <;> rfl
@[simp] theorem setCore_core (s : State) (u : Bur) : s.setCore u (s.core u) = s := by cases u <;> rfl
@[simp] theorem mem_setCore (s : State) (u : Bur) (c : BurCore) : (s.setCore u c).mem = s.mem := by cases u <;> rfl

/-! ### Registers -/

/-- A register after a list of writes: the last one to it, else its value. -/
theorem gr_setRegs (g : Tbl W32) (l : List (RegNo × W32)) (r : RegNo) :
    Tbl.get 0 (setRegs g l) r.toNat =
      ((l.reverse.find? fun e => decide (e.1 = r)).map (·.2)).getD (Tbl.get 0 g r.toNat) := by
  induction l generalizing g with
  | nil => rfl
  | cons e l ih =>
    have hs : setRegs g (e :: l) = setRegs (Tbl.put g e.1.toNat e.2) l := rfl
    rw [hs, ih, List.reverse_cons, List.find?_append]
    cases hl : List.find? (fun e => decide (e.1 = r)) l.reverse with
    | some x => simp
    | none =>
      by_cases he : e.1 = r
      · simp [he]
      · have : r.toNat ≠ e.1.toNat := fun h => he (BitVec.eq_of_toNat_eq h.symm)
        simp [he, Tbl.get_put, this]

/-- The registers after an instruction outside a REP. -/
theorem gr_retire (c : BurCore) (o : BOut) (h : c.rep = none) (r : RegNo) :
    (retire c o).gr r = leaves c o.writes r := by
  unfold retire leaves landing BurCore.gr
  simp only [h, gr_setRegs]

/-- What `retire` leaves beside the registers. -/
theorem retire_eq (c : BurCore) (o : BOut) (h : c.rep = none) :
    retire c o = { c with g := (retire c o).g, slot := o.loads, flags := o.flags, pc := o.next, rep := o.rep,
                          waiting := o.wait, ran := c.ran + 1 } := by
  unfold retire
  simp only [h]

/-! ### The step of a row -/

/-- Where no access of w has failed, taking its failures in changes nothing. -/
theorem forget_none {s t : State} {w : AccWho} (h : s.failures w = 0) (hf : t.coh.failed = s.coh.failed) : t.forget w = t := by
  unfold State.forget
  rw [hf]
  have : (s.coh.failed.filter fun e => decide (e.1 ≠ w)) = t.coh.failed := by
    rw [hf, List.filter_eq_self]
    intro e he
    simp only [State.failures, List.length_eq_zero_iff, List.filter_eq_nil_iff, decide_eq_true_eq] at h
    simpa using h e he
  rw [this]

/-- A row steps its instruction where the table cache serves it. -/
theorem burRow_steps {s : State} {u : Bur} (h : BurSteps s u) (i : BInstr) (hi : i.wf = true) (fail : Bool)
    (hm : Serves s (burGo s u i fail)) (hf : (burGo s u i fail).coh.failed = s.coh.failed) :
    burRow s u i fail = burGo s u i fail := by
  obtain ⟨h1, h2, h3, h4⟩ := h
  have hs : s.served (burGo s u i fail) = burGo s u i fail := by
    unfold State.served; exact if_pos hm
  simp only [burRow, h1, h2, h3, rowInstr, hi, burStep, hs, Bool.not_true, Bool.false_eq_true, if_false, if_true]
  split
  · rfl
  · exact forget_none h4 hf

/-- An instruction with an effect on registers alone. -/
theorem retired_regEff {s : State} {u : Bur} (h : BurSteps s u) (i : BInstr) (fail : Bool) (f : BurCore → BOut → BOut)
    (he : burEff s u i fail = regEff s u f) (hs : (f (s.core u) (BOut.plain (s.core u))).store = id)
    (hr : (f (s.core u) (BOut.plain (s.core u))).rep = none) (hw : (f (s.core u) (BOut.plain (s.core u))).wait = false) :
    let o := f (s.core u) (BOut.plain (s.core u))
    Retired s (burGo s u i fail) u o.writes o.loads o.next ∧ ((burGo s u i fail).core u).flags = o.flags := by
  intro o
  have hg : burGo s u i fail = s.setCore u (retire (s.core u) o) := by
    simp only [burGo, he, regEff]
    rw [show (f (s.core u) (BOut.plain (s.core u))).store = id from hs]
    rfl
  refine ⟨⟨?_, ?_, ?_⟩, ?_⟩
  · rw [hg]; simp
  · rw [hg, core_setCore]
    conv_lhs => rw [retire_eq _ _ h.2.1]
    simp [retire, h.2.1, o, hr, hw]
  · intro r; rw [hg, core_setCore]; exact gr_retire _ _ h.2.1 r
  · rw [hg, core_setCore, retire_eq _ _ h.2.1]

end Sys2Proof.Machine
end

