-- ==== Sys2Proof/Laws/State.lean ====
section
/-! SUPPORT. What each update of State leaves as it was, field by field, and what it reads as. -/

namespace Sys2Proof.Machine

variable (s : State)

/-! ### wr -/

@[simp] theorem wr_par (off : Nat) (v : W32) : (s.wr off v).par = s.par := by unfold State.wr; dsimp only; split <;> rfl
@[simp] theorem wr_rst (off : Nat) (v : W32) : (s.wr off v).rst = s.rst := by unfold State.wr; dsimp only; split <;> rfl
@[simp] theorem wr_mem (off : Nat) (v : W32) : (s.wr off v).mem = s.mem := by unfold State.wr; dsimp only; split <;> rfl
@[simp] theorem wr_tg (off : Nat) (v : W32) : (s.wr off v).tg = s.tg := by unfold State.wr; dsimp only; split <;> rfl
@[simp] theorem wr_lanes (off : Nat) (v : W32) : (s.wr off v).lanes = s.lanes := by unfold State.wr; dsimp only; split <;> rfl
@[simp] theorem wr_win (off : Nat) (v : W32) : (s.wr off v).win = s.win := by unfold State.wr; dsimp only; split <;> rfl
@[simp] theorem wr_localPins (off : Nat) (v : W32) : (s.wr off v).localPins = s.localPins := by unfold State.wr; dsimp only; split <;> rfl
@[simp] theorem wr_msg (off : Nat) (v : W32) : (s.wr off v).msg = s.msg := by unfold State.wr; dsimp only; split <;> rfl
@[simp] theorem wr_miss (off : Nat) (v : W32) : (s.wr off v).miss = s.miss := by unfold State.wr; dsimp only; split <;> rfl
@[simp] theorem wr_move (off : Nat) (v : W32) : (s.wr off v).move = s.move := by unfold State.wr; dsimp only; split <;> rfl
@[simp] theorem wr_err (off : Nat) (v : W32) : (s.wr off v).err = s.err := by unfold State.wr; dsimp only; split <;> rfl
@[simp] theorem wr_bur (off : Nat) (v : W32) : (s.wr off v).bur = s.bur := by unfold State.wr; dsimp only; split <;> rfl
@[simp] theorem wr_sbd (off : Nat) (v : W32) : (s.wr off v).sbd = s.sbd := by unfold State.wr; dsimp only; split <;> rfl
@[simp] theorem wr_pnl (off : Nat) (v : W32) : (s.wr off v).pnl = s.pnl := by unfold State.wr; dsimp only; split <;> rfl
@[simp] theorem wr_rnk (off : Nat) (v : W32) : (s.wr off v).rnk = s.rnk := by unfold State.wr; dsimp only; split <;> rfl
@[simp] theorem wr_port (off : Nat) (v : W32) : (s.wr off v).port = s.port := by unfold State.wr; dsimp only; split <;> rfl
@[simp] theorem wr_pwr (off : Nat) (v : W32) : (s.wr off v).pwr = s.pwr := by unfold State.wr; dsimp only; split <;> rfl
@[simp] theorem wr_stk (off : Nat) (v : W32) : (s.wr off v).stk = s.stk := by unfold State.wr; dsimp only; split <;> rfl
@[simp] theorem wr_rings (off : Nat) (v : W32) : (s.wr off v).rings = s.rings := by unfold State.wr; dsimp only; split <;> rfl
@[simp] theorem wr_cmdRot (off : Nat) (v : W32) : (s.wr off v).cmdRot = s.cmdRot := by unfold State.wr; dsimp only; split <;> rfl
@[simp] theorem wr_wft (off : Nat) (v : W32) : (s.wr off v).wft = s.wft := by unfold State.wr; dsimp only; split <;> rfl
@[simp] theorem wr_coh (off : Nat) (v : W32) : (s.wr off v).coh = s.coh := by unfold State.wr; dsimp only; split <;> rfl
@[simp] theorem wr_wol (off : Nat) (v : W32) : (s.wr off v).wol = s.wol := by unfold State.wr; dsimp only; split <;> rfl
@[simp] theorem wr_count (off : Nat) (v : W32) : (s.wr off v).count = s.count := by unfold State.wr; dsimp only; split <;> rfl
@[simp] theorem wr_pending (off : Nat) (v : W32) : (s.wr off v).pending = s.pending := by unfold State.wr; dsimp only; split <;> rfl

/-! ### wr64 -/

@[simp] theorem wr64_par (off : Nat) (v : W64) : (s.wr64 off v).par = s.par := by simp [State.wr64]
@[simp] theorem wr64_rst (off : Nat) (v : W64) : (s.wr64 off v).rst = s.rst := by simp [State.wr64]
@[simp] theorem wr64_mem (off : Nat) (v : W64) : (s.wr64 off v).mem = s.mem := by simp [State.wr64]
@[simp] theorem wr64_tg (off : Nat) (v : W64) : (s.wr64 off v).tg = s.tg := by simp [State.wr64]
@[simp] theorem wr64_lanes (off : Nat) (v : W64) : (s.wr64 off v).lanes = s.lanes := by simp [State.wr64]
@[simp] theorem wr64_win (off : Nat) (v : W64) : (s.wr64 off v).win = s.win := by simp [State.wr64]
@[simp] theorem wr64_localPins (off : Nat) (v : W64) : (s.wr64 off v).localPins = s.localPins := by simp [State.wr64]
@[simp] theorem wr64_msg (off : Nat) (v : W64) : (s.wr64 off v).msg = s.msg := by simp [State.wr64]
@[simp] theorem wr64_miss (off : Nat) (v : W64) : (s.wr64 off v).miss = s.miss := by simp [State.wr64]
@[simp] theorem wr64_move (off : Nat) (v : W64) : (s.wr64 off v).move = s.move := by simp [State.wr64]
@[simp] theorem wr64_err (off : Nat) (v : W64) : (s.wr64 off v).err = s.err := by simp [State.wr64]
@[simp] theorem wr64_bur (off : Nat) (v : W64) : (s.wr64 off v).bur = s.bur := by simp [State.wr64]
@[simp] theorem wr64_sbd (off : Nat) (v : W64) : (s.wr64 off v).sbd = s.sbd := by simp [State.wr64]
@[simp] theorem wr64_pnl (off : Nat) (v : W64) : (s.wr64 off v).pnl = s.pnl := by simp [State.wr64]
@[simp] theorem wr64_rnk (off : Nat) (v : W64) : (s.wr64 off v).rnk = s.rnk := by simp [State.wr64]
@[simp] theorem wr64_port (off : Nat) (v : W64) : (s.wr64 off v).port = s.port := by simp [State.wr64]
@[simp] theorem wr64_pwr (off : Nat) (v : W64) : (s.wr64 off v).pwr = s.pwr := by simp [State.wr64]
@[simp] theorem wr64_stk (off : Nat) (v : W64) : (s.wr64 off v).stk = s.stk := by simp [State.wr64]
@[simp] theorem wr64_rings (off : Nat) (v : W64) : (s.wr64 off v).rings = s.rings := by simp [State.wr64]
@[simp] theorem wr64_cmdRot (off : Nat) (v : W64) : (s.wr64 off v).cmdRot = s.cmdRot := by simp [State.wr64]
@[simp] theorem wr64_wft (off : Nat) (v : W64) : (s.wr64 off v).wft = s.wft := by simp [State.wr64]
@[simp] theorem wr64_coh (off : Nat) (v : W64) : (s.wr64 off v).coh = s.coh := by simp [State.wr64]
@[simp] theorem wr64_wol (off : Nat) (v : W64) : (s.wr64 off v).wol = s.wol := by simp [State.wr64]
@[simp] theorem wr64_count (off : Nat) (v : W64) : (s.wr64 off v).count = s.count := by simp [State.wr64]
@[simp] theorem wr64_pending (off : Nat) (v : W64) : (s.wr64 off v).pending = s.pending := by simp [State.wr64]

/-! ### setFld -/

@[simp] theorem setFld_par (off hi lo v : Nat) : (s.setFld off hi lo v).par = s.par := by simp [State.setFld]
@[simp] theorem setFld_rst (off hi lo v : Nat) : (s.setFld off hi lo v).rst = s.rst := by simp [State.setFld]
@[simp] theorem setFld_mem (off hi lo v : Nat) : (s.setFld off hi lo v).mem = s.mem := by simp [State.setFld]
@[simp] theorem setFld_tg (off hi lo v : Nat) : (s.setFld off hi lo v).tg = s.tg := by simp [State.setFld]
@[simp] theorem setFld_lanes (off hi lo v : Nat) : (s.setFld off hi lo v).lanes = s.lanes := by simp [State.setFld]
@[simp] theorem setFld_win (off hi lo v : Nat) : (s.setFld off hi lo v).win = s.win := by simp [State.setFld]
@[simp] theorem setFld_localPins (off hi lo v : Nat) : (s.setFld off hi lo v).localPins = s.localPins := by simp [State.setFld]
@[simp] theorem setFld_msg (off hi lo v : Nat) : (s.setFld off hi lo v).msg = s.msg := by simp [State.setFld]
@[simp] theorem setFld_miss (off hi lo v : Nat) : (s.setFld off hi lo v).miss = s.miss := by simp [State.setFld]
@[simp] theorem setFld_move (off hi lo v : Nat) : (s.setFld off hi lo v).move = s.move := by simp [State.setFld]
@[simp] theorem setFld_err (off hi lo v : Nat) : (s.setFld off hi lo v).err = s.err := by simp [State.setFld]
@[simp] theorem setFld_bur (off hi lo v : Nat) : (s.setFld off hi lo v).bur = s.bur := by simp [State.setFld]
@[simp] theorem setFld_sbd (off hi lo v : Nat) : (s.setFld off hi lo v).sbd = s.sbd := by simp [State.setFld]
@[simp] theorem setFld_pnl (off hi lo v : Nat) : (s.setFld off hi lo v).pnl = s.pnl := by simp [State.setFld]
@[simp] theorem setFld_rnk (off hi lo v : Nat) : (s.setFld off hi lo v).rnk = s.rnk := by simp [State.setFld]
@[simp] theorem setFld_port (off hi lo v : Nat) : (s.setFld off hi lo v).port = s.port := by simp [State.setFld]
@[simp] theorem setFld_pwr (off hi lo v : Nat) : (s.setFld off hi lo v).pwr = s.pwr := by simp [State.setFld]
@[simp] theorem setFld_stk (off hi lo v : Nat) : (s.setFld off hi lo v).stk = s.stk := by simp [State.setFld]
@[simp] theorem setFld_rings (off hi lo v : Nat) : (s.setFld off hi lo v).rings = s.rings := by simp [State.setFld]
@[simp] theorem setFld_cmdRot (off hi lo v : Nat) : (s.setFld off hi lo v).cmdRot = s.cmdRot := by simp [State.setFld]
@[simp] theorem setFld_wft (off hi lo v : Nat) : (s.setFld off hi lo v).wft = s.wft := by simp [State.setFld]
@[simp] theorem setFld_coh (off hi lo v : Nat) : (s.setFld off hi lo v).coh = s.coh := by simp [State.setFld]
@[simp] theorem setFld_wol (off hi lo v : Nat) : (s.setFld off hi lo v).wol = s.wol := by simp [State.setFld]
@[simp] theorem setFld_count (off hi lo v : Nat) : (s.setFld off hi lo v).count = s.count := by simp [State.setFld]
@[simp] theorem setFld_pending (off hi lo v : Nat) : (s.setFld off hi lo v).pending = s.pending := by simp [State.setFld]

/-! ### setBitR -/

@[simp] theorem setBitR_par (off i : Nat) (b : Bool) : (s.setBitR off i b).par = s.par := by simp [State.setBitR]
@[simp] theorem setBitR_rst (off i : Nat) (b : Bool) : (s.setBitR off i b).rst = s.rst := by simp [State.setBitR]
@[simp] theorem setBitR_mem (off i : Nat) (b : Bool) : (s.setBitR off i b).mem = s.mem := by simp [State.setBitR]
@[simp] theorem setBitR_tg (off i : Nat) (b : Bool) : (s.setBitR off i b).tg = s.tg := by simp [State.setBitR]
@[simp] theorem setBitR_lanes (off i : Nat) (b : Bool) : (s.setBitR off i b).lanes = s.lanes := by simp [State.setBitR]
@[simp] theorem setBitR_win (off i : Nat) (b : Bool) : (s.setBitR off i b).win = s.win := by simp [State.setBitR]
@[simp] theorem setBitR_localPins (off i : Nat) (b : Bool) : (s.setBitR off i b).localPins = s.localPins := by simp [State.setBitR]
@[simp] theorem setBitR_msg (off i : Nat) (b : Bool) : (s.setBitR off i b).msg = s.msg := by simp [State.setBitR]
@[simp] theorem setBitR_miss (off i : Nat) (b : Bool) : (s.setBitR off i b).miss = s.miss := by simp [State.setBitR]
@[simp] theorem setBitR_move (off i : Nat) (b : Bool) : (s.setBitR off i b).move = s.move := by simp [State.setBitR]
@[simp] theorem setBitR_err (off i : Nat) (b : Bool) : (s.setBitR off i b).err = s.err := by simp [State.setBitR]
@[simp] theorem setBitR_bur (off i : Nat) (b : Bool) : (s.setBitR off i b).bur = s.bur := by simp [State.setBitR]
@[simp] theorem setBitR_sbd (off i : Nat) (b : Bool) : (s.setBitR off i b).sbd = s.sbd := by simp [State.setBitR]
@[simp] theorem setBitR_pnl (off i : Nat) (b : Bool) : (s.setBitR off i b).pnl = s.pnl := by simp [State.setBitR]
@[simp] theorem setBitR_rnk (off i : Nat) (b : Bool) : (s.setBitR off i b).rnk = s.rnk := by simp [State.setBitR]
@[simp] theorem setBitR_port (off i : Nat) (b : Bool) : (s.setBitR off i b).port = s.port := by simp [State.setBitR]
@[simp] theorem setBitR_pwr (off i : Nat) (b : Bool) : (s.setBitR off i b).pwr = s.pwr := by simp [State.setBitR]
@[simp] theorem setBitR_stk (off i : Nat) (b : Bool) : (s.setBitR off i b).stk = s.stk := by simp [State.setBitR]
@[simp] theorem setBitR_rings (off i : Nat) (b : Bool) : (s.setBitR off i b).rings = s.rings := by simp [State.setBitR]
@[simp] theorem setBitR_cmdRot (off i : Nat) (b : Bool) : (s.setBitR off i b).cmdRot = s.cmdRot := by simp [State.setBitR]
@[simp] theorem setBitR_wft (off i : Nat) (b : Bool) : (s.setBitR off i b).wft = s.wft := by simp [State.setBitR]
@[simp] theorem setBitR_coh (off i : Nat) (b : Bool) : (s.setBitR off i b).coh = s.coh := by simp [State.setBitR]
@[simp] theorem setBitR_wol (off i : Nat) (b : Bool) : (s.setBitR off i b).wol = s.wol := by simp [State.setBitR]
@[simp] theorem setBitR_count (off i : Nat) (b : Bool) : (s.setBitR off i b).count = s.count := by simp [State.setBitR]
@[simp] theorem setBitR_pending (off i : Nat) (b : Bool) : (s.setBitR off i b).pending = s.pending := by simp [State.setBitR]

/-! ### cnt64 -/

@[simp] theorem cnt64_par (off n : Nat) : (s.cnt64 off n).par = s.par := by simp [State.cnt64]
@[simp] theorem cnt64_rst (off n : Nat) : (s.cnt64 off n).rst = s.rst := by simp [State.cnt64]
@[simp] theorem cnt64_mem (off n : Nat) : (s.cnt64 off n).mem = s.mem := by simp [State.cnt64]
@[simp] theorem cnt64_tg (off n : Nat) : (s.cnt64 off n).tg = s.tg := by simp [State.cnt64]
@[simp] theorem cnt64_lanes (off n : Nat) : (s.cnt64 off n).lanes = s.lanes := by simp [State.cnt64]
@[simp] theorem cnt64_win (off n : Nat) : (s.cnt64 off n).win = s.win := by simp [State.cnt64]
@[simp] theorem cnt64_localPins (off n : Nat) : (s.cnt64 off n).localPins = s.localPins := by simp [State.cnt64]
@[simp] theorem cnt64_msg (off n : Nat) : (s.cnt64 off n).msg = s.msg := by simp [State.cnt64]
@[simp] theorem cnt64_miss (off n : Nat) : (s.cnt64 off n).miss = s.miss := by simp [State.cnt64]
@[simp] theorem cnt64_move (off n : Nat) : (s.cnt64 off n).move = s.move := by simp [State.cnt64]
@[simp] theorem cnt64_err (off n : Nat) : (s.cnt64 off n).err = s.err := by simp [State.cnt64]
@[simp] theorem cnt64_bur (off n : Nat) : (s.cnt64 off n).bur = s.bur := by simp [State.cnt64]
@[simp] theorem cnt64_sbd (off n : Nat) : (s.cnt64 off n).sbd = s.sbd := by simp [State.cnt64]
@[simp] theorem cnt64_pnl (off n : Nat) : (s.cnt64 off n).pnl = s.pnl := by simp [State.cnt64]
@[simp] theorem cnt64_rnk (off n : Nat) : (s.cnt64 off n).rnk = s.rnk := by simp [State.cnt64]
@[simp] theorem cnt64_port (off n : Nat) : (s.cnt64 off n).port = s.port := by simp [State.cnt64]
@[simp] theorem cnt64_pwr (off n : Nat) : (s.cnt64 off n).pwr = s.pwr := by simp [State.cnt64]
@[simp] theorem cnt64_stk (off n : Nat) : (s.cnt64 off n).stk = s.stk := by simp [State.cnt64]
@[simp] theorem cnt64_rings (off n : Nat) : (s.cnt64 off n).rings = s.rings := by simp [State.cnt64]
@[simp] theorem cnt64_cmdRot (off n : Nat) : (s.cnt64 off n).cmdRot = s.cmdRot := by simp [State.cnt64]
@[simp] theorem cnt64_wft (off n : Nat) : (s.cnt64 off n).wft = s.wft := by simp [State.cnt64]
@[simp] theorem cnt64_coh (off n : Nat) : (s.cnt64 off n).coh = s.coh := by simp [State.cnt64]
@[simp] theorem cnt64_wol (off n : Nat) : (s.cnt64 off n).wol = s.wol := by simp [State.cnt64]
@[simp] theorem cnt64_count (off n : Nat) : (s.cnt64 off n).count = s.count := by simp [State.cnt64]
@[simp] theorem cnt64_pending (off n : Nat) : (s.cnt64 off n).pending = s.pending := by simp [State.cnt64]

/-! ### cnt32 -/

@[simp] theorem cnt32_par (off : Nat) : (s.cnt32 off).par = s.par := by simp [State.cnt32]
@[simp] theorem cnt32_rst (off : Nat) : (s.cnt32 off).rst = s.rst := by simp [State.cnt32]
@[simp] theorem cnt32_mem (off : Nat) : (s.cnt32 off).mem = s.mem := by simp [State.cnt32]
@[simp] theorem cnt32_tg (off : Nat) : (s.cnt32 off).tg = s.tg := by simp [State.cnt32]
@[simp] theorem cnt32_lanes (off : Nat) : (s.cnt32 off).lanes = s.lanes := by simp [State.cnt32]
@[simp] theorem cnt32_win (off : Nat) : (s.cnt32 off).win = s.win := by simp [State.cnt32]
@[simp] theorem cnt32_localPins (off : Nat) : (s.cnt32 off).localPins = s.localPins := by simp [State.cnt32]
@[simp] theorem cnt32_msg (off : Nat) : (s.cnt32 off).msg = s.msg := by simp [State.cnt32]
@[simp] theorem cnt32_miss (off : Nat) : (s.cnt32 off).miss = s.miss := by simp [State.cnt32]
@[simp] theorem cnt32_move (off : Nat) : (s.cnt32 off).move = s.move := by simp [State.cnt32]
@[simp] theorem cnt32_err (off : Nat) : (s.cnt32 off).err = s.err := by simp [State.cnt32]
@[simp] theorem cnt32_bur (off : Nat) : (s.cnt32 off).bur = s.bur := by simp [State.cnt32]
@[simp] theorem cnt32_sbd (off : Nat) : (s.cnt32 off).sbd = s.sbd := by simp [State.cnt32]
@[simp] theorem cnt32_pnl (off : Nat) : (s.cnt32 off).pnl = s.pnl := by simp [State.cnt32]
@[simp] theorem cnt32_rnk (off : Nat) : (s.cnt32 off).rnk = s.rnk := by simp [State.cnt32]
@[simp] theorem cnt32_port (off : Nat) : (s.cnt32 off).port = s.port := by simp [State.cnt32]
@[simp] theorem cnt32_pwr (off : Nat) : (s.cnt32 off).pwr = s.pwr := by simp [State.cnt32]
@[simp] theorem cnt32_stk (off : Nat) : (s.cnt32 off).stk = s.stk := by simp [State.cnt32]
@[simp] theorem cnt32_rings (off : Nat) : (s.cnt32 off).rings = s.rings := by simp [State.cnt32]
@[simp] theorem cnt32_cmdRot (off : Nat) : (s.cnt32 off).cmdRot = s.cmdRot := by simp [State.cnt32]
@[simp] theorem cnt32_wft (off : Nat) : (s.cnt32 off).wft = s.wft := by simp [State.cnt32]
@[simp] theorem cnt32_coh (off : Nat) : (s.cnt32 off).coh = s.coh := by simp [State.cnt32]
@[simp] theorem cnt32_wol (off : Nat) : (s.cnt32 off).wol = s.wol := by simp [State.cnt32]
@[simp] theorem cnt32_count (off : Nat) : (s.cnt32 off).count = s.count := by simp [State.cnt32]
@[simp] theorem cnt32_pending (off : Nat) : (s.cnt32 off).pending = s.pending := by simp [State.cnt32]

/-! ### setPwrState -/

@[simp] theorem setPwrState_par (v : Nat) : (setPwrState s v).par = s.par := by simp [setPwrState]
@[simp] theorem setPwrState_rst (v : Nat) : (setPwrState s v).rst = s.rst := by simp [setPwrState]
@[simp] theorem setPwrState_mem (v : Nat) : (setPwrState s v).mem = s.mem := by simp [setPwrState]
@[simp] theorem setPwrState_tg (v : Nat) : (setPwrState s v).tg = s.tg := by simp [setPwrState]
@[simp] theorem setPwrState_lanes (v : Nat) : (setPwrState s v).lanes = s.lanes := by simp [setPwrState]
@[simp] theorem setPwrState_win (v : Nat) : (setPwrState s v).win = s.win := by simp [setPwrState]
@[simp] theorem setPwrState_localPins (v : Nat) : (setPwrState s v).localPins = s.localPins := by simp [setPwrState]
@[simp] theorem setPwrState_msg (v : Nat) : (setPwrState s v).msg = s.msg := by simp [setPwrState]
@[simp] theorem setPwrState_miss (v : Nat) : (setPwrState s v).miss = s.miss := by simp [setPwrState]
@[simp] theorem setPwrState_move (v : Nat) : (setPwrState s v).move = s.move := by simp [setPwrState]
@[simp] theorem setPwrState_err (v : Nat) : (setPwrState s v).err = s.err := by simp [setPwrState]
@[simp] theorem setPwrState_bur (v : Nat) : (setPwrState s v).bur = s.bur := by simp [setPwrState]
@[simp] theorem setPwrState_sbd (v : Nat) : (setPwrState s v).sbd = s.sbd := by simp [setPwrState]
@[simp] theorem setPwrState_pnl (v : Nat) : (setPwrState s v).pnl = s.pnl := by simp [setPwrState]
@[simp] theorem setPwrState_rnk (v : Nat) : (setPwrState s v).rnk = s.rnk := by simp [setPwrState]
@[simp] theorem setPwrState_port (v : Nat) : (setPwrState s v).port = s.port := by simp [setPwrState]
@[simp] theorem setPwrState_pwr (v : Nat) : (setPwrState s v).pwr = s.pwr := by simp [setPwrState]
@[simp] theorem setPwrState_stk (v : Nat) : (setPwrState s v).stk = s.stk := by simp [setPwrState]
@[simp] theorem setPwrState_rings (v : Nat) : (setPwrState s v).rings = s.rings := by simp [setPwrState]
@[simp] theorem setPwrState_cmdRot (v : Nat) : (setPwrState s v).cmdRot = s.cmdRot := by simp [setPwrState]
@[simp] theorem setPwrState_wft (v : Nat) : (setPwrState s v).wft = s.wft := by simp [setPwrState]
@[simp] theorem setPwrState_coh (v : Nat) : (setPwrState s v).coh = s.coh := by simp [setPwrState]
@[simp] theorem setPwrState_wol (v : Nat) : (setPwrState s v).wol = s.wol := by simp [setPwrState]
@[simp] theorem setPwrState_count (v : Nat) : (setPwrState s v).count = s.count := by simp [setPwrState]
@[simp] theorem setPwrState_pending (v : Nat) : (setPwrState s v).pending = s.pending := by simp [setPwrState]

/-! ### setPwrPhase -/

@[simp] theorem setPwrPhase_par (v : Nat) : (setPwrPhase s v).par = s.par := by simp [setPwrPhase]
@[simp] theorem setPwrPhase_rst (v : Nat) : (setPwrPhase s v).rst = s.rst := by simp [setPwrPhase]
@[simp] theorem setPwrPhase_mem (v : Nat) : (setPwrPhase s v).mem = s.mem := by simp [setPwrPhase]
@[simp] theorem setPwrPhase_tg (v : Nat) : (setPwrPhase s v).tg = s.tg := by simp [setPwrPhase]
@[simp] theorem setPwrPhase_lanes (v : Nat) : (setPwrPhase s v).lanes = s.lanes := by simp [setPwrPhase]
@[simp] theorem setPwrPhase_win (v : Nat) : (setPwrPhase s v).win = s.win := by simp [setPwrPhase]
@[simp] theorem setPwrPhase_localPins (v : Nat) : (setPwrPhase s v).localPins = s.localPins := by simp [setPwrPhase]
@[simp] theorem setPwrPhase_msg (v : Nat) : (setPwrPhase s v).msg = s.msg := by simp [setPwrPhase]
@[simp] theorem setPwrPhase_miss (v : Nat) : (setPwrPhase s v).miss = s.miss := by simp [setPwrPhase]
@[simp] theorem setPwrPhase_move (v : Nat) : (setPwrPhase s v).move = s.move := by simp [setPwrPhase]
@[simp] theorem setPwrPhase_err (v : Nat) : (setPwrPhase s v).err = s.err := by simp [setPwrPhase]
@[simp] theorem setPwrPhase_bur (v : Nat) : (setPwrPhase s v).bur = s.bur := by simp [setPwrPhase]
@[simp] theorem setPwrPhase_sbd (v : Nat) : (setPwrPhase s v).sbd = s.sbd := by simp [setPwrPhase]
@[simp] theorem setPwrPhase_pnl (v : Nat) : (setPwrPhase s v).pnl = s.pnl := by simp [setPwrPhase]
@[simp] theorem setPwrPhase_rnk (v : Nat) : (setPwrPhase s v).rnk = s.rnk := by simp [setPwrPhase]
@[simp] theorem setPwrPhase_port (v : Nat) : (setPwrPhase s v).port = s.port := by simp [setPwrPhase]
@[simp] theorem setPwrPhase_pwr (v : Nat) : (setPwrPhase s v).pwr = s.pwr := by simp [setPwrPhase]
@[simp] theorem setPwrPhase_stk (v : Nat) : (setPwrPhase s v).stk = s.stk := by simp [setPwrPhase]
@[simp] theorem setPwrPhase_rings (v : Nat) : (setPwrPhase s v).rings = s.rings := by simp [setPwrPhase]
@[simp] theorem setPwrPhase_cmdRot (v : Nat) : (setPwrPhase s v).cmdRot = s.cmdRot := by simp [setPwrPhase]
@[simp] theorem setPwrPhase_wft (v : Nat) : (setPwrPhase s v).wft = s.wft := by simp [setPwrPhase]
@[simp] theorem setPwrPhase_coh (v : Nat) : (setPwrPhase s v).coh = s.coh := by simp [setPwrPhase]
@[simp] theorem setPwrPhase_wol (v : Nat) : (setPwrPhase s v).wol = s.wol := by simp [setPwrPhase]
@[simp] theorem setPwrPhase_count (v : Nat) : (setPwrPhase s v).count = s.count := by simp [setPwrPhase]
@[simp] theorem setPwrPhase_pending (v : Nat) : (setPwrPhase s v).pending = s.pending := by simp [setPwrPhase]

/-! ### store32 -/

@[simp] theorem store32_par (a : Nat) (v : W32) : (s.store32 a v).par = s.par := rfl
@[simp] theorem store32_rst (a : Nat) (v : W32) : (s.store32 a v).rst = s.rst := rfl
@[simp] theorem store32_regs (a : Nat) (v : W32) : (s.store32 a v).regs = s.regs := rfl
@[simp] theorem store32_tg (a : Nat) (v : W32) : (s.store32 a v).tg = s.tg := rfl
@[simp] theorem store32_lanes (a : Nat) (v : W32) : (s.store32 a v).lanes = s.lanes := rfl
@[simp] theorem store32_win (a : Nat) (v : W32) : (s.store32 a v).win = s.win := rfl
@[simp] theorem store32_localPins (a : Nat) (v : W32) : (s.store32 a v).localPins = s.localPins := rfl
@[simp] theorem store32_msg (a : Nat) (v : W32) : (s.store32 a v).msg = s.msg := rfl
@[simp] theorem store32_miss (a : Nat) (v : W32) : (s.store32 a v).miss = s.miss := rfl
@[simp] theorem store32_move (a : Nat) (v : W32) : (s.store32 a v).move = s.move := rfl
@[simp] theorem store32_err (a : Nat) (v : W32) : (s.store32 a v).err = s.err := rfl
@[simp] theorem store32_prf (a : Nat) (v : W32) : (s.store32 a v).prf = s.prf := rfl
@[simp] theorem store32_bur (a : Nat) (v : W32) : (s.store32 a v).bur = s.bur := rfl
@[simp] theorem store32_sbd (a : Nat) (v : W32) : (s.store32 a v).sbd = s.sbd := rfl
@[simp] theorem store32_pnl (a : Nat) (v : W32) : (s.store32 a v).pnl = s.pnl := rfl
@[simp] theorem store32_rnk (a : Nat) (v : W32) : (s.store32 a v).rnk = s.rnk := rfl
@[simp] theorem store32_port (a : Nat) (v : W32) : (s.store32 a v).port = s.port := rfl
@[simp] theorem store32_pwr (a : Nat) (v : W32) : (s.store32 a v).pwr = s.pwr := rfl
@[simp] theorem store32_stk (a : Nat) (v : W32) : (s.store32 a v).stk = s.stk := rfl
@[simp] theorem store32_rings (a : Nat) (v : W32) : (s.store32 a v).rings = s.rings := rfl
@[simp] theorem store32_cmdRot (a : Nat) (v : W32) : (s.store32 a v).cmdRot = s.cmdRot := rfl
@[simp] theorem store32_wft (a : Nat) (v : W32) : (s.store32 a v).wft = s.wft := rfl
@[simp] theorem store32_wol (a : Nat) (v : W32) : (s.store32 a v).wol = s.wol := rfl
@[simp] theorem store32_count (a : Nat) (v : W32) : (s.store32 a v).count = s.count := rfl
@[simp] theorem store32_pending (a : Nat) (v : W32) : (s.store32 a v).pending = s.pending := rfl

/-! ### store64 -/

@[simp] theorem store64_par (a : Nat) (v : W64) : (s.store64 a v).par = s.par := rfl
@[simp] theorem store64_rst (a : Nat) (v : W64) : (s.store64 a v).rst = s.rst := rfl
@[simp] theorem store64_regs (a : Nat) (v : W64) : (s.store64 a v).regs = s.regs := rfl
@[simp] theorem store64_tg (a : Nat) (v : W64) : (s.store64 a v).tg = s.tg := rfl
@[simp] theorem store64_lanes (a : Nat) (v : W64) : (s.store64 a v).lanes = s.lanes := rfl
@[simp] theorem store64_win (a : Nat) (v : W64) : (s.store64 a v).win = s.win := rfl
@[simp] theorem store64_localPins (a : Nat) (v : W64) : (s.store64 a v).localPins = s.localPins := rfl
@[simp] theorem store64_msg (a : Nat) (v : W64) : (s.store64 a v).msg = s.msg := rfl
@[simp] theorem store64_miss (a : Nat) (v : W64) : (s.store64 a v).miss = s.miss := rfl
@[simp] theorem store64_move (a : Nat) (v : W64) : (s.store64 a v).move = s.move := rfl
@[simp] theorem store64_err (a : Nat) (v : W64) : (s.store64 a v).err = s.err := rfl
@[simp] theorem store64_prf (a : Nat) (v : W64) : (s.store64 a v).prf = s.prf := rfl
@[simp] theorem store64_bur (a : Nat) (v : W64) : (s.store64 a v).bur = s.bur := rfl
@[simp] theorem store64_sbd (a : Nat) (v : W64) : (s.store64 a v).sbd = s.sbd := rfl
@[simp] theorem store64_pnl (a : Nat) (v : W64) : (s.store64 a v).pnl = s.pnl := rfl
@[simp] theorem store64_rnk (a : Nat) (v : W64) : (s.store64 a v).rnk = s.rnk := rfl
@[simp] theorem store64_port (a : Nat) (v : W64) : (s.store64 a v).port = s.port := rfl
@[simp] theorem store64_pwr (a : Nat) (v : W64) : (s.store64 a v).pwr = s.pwr := rfl
@[simp] theorem store64_stk (a : Nat) (v : W64) : (s.store64 a v).stk = s.stk := rfl
@[simp] theorem store64_rings (a : Nat) (v : W64) : (s.store64 a v).rings = s.rings := rfl
@[simp] theorem store64_cmdRot (a : Nat) (v : W64) : (s.store64 a v).cmdRot = s.cmdRot := rfl
@[simp] theorem store64_wft (a : Nat) (v : W64) : (s.store64 a v).wft = s.wft := rfl
@[simp] theorem store64_wol (a : Nat) (v : W64) : (s.store64 a v).wol = s.wol := rfl
@[simp] theorem store64_count (a : Nat) (v : W64) : (s.store64 a v).count = s.count := rfl
@[simp] theorem store64_pending (a : Nat) (v : W64) : (s.store64 a v).pending = s.pending := rfl

/-! ### setTgt -/

@[simp] theorem setTgt_par (k : Nat) (x : Tg) : (s.setTgt k x).par = s.par := rfl
@[simp] theorem setTgt_rst (k : Nat) (x : Tg) : (s.setTgt k x).rst = s.rst := rfl
@[simp] theorem setTgt_regs (k : Nat) (x : Tg) : (s.setTgt k x).regs = s.regs := rfl
@[simp] theorem setTgt_mem (k : Nat) (x : Tg) : (s.setTgt k x).mem = s.mem := rfl
@[simp] theorem setTgt_lanes (k : Nat) (x : Tg) : (s.setTgt k x).lanes = s.lanes := rfl
@[simp] theorem setTgt_win (k : Nat) (x : Tg) : (s.setTgt k x).win = s.win := rfl
@[simp] theorem setTgt_localPins (k : Nat) (x : Tg) : (s.setTgt k x).localPins = s.localPins := rfl
@[simp] theorem setTgt_msg (k : Nat) (x : Tg) : (s.setTgt k x).msg = s.msg := rfl
@[simp] theorem setTgt_miss (k : Nat) (x : Tg) : (s.setTgt k x).miss = s.miss := rfl
@[simp] theorem setTgt_move (k : Nat) (x : Tg) : (s.setTgt k x).move = s.move := rfl
@[simp] theorem setTgt_err (k : Nat) (x : Tg) : (s.setTgt k x).err = s.err := rfl
@[simp] theorem setTgt_prf (k : Nat) (x : Tg) : (s.setTgt k x).prf = s.prf := rfl
@[simp] theorem setTgt_bur (k : Nat) (x : Tg) : (s.setTgt k x).bur = s.bur := rfl
@[simp] theorem setTgt_sbd (k : Nat) (x : Tg) : (s.setTgt k x).sbd = s.sbd := rfl
@[simp] theorem setTgt_pnl (k : Nat) (x : Tg) : (s.setTgt k x).pnl = s.pnl := rfl
@[simp] theorem setTgt_rnk (k : Nat) (x : Tg) : (s.setTgt k x).rnk = s.rnk := rfl
@[simp] theorem setTgt_port (k : Nat) (x : Tg) : (s.setTgt k x).port = s.port := rfl
@[simp] theorem setTgt_pwr (k : Nat) (x : Tg) : (s.setTgt k x).pwr = s.pwr := rfl
@[simp] theorem setTgt_stk (k : Nat) (x : Tg) : (s.setTgt k x).stk = s.stk := rfl
@[simp] theorem setTgt_rings (k : Nat) (x : Tg) : (s.setTgt k x).rings = s.rings := rfl
@[simp] theorem setTgt_cmdRot (k : Nat) (x : Tg) : (s.setTgt k x).cmdRot = s.cmdRot := rfl
@[simp] theorem setTgt_wft (k : Nat) (x : Tg) : (s.setTgt k x).wft = s.wft := rfl
@[simp] theorem setTgt_coh (k : Nat) (x : Tg) : (s.setTgt k x).coh = s.coh := rfl
@[simp] theorem setTgt_wol (k : Nat) (x : Tg) : (s.setTgt k x).wol = s.wol := rfl
@[simp] theorem setTgt_count (k : Nat) (x : Tg) : (s.setTgt k x).count = s.count := rfl
@[simp] theorem setTgt_pending (k : Nat) (x : Tg) : (s.setTgt k x).pending = s.pending := rfl

/-! ### modTgt -/

@[simp] theorem modTgt_par (k : Nat) (f : Tg → Tg) : (s.modTgt k f).par = s.par := rfl
@[simp] theorem modTgt_rst (k : Nat) (f : Tg → Tg) : (s.modTgt k f).rst = s.rst := rfl
@[simp] theorem modTgt_regs (k : Nat) (f : Tg → Tg) : (s.modTgt k f).regs = s.regs := rfl
@[simp] theorem modTgt_mem (k : Nat) (f : Tg → Tg) : (s.modTgt k f).mem = s.mem := rfl
@[simp] theorem modTgt_lanes (k : Nat) (f : Tg → Tg) : (s.modTgt k f).lanes = s.lanes := rfl
@[simp] theorem modTgt_win (k : Nat) (f : Tg → Tg) : (s.modTgt k f).win = s.win := rfl
@[simp] theorem modTgt_localPins (k : Nat) (f : Tg → Tg) : (s.modTgt k f).localPins = s.localPins := rfl
@[simp] theorem modTgt_msg (k : Nat) (f : Tg → Tg) : (s.modTgt k f).msg = s.msg := rfl
@[simp] theorem modTgt_miss (k : Nat) (f : Tg → Tg) : (s.modTgt k f).miss = s.miss := rfl
@[simp] theorem modTgt_move (k : Nat) (f : Tg → Tg) : (s.modTgt k f).move = s.move := rfl
@[simp] theorem modTgt_err (k : Nat) (f : Tg → Tg) : (s.modTgt k f).err = s.err := rfl
@[simp] theorem modTgt_prf (k : Nat) (f : Tg → Tg) : (s.modTgt k f).prf = s.prf := rfl
@[simp] theorem modTgt_bur (k : Nat) (f : Tg → Tg) : (s.modTgt k f).bur = s.bur := rfl
@[simp] theorem modTgt_sbd (k : Nat) (f : Tg → Tg) : (s.modTgt k f).sbd = s.sbd := rfl
@[simp] theorem modTgt_pnl (k : Nat) (f : Tg → Tg) : (s.modTgt k f).pnl = s.pnl := rfl
@[simp] theorem modTgt_rnk (k : Nat) (f : Tg → Tg) : (s.modTgt k f).rnk = s.rnk := rfl
@[simp] theorem modTgt_port (k : Nat) (f : Tg → Tg) : (s.modTgt k f).port = s.port := rfl
@[simp] theorem modTgt_pwr (k : Nat) (f : Tg → Tg) : (s.modTgt k f).pwr = s.pwr := rfl
@[simp] theorem modTgt_stk (k : Nat) (f : Tg → Tg) : (s.modTgt k f).stk = s.stk := rfl
@[simp] theorem modTgt_rings (k : Nat) (f : Tg → Tg) : (s.modTgt k f).rings = s.rings := rfl
@[simp] theorem modTgt_cmdRot (k : Nat) (f : Tg → Tg) : (s.modTgt k f).cmdRot = s.cmdRot := rfl
@[simp] theorem modTgt_wft (k : Nat) (f : Tg → Tg) : (s.modTgt k f).wft = s.wft := rfl
@[simp] theorem modTgt_coh (k : Nat) (f : Tg → Tg) : (s.modTgt k f).coh = s.coh := rfl
@[simp] theorem modTgt_wol (k : Nat) (f : Tg → Tg) : (s.modTgt k f).wol = s.wol := rfl
@[simp] theorem modTgt_count (k : Nat) (f : Tg → Tg) : (s.modTgt k f).count = s.count := rfl
@[simp] theorem modTgt_pending (k : Nat) (f : Tg → Tg) : (s.modTgt k f).pending = s.pending := rfl

/-! ### setLine -/

@[simp] theorem setLine_par (n : Nat) (x : Line) : (s.setLine n x).par = s.par := rfl
@[simp] theorem setLine_rst (n : Nat) (x : Line) : (s.setLine n x).rst = s.rst := rfl
@[simp] theorem setLine_regs (n : Nat) (x : Line) : (s.setLine n x).regs = s.regs := rfl
@[simp] theorem setLine_mem (n : Nat) (x : Line) : (s.setLine n x).mem = s.mem := rfl
@[simp] theorem setLine_tg (n : Nat) (x : Line) : (s.setLine n x).tg = s.tg := rfl
@[simp] theorem setLine_lanes (n : Nat) (x : Line) : (s.setLine n x).lanes = s.lanes := rfl
@[simp] theorem setLine_localPins (n : Nat) (x : Line) : (s.setLine n x).localPins = s.localPins := rfl
@[simp] theorem setLine_msg (n : Nat) (x : Line) : (s.setLine n x).msg = s.msg := rfl
@[simp] theorem setLine_miss (n : Nat) (x : Line) : (s.setLine n x).miss = s.miss := rfl
@[simp] theorem setLine_move (n : Nat) (x : Line) : (s.setLine n x).move = s.move := rfl
@[simp] theorem setLine_err (n : Nat) (x : Line) : (s.setLine n x).err = s.err := rfl
@[simp] theorem setLine_prf (n : Nat) (x : Line) : (s.setLine n x).prf = s.prf := rfl
@[simp] theorem setLine_bur (n : Nat) (x : Line) : (s.setLine n x).bur = s.bur := rfl
@[simp] theorem setLine_sbd (n : Nat) (x : Line) : (s.setLine n x).sbd = s.sbd := rfl
@[simp] theorem setLine_pnl (n : Nat) (x : Line) : (s.setLine n x).pnl = s.pnl := rfl
@[simp] theorem setLine_rnk (n : Nat) (x : Line) : (s.setLine n x).rnk = s.rnk := rfl
@[simp] theorem setLine_port (n : Nat) (x : Line) : (s.setLine n x).port = s.port := rfl
@[simp] theorem setLine_pwr (n : Nat) (x : Line) : (s.setLine n x).pwr = s.pwr := rfl
@[simp] theorem setLine_stk (n : Nat) (x : Line) : (s.setLine n x).stk = s.stk := rfl
@[simp] theorem setLine_rings (n : Nat) (x : Line) : (s.setLine n x).rings = s.rings := rfl
@[simp] theorem setLine_cmdRot (n : Nat) (x : Line) : (s.setLine n x).cmdRot = s.cmdRot := rfl
@[simp] theorem setLine_wft (n : Nat) (x : Line) : (s.setLine n x).wft = s.wft := rfl
@[simp] theorem setLine_coh (n : Nat) (x : Line) : (s.setLine n x).coh = s.coh := rfl
@[simp] theorem setLine_wol (n : Nat) (x : Line) : (s.setLine n x).wol = s.wol := rfl
@[simp] theorem setLine_count (n : Nat) (x : Line) : (s.setLine n x).count = s.count := rfl
@[simp] theorem setLine_pending (n : Nat) (x : Line) : (s.setLine n x).pending = s.pending := rfl

/-! ### modLine -/

@[simp] theorem modLine_par (n : Nat) (f : Line → Line) : (s.modLine n f).par = s.par := rfl
@[simp] theorem modLine_rst (n : Nat) (f : Line → Line) : (s.modLine n f).rst = s.rst := rfl
@[simp] theorem modLine_regs (n : Nat) (f : Line → Line) : (s.modLine n f).regs = s.regs := rfl
@[simp] theorem modLine_mem (n : Nat) (f : Line → Line) : (s.modLine n f).mem = s.mem := rfl
@[simp] theorem modLine_tg (n : Nat) (f : Line → Line) : (s.modLine n f).tg = s.tg := rfl
@[simp] theorem modLine_lanes (n : Nat) (f : Line → Line) : (s.modLine n f).lanes = s.lanes := rfl
@[simp] theorem modLine_localPins (n : Nat) (f : Line → Line) : (s.modLine n f).localPins = s.localPins := rfl
@[simp] theorem modLine_msg (n : Nat) (f : Line → Line) : (s.modLine n f).msg = s.msg := rfl
@[simp] theorem modLine_miss (n : Nat) (f : Line → Line) : (s.modLine n f).miss = s.miss := rfl
@[simp] theorem modLine_move (n : Nat) (f : Line → Line) : (s.modLine n f).move = s.move := rfl
@[simp] theorem modLine_err (n : Nat) (f : Line → Line) : (s.modLine n f).err = s.err := rfl
@[simp] theorem modLine_prf (n : Nat) (f : Line → Line) : (s.modLine n f).prf = s.prf := rfl
@[simp] theorem modLine_bur (n : Nat) (f : Line → Line) : (s.modLine n f).bur = s.bur := rfl
@[simp] theorem modLine_sbd (n : Nat) (f : Line → Line) : (s.modLine n f).sbd = s.sbd := rfl
@[simp] theorem modLine_pnl (n : Nat) (f : Line → Line) : (s.modLine n f).pnl = s.pnl := rfl
@[simp] theorem modLine_rnk (n : Nat) (f : Line → Line) : (s.modLine n f).rnk = s.rnk := rfl
@[simp] theorem modLine_port (n : Nat) (f : Line → Line) : (s.modLine n f).port = s.port := rfl
@[simp] theorem modLine_pwr (n : Nat) (f : Line → Line) : (s.modLine n f).pwr = s.pwr := rfl
@[simp] theorem modLine_stk (n : Nat) (f : Line → Line) : (s.modLine n f).stk = s.stk := rfl
@[simp] theorem modLine_rings (n : Nat) (f : Line → Line) : (s.modLine n f).rings = s.rings := rfl
@[simp] theorem modLine_cmdRot (n : Nat) (f : Line → Line) : (s.modLine n f).cmdRot = s.cmdRot := rfl
@[simp] theorem modLine_wft (n : Nat) (f : Line → Line) : (s.modLine n f).wft = s.wft := rfl
@[simp] theorem modLine_coh (n : Nat) (f : Line → Line) : (s.modLine n f).coh = s.coh := rfl
@[simp] theorem modLine_wol (n : Nat) (f : Line → Line) : (s.modLine n f).wol = s.wol := rfl
@[simp] theorem modLine_count (n : Nat) (f : Line → Line) : (s.modLine n f).count = s.count := rfl
@[simp] theorem modLine_pending (n : Nat) (f : Line → Line) : (s.modLine n f).pending = s.pending := rfl

/-! ### setLane -/

@[simp] theorem setLane_par (n : Nat) (x : List LaneW) : (s.setLane n x).par = s.par := rfl
@[simp] theorem setLane_rst (n : Nat) (x : List LaneW) : (s.setLane n x).rst = s.rst := rfl
@[simp] theorem setLane_regs (n : Nat) (x : List LaneW) : (s.setLane n x).regs = s.regs := rfl
@[simp] theorem setLane_mem (n : Nat) (x : List LaneW) : (s.setLane n x).mem = s.mem := rfl
@[simp] theorem setLane_tg (n : Nat) (x : List LaneW) : (s.setLane n x).tg = s.tg := rfl
@[simp] theorem setLane_win (n : Nat) (x : List LaneW) : (s.setLane n x).win = s.win := rfl
@[simp] theorem setLane_localPins (n : Nat) (x : List LaneW) : (s.setLane n x).localPins = s.localPins := rfl
@[simp] theorem setLane_msg (n : Nat) (x : List LaneW) : (s.setLane n x).msg = s.msg := rfl
@[simp] theorem setLane_miss (n : Nat) (x : List LaneW) : (s.setLane n x).miss = s.miss := rfl
@[simp] theorem setLane_move (n : Nat) (x : List LaneW) : (s.setLane n x).move = s.move := rfl
@[simp] theorem setLane_err (n : Nat) (x : List LaneW) : (s.setLane n x).err = s.err := rfl
@[simp] theorem setLane_prf (n : Nat) (x : List LaneW) : (s.setLane n x).prf = s.prf := rfl
@[simp] theorem setLane_bur (n : Nat) (x : List LaneW) : (s.setLane n x).bur = s.bur := rfl
@[simp] theorem setLane_sbd (n : Nat) (x : List LaneW) : (s.setLane n x).sbd = s.sbd := rfl
@[simp] theorem setLane_pnl (n : Nat) (x : List LaneW) : (s.setLane n x).pnl = s.pnl := rfl
@[simp] theorem setLane_rnk (n : Nat) (x : List LaneW) : (s.setLane n x).rnk = s.rnk := rfl
@[simp] theorem setLane_port (n : Nat) (x : List LaneW) : (s.setLane n x).port = s.port := rfl
@[simp] theorem setLane_pwr (n : Nat) (x : List LaneW) : (s.setLane n x).pwr = s.pwr := rfl
@[simp] theorem setLane_stk (n : Nat) (x : List LaneW) : (s.setLane n x).stk = s.stk := rfl
@[simp] theorem setLane_rings (n : Nat) (x : List LaneW) : (s.setLane n x).rings = s.rings := rfl
@[simp] theorem setLane_cmdRot (n : Nat) (x : List LaneW) : (s.setLane n x).cmdRot = s.cmdRot := rfl
@[simp] theorem setLane_wft (n : Nat) (x : List LaneW) : (s.setLane n x).wft = s.wft := rfl
@[simp] theorem setLane_coh (n : Nat) (x : List LaneW) : (s.setLane n x).coh = s.coh := rfl
@[simp] theorem setLane_wol (n : Nat) (x : List LaneW) : (s.setLane n x).wol = s.wol := rfl
@[simp] theorem setLane_count (n : Nat) (x : List LaneW) : (s.setLane n x).count = s.count := rfl
@[simp] theorem setLane_pending (n : Nat) (x : List LaneW) : (s.setLane n x).pending = s.pending := rfl

/-! ### setRing -/

@[simp] theorem setRing_par (n : Nat) (x : Ring) : (s.setRing n x).par = s.par := rfl
@[simp] theorem setRing_rst (n : Nat) (x : Ring) : (s.setRing n x).rst = s.rst := rfl
@[simp] theorem setRing_regs (n : Nat) (x : Ring) : (s.setRing n x).regs = s.regs := rfl
@[simp] theorem setRing_mem (n : Nat) (x : Ring) : (s.setRing n x).mem = s.mem := rfl
@[simp] theorem setRing_tg (n : Nat) (x : Ring) : (s.setRing n x).tg = s.tg := rfl
@[simp] theorem setRing_lanes (n : Nat) (x : Ring) : (s.setRing n x).lanes = s.lanes := rfl
@[simp] theorem setRing_win (n : Nat) (x : Ring) : (s.setRing n x).win = s.win := rfl
@[simp] theorem setRing_localPins (n : Nat) (x : Ring) : (s.setRing n x).localPins = s.localPins := rfl
@[simp] theorem setRing_msg (n : Nat) (x : Ring) : (s.setRing n x).msg = s.msg := rfl
@[simp] theorem setRing_miss (n : Nat) (x : Ring) : (s.setRing n x).miss = s.miss := rfl
@[simp] theorem setRing_move (n : Nat) (x : Ring) : (s.setRing n x).move = s.move := rfl
@[simp] theorem setRing_err (n : Nat) (x : Ring) : (s.setRing n x).err = s.err := rfl
@[simp] theorem setRing_prf (n : Nat) (x : Ring) : (s.setRing n x).prf = s.prf := rfl
@[simp] theorem setRing_bur (n : Nat) (x : Ring) : (s.setRing n x).bur = s.bur := rfl
@[simp] theorem setRing_sbd (n : Nat) (x : Ring) : (s.setRing n x).sbd = s.sbd := rfl
@[simp] theorem setRing_pnl (n : Nat) (x : Ring) : (s.setRing n x).pnl = s.pnl := rfl
@[simp] theorem setRing_rnk (n : Nat) (x : Ring) : (s.setRing n x).rnk = s.rnk := rfl
@[simp] theorem setRing_port (n : Nat) (x : Ring) : (s.setRing n x).port = s.port := rfl
@[simp] theorem setRing_pwr (n : Nat) (x : Ring) : (s.setRing n x).pwr = s.pwr := rfl
@[simp] theorem setRing_stk (n : Nat) (x : Ring) : (s.setRing n x).stk = s.stk := rfl
@[simp] theorem setRing_cmdRot (n : Nat) (x : Ring) : (s.setRing n x).cmdRot = s.cmdRot := rfl
@[simp] theorem setRing_wft (n : Nat) (x : Ring) : (s.setRing n x).wft = s.wft := rfl
@[simp] theorem setRing_coh (n : Nat) (x : Ring) : (s.setRing n x).coh = s.coh := rfl
@[simp] theorem setRing_wol (n : Nat) (x : Ring) : (s.setRing n x).wol = s.wol := rfl
@[simp] theorem setRing_count (n : Nat) (x : Ring) : (s.setRing n x).count = s.count := rfl
@[simp] theorem setRing_pending (n : Nat) (x : Ring) : (s.setRing n x).pending = s.pending := rfl

/-! ### modRing -/

@[simp] theorem modRing_par (n : Nat) (f : Ring → Ring) : (s.modRing n f).par = s.par := rfl
@[simp] theorem modRing_rst (n : Nat) (f : Ring → Ring) : (s.modRing n f).rst = s.rst := rfl
@[simp] theorem modRing_regs (n : Nat) (f : Ring → Ring) : (s.modRing n f).regs = s.regs := rfl
@[simp] theorem modRing_mem (n : Nat) (f : Ring → Ring) : (s.modRing n f).mem = s.mem := rfl
@[simp] theorem modRing_tg (n : Nat) (f : Ring → Ring) : (s.modRing n f).tg = s.tg := rfl
@[simp] theorem modRing_lanes (n : Nat) (f : Ring → Ring) : (s.modRing n f).lanes = s.lanes := rfl
@[simp] theorem modRing_win (n : Nat) (f : Ring → Ring) : (s.modRing n f).win = s.win := rfl
@[simp] theorem modRing_localPins (n : Nat) (f : Ring → Ring) : (s.modRing n f).localPins = s.localPins := rfl
@[simp] theorem modRing_msg (n : Nat) (f : Ring → Ring) : (s.modRing n f).msg = s.msg := rfl
@[simp] theorem modRing_miss (n : Nat) (f : Ring → Ring) : (s.modRing n f).miss = s.miss := rfl
@[simp] theorem modRing_move (n : Nat) (f : Ring → Ring) : (s.modRing n f).move = s.move := rfl
@[simp] theorem modRing_err (n : Nat) (f : Ring → Ring) : (s.modRing n f).err = s.err := rfl
@[simp] theorem modRing_prf (n : Nat) (f : Ring → Ring) : (s.modRing n f).prf = s.prf := rfl
@[simp] theorem modRing_bur (n : Nat) (f : Ring → Ring) : (s.modRing n f).bur = s.bur := rfl
@[simp] theorem modRing_sbd (n : Nat) (f : Ring → Ring) : (s.modRing n f).sbd = s.sbd := rfl
@[simp] theorem modRing_pnl (n : Nat) (f : Ring → Ring) : (s.modRing n f).pnl = s.pnl := rfl
@[simp] theorem modRing_rnk (n : Nat) (f : Ring → Ring) : (s.modRing n f).rnk = s.rnk := rfl
@[simp] theorem modRing_port (n : Nat) (f : Ring → Ring) : (s.modRing n f).port = s.port := rfl
@[simp] theorem modRing_pwr (n : Nat) (f : Ring → Ring) : (s.modRing n f).pwr = s.pwr := rfl
@[simp] theorem modRing_stk (n : Nat) (f : Ring → Ring) : (s.modRing n f).stk = s.stk := rfl
@[simp] theorem modRing_cmdRot (n : Nat) (f : Ring → Ring) : (s.modRing n f).cmdRot = s.cmdRot := rfl
@[simp] theorem modRing_wft (n : Nat) (f : Ring → Ring) : (s.modRing n f).wft = s.wft := rfl
@[simp] theorem modRing_coh (n : Nat) (f : Ring → Ring) : (s.modRing n f).coh = s.coh := rfl
@[simp] theorem modRing_wol (n : Nat) (f : Ring → Ring) : (s.modRing n f).wol = s.wol := rfl
@[simp] theorem modRing_count (n : Nat) (f : Ring → Ring) : (s.modRing n f).count = s.count := rfl
@[simp] theorem modRing_pending (n : Nat) (f : Ring → Ring) : (s.modRing n f).pending = s.pending := rfl

/-! ### setCore -/

@[simp] theorem setCore_par (u : Bur) (c : BurCore) : (s.setCore u c).par = s.par := by cases u <;> rfl
@[simp] theorem setCore_rst (u : Bur) (c : BurCore) : (s.setCore u c).rst = s.rst := by cases u <;> rfl
@[simp] theorem setCore_regs (u : Bur) (c : BurCore) : (s.setCore u c).regs = s.regs := by cases u <;> rfl
@[simp] theorem setCore_mem (u : Bur) (c : BurCore) : (s.setCore u c).mem = s.mem := by cases u <;> rfl
@[simp] theorem setCore_tg (u : Bur) (c : BurCore) : (s.setCore u c).tg = s.tg := by cases u <;> rfl
@[simp] theorem setCore_lanes (u : Bur) (c : BurCore) : (s.setCore u c).lanes = s.lanes := by cases u <;> rfl
@[simp] theorem setCore_win (u : Bur) (c : BurCore) : (s.setCore u c).win = s.win := by cases u <;> rfl
@[simp] theorem setCore_localPins (u : Bur) (c : BurCore) : (s.setCore u c).localPins = s.localPins := by cases u <;> rfl
@[simp] theorem setCore_msg (u : Bur) (c : BurCore) : (s.setCore u c).msg = s.msg := by cases u <;> rfl
@[simp] theorem setCore_miss (u : Bur) (c : BurCore) : (s.setCore u c).miss = s.miss := by cases u <;> rfl
@[simp] theorem setCore_move (u : Bur) (c : BurCore) : (s.setCore u c).move = s.move := by cases u <;> rfl
@[simp] theorem setCore_err (u : Bur) (c : BurCore) : (s.setCore u c).err = s.err := by cases u <;> rfl
@[simp] theorem setCore_prf (u : Bur) (c : BurCore) : (s.setCore u c).prf = s.prf := by cases u <;> rfl
@[simp] theorem setCore_sbd (u : Bur) (c : BurCore) : (s.setCore u c).sbd = s.sbd := by cases u <;> rfl
@[simp] theorem setCore_pnl (u : Bur) (c : BurCore) : (s.setCore u c).pnl = s.pnl := by cases u <;> rfl
@[simp] theorem setCore_rnk (u : Bur) (c : BurCore) : (s.setCore u c).rnk = s.rnk := by cases u <;> rfl
@[simp] theorem setCore_port (u : Bur) (c : BurCore) : (s.setCore u c).port = s.port := by cases u <;> rfl
@[simp] theorem setCore_pwr (u : Bur) (c : BurCore) : (s.setCore u c).pwr = s.pwr := by cases u <;> rfl
@[simp] theorem setCore_stk (u : Bur) (c : BurCore) : (s.setCore u c).stk = s.stk := by cases u <;> rfl
@[simp] theorem setCore_rings (u : Bur) (c : BurCore) : (s.setCore u c).rings = s.rings := by cases u <;> rfl
@[simp] theorem setCore_cmdRot (u : Bur) (c : BurCore) : (s.setCore u c).cmdRot = s.cmdRot := by cases u <;> rfl
@[simp] theorem setCore_wft (u : Bur) (c : BurCore) : (s.setCore u c).wft = s.wft := by cases u <;> rfl
@[simp] theorem setCore_coh (u : Bur) (c : BurCore) : (s.setCore u c).coh = s.coh := by cases u <;> rfl
@[simp] theorem setCore_wol (u : Bur) (c : BurCore) : (s.setCore u c).wol = s.wol := by cases u <;> rfl
@[simp] theorem setCore_count (u : Bur) (c : BurCore) : (s.setCore u c).count = s.count := by cases u <;> rfl
@[simp] theorem setCore_pending (u : Bur) (c : BurCore) : (s.setCore u c).pending = s.pending := by cases u <;> rfl

/-! ### modCore -/

@[simp] theorem modCore_par (u : Bur) (f : BurCore → BurCore) : (s.modCore u f).par = s.par := by cases u <;> rfl
@[simp] theorem modCore_rst (u : Bur) (f : BurCore → BurCore) : (s.modCore u f).rst = s.rst := by cases u <;> rfl
@[simp] theorem modCore_regs (u : Bur) (f : BurCore → BurCore) : (s.modCore u f).regs = s.regs := by cases u <;> rfl
@[simp] theorem modCore_mem (u : Bur) (f : BurCore → BurCore) : (s.modCore u f).mem = s.mem := by cases u <;> rfl
@[simp] theorem modCore_tg (u : Bur) (f : BurCore → BurCore) : (s.modCore u f).tg = s.tg := by cases u <;> rfl
@[simp] theorem modCore_lanes (u : Bur) (f : BurCore → BurCore) : (s.modCore u f).lanes = s.lanes := by cases u <;> rfl
@[simp] theorem modCore_win (u : Bur) (f : BurCore → BurCore) : (s.modCore u f).win = s.win := by cases u <;> rfl
@[simp] theorem modCore_localPins (u : Bur) (f : BurCore → BurCore) : (s.modCore u f).localPins = s.localPins := by cases u <;> rfl
@[simp] theorem modCore_msg (u : Bur) (f : BurCore → BurCore) : (s.modCore u f).msg = s.msg := by cases u <;> rfl
@[simp] theorem modCore_miss (u : Bur) (f : BurCore → BurCore) : (s.modCore u f).miss = s.miss := by cases u <;> rfl
@[simp] theorem modCore_move (u : Bur) (f : BurCore → BurCore) : (s.modCore u f).move = s.move := by cases u <;> rfl
@[simp] theorem modCore_err (u : Bur) (f : BurCore → BurCore) : (s.modCore u f).err = s.err := by cases u <;> rfl
@[simp] theorem modCore_prf (u : Bur) (f : BurCore → BurCore) : (s.modCore u f).prf = s.prf := by cases u <;> rfl
@[simp] theorem modCore_sbd (u : Bur) (f : BurCore → BurCore) : (s.modCore u f).sbd = s.sbd := by cases u <;> rfl
@[simp] theorem modCore_pnl (u : Bur) (f : BurCore → BurCore) : (s.modCore u f).pnl = s.pnl := by cases u <;> rfl
@[simp] theorem modCore_rnk (u : Bur) (f : BurCore → BurCore) : (s.modCore u f).rnk = s.rnk := by cases u <;> rfl
@[simp] theorem modCore_port (u : Bur) (f : BurCore → BurCore) : (s.modCore u f).port = s.port := by cases u <;> rfl
@[simp] theorem modCore_pwr (u : Bur) (f : BurCore → BurCore) : (s.modCore u f).pwr = s.pwr := by cases u <;> rfl
@[simp] theorem modCore_stk (u : Bur) (f : BurCore → BurCore) : (s.modCore u f).stk = s.stk := by cases u <;> rfl
@[simp] theorem modCore_rings (u : Bur) (f : BurCore → BurCore) : (s.modCore u f).rings = s.rings := by cases u <;> rfl
@[simp] theorem modCore_cmdRot (u : Bur) (f : BurCore → BurCore) : (s.modCore u f).cmdRot = s.cmdRot := by cases u <;> rfl
@[simp] theorem modCore_wft (u : Bur) (f : BurCore → BurCore) : (s.modCore u f).wft = s.wft := by cases u <;> rfl
@[simp] theorem modCore_coh (u : Bur) (f : BurCore → BurCore) : (s.modCore u f).coh = s.coh := by cases u <;> rfl
@[simp] theorem modCore_wol (u : Bur) (f : BurCore → BurCore) : (s.modCore u f).wol = s.wol := by cases u <;> rfl
@[simp] theorem modCore_count (u : Bur) (f : BurCore → BurCore) : (s.modCore u f).count = s.count := by cases u <;> rfl
@[simp] theorem modCore_pending (u : Bur) (f : BurCore → BurCore) : (s.modCore u f).pending = s.pending := by cases u <;> rfl

/-! ### setVword -/

@[simp] theorem setVword_par (v : BitVec 16) (w : VWord) : (s.setVword v w).par = s.par := rfl
@[simp] theorem setVword_rst (v : BitVec 16) (w : VWord) : (s.setVword v w).rst = s.rst := rfl
@[simp] theorem setVword_regs (v : BitVec 16) (w : VWord) : (s.setVword v w).regs = s.regs := rfl
@[simp] theorem setVword_mem (v : BitVec 16) (w : VWord) : (s.setVword v w).mem = s.mem := rfl
@[simp] theorem setVword_tg (v : BitVec 16) (w : VWord) : (s.setVword v w).tg = s.tg := rfl
@[simp] theorem setVword_lanes (v : BitVec 16) (w : VWord) : (s.setVword v w).lanes = s.lanes := rfl
@[simp] theorem setVword_win (v : BitVec 16) (w : VWord) : (s.setVword v w).win = s.win := rfl
@[simp] theorem setVword_localPins (v : BitVec 16) (w : VWord) : (s.setVword v w).localPins = s.localPins := rfl
@[simp] theorem setVword_msg (v : BitVec 16) (w : VWord) : (s.setVword v w).msg = s.msg := rfl
@[simp] theorem setVword_miss (v : BitVec 16) (w : VWord) : (s.setVword v w).miss = s.miss := rfl
@[simp] theorem setVword_move (v : BitVec 16) (w : VWord) : (s.setVword v w).move = s.move := rfl
@[simp] theorem setVword_err (v : BitVec 16) (w : VWord) : (s.setVword v w).err = s.err := rfl
@[simp] theorem setVword_prf (v : BitVec 16) (w : VWord) : (s.setVword v w).prf = s.prf := rfl
@[simp] theorem setVword_bur (v : BitVec 16) (w : VWord) : (s.setVword v w).bur = s.bur := rfl
@[simp] theorem setVword_sbd (v : BitVec 16) (w : VWord) : (s.setVword v w).sbd = s.sbd := rfl
@[simp] theorem setVword_rnk (v : BitVec 16) (w : VWord) : (s.setVword v w).rnk = s.rnk := rfl
@[simp] theorem setVword_port (v : BitVec 16) (w : VWord) : (s.setVword v w).port = s.port := rfl
@[simp] theorem setVword_pwr (v : BitVec 16) (w : VWord) : (s.setVword v w).pwr = s.pwr := rfl
@[simp] theorem setVword_stk (v : BitVec 16) (w : VWord) : (s.setVword v w).stk = s.stk := rfl
@[simp] theorem setVword_rings (v : BitVec 16) (w : VWord) : (s.setVword v w).rings = s.rings := rfl
@[simp] theorem setVword_cmdRot (v : BitVec 16) (w : VWord) : (s.setVword v w).cmdRot = s.cmdRot := rfl
@[simp] theorem setVword_wft (v : BitVec 16) (w : VWord) : (s.setVword v w).wft = s.wft := rfl
@[simp] theorem setVword_coh (v : BitVec 16) (w : VWord) : (s.setVword v w).coh = s.coh := rfl
@[simp] theorem setVword_wol (v : BitVec 16) (w : VWord) : (s.setVword v w).wol = s.wol := rfl
@[simp] theorem setVword_count (v : BitVec 16) (w : VWord) : (s.setVword v w).count = s.count := rfl
@[simp] theorem setVword_pending (v : BitVec 16) (w : VWord) : (s.setVword v w).pending = s.pending := rfl

/-! ### setPanel -/

@[simp] theorem setPanel_par (p : Nat) (x : Panel) : (s.setPanel p x).par = s.par := rfl
@[simp] theorem setPanel_rst (p : Nat) (x : Panel) : (s.setPanel p x).rst = s.rst := rfl
@[simp] theorem setPanel_regs (p : Nat) (x : Panel) : (s.setPanel p x).regs = s.regs := rfl
@[simp] theorem setPanel_mem (p : Nat) (x : Panel) : (s.setPanel p x).mem = s.mem := rfl
@[simp] theorem setPanel_tg (p : Nat) (x : Panel) : (s.setPanel p x).tg = s.tg := rfl
@[simp] theorem setPanel_lanes (p : Nat) (x : Panel) : (s.setPanel p x).lanes = s.lanes := rfl
@[simp] theorem setPanel_win (p : Nat) (x : Panel) : (s.setPanel p x).win = s.win := rfl
@[simp] theorem setPanel_localPins (p : Nat) (x : Panel) : (s.setPanel p x).localPins = s.localPins := rfl
@[simp] theorem setPanel_msg (p : Nat) (x : Panel) : (s.setPanel p x).msg = s.msg := rfl
@[simp] theorem setPanel_miss (p : Nat) (x : Panel) : (s.setPanel p x).miss = s.miss := rfl
@[simp] theorem setPanel_move (p : Nat) (x : Panel) : (s.setPanel p x).move = s.move := rfl
@[simp] theorem setPanel_err (p : Nat) (x : Panel) : (s.setPanel p x).err = s.err := rfl
@[simp] theorem setPanel_prf (p : Nat) (x : Panel) : (s.setPanel p x).prf = s.prf := rfl
@[simp] theorem setPanel_bur (p : Nat) (x : Panel) : (s.setPanel p x).bur = s.bur := rfl
@[simp] theorem setPanel_sbd (p : Nat) (x : Panel) : (s.setPanel p x).sbd = s.sbd := rfl
@[simp] theorem setPanel_rnk (p : Nat) (x : Panel) : (s.setPanel p x).rnk = s.rnk := rfl
@[simp] theorem setPanel_port (p : Nat) (x : Panel) : (s.setPanel p x).port = s.port := rfl
@[simp] theorem setPanel_pwr (p : Nat) (x : Panel) : (s.setPanel p x).pwr = s.pwr := rfl
@[simp] theorem setPanel_stk (p : Nat) (x : Panel) : (s.setPanel p x).stk = s.stk := rfl
@[simp] theorem setPanel_rings (p : Nat) (x : Panel) : (s.setPanel p x).rings = s.rings := rfl
@[simp] theorem setPanel_cmdRot (p : Nat) (x : Panel) : (s.setPanel p x).cmdRot = s.cmdRot := rfl
@[simp] theorem setPanel_wft (p : Nat) (x : Panel) : (s.setPanel p x).wft = s.wft := rfl
@[simp] theorem setPanel_coh (p : Nat) (x : Panel) : (s.setPanel p x).coh = s.coh := rfl
@[simp] theorem setPanel_wol (p : Nat) (x : Panel) : (s.setPanel p x).wol = s.wol := rfl
@[simp] theorem setPanel_count (p : Nat) (x : Panel) : (s.setPanel p x).count = s.count := rfl
@[simp] theorem setPanel_pending (p : Nat) (x : Panel) : (s.setPanel p x).pending = s.pending := rfl

/-! ### modPwr -/

@[simp] theorem modPwr_par (f : Pwr → Pwr) : (modPwr s f).par = s.par := rfl
@[simp] theorem modPwr_rst (f : Pwr → Pwr) : (modPwr s f).rst = s.rst := rfl
@[simp] theorem modPwr_regs (f : Pwr → Pwr) : (modPwr s f).regs = s.regs := rfl
@[simp] theorem modPwr_mem (f : Pwr → Pwr) : (modPwr s f).mem = s.mem := rfl
@[simp] theorem modPwr_tg (f : Pwr → Pwr) : (modPwr s f).tg = s.tg := rfl
@[simp] theorem modPwr_lanes (f : Pwr → Pwr) : (modPwr s f).lanes = s.lanes := rfl
@[simp] theorem modPwr_win (f : Pwr → Pwr) : (modPwr s f).win = s.win := rfl
@[simp] theorem modPwr_localPins (f : Pwr → Pwr) : (modPwr s f).localPins = s.localPins := rfl
@[simp] theorem modPwr_msg (f : Pwr → Pwr) : (modPwr s f).msg = s.msg := rfl
@[simp] theorem modPwr_miss (f : Pwr → Pwr) : (modPwr s f).miss = s.miss := rfl
@[simp] theorem modPwr_move (f : Pwr → Pwr) : (modPwr s f).move = s.move := rfl
@[simp] theorem modPwr_err (f : Pwr → Pwr) : (modPwr s f).err = s.err := rfl
@[simp] theorem modPwr_prf (f : Pwr → Pwr) : (modPwr s f).prf = s.prf := rfl
@[simp] theorem modPwr_bur (f : Pwr → Pwr) : (modPwr s f).bur = s.bur := rfl
@[simp] theorem modPwr_sbd (f : Pwr → Pwr) : (modPwr s f).sbd = s.sbd := rfl
@[simp] theorem modPwr_pnl (f : Pwr → Pwr) : (modPwr s f).pnl = s.pnl := rfl
@[simp] theorem modPwr_rnk (f : Pwr → Pwr) : (modPwr s f).rnk = s.rnk := rfl
@[simp] theorem modPwr_port (f : Pwr → Pwr) : (modPwr s f).port = s.port := rfl
@[simp] theorem modPwr_stk (f : Pwr → Pwr) : (modPwr s f).stk = s.stk := rfl
@[simp] theorem modPwr_rings (f : Pwr → Pwr) : (modPwr s f).rings = s.rings := rfl
@[simp] theorem modPwr_cmdRot (f : Pwr → Pwr) : (modPwr s f).cmdRot = s.cmdRot := rfl
@[simp] theorem modPwr_wft (f : Pwr → Pwr) : (modPwr s f).wft = s.wft := rfl
@[simp] theorem modPwr_coh (f : Pwr → Pwr) : (modPwr s f).coh = s.coh := rfl
@[simp] theorem modPwr_wol (f : Pwr → Pwr) : (modPwr s f).wol = s.wol := rfl
@[simp] theorem modPwr_count (f : Pwr → Pwr) : (modPwr s f).count = s.count := rfl
@[simp] theorem modPwr_pending (f : Pwr → Pwr) : (modPwr s f).pending = s.pending := rfl

/-! ### modStk -/

@[simp] theorem modStk_par (f : Stk → Stk) : (modStk s f).par = s.par := rfl
@[simp] theorem modStk_rst (f : Stk → Stk) : (modStk s f).rst = s.rst := rfl
@[simp] theorem modStk_regs (f : Stk → Stk) : (modStk s f).regs = s.regs := rfl
@[simp] theorem modStk_mem (f : Stk → Stk) : (modStk s f).mem = s.mem := rfl
@[simp] theorem modStk_tg (f : Stk → Stk) : (modStk s f).tg = s.tg := rfl
@[simp] theorem modStk_lanes (f : Stk → Stk) : (modStk s f).lanes = s.lanes := rfl
@[simp] theorem modStk_win (f : Stk → Stk) : (modStk s f).win = s.win := rfl
@[simp] theorem modStk_localPins (f : Stk → Stk) : (modStk s f).localPins = s.localPins := rfl
@[simp] theorem modStk_msg (f : Stk → Stk) : (modStk s f).msg = s.msg := rfl
@[simp] theorem modStk_miss (f : Stk → Stk) : (modStk s f).miss = s.miss := rfl
@[simp] theorem modStk_move (f : Stk → Stk) : (modStk s f).move = s.move := rfl
@[simp] theorem modStk_err (f : Stk → Stk) : (modStk s f).err = s.err := rfl
@[simp] theorem modStk_prf (f : Stk → Stk) : (modStk s f).prf = s.prf := rfl
@[simp] theorem modStk_bur (f : Stk → Stk) : (modStk s f).bur = s.bur := rfl
@[simp] theorem modStk_sbd (f : Stk → Stk) : (modStk s f).sbd = s.sbd := rfl
@[simp] theorem modStk_pnl (f : Stk → Stk) : (modStk s f).pnl = s.pnl := rfl
@[simp] theorem modStk_rnk (f : Stk → Stk) : (modStk s f).rnk = s.rnk := rfl
@[simp] theorem modStk_port (f : Stk → Stk) : (modStk s f).port = s.port := rfl
@[simp] theorem modStk_pwr (f : Stk → Stk) : (modStk s f).pwr = s.pwr := rfl
@[simp] theorem modStk_rings (f : Stk → Stk) : (modStk s f).rings = s.rings := rfl
@[simp] theorem modStk_cmdRot (f : Stk → Stk) : (modStk s f).cmdRot = s.cmdRot := rfl
@[simp] theorem modStk_wft (f : Stk → Stk) : (modStk s f).wft = s.wft := rfl
@[simp] theorem modStk_coh (f : Stk → Stk) : (modStk s f).coh = s.coh := rfl
@[simp] theorem modStk_wol (f : Stk → Stk) : (modStk s f).wol = s.wol := rfl
@[simp] theorem modStk_count (f : Stk → Stk) : (modStk s f).count = s.count := rfl
@[simp] theorem modStk_pending (f : Stk → Stk) : (modStk s f).pending = s.pending := rfl

/-! ### modWft -/

@[simp] theorem modWft_par (f : Wft → Wft) : (modWft s f).par = s.par := rfl
@[simp] theorem modWft_rst (f : Wft → Wft) : (modWft s f).rst = s.rst := rfl
@[simp] theorem modWft_regs (f : Wft → Wft) : (modWft s f).regs = s.regs := rfl
@[simp] theorem modWft_mem (f : Wft → Wft) : (modWft s f).mem = s.mem := rfl
@[simp] theorem modWft_tg (f : Wft → Wft) : (modWft s f).tg = s.tg := rfl
@[simp] theorem modWft_lanes (f : Wft → Wft) : (modWft s f).lanes = s.lanes := rfl
@[simp] theorem modWft_win (f : Wft → Wft) : (modWft s f).win = s.win := rfl
@[simp] theorem modWft_localPins (f : Wft → Wft) : (modWft s f).localPins = s.localPins := rfl
@[simp] theorem modWft_msg (f : Wft → Wft) : (modWft s f).msg = s.msg := rfl
@[simp] theorem modWft_miss (f : Wft → Wft) : (modWft s f).miss = s.miss := rfl
@[simp] theorem modWft_move (f : Wft → Wft) : (modWft s f).move = s.move := rfl
@[simp] theorem modWft_err (f : Wft → Wft) : (modWft s f).err = s.err := rfl
@[simp] theorem modWft_prf (f : Wft → Wft) : (modWft s f).prf = s.prf := rfl
@[simp] theorem modWft_bur (f : Wft → Wft) : (modWft s f).bur = s.bur := rfl
@[simp] theorem modWft_sbd (f : Wft → Wft) : (modWft s f).sbd = s.sbd := rfl
@[simp] theorem modWft_pnl (f : Wft → Wft) : (modWft s f).pnl = s.pnl := rfl
@[simp] theorem modWft_rnk (f : Wft → Wft) : (modWft s f).rnk = s.rnk := rfl
@[simp] theorem modWft_port (f : Wft → Wft) : (modWft s f).port = s.port := rfl
@[simp] theorem modWft_pwr (f : Wft → Wft) : (modWft s f).pwr = s.pwr := rfl
@[simp] theorem modWft_stk (f : Wft → Wft) : (modWft s f).stk = s.stk := rfl
@[simp] theorem modWft_rings (f : Wft → Wft) : (modWft s f).rings = s.rings := rfl
@[simp] theorem modWft_cmdRot (f : Wft → Wft) : (modWft s f).cmdRot = s.cmdRot := rfl
@[simp] theorem modWft_coh (f : Wft → Wft) : (modWft s f).coh = s.coh := rfl
@[simp] theorem modWft_wol (f : Wft → Wft) : (modWft s f).wol = s.wol := rfl
@[simp] theorem modWft_count (f : Wft → Wft) : (modWft s f).count = s.count := rfl
@[simp] theorem modWft_pending (f : Wft → Wft) : (modWft s f).pending = s.pending := rfl

/-! ### setWport -/

@[simp] theorem setWport_par (p : Nat) (x : WPort) : (setWport s p x).par = s.par := rfl
@[simp] theorem setWport_rst (p : Nat) (x : WPort) : (setWport s p x).rst = s.rst := rfl
@[simp] theorem setWport_regs (p : Nat) (x : WPort) : (setWport s p x).regs = s.regs := rfl
@[simp] theorem setWport_mem (p : Nat) (x : WPort) : (setWport s p x).mem = s.mem := rfl
@[simp] theorem setWport_tg (p : Nat) (x : WPort) : (setWport s p x).tg = s.tg := rfl
@[simp] theorem setWport_lanes (p : Nat) (x : WPort) : (setWport s p x).lanes = s.lanes := rfl
@[simp] theorem setWport_win (p : Nat) (x : WPort) : (setWport s p x).win = s.win := rfl
@[simp] theorem setWport_localPins (p : Nat) (x : WPort) : (setWport s p x).localPins = s.localPins := rfl
@[simp] theorem setWport_msg (p : Nat) (x : WPort) : (setWport s p x).msg = s.msg := rfl
@[simp] theorem setWport_miss (p : Nat) (x : WPort) : (setWport s p x).miss = s.miss := rfl
@[simp] theorem setWport_move (p : Nat) (x : WPort) : (setWport s p x).move = s.move := rfl
@[simp] theorem setWport_err (p : Nat) (x : WPort) : (setWport s p x).err = s.err := rfl
@[simp] theorem setWport_prf (p : Nat) (x : WPort) : (setWport s p x).prf = s.prf := rfl
@[simp] theorem setWport_bur (p : Nat) (x : WPort) : (setWport s p x).bur = s.bur := rfl
@[simp] theorem setWport_sbd (p : Nat) (x : WPort) : (setWport s p x).sbd = s.sbd := rfl
@[simp] theorem setWport_pnl (p : Nat) (x : WPort) : (setWport s p x).pnl = s.pnl := rfl
@[simp] theorem setWport_rnk (p : Nat) (x : WPort) : (setWport s p x).rnk = s.rnk := rfl
@[simp] theorem setWport_port (p : Nat) (x : WPort) : (setWport s p x).port = s.port := rfl
@[simp] theorem setWport_pwr (p : Nat) (x : WPort) : (setWport s p x).pwr = s.pwr := rfl
@[simp] theorem setWport_stk (p : Nat) (x : WPort) : (setWport s p x).stk = s.stk := rfl
@[simp] theorem setWport_rings (p : Nat) (x : WPort) : (setWport s p x).rings = s.rings := rfl
@[simp] theorem setWport_cmdRot (p : Nat) (x : WPort) : (setWport s p x).cmdRot = s.cmdRot := rfl
@[simp] theorem setWport_coh (p : Nat) (x : WPort) : (setWport s p x).coh = s.coh := rfl
@[simp] theorem setWport_wol (p : Nat) (x : WPort) : (setWport s p x).wol = s.wol := rfl
@[simp] theorem setWport_count (p : Nat) (x : WPort) : (setWport s p x).count = s.count := rfl
@[simp] theorem setWport_pending (p : Nat) (x : WPort) : (setWport s p x).pending = s.pending := rfl

/-! ### modWport -/

@[simp] theorem modWport_par (p : Nat) (f : WPort → WPort) : (modWport s p f).par = s.par := rfl
@[simp] theorem modWport_rst (p : Nat) (f : WPort → WPort) : (modWport s p f).rst = s.rst := rfl
@[simp] theorem modWport_regs (p : Nat) (f : WPort → WPort) : (modWport s p f).regs = s.regs := rfl
@[simp] theorem modWport_mem (p : Nat) (f : WPort → WPort) : (modWport s p f).mem = s.mem := rfl
@[simp] theorem modWport_tg (p : Nat) (f : WPort → WPort) : (modWport s p f).tg = s.tg := rfl
@[simp] theorem modWport_lanes (p : Nat) (f : WPort → WPort) : (modWport s p f).lanes = s.lanes := rfl
@[simp] theorem modWport_win (p : Nat) (f : WPort → WPort) : (modWport s p f).win = s.win := rfl
@[simp] theorem modWport_localPins (p : Nat) (f : WPort → WPort) : (modWport s p f).localPins = s.localPins := rfl
@[simp] theorem modWport_msg (p : Nat) (f : WPort → WPort) : (modWport s p f).msg = s.msg := rfl
@[simp] theorem modWport_miss (p : Nat) (f : WPort → WPort) : (modWport s p f).miss = s.miss := rfl
@[simp] theorem modWport_move (p : Nat) (f : WPort → WPort) : (modWport s p f).move = s.move := rfl
@[simp] theorem modWport_err (p : Nat) (f : WPort → WPort) : (modWport s p f).err = s.err := rfl
@[simp] theorem modWport_prf (p : Nat) (f : WPort → WPort) : (modWport s p f).prf = s.prf := rfl
@[simp] theorem modWport_bur (p : Nat) (f : WPort → WPort) : (modWport s p f).bur = s.bur := rfl
@[simp] theorem modWport_sbd (p : Nat) (f : WPort → WPort) : (modWport s p f).sbd = s.sbd := rfl
@[simp] theorem modWport_pnl (p : Nat) (f : WPort → WPort) : (modWport s p f).pnl = s.pnl := rfl
@[simp] theorem modWport_rnk (p : Nat) (f : WPort → WPort) : (modWport s p f).rnk = s.rnk := rfl
@[simp] theorem modWport_port (p : Nat) (f : WPort → WPort) : (modWport s p f).port = s.port := rfl
@[simp] theorem modWport_pwr (p : Nat) (f : WPort → WPort) : (modWport s p f).pwr = s.pwr := rfl
@[simp] theorem modWport_stk (p : Nat) (f : WPort → WPort) : (modWport s p f).stk = s.stk := rfl
@[simp] theorem modWport_rings (p : Nat) (f : WPort → WPort) : (modWport s p f).rings = s.rings := rfl
@[simp] theorem modWport_cmdRot (p : Nat) (f : WPort → WPort) : (modWport s p f).cmdRot = s.cmdRot := rfl
@[simp] theorem modWport_coh (p : Nat) (f : WPort → WPort) : (modWport s p f).coh = s.coh := rfl
@[simp] theorem modWport_wol (p : Nat) (f : WPort → WPort) : (modWport s p f).wol = s.wol := rfl
@[simp] theorem modWport_count (p : Nat) (f : WPort → WPort) : (modWport s p f).count = s.count := rfl
@[simp] theorem modWport_pending (p : Nat) (f : WPort → WPort) : (modWport s p f).pending = s.pending := rfl

/-! ### modCoh -/

@[simp] theorem modCoh_par (f : Coh → Coh) : (modCoh s f).par = s.par := rfl
@[simp] theorem modCoh_rst (f : Coh → Coh) : (modCoh s f).rst = s.rst := rfl
@[simp] theorem modCoh_regs (f : Coh → Coh) : (modCoh s f).regs = s.regs := rfl
@[simp] theorem modCoh_mem (f : Coh → Coh) : (modCoh s f).mem = s.mem := rfl
@[simp] theorem modCoh_tg (f : Coh → Coh) : (modCoh s f).tg = s.tg := rfl
@[simp] theorem modCoh_lanes (f : Coh → Coh) : (modCoh s f).lanes = s.lanes := rfl
@[simp] theorem modCoh_win (f : Coh → Coh) : (modCoh s f).win = s.win := rfl
@[simp] theorem modCoh_localPins (f : Coh → Coh) : (modCoh s f).localPins = s.localPins := rfl
@[simp] theorem modCoh_msg (f : Coh → Coh) : (modCoh s f).msg = s.msg := rfl
@[simp] theorem modCoh_miss (f : Coh → Coh) : (modCoh s f).miss = s.miss := rfl
@[simp] theorem modCoh_move (f : Coh → Coh) : (modCoh s f).move = s.move := rfl
@[simp] theorem modCoh_err (f : Coh → Coh) : (modCoh s f).err = s.err := rfl
@[simp] theorem modCoh_prf (f : Coh → Coh) : (modCoh s f).prf = s.prf := rfl
@[simp] theorem modCoh_bur (f : Coh → Coh) : (modCoh s f).bur = s.bur := rfl
@[simp] theorem modCoh_sbd (f : Coh → Coh) : (modCoh s f).sbd = s.sbd := rfl
@[simp] theorem modCoh_pnl (f : Coh → Coh) : (modCoh s f).pnl = s.pnl := rfl
@[simp] theorem modCoh_rnk (f : Coh → Coh) : (modCoh s f).rnk = s.rnk := rfl
@[simp] theorem modCoh_port (f : Coh → Coh) : (modCoh s f).port = s.port := rfl
@[simp] theorem modCoh_pwr (f : Coh → Coh) : (modCoh s f).pwr = s.pwr := rfl
@[simp] theorem modCoh_stk (f : Coh → Coh) : (modCoh s f).stk = s.stk := rfl
@[simp] theorem modCoh_rings (f : Coh → Coh) : (modCoh s f).rings = s.rings := rfl
@[simp] theorem modCoh_cmdRot (f : Coh → Coh) : (modCoh s f).cmdRot = s.cmdRot := rfl
@[simp] theorem modCoh_wft (f : Coh → Coh) : (modCoh s f).wft = s.wft := rfl
@[simp] theorem modCoh_wol (f : Coh → Coh) : (modCoh s f).wol = s.wol := rfl
@[simp] theorem modCoh_count (f : Coh → Coh) : (modCoh s f).count = s.count := rfl
@[simp] theorem modCoh_pending (f : Coh → Coh) : (modCoh s f).pending = s.pending := rfl

/-! ### modSbd -/

@[simp] theorem modSbd_par (f : Sbd → Sbd) : (modSbd s f).par = s.par := rfl
@[simp] theorem modSbd_rst (f : Sbd → Sbd) : (modSbd s f).rst = s.rst := rfl
@[simp] theorem modSbd_regs (f : Sbd → Sbd) : (modSbd s f).regs = s.regs := rfl
@[simp] theorem modSbd_mem (f : Sbd → Sbd) : (modSbd s f).mem = s.mem := rfl
@[simp] theorem modSbd_tg (f : Sbd → Sbd) : (modSbd s f).tg = s.tg := rfl
@[simp] theorem modSbd_lanes (f : Sbd → Sbd) : (modSbd s f).lanes = s.lanes := rfl
@[simp] theorem modSbd_win (f : Sbd → Sbd) : (modSbd s f).win = s.win := rfl
@[simp] theorem modSbd_localPins (f : Sbd → Sbd) : (modSbd s f).localPins = s.localPins := rfl
@[simp] theorem modSbd_msg (f : Sbd → Sbd) : (modSbd s f).msg = s.msg := rfl
@[simp] theorem modSbd_miss (f : Sbd → Sbd) : (modSbd s f).miss = s.miss := rfl
@[simp] theorem modSbd_move (f : Sbd → Sbd) : (modSbd s f).move = s.move := rfl
@[simp] theorem modSbd_err (f : Sbd → Sbd) : (modSbd s f).err = s.err := rfl
@[simp] theorem modSbd_prf (f : Sbd → Sbd) : (modSbd s f).prf = s.prf := rfl
@[simp] theorem modSbd_bur (f : Sbd → Sbd) : (modSbd s f).bur = s.bur := rfl
@[simp] theorem modSbd_pnl (f : Sbd → Sbd) : (modSbd s f).pnl = s.pnl := rfl
@[simp] theorem modSbd_rnk (f : Sbd → Sbd) : (modSbd s f).rnk = s.rnk := rfl
@[simp] theorem modSbd_port (f : Sbd → Sbd) : (modSbd s f).port = s.port := rfl
@[simp] theorem modSbd_pwr (f : Sbd → Sbd) : (modSbd s f).pwr = s.pwr := rfl
@[simp] theorem modSbd_stk (f : Sbd → Sbd) : (modSbd s f).stk = s.stk := rfl
@[simp] theorem modSbd_rings (f : Sbd → Sbd) : (modSbd s f).rings = s.rings := rfl
@[simp] theorem modSbd_cmdRot (f : Sbd → Sbd) : (modSbd s f).cmdRot = s.cmdRot := rfl
@[simp] theorem modSbd_wft (f : Sbd → Sbd) : (modSbd s f).wft = s.wft := rfl
@[simp] theorem modSbd_coh (f : Sbd → Sbd) : (modSbd s f).coh = s.coh := rfl
@[simp] theorem modSbd_wol (f : Sbd → Sbd) : (modSbd s f).wol = s.wol := rfl
@[simp] theorem modSbd_count (f : Sbd → Sbd) : (modSbd s f).count = s.count := rfl
@[simp] theorem modSbd_pending (f : Sbd → Sbd) : (modSbd s f).pending = s.pending := rfl

/-! ### What an update reads as -/

/-- A register word after a write: the word written, and no other word changes. -/
theorem rd_wr (off j : Nat) (v : W32) : (s.wr off v).rd j = if j = off then v else s.rd j := by
  have h : (s.wr off v).regs = Tbl.put s.regs off v := by unfold State.wr; dsimp only; split <;> rfl
  have hp : (s.wr off v).par = s.par := wr_par s off v
  unfold State.rd
  rw [h, hp, Tbl.find_put]
  split <;> rfl

@[simp] theorem rd_wr_same (off : Nat) (v : W32) : (s.wr off v).rd off = v := by simp [rd_wr]
theorem rd_wr_other {off j : Nat} (v : W32) (h : j ≠ off) : (s.wr off v).rd j = s.rd j := by simp [rd_wr, h]

/-- A write of a word outside the proofed set leaves the proof alone (16 R395, R398). -/
theorem wr_prf_unproofed {off : Nat} (v : W32) (h : proofMask off = 0) : (s.wr off v).prf = s.prf := by
  unfold State.wr; simp [h]

theorem rd_setBitR (off i j : Nat) (b : Bool) :
    (s.setBitR off i b).rd j = if j = off then setBit (s.rd off) i b else s.rd j := by simp [State.setBitR, rd_wr]
theorem rd_setFld (off hi lo v j : Nat) :
    (s.setFld off hi lo v).rd j = if j = off then setField (s.rd off) hi lo v else s.rd j := by simp [State.setFld, rd_wr]
theorem rd_cnt32 (off j : Nat) : (s.cnt32 off).rd j = if j = off then satInc (s.rd off) else s.rd j := by
  simp [State.cnt32, rd_wr]

/-- Both words of a 64-bit write. -/
theorem rd_wr64 (off j : Nat) (v : W64) :
    (s.wr64 off v).rd j =
      if j = off + 4 then (v >>> 32).truncate 32 else if j = off then v.truncate 32 else s.rd j := by
  unfold State.wr64; rw [rd_wr, rd_wr]

@[simp] theorem rd64_wr64_same (off : Nat) (v : W64) : (s.wr64 off v).rd64 off = v := by
  have h : off ≠ off + 4 := by omega
  simp only [State.rd64, rd_wr64, if_true, h, if_false]
  apply BitVec.eq_of_getLsbD_eq
  intro i hi
  simp only [BitVec.getLsbD_append, BitVec.truncate_eq_setWidth, BitVec.getLsbD_setWidth, BitVec.getLsbD_ushiftRight]
  split
  · simp [*]
  · have : i - 32 < 32 := by omega
    have e : 32 + (i - 32) = i := by omega
    simp [this, e]

theorem tgt_setTgt (k j : Nat) (x : Tg) : (s.setTgt k x).tgt j = if j = k then x else s.tgt j := by
  unfold State.tgt State.setTgt; exact Tbl.get_put _ _ _ _ _
@[simp] theorem tgt_setTgt_same (k : Nat) (x : Tg) : (s.setTgt k x).tgt k = x := by simp [tgt_setTgt]
theorem tgt_modTgt (k j : Nat) (f : Tg → Tg) : (s.modTgt k f).tgt j = if j = k then f (s.tgt k) else s.tgt j :=
  tgt_setTgt s k j _
theorem line_setLine (k j : Nat) (x : Line) : (s.setLine k x).line j = if j = k then x else s.line j := by
  unfold State.line State.setLine; exact Tbl.get_put _ _ _ _ _
theorem line_modLine (k j : Nat) (f : Line → Line) : (s.modLine k f).line j = if j = k then f (s.line k) else s.line j :=
  line_setLine s k j _
theorem ring_setRing (k j : Nat) (x : Ring) : (s.setRing k x).ring j = if j = k then x else s.ring j := by
  unfold State.ring State.setRing; exact Tbl.get_put _ _ _ _ _
theorem ring_modRing (k j : Nat) (f : Ring → Ring) : (s.modRing k f).ring j = if j = k then f (s.ring k) else s.ring j :=
  ring_setRing s k j _
theorem wport_setWport (p q : Nat) (x : WPort) : wport (setWport s p x) q = if q = p then x else wport s q := by
  unfold wport setWport modWft; exact Tbl.get_put _ _ _ _ _
theorem wport_modWport (p q : Nat) (f : WPort → WPort) : wport (modWport s p f) q = if q = p then f (wport s p) else wport s q :=
  wport_setWport s p q _

@[simp] theorem store64_coh (a : Nat) (v : W64) : (s.store64 a v).coh = cohWrote s.coh a 8 := rfl
@[simp] theorem store32_coh (a : Nat) (v : W32) : (s.store32 a v).coh = cohWrote s.coh a 4 := rfl

/-- Storing keeps the memory's canonical form. -/
theorem store64_wf (a : Nat) (v : W64) (h : Memory.wf s.mem = true) : Memory.wf (s.store64 a v).mem = true :=
  memStore_wf h _ _ _
theorem store32_wf (a : Nat) (v : W32) (h : Memory.wf s.mem = true) : Memory.wf (s.store32 a v).mem = true :=
  memStore_wf h _ _ _


end Sys2Proof.Machine
end

