-- ==== Sys2Proof/Laws/Coherent.lean ====
section
/-! SUPPORT. What the table cache's service of an access leaves: a use, a read, a write (13 R309, R313). -/

namespace Sys2Proof.Machine

/-! ### Uses -/

/-- A use of a line changes the pseudo-LRU bits alone. -/
theorem cohUse_frame (c : Coh) (l : Nat) : ∃ p, cohUse c l = { c with plru := p } := by
  unfold cohUse; split
  · exact ⟨_, rfl⟩
  · exact ⟨c.plru, rfl⟩

@[simp] theorem cohUse_lines (c : Coh) (l : Nat) : (cohUse c l).lines = c.lines := by
  obtain ⟨p, h⟩ := cohUse_frame c l; rw [h]
@[simp] theorem cohUse_missed (c : Coh) (l : Nat) : (cohUse c l).missed = c.missed := by
  obtain ⟨p, h⟩ := cohUse_frame c l; rw [h]
@[simp] theorem cohUse_failed (c : Coh) (l : Nat) : (cohUse c l).failed = c.failed := by
  obtain ⟨p, h⟩ := cohUse_frame c l; rw [h]
@[simp] theorem cohUse_holds (c : Coh) (l k : Nat) : (cohUse c l).holds k = c.holds k := by simp [Coh.holds]
@[simp] theorem cohUse_owns (c : Coh) (l k : Nat) : (cohUse c l).owns k = c.owns k := by simp [Coh.owns]

theorem owns_holds {c : Coh} {l : Nat} (h : c.owns l = true) : c.holds l = true := by
  unfold Coh.owns at h; unfold Coh.holds
  simp only [Bool.or_eq_true, decide_eq_true_eq] at h
  rcases h with h | h <;> simp [h]

/-! ### Reads -/

/-- A read of lines that are held uses them. -/
theorem cohRead_held (c : Coh) (a n : Nat) (h : ∀ l ∈ linesAt a n, c.holds l = true) :
    ∃ p, cohRead c a n = { c with plru := p } := by
  unfold cohRead
  generalize linesAt a n = ls at h
  induction ls generalizing c with
  | nil => exact ⟨c.plru, rfl⟩
  | cons l r ih =>
    simp only [List.foldl_cons, h l List.mem_cons_self, if_true]
    obtain ⟨q, hq⟩ := cohUse_frame c l
    rw [hq]
    exact ih { c with plru := q } fun k hk => h k (List.mem_cons_of_mem _ hk)

/-- A read changes the pseudo-LRU bits, and names the lines that are not held. -/
theorem cohRead_frame (c : Coh) (a n : Nat) : ∃ p m, cohRead c a n = { c with plru := p, missed := m } := by
  unfold cohRead
  induction linesAt a n generalizing c with
  | nil => exact ⟨c.plru, c.missed, rfl⟩
  | cons l r ih =>
    simp only [List.foldl_cons]
    split
    · obtain ⟨q, hq⟩ := cohUse_frame c l
      rw [hq]
      exact ih { c with plru := q }
    · exact ih { c with missed := c.missed ++ [l] }

/-! ### Writes -/

/-- A write of lines that are held E or M leaves them M, and uses them. -/
theorem cohWrote_owned (c : Coh) (a n : Nat) (h : ∀ l ∈ linesAt a n, c.owns l = true) :
    ∃ ls p, cohWrote c a n = { c with lines := ls, plru := p } ∧
      ∀ k, Tbl.find ls k = if (linesAt a n).contains k then some .m else Tbl.find c.lines k := by
  unfold cohWrote
  generalize linesAt a n = ns at h
  induction ns generalizing c with
  | nil => exact ⟨c.lines, c.plru, rfl, fun k => by simp⟩
  | cons l r ih =>
    have hl := h l List.mem_cons_self
    have hh := owns_holds hl
    simp only [List.foldl_cons, hl, hh, if_true]
    obtain ⟨q, hq⟩ := cohUse_frame { c with lines := Tbl.put c.lines l Moesi.m } l
    rw [hq]
    have hr : ∀ k ∈ r, ({ c with lines := Tbl.put c.lines l Moesi.m, plru := q } : Coh).owns k = true := by
      intro k hk
      have := h k (List.mem_cons_of_mem _ hk)
      unfold Coh.owns at this ⊢
      simp only [Tbl.find_put]
      by_cases e : k = l
      · simp [e]
      · simpa [e] using this
    obtain ⟨ls, p, e1, e2⟩ := ih _ hr
    refine ⟨ls, p, by rw [e1], fun k => ?_⟩
    rw [e2 k]
    simp only [Tbl.find_put, List.contains_cons]
    by_cases e : k = l <;> simp [e]

/-- A write changes the states of lines and the pseudo-LRU bits, and names the lines that are not held as it needs. -/
theorem cohWrote_frame (c : Coh) (a n : Nat) : ∃ ls p m, cohWrote c a n = { c with lines := ls, plru := p, missed := m } := by
  unfold cohWrote
  induction linesAt a n generalizing c with
  | nil => exact ⟨c.lines, c.plru, c.missed, rfl⟩
  | cons l r ih =>
    simp only [List.foldl_cons]
    obtain ⟨q, hq⟩ := cohUse_frame { c with lines := Tbl.put c.lines l Moesi.m } l
    by_cases hh : c.holds l = true <;> by_cases ho : c.owns l = true <;> simp only [hh, ho, if_true, hq]
    · exact ih { c with lines := Tbl.put c.lines l Moesi.m, plru := q }
    · exact ih { c with lines := Tbl.put c.lines l Moesi.m, plru := q, missed := c.missed ++ [l] }
    · exact ih c
    · exact ih { c with missed := c.missed ++ [l] }

/-! ### In the terms of the statements -/

theorem lineState_reads (s : State) (a n l : Nat) : lineState (s.reads a n) l = lineState s l := by
  obtain ⟨p, m, h⟩ := cohRead_frame s.coh a n
  simp [lineState, State.reads, h]

/-- A read that the cache serves touches no line's state. -/
theorem touched_reads {s : State} {a n : Nat} (h : Held s a n) : Touched s (s.reads a n) [] := by
  obtain ⟨p, hp⟩ := cohRead_held s.coh a n h
  refine ⟨?_, fun l => ?_⟩
  · simp [State.reads, hp]
  · simp [lineState_reads]

/-- A store that the cache serves leaves its lines M. -/
theorem touched_store {s : State} {a n v : Nat} (h : Owned s a n) : Touched s (s.storeBytes a n v) [(a, n)] := by
  have ho : ∀ l ∈ linesAt a n, s.coh.owns l = true := by simpa [Owned, State.owns] using h
  obtain ⟨ls, p, e1, e2⟩ := cohWrote_owned s.coh a n ho
  refine ⟨?_, fun l => ?_⟩
  · simp [State.storeBytes, e1]
  · simp only [lineState, State.storeBytes, e1, e2, List.any_cons, List.any_nil, Bool.or_false]
    by_cases hl : (linesAt a n).contains l = true
    · have : s.held l = true := owns_holds (ho l (by simpa using hl))
      rw [if_pos hl, this, hl]; rfl
    · rw [if_neg hl, Bool.not_eq_true _ |>.mp hl]; rfl

theorem held_eq (s : State) (l : Nat) : s.held l = (lineState s l).isSome := rfl

/-- From s to t to u. -/
theorem Touched.trans {s t u : State} {v w : List (Nat × Nat)} (h : Touched s t v) (k : Touched t u w) :
    Touched s u (v ++ w) := by
  refine ⟨by rw [k.1, h.1], fun l => ?_⟩
  have hs : t.held l = s.held l := by
    rw [held_eq, h.2 l]
    by_cases e : ((v.any fun p => (linesAt p.1 p.2).contains l) && s.held l) = true
    · rw [if_pos e]; rw [Bool.and_eq_true] at e; rw [e.2]; rfl
    · rw [if_neg e]; rfl
  rw [k.2 l, h.2 l, List.any_append, hs]
  cases (v.any fun p => (linesAt p.1 p.2).contains l) <;> cases (w.any fun p => (linesAt p.1 p.2).contains l) <;>
    cases s.held l <;> simp

/-- What is touched serves. -/
theorem Touched.serves {s t : State} {w : List (Nat × Nat)} (h : Touched s t w) : Serves s t := by
  unfold Serves; rw [h.1]

/-- A row whose accesses the table cache serves has its effect. -/
theorem served_eq {s t : State} (h : Serves s t) : s.served t = t := if_pos h
/-- While the cache lacks a line, it waits. -/
theorem served_waits {s t : State} (h : ¬ Serves s t) : s.served t = s := if_neg h

end Sys2Proof.Machine
end

