-- ==== Sys2Proof/Laws/Frames.lean ====
section
/-! SUPPORT. What the shared operations leave alone, field by field: waking, the error path, raises; and what they are while
the block runs. -/

namespace Sys2Proof.Machine

variable (s : State)

/-! ### abandonPrep -/

@[simp] theorem abandonPrep_par : (abandonPrep s).par = s.par := by
  unfold abandonPrep; split <;> simp
@[simp] theorem abandonPrep_rst : (abandonPrep s).rst = s.rst := by
  unfold abandonPrep; split <;> simp
@[simp] theorem abandonPrep_mem : (abandonPrep s).mem = s.mem := by
  unfold abandonPrep; split <;> simp
@[simp] theorem abandonPrep_tg : (abandonPrep s).tg = s.tg := by
  unfold abandonPrep; split <;> simp
@[simp] theorem abandonPrep_lanes : (abandonPrep s).lanes = s.lanes := by
  unfold abandonPrep; split <;> simp
@[simp] theorem abandonPrep_win : (abandonPrep s).win = s.win := by
  unfold abandonPrep; split <;> simp
@[simp] theorem abandonPrep_localPins : (abandonPrep s).localPins = s.localPins := by
  unfold abandonPrep; split <;> simp
@[simp] theorem abandonPrep_msg : (abandonPrep s).msg = s.msg := by
  unfold abandonPrep; split <;> simp
@[simp] theorem abandonPrep_miss : (abandonPrep s).miss = s.miss := by
  unfold abandonPrep; split <;> simp
@[simp] theorem abandonPrep_move : (abandonPrep s).move = s.move := by
  unfold abandonPrep; split <;> simp
@[simp] theorem abandonPrep_err : (abandonPrep s).err = s.err := by
  unfold abandonPrep; split <;> simp
@[simp] theorem abandonPrep_bur : (abandonPrep s).bur = s.bur := by
  unfold abandonPrep; split <;> simp
@[simp] theorem abandonPrep_sbd : (abandonPrep s).sbd = s.sbd := by
  unfold abandonPrep; split <;> simp
@[simp] theorem abandonPrep_pnl : (abandonPrep s).pnl = s.pnl := by
  unfold abandonPrep; split <;> simp
@[simp] theorem abandonPrep_rnk : (abandonPrep s).rnk = s.rnk := by
  unfold abandonPrep; split <;> simp
@[simp] theorem abandonPrep_port : (abandonPrep s).port = s.port := by
  unfold abandonPrep; split <;> simp
@[simp] theorem abandonPrep_stk : (abandonPrep s).stk = s.stk := by
  unfold abandonPrep; split <;> simp
@[simp] theorem abandonPrep_rings : (abandonPrep s).rings = s.rings := by
  unfold abandonPrep; split <;> simp
@[simp] theorem abandonPrep_cmdRot : (abandonPrep s).cmdRot = s.cmdRot := by
  unfold abandonPrep; split <;> simp
@[simp] theorem abandonPrep_wft : (abandonPrep s).wft = s.wft := by
  unfold abandonPrep; split <;> simp
@[simp] theorem abandonPrep_coh : (abandonPrep s).coh = s.coh := by
  unfold abandonPrep; split <;> simp
@[simp] theorem abandonPrep_wol : (abandonPrep s).wol = s.wol := by
  unfold abandonPrep; split <;> simp
@[simp] theorem abandonPrep_count : (abandonPrep s).count = s.count := by
  unfold abandonPrep; split <;> simp
@[simp] theorem abandonPrep_pending : (abandonPrep s).pending = s.pending := by
  unfold abandonPrep; split <;> simp
theorem abandonPrep_frame :
    abandonPrep s = { s with
      regs := (abandonPrep s).regs
      prf := (abandonPrep s).prf
      pwr := (abandonPrep s).pwr } := by
  apply State.ext <;> simp

/-! ### activity -/

@[simp] theorem activity_par : (activity s).par = s.par := by
  simp [activity]
@[simp] theorem activity_rst : (activity s).rst = s.rst := by
  simp [activity]
@[simp] theorem activity_mem : (activity s).mem = s.mem := by
  simp [activity]
@[simp] theorem activity_tg : (activity s).tg = s.tg := by
  simp [activity]
@[simp] theorem activity_lanes : (activity s).lanes = s.lanes := by
  simp [activity]
@[simp] theorem activity_win : (activity s).win = s.win := by
  simp [activity]
@[simp] theorem activity_localPins : (activity s).localPins = s.localPins := by
  simp [activity]
@[simp] theorem activity_msg : (activity s).msg = s.msg := by
  simp [activity]
@[simp] theorem activity_miss : (activity s).miss = s.miss := by
  simp [activity]
@[simp] theorem activity_move : (activity s).move = s.move := by
  simp [activity]
@[simp] theorem activity_err : (activity s).err = s.err := by
  simp [activity]
@[simp] theorem activity_bur : (activity s).bur = s.bur := by
  simp [activity]
@[simp] theorem activity_sbd : (activity s).sbd = s.sbd := by
  simp [activity]
@[simp] theorem activity_pnl : (activity s).pnl = s.pnl := by
  simp [activity]
@[simp] theorem activity_rnk : (activity s).rnk = s.rnk := by
  simp [activity]
@[simp] theorem activity_port : (activity s).port = s.port := by
  simp [activity]
@[simp] theorem activity_stk : (activity s).stk = s.stk := by
  simp [activity]
@[simp] theorem activity_rings : (activity s).rings = s.rings := by
  simp [activity]
@[simp] theorem activity_cmdRot : (activity s).cmdRot = s.cmdRot := by
  simp [activity]
@[simp] theorem activity_wft : (activity s).wft = s.wft := by
  simp [activity]
@[simp] theorem activity_coh : (activity s).coh = s.coh := by
  simp [activity]
@[simp] theorem activity_wol : (activity s).wol = s.wol := by
  simp [activity]
@[simp] theorem activity_count : (activity s).count = s.count := by
  simp [activity]
@[simp] theorem activity_pending : (activity s).pending = s.pending := by
  simp [activity]
theorem activity_frame :
    activity s = { s with
      regs := (activity s).regs
      prf := (activity s).prf
      pwr := (activity s).pwr } := by
  apply State.ext <;> simp

/-! ### lastWake -/

@[simp] theorem lastWake_par (code idx : Nat) : (lastWake s code idx).par = s.par := by
  simp [lastWake]
@[simp] theorem lastWake_rst (code idx : Nat) : (lastWake s code idx).rst = s.rst := by
  simp [lastWake]
@[simp] theorem lastWake_mem (code idx : Nat) : (lastWake s code idx).mem = s.mem := by
  simp [lastWake]
@[simp] theorem lastWake_tg (code idx : Nat) : (lastWake s code idx).tg = s.tg := by
  simp [lastWake]
@[simp] theorem lastWake_lanes (code idx : Nat) : (lastWake s code idx).lanes = s.lanes := by
  simp [lastWake]
@[simp] theorem lastWake_win (code idx : Nat) : (lastWake s code idx).win = s.win := by
  simp [lastWake]
@[simp] theorem lastWake_localPins (code idx : Nat) : (lastWake s code idx).localPins = s.localPins := by
  simp [lastWake]
@[simp] theorem lastWake_msg (code idx : Nat) : (lastWake s code idx).msg = s.msg := by
  simp [lastWake]
@[simp] theorem lastWake_miss (code idx : Nat) : (lastWake s code idx).miss = s.miss := by
  simp [lastWake]
@[simp] theorem lastWake_move (code idx : Nat) : (lastWake s code idx).move = s.move := by
  simp [lastWake]
@[simp] theorem lastWake_err (code idx : Nat) : (lastWake s code idx).err = s.err := by
  simp [lastWake]
@[simp] theorem lastWake_bur (code idx : Nat) : (lastWake s code idx).bur = s.bur := by
  simp [lastWake]
@[simp] theorem lastWake_sbd (code idx : Nat) : (lastWake s code idx).sbd = s.sbd := by
  simp [lastWake]
@[simp] theorem lastWake_pnl (code idx : Nat) : (lastWake s code idx).pnl = s.pnl := by
  simp [lastWake]
@[simp] theorem lastWake_rnk (code idx : Nat) : (lastWake s code idx).rnk = s.rnk := by
  simp [lastWake]
@[simp] theorem lastWake_port (code idx : Nat) : (lastWake s code idx).port = s.port := by
  simp [lastWake]
@[simp] theorem lastWake_pwr (code idx : Nat) : (lastWake s code idx).pwr = s.pwr := by
  simp [lastWake]
@[simp] theorem lastWake_stk (code idx : Nat) : (lastWake s code idx).stk = s.stk := by
  simp [lastWake]
@[simp] theorem lastWake_rings (code idx : Nat) : (lastWake s code idx).rings = s.rings := by
  simp [lastWake]
@[simp] theorem lastWake_cmdRot (code idx : Nat) : (lastWake s code idx).cmdRot = s.cmdRot := by
  simp [lastWake]
@[simp] theorem lastWake_wft (code idx : Nat) : (lastWake s code idx).wft = s.wft := by
  simp [lastWake]
@[simp] theorem lastWake_coh (code idx : Nat) : (lastWake s code idx).coh = s.coh := by
  simp [lastWake]
@[simp] theorem lastWake_wol (code idx : Nat) : (lastWake s code idx).wol = s.wol := by
  simp [lastWake]
@[simp] theorem lastWake_count (code idx : Nat) : (lastWake s code idx).count = s.count := by
  simp [lastWake]
@[simp] theorem lastWake_pending (code idx : Nat) : (lastWake s code idx).pending = s.pending := by
  simp [lastWake]
theorem lastWake_frame (code idx : Nat) :
    lastWake s code idx = { s with
      regs := (lastWake s code idx).regs
      prf := (lastWake s code idx).prf } := by
  apply State.ext <;> simp

/-! ### beginWake -/

@[simp] theorem beginWake_par (code idx : Nat) : (beginWake s code idx).par = s.par := by
  unfold beginWake secondsPass; dsimp only; (repeat' split) <;> simp
@[simp] theorem beginWake_rst (code idx : Nat) : (beginWake s code idx).rst = s.rst := by
  unfold beginWake secondsPass; dsimp only; (repeat' split) <;> simp
@[simp] theorem beginWake_mem (code idx : Nat) : (beginWake s code idx).mem = s.mem := by
  unfold beginWake secondsPass; dsimp only; (repeat' split) <;> simp
@[simp] theorem beginWake_tg (code idx : Nat) : (beginWake s code idx).tg = s.tg := by
  unfold beginWake secondsPass; dsimp only; (repeat' split) <;> simp
@[simp] theorem beginWake_lanes (code idx : Nat) : (beginWake s code idx).lanes = s.lanes := by
  unfold beginWake secondsPass; dsimp only; (repeat' split) <;> simp
@[simp] theorem beginWake_win (code idx : Nat) : (beginWake s code idx).win = s.win := by
  unfold beginWake secondsPass; dsimp only; (repeat' split) <;> simp
@[simp] theorem beginWake_localPins (code idx : Nat) : (beginWake s code idx).localPins = s.localPins := by
  unfold beginWake secondsPass; dsimp only; (repeat' split) <;> simp
@[simp] theorem beginWake_msg (code idx : Nat) : (beginWake s code idx).msg = s.msg := by
  unfold beginWake secondsPass; dsimp only; (repeat' split) <;> simp
@[simp] theorem beginWake_miss (code idx : Nat) : (beginWake s code idx).miss = s.miss := by
  unfold beginWake secondsPass; dsimp only; (repeat' split) <;> simp
@[simp] theorem beginWake_move (code idx : Nat) : (beginWake s code idx).move = s.move := by
  unfold beginWake secondsPass; dsimp only; (repeat' split) <;> simp
@[simp] theorem beginWake_err (code idx : Nat) : (beginWake s code idx).err = s.err := by
  unfold beginWake secondsPass; dsimp only; (repeat' split) <;> simp
@[simp] theorem beginWake_bur (code idx : Nat) : (beginWake s code idx).bur = s.bur := by
  unfold beginWake secondsPass; dsimp only; (repeat' split) <;> simp
@[simp] theorem beginWake_pnl (code idx : Nat) : (beginWake s code idx).pnl = s.pnl := by
  unfold beginWake secondsPass; dsimp only; (repeat' split) <;> simp
@[simp] theorem beginWake_rnk (code idx : Nat) : (beginWake s code idx).rnk = s.rnk := by
  unfold beginWake secondsPass; dsimp only; (repeat' split) <;> simp
@[simp] theorem beginWake_port (code idx : Nat) : (beginWake s code idx).port = s.port := by
  unfold beginWake secondsPass; dsimp only; (repeat' split) <;> simp
@[simp] theorem beginWake_stk (code idx : Nat) : (beginWake s code idx).stk = s.stk := by
  unfold beginWake secondsPass; dsimp only; (repeat' split) <;> simp
@[simp] theorem beginWake_rings (code idx : Nat) : (beginWake s code idx).rings = s.rings := by
  unfold beginWake secondsPass; dsimp only; (repeat' split) <;> simp
@[simp] theorem beginWake_cmdRot (code idx : Nat) : (beginWake s code idx).cmdRot = s.cmdRot := by
  unfold beginWake secondsPass; dsimp only; (repeat' split) <;> simp
@[simp] theorem beginWake_wft (code idx : Nat) : (beginWake s code idx).wft = s.wft := by
  unfold beginWake secondsPass; dsimp only; (repeat' split) <;> simp
@[simp] theorem beginWake_coh (code idx : Nat) : (beginWake s code idx).coh = s.coh := by
  unfold beginWake secondsPass; dsimp only; (repeat' split) <;> simp
@[simp] theorem beginWake_wol (code idx : Nat) : (beginWake s code idx).wol = s.wol := by
  unfold beginWake secondsPass; dsimp only; (repeat' split) <;> simp
@[simp] theorem beginWake_count (code idx : Nat) : (beginWake s code idx).count = s.count := by
  unfold beginWake secondsPass; dsimp only; (repeat' split) <;> simp
@[simp] theorem beginWake_pending (code idx : Nat) : (beginWake s code idx).pending = s.pending := by
  unfold beginWake secondsPass; dsimp only; (repeat' split) <;> simp
theorem beginWake_frame (code idx : Nat) :
    beginWake s code idx = { s with
      regs := (beginWake s code idx).regs
      prf := (beginWake s code idx).prf
      sbd := (beginWake s code idx).sbd
      pwr := (beginWake s code idx).pwr } := by
  apply State.ext <;> simp

/-! ### wake -/

@[simp] theorem wake_par (code idx : Nat) : (wake s code idx).par = s.par := by
  unfold wake; dsimp only; (repeat' split) <;> simp
@[simp] theorem wake_rst (code idx : Nat) : (wake s code idx).rst = s.rst := by
  unfold wake; dsimp only; (repeat' split) <;> simp
@[simp] theorem wake_mem (code idx : Nat) : (wake s code idx).mem = s.mem := by
  unfold wake; dsimp only; (repeat' split) <;> simp
@[simp] theorem wake_tg (code idx : Nat) : (wake s code idx).tg = s.tg := by
  unfold wake; dsimp only; (repeat' split) <;> simp
@[simp] theorem wake_lanes (code idx : Nat) : (wake s code idx).lanes = s.lanes := by
  unfold wake; dsimp only; (repeat' split) <;> simp
@[simp] theorem wake_win (code idx : Nat) : (wake s code idx).win = s.win := by
  unfold wake; dsimp only; (repeat' split) <;> simp
@[simp] theorem wake_localPins (code idx : Nat) : (wake s code idx).localPins = s.localPins := by
  unfold wake; dsimp only; (repeat' split) <;> simp
@[simp] theorem wake_msg (code idx : Nat) : (wake s code idx).msg = s.msg := by
  unfold wake; dsimp only; (repeat' split) <;> simp
@[simp] theorem wake_miss (code idx : Nat) : (wake s code idx).miss = s.miss := by
  unfold wake; dsimp only; (repeat' split) <;> simp
@[simp] theorem wake_move (code idx : Nat) : (wake s code idx).move = s.move := by
  unfold wake; dsimp only; (repeat' split) <;> simp
@[simp] theorem wake_err (code idx : Nat) : (wake s code idx).err = s.err := by
  unfold wake; dsimp only; (repeat' split) <;> simp
@[simp] theorem wake_bur (code idx : Nat) : (wake s code idx).bur = s.bur := by
  unfold wake; dsimp only; (repeat' split) <;> simp
@[simp] theorem wake_pnl (code idx : Nat) : (wake s code idx).pnl = s.pnl := by
  unfold wake; dsimp only; (repeat' split) <;> simp
@[simp] theorem wake_rnk (code idx : Nat) : (wake s code idx).rnk = s.rnk := by
  unfold wake; dsimp only; (repeat' split) <;> simp
@[simp] theorem wake_port (code idx : Nat) : (wake s code idx).port = s.port := by
  unfold wake; dsimp only; (repeat' split) <;> simp
@[simp] theorem wake_stk (code idx : Nat) : (wake s code idx).stk = s.stk := by
  unfold wake; dsimp only; (repeat' split) <;> simp
@[simp] theorem wake_rings (code idx : Nat) : (wake s code idx).rings = s.rings := by
  unfold wake; dsimp only; (repeat' split) <;> simp
@[simp] theorem wake_cmdRot (code idx : Nat) : (wake s code idx).cmdRot = s.cmdRot := by
  unfold wake; dsimp only; (repeat' split) <;> simp
@[simp] theorem wake_wft (code idx : Nat) : (wake s code idx).wft = s.wft := by
  unfold wake; dsimp only; (repeat' split) <;> simp
@[simp] theorem wake_coh (code idx : Nat) : (wake s code idx).coh = s.coh := by
  unfold wake; dsimp only; (repeat' split) <;> simp
@[simp] theorem wake_wol (code idx : Nat) : (wake s code idx).wol = s.wol := by
  unfold wake; dsimp only; (repeat' split) <;> simp
@[simp] theorem wake_count (code idx : Nat) : (wake s code idx).count = s.count := by
  unfold wake; dsimp only; (repeat' split) <;> simp
@[simp] theorem wake_pending (code idx : Nat) : (wake s code idx).pending = s.pending := by
  unfold wake; dsimp only; (repeat' split) <;> simp
theorem wake_frame (code idx : Nat) :
    wake s code idx = { s with
      regs := (wake s code idx).regs
      prf := (wake s code idx).prf
      sbd := (wake s code idx).sbd
      pwr := (wake s code idx).pwr } := by
  apply State.ext <;> simp

/-! ### burWake -/

@[simp] theorem burWake_par (old : State) : (burWake old s).par = s.par := by
  unfold burWake; dsimp only; split <;> simp
@[simp] theorem burWake_rst (old : State) : (burWake old s).rst = s.rst := by
  unfold burWake; dsimp only; split <;> simp
@[simp] theorem burWake_mem (old : State) : (burWake old s).mem = s.mem := by
  unfold burWake; dsimp only; split <;> simp
@[simp] theorem burWake_tg (old : State) : (burWake old s).tg = s.tg := by
  unfold burWake; dsimp only; split <;> simp
@[simp] theorem burWake_lanes (old : State) : (burWake old s).lanes = s.lanes := by
  unfold burWake; dsimp only; split <;> simp
@[simp] theorem burWake_win (old : State) : (burWake old s).win = s.win := by
  unfold burWake; dsimp only; split <;> simp
@[simp] theorem burWake_localPins (old : State) : (burWake old s).localPins = s.localPins := by
  unfold burWake; dsimp only; split <;> simp
@[simp] theorem burWake_msg (old : State) : (burWake old s).msg = s.msg := by
  unfold burWake; dsimp only; split <;> simp
@[simp] theorem burWake_miss (old : State) : (burWake old s).miss = s.miss := by
  unfold burWake; dsimp only; split <;> simp
@[simp] theorem burWake_move (old : State) : (burWake old s).move = s.move := by
  unfold burWake; dsimp only; split <;> simp
@[simp] theorem burWake_err (old : State) : (burWake old s).err = s.err := by
  unfold burWake; dsimp only; split <;> simp
@[simp] theorem burWake_bur (old : State) : (burWake old s).bur = s.bur := by
  unfold burWake; dsimp only; split <;> simp
@[simp] theorem burWake_pnl (old : State) : (burWake old s).pnl = s.pnl := by
  unfold burWake; dsimp only; split <;> simp
@[simp] theorem burWake_rnk (old : State) : (burWake old s).rnk = s.rnk := by
  unfold burWake; dsimp only; split <;> simp
@[simp] theorem burWake_port (old : State) : (burWake old s).port = s.port := by
  unfold burWake; dsimp only; split <;> simp
@[simp] theorem burWake_stk (old : State) : (burWake old s).stk = s.stk := by
  unfold burWake; dsimp only; split <;> simp
@[simp] theorem burWake_rings (old : State) : (burWake old s).rings = s.rings := by
  unfold burWake; dsimp only; split <;> simp
@[simp] theorem burWake_cmdRot (old : State) : (burWake old s).cmdRot = s.cmdRot := by
  unfold burWake; dsimp only; split <;> simp
@[simp] theorem burWake_wft (old : State) : (burWake old s).wft = s.wft := by
  unfold burWake; dsimp only; split <;> simp
@[simp] theorem burWake_coh (old : State) : (burWake old s).coh = s.coh := by
  unfold burWake; dsimp only; split <;> simp
@[simp] theorem burWake_wol (old : State) : (burWake old s).wol = s.wol := by
  unfold burWake; dsimp only; split <;> simp
@[simp] theorem burWake_count (old : State) : (burWake old s).count = s.count := by
  unfold burWake; dsimp only; split <;> simp
@[simp] theorem burWake_pending (old : State) : (burWake old s).pending = s.pending := by
  unfold burWake; dsimp only; split <;> simp
theorem burWake_frame (old : State) :
    burWake old s = { s with
      regs := (burWake old s).regs
      prf := (burWake old s).prf
      sbd := (burWake old s).sbd
      pwr := (burWake old s).pwr } := by
  apply State.ext <;> simp

/-! ### ipendBit -/

@[simp] theorem ipendBit_par (i : Nat) : (ipendBit s i).par = s.par := by
  simp [ipendBit]
@[simp] theorem ipendBit_rst (i : Nat) : (ipendBit s i).rst = s.rst := by
  simp [ipendBit]
@[simp] theorem ipendBit_mem (i : Nat) : (ipendBit s i).mem = s.mem := by
  simp [ipendBit]
@[simp] theorem ipendBit_tg (i : Nat) : (ipendBit s i).tg = s.tg := by
  simp [ipendBit]
@[simp] theorem ipendBit_lanes (i : Nat) : (ipendBit s i).lanes = s.lanes := by
  simp [ipendBit]
@[simp] theorem ipendBit_win (i : Nat) : (ipendBit s i).win = s.win := by
  simp [ipendBit]
@[simp] theorem ipendBit_localPins (i : Nat) : (ipendBit s i).localPins = s.localPins := by
  simp [ipendBit]
@[simp] theorem ipendBit_msg (i : Nat) : (ipendBit s i).msg = s.msg := by
  simp [ipendBit]
@[simp] theorem ipendBit_miss (i : Nat) : (ipendBit s i).miss = s.miss := by
  simp [ipendBit]
@[simp] theorem ipendBit_move (i : Nat) : (ipendBit s i).move = s.move := by
  simp [ipendBit]
@[simp] theorem ipendBit_err (i : Nat) : (ipendBit s i).err = s.err := by
  simp [ipendBit]
@[simp] theorem ipendBit_pnl (i : Nat) : (ipendBit s i).pnl = s.pnl := by
  simp [ipendBit]
@[simp] theorem ipendBit_rnk (i : Nat) : (ipendBit s i).rnk = s.rnk := by
  simp [ipendBit]
@[simp] theorem ipendBit_port (i : Nat) : (ipendBit s i).port = s.port := by
  simp [ipendBit]
@[simp] theorem ipendBit_stk (i : Nat) : (ipendBit s i).stk = s.stk := by
  simp [ipendBit]
@[simp] theorem ipendBit_rings (i : Nat) : (ipendBit s i).rings = s.rings := by
  simp [ipendBit]
@[simp] theorem ipendBit_cmdRot (i : Nat) : (ipendBit s i).cmdRot = s.cmdRot := by
  simp [ipendBit]
@[simp] theorem ipendBit_wft (i : Nat) : (ipendBit s i).wft = s.wft := by
  simp [ipendBit]
@[simp] theorem ipendBit_coh (i : Nat) : (ipendBit s i).coh = s.coh := by
  simp [ipendBit]
@[simp] theorem ipendBit_wol (i : Nat) : (ipendBit s i).wol = s.wol := by
  simp [ipendBit]
@[simp] theorem ipendBit_count (i : Nat) : (ipendBit s i).count = s.count := by
  simp [ipendBit]
@[simp] theorem ipendBit_pending (i : Nat) : (ipendBit s i).pending = s.pending := by
  simp [ipendBit]
theorem ipendBit_frame (i : Nat) :
    ipendBit s i = { s with
      regs := (ipendBit s i).regs
      prf := (ipendBit s i).prf
      bur := (ipendBit s i).bur
      sbd := (ipendBit s i).sbd
      pwr := (ipendBit s i).pwr } := by
  apply State.ext <;> simp

/-! ### occQuiet -/

@[simp] theorem occQuiet_par (src flag unit : Nat) (fresh : Bool) : (occQuiet s src flag unit fresh).par = s.par := by
  unfold occQuiet; split <;> simp
@[simp] theorem occQuiet_rst (src flag unit : Nat) (fresh : Bool) : (occQuiet s src flag unit fresh).rst = s.rst := by
  unfold occQuiet; split <;> simp
@[simp] theorem occQuiet_mem (src flag unit : Nat) (fresh : Bool) : (occQuiet s src flag unit fresh).mem = s.mem := by
  unfold occQuiet; split <;> simp
@[simp] theorem occQuiet_tg (src flag unit : Nat) (fresh : Bool) : (occQuiet s src flag unit fresh).tg = s.tg := by
  unfold occQuiet; split <;> simp
@[simp] theorem occQuiet_lanes (src flag unit : Nat) (fresh : Bool) : (occQuiet s src flag unit fresh).lanes = s.lanes := by
  unfold occQuiet; split <;> simp
@[simp] theorem occQuiet_win (src flag unit : Nat) (fresh : Bool) : (occQuiet s src flag unit fresh).win = s.win := by
  unfold occQuiet; split <;> simp
@[simp] theorem occQuiet_localPins (src flag unit : Nat) (fresh : Bool) : (occQuiet s src flag unit fresh).localPins = s.localPins := by
  unfold occQuiet; split <;> simp
@[simp] theorem occQuiet_msg (src flag unit : Nat) (fresh : Bool) : (occQuiet s src flag unit fresh).msg = s.msg := by
  unfold occQuiet; split <;> simp
@[simp] theorem occQuiet_miss (src flag unit : Nat) (fresh : Bool) : (occQuiet s src flag unit fresh).miss = s.miss := by
  unfold occQuiet; split <;> simp
@[simp] theorem occQuiet_move (src flag unit : Nat) (fresh : Bool) : (occQuiet s src flag unit fresh).move = s.move := by
  unfold occQuiet; split <;> simp
@[simp] theorem occQuiet_pnl (src flag unit : Nat) (fresh : Bool) : (occQuiet s src flag unit fresh).pnl = s.pnl := by
  unfold occQuiet; split <;> simp
@[simp] theorem occQuiet_rnk (src flag unit : Nat) (fresh : Bool) : (occQuiet s src flag unit fresh).rnk = s.rnk := by
  unfold occQuiet; split <;> simp
@[simp] theorem occQuiet_port (src flag unit : Nat) (fresh : Bool) : (occQuiet s src flag unit fresh).port = s.port := by
  unfold occQuiet; split <;> simp
@[simp] theorem occQuiet_stk (src flag unit : Nat) (fresh : Bool) : (occQuiet s src flag unit fresh).stk = s.stk := by
  unfold occQuiet; split <;> simp
@[simp] theorem occQuiet_rings (src flag unit : Nat) (fresh : Bool) : (occQuiet s src flag unit fresh).rings = s.rings := by
  unfold occQuiet; split <;> simp
@[simp] theorem occQuiet_cmdRot (src flag unit : Nat) (fresh : Bool) : (occQuiet s src flag unit fresh).cmdRot = s.cmdRot := by
  unfold occQuiet; split <;> simp
@[simp] theorem occQuiet_wft (src flag unit : Nat) (fresh : Bool) : (occQuiet s src flag unit fresh).wft = s.wft := by
  unfold occQuiet; split <;> simp
@[simp] theorem occQuiet_coh (src flag unit : Nat) (fresh : Bool) : (occQuiet s src flag unit fresh).coh = s.coh := by
  unfold occQuiet; split <;> simp
@[simp] theorem occQuiet_wol (src flag unit : Nat) (fresh : Bool) : (occQuiet s src flag unit fresh).wol = s.wol := by
  unfold occQuiet; split <;> simp
@[simp] theorem occQuiet_count (src flag unit : Nat) (fresh : Bool) : (occQuiet s src flag unit fresh).count = s.count := by
  unfold occQuiet; split <;> simp
@[simp] theorem occQuiet_pending (src flag unit : Nat) (fresh : Bool) : (occQuiet s src flag unit fresh).pending = s.pending := by
  unfold occQuiet; split <;> simp
theorem occQuiet_frame (src flag unit : Nat) (fresh : Bool) :
    occQuiet s src flag unit fresh = { s with
      regs := (occQuiet s src flag unit fresh).regs
      err := (occQuiet s src flag unit fresh).err
      prf := (occQuiet s src flag unit fresh).prf
      bur := (occQuiet s src flag unit fresh).bur
      sbd := (occQuiet s src flag unit fresh).sbd
      pwr := (occQuiet s src flag unit fresh).pwr } := by
  apply State.ext <;> simp

/-! ### flagQuiet -/

@[simp] theorem flagQuiet_par (src off i unit : Nat) (fresh : Bool) : (flagQuiet s src off i unit fresh).par = s.par := by
  unfold flagQuiet; split <;> simp
@[simp] theorem flagQuiet_rst (src off i unit : Nat) (fresh : Bool) : (flagQuiet s src off i unit fresh).rst = s.rst := by
  unfold flagQuiet; split <;> simp
@[simp] theorem flagQuiet_mem (src off i unit : Nat) (fresh : Bool) : (flagQuiet s src off i unit fresh).mem = s.mem := by
  unfold flagQuiet; split <;> simp
@[simp] theorem flagQuiet_tg (src off i unit : Nat) (fresh : Bool) : (flagQuiet s src off i unit fresh).tg = s.tg := by
  unfold flagQuiet; split <;> simp
@[simp] theorem flagQuiet_lanes (src off i unit : Nat) (fresh : Bool) : (flagQuiet s src off i unit fresh).lanes = s.lanes := by
  unfold flagQuiet; split <;> simp
@[simp] theorem flagQuiet_win (src off i unit : Nat) (fresh : Bool) : (flagQuiet s src off i unit fresh).win = s.win := by
  unfold flagQuiet; split <;> simp
@[simp] theorem flagQuiet_localPins (src off i unit : Nat) (fresh : Bool) : (flagQuiet s src off i unit fresh).localPins = s.localPins := by
  unfold flagQuiet; split <;> simp
@[simp] theorem flagQuiet_msg (src off i unit : Nat) (fresh : Bool) : (flagQuiet s src off i unit fresh).msg = s.msg := by
  unfold flagQuiet; split <;> simp
@[simp] theorem flagQuiet_miss (src off i unit : Nat) (fresh : Bool) : (flagQuiet s src off i unit fresh).miss = s.miss := by
  unfold flagQuiet; split <;> simp
@[simp] theorem flagQuiet_move (src off i unit : Nat) (fresh : Bool) : (flagQuiet s src off i unit fresh).move = s.move := by
  unfold flagQuiet; split <;> simp
@[simp] theorem flagQuiet_pnl (src off i unit : Nat) (fresh : Bool) : (flagQuiet s src off i unit fresh).pnl = s.pnl := by
  unfold flagQuiet; split <;> simp
@[simp] theorem flagQuiet_rnk (src off i unit : Nat) (fresh : Bool) : (flagQuiet s src off i unit fresh).rnk = s.rnk := by
  unfold flagQuiet; split <;> simp
@[simp] theorem flagQuiet_port (src off i unit : Nat) (fresh : Bool) : (flagQuiet s src off i unit fresh).port = s.port := by
  unfold flagQuiet; split <;> simp
@[simp] theorem flagQuiet_stk (src off i unit : Nat) (fresh : Bool) : (flagQuiet s src off i unit fresh).stk = s.stk := by
  unfold flagQuiet; split <;> simp
@[simp] theorem flagQuiet_rings (src off i unit : Nat) (fresh : Bool) : (flagQuiet s src off i unit fresh).rings = s.rings := by
  unfold flagQuiet; split <;> simp
@[simp] theorem flagQuiet_cmdRot (src off i unit : Nat) (fresh : Bool) : (flagQuiet s src off i unit fresh).cmdRot = s.cmdRot := by
  unfold flagQuiet; split <;> simp
@[simp] theorem flagQuiet_wft (src off i unit : Nat) (fresh : Bool) : (flagQuiet s src off i unit fresh).wft = s.wft := by
  unfold flagQuiet; split <;> simp
@[simp] theorem flagQuiet_coh (src off i unit : Nat) (fresh : Bool) : (flagQuiet s src off i unit fresh).coh = s.coh := by
  unfold flagQuiet; split <;> simp
@[simp] theorem flagQuiet_wol (src off i unit : Nat) (fresh : Bool) : (flagQuiet s src off i unit fresh).wol = s.wol := by
  unfold flagQuiet; split <;> simp
@[simp] theorem flagQuiet_count (src off i unit : Nat) (fresh : Bool) : (flagQuiet s src off i unit fresh).count = s.count := by
  unfold flagQuiet; split <;> simp
@[simp] theorem flagQuiet_pending (src off i unit : Nat) (fresh : Bool) : (flagQuiet s src off i unit fresh).pending = s.pending := by
  unfold flagQuiet; split <;> simp
theorem flagQuiet_frame (src off i unit : Nat) (fresh : Bool) :
    flagQuiet s src off i unit fresh = { s with
      regs := (flagQuiet s src off i unit fresh).regs
      err := (flagQuiet s src off i unit fresh).err
      prf := (flagQuiet s src off i unit fresh).prf
      bur := (flagQuiet s src off i unit fresh).bur
      sbd := (flagQuiet s src off i unit fresh).sbd
      pwr := (flagQuiet s src off i unit fresh).pwr } := by
  apply State.ext <;> simp

/-! ### spill -/

@[simp] theorem spill_par (k : Nat) (virt : Bool) (ev : EventId) (base : Byte) (wid : Option Nat) : (spill s k virt ev base wid).par = s.par := by
  simp [spill, laneAdd]
@[simp] theorem spill_rst (k : Nat) (virt : Bool) (ev : EventId) (base : Byte) (wid : Option Nat) : (spill s k virt ev base wid).rst = s.rst := by
  simp [spill, laneAdd]
@[simp] theorem spill_regs (k : Nat) (virt : Bool) (ev : EventId) (base : Byte) (wid : Option Nat) : (spill s k virt ev base wid).regs = s.regs := by
  simp [spill, laneAdd]
@[simp] theorem spill_mem (k : Nat) (virt : Bool) (ev : EventId) (base : Byte) (wid : Option Nat) : (spill s k virt ev base wid).mem = s.mem := by
  simp [spill, laneAdd]
@[simp] theorem spill_tg (k : Nat) (virt : Bool) (ev : EventId) (base : Byte) (wid : Option Nat) : (spill s k virt ev base wid).tg = s.tg := by
  simp [spill, laneAdd]
@[simp] theorem spill_win (k : Nat) (virt : Bool) (ev : EventId) (base : Byte) (wid : Option Nat) : (spill s k virt ev base wid).win = s.win := by
  simp [spill, laneAdd]
@[simp] theorem spill_localPins (k : Nat) (virt : Bool) (ev : EventId) (base : Byte) (wid : Option Nat) : (spill s k virt ev base wid).localPins = s.localPins := by
  simp [spill, laneAdd]
@[simp] theorem spill_msg (k : Nat) (virt : Bool) (ev : EventId) (base : Byte) (wid : Option Nat) : (spill s k virt ev base wid).msg = s.msg := by
  simp [spill, laneAdd]
@[simp] theorem spill_miss (k : Nat) (virt : Bool) (ev : EventId) (base : Byte) (wid : Option Nat) : (spill s k virt ev base wid).miss = s.miss := by
  simp [spill, laneAdd]
@[simp] theorem spill_move (k : Nat) (virt : Bool) (ev : EventId) (base : Byte) (wid : Option Nat) : (spill s k virt ev base wid).move = s.move := by
  simp [spill, laneAdd]
@[simp] theorem spill_err (k : Nat) (virt : Bool) (ev : EventId) (base : Byte) (wid : Option Nat) : (spill s k virt ev base wid).err = s.err := by
  simp [spill, laneAdd]
@[simp] theorem spill_prf (k : Nat) (virt : Bool) (ev : EventId) (base : Byte) (wid : Option Nat) : (spill s k virt ev base wid).prf = s.prf := by
  simp [spill, laneAdd]
@[simp] theorem spill_bur (k : Nat) (virt : Bool) (ev : EventId) (base : Byte) (wid : Option Nat) : (spill s k virt ev base wid).bur = s.bur := by
  simp [spill, laneAdd]
@[simp] theorem spill_sbd (k : Nat) (virt : Bool) (ev : EventId) (base : Byte) (wid : Option Nat) : (spill s k virt ev base wid).sbd = s.sbd := by
  simp [spill, laneAdd]
@[simp] theorem spill_pnl (k : Nat) (virt : Bool) (ev : EventId) (base : Byte) (wid : Option Nat) : (spill s k virt ev base wid).pnl = s.pnl := by
  simp [spill, laneAdd]
@[simp] theorem spill_rnk (k : Nat) (virt : Bool) (ev : EventId) (base : Byte) (wid : Option Nat) : (spill s k virt ev base wid).rnk = s.rnk := by
  simp [spill, laneAdd]
@[simp] theorem spill_port (k : Nat) (virt : Bool) (ev : EventId) (base : Byte) (wid : Option Nat) : (spill s k virt ev base wid).port = s.port := by
  simp [spill, laneAdd]
@[simp] theorem spill_pwr (k : Nat) (virt : Bool) (ev : EventId) (base : Byte) (wid : Option Nat) : (spill s k virt ev base wid).pwr = s.pwr := by
  simp [spill, laneAdd]
@[simp] theorem spill_stk (k : Nat) (virt : Bool) (ev : EventId) (base : Byte) (wid : Option Nat) : (spill s k virt ev base wid).stk = s.stk := by
  simp [spill, laneAdd]
@[simp] theorem spill_rings (k : Nat) (virt : Bool) (ev : EventId) (base : Byte) (wid : Option Nat) : (spill s k virt ev base wid).rings = s.rings := by
  simp [spill, laneAdd]
@[simp] theorem spill_cmdRot (k : Nat) (virt : Bool) (ev : EventId) (base : Byte) (wid : Option Nat) : (spill s k virt ev base wid).cmdRot = s.cmdRot := by
  simp [spill, laneAdd]
@[simp] theorem spill_wft (k : Nat) (virt : Bool) (ev : EventId) (base : Byte) (wid : Option Nat) : (spill s k virt ev base wid).wft = s.wft := by
  simp [spill, laneAdd]
@[simp] theorem spill_coh (k : Nat) (virt : Bool) (ev : EventId) (base : Byte) (wid : Option Nat) : (spill s k virt ev base wid).coh = s.coh := by
  simp [spill, laneAdd]
@[simp] theorem spill_wol (k : Nat) (virt : Bool) (ev : EventId) (base : Byte) (wid : Option Nat) : (spill s k virt ev base wid).wol = s.wol := by
  simp [spill, laneAdd]
@[simp] theorem spill_count (k : Nat) (virt : Bool) (ev : EventId) (base : Byte) (wid : Option Nat) : (spill s k virt ev base wid).count = s.count := by
  simp [spill, laneAdd]
@[simp] theorem spill_pending (k : Nat) (virt : Bool) (ev : EventId) (base : Byte) (wid : Option Nat) : (spill s k virt ev base wid).pending = s.pending := by
  simp [spill, laneAdd]
theorem spill_frame (k : Nat) (virt : Bool) (ev : EventId) (base : Byte) (wid : Option Nat) :
    spill s k virt ev base wid = { s with
      lanes := (spill s k virt ev base wid).lanes } := by
  apply State.ext <;> simp

/-! ### treePut -/

/-- An INS that meets its event on a target changes that target alone. -/
theorem meetsAt_frame {k : Nat} {o : TOp} {arr : Stroke} {u : State} (h : meetsAt s k o arr = some u) :
    u = { s with tg := u.tg } := by
  unfold meetsAt at h
  dsimp only at h
  (repeat' split at h) <;> simp at h <;> subst h <;> rfl

/-- A physical INS that meets its event changes no more than the state of targets. -/
theorem insMeets_frame {k : Nat} {o : TOp} {arr : Stroke} {u : State} (ho : o.virt = false)
    (h : insMeets s k o arr = some u) : u = { s with tg := u.tg } := by
  unfold insMeets at h
  split at h
  · rename_i v hv; cases h; exact meetsAt_frame s hv
  · simp only [ho, Bool.false_and, Bool.false_eq_true, if_false] at h
    obtain ⟨j, -, rfl⟩ := Option.map_eq_some_iff.1 h
    cases hj : meetsAt s j o arr with
    | none => rfl
    | some v => exact meetsAt_frame s hj

@[simp] theorem treePut_par (k : Nat) (o : TOp) (ho : o.virt = false) : (treePut s k o).par = s.par := by
  unfold treePut; dsimp only; split
  · simp
  · split
    · split
      · rename_i h; have e := congrArg State.par (insMeets_frame s ho h); exact e
      · simp [directSpill]; split <;> simp
    · simp
@[simp] theorem treePut_rst (k : Nat) (o : TOp) (ho : o.virt = false) : (treePut s k o).rst = s.rst := by
  unfold treePut; dsimp only; split
  · simp
  · split
    · split
      · rename_i h; have e := congrArg State.rst (insMeets_frame s ho h); exact e
      · simp [directSpill]; split <;> simp
    · simp
@[simp] theorem treePut_mem (k : Nat) (o : TOp) (ho : o.virt = false) : (treePut s k o).mem = s.mem := by
  unfold treePut; dsimp only; split
  · simp
  · split
    · split
      · rename_i h; have e := congrArg State.mem (insMeets_frame s ho h); exact e
      · simp [directSpill]; split <;> simp
    · simp
@[simp] theorem treePut_win (k : Nat) (o : TOp) (ho : o.virt = false) : (treePut s k o).win = s.win := by
  unfold treePut; dsimp only; split
  · simp
  · split
    · split
      · rename_i h; have e := congrArg State.win (insMeets_frame s ho h); exact e
      · simp [directSpill]; split <;> simp
    · simp
@[simp] theorem treePut_localPins (k : Nat) (o : TOp) (ho : o.virt = false) : (treePut s k o).localPins = s.localPins := by
  unfold treePut; dsimp only; split
  · simp
  · split
    · split
      · rename_i h; have e := congrArg State.localPins (insMeets_frame s ho h); exact e
      · simp [directSpill]; split <;> simp
    · simp
@[simp] theorem treePut_msg (k : Nat) (o : TOp) (ho : o.virt = false) : (treePut s k o).msg = s.msg := by
  unfold treePut; dsimp only; split
  · simp
  · split
    · split
      · rename_i h; have e := congrArg State.msg (insMeets_frame s ho h); exact e
      · simp [directSpill]; split <;> simp
    · simp
@[simp] theorem treePut_miss (k : Nat) (o : TOp) (ho : o.virt = false) : (treePut s k o).miss = s.miss := by
  unfold treePut; dsimp only; split
  · simp
  · split
    · split
      · rename_i h; have e := congrArg State.miss (insMeets_frame s ho h); exact e
      · simp [directSpill]; split <;> simp
    · simp
@[simp] theorem treePut_move (k : Nat) (o : TOp) (ho : o.virt = false) : (treePut s k o).move = s.move := by
  unfold treePut; dsimp only; split
  · simp
  · split
    · split
      · rename_i h; have e := congrArg State.move (insMeets_frame s ho h); exact e
      · simp [directSpill]; split <;> simp
    · simp
@[simp] theorem treePut_err (k : Nat) (o : TOp) (ho : o.virt = false) : (treePut s k o).err = s.err := by
  unfold treePut; dsimp only; split
  · simp
  · split
    · split
      · rename_i h; have e := congrArg State.err (insMeets_frame s ho h); exact e
      · simp [directSpill]; split <;> simp
    · simp
@[simp] theorem treePut_bur (k : Nat) (o : TOp) (ho : o.virt = false) : (treePut s k o).bur = s.bur := by
  unfold treePut; dsimp only; split
  · simp
  · split
    · split
      · rename_i h; have e := congrArg State.bur (insMeets_frame s ho h); exact e
      · simp [directSpill]; split <;> simp
    · simp
@[simp] theorem treePut_sbd (k : Nat) (o : TOp) (ho : o.virt = false) : (treePut s k o).sbd = s.sbd := by
  unfold treePut; dsimp only; split
  · simp
  · split
    · split
      · rename_i h; have e := congrArg State.sbd (insMeets_frame s ho h); exact e
      · simp [directSpill]; split <;> simp
    · simp
@[simp] theorem treePut_pnl (k : Nat) (o : TOp) (ho : o.virt = false) : (treePut s k o).pnl = s.pnl := by
  unfold treePut; dsimp only; split
  · simp
  · split
    · split
      · rename_i h; have e := congrArg State.pnl (insMeets_frame s ho h); exact e
      · simp [directSpill]; split <;> simp
    · simp
@[simp] theorem treePut_rnk (k : Nat) (o : TOp) (ho : o.virt = false) : (treePut s k o).rnk = s.rnk := by
  unfold treePut; dsimp only; split
  · simp
  · split
    · split
      · rename_i h; have e := congrArg State.rnk (insMeets_frame s ho h); exact e
      · simp [directSpill]; split <;> simp
    · simp
@[simp] theorem treePut_port (k : Nat) (o : TOp) (ho : o.virt = false) : (treePut s k o).port = s.port := by
  unfold treePut; dsimp only; split
  · simp
  · split
    · split
      · rename_i h; have e := congrArg State.port (insMeets_frame s ho h); exact e
      · simp [directSpill]; split <;> simp
    · simp
@[simp] theorem treePut_pwr (k : Nat) (o : TOp) (ho : o.virt = false) : (treePut s k o).pwr = s.pwr := by
  unfold treePut; dsimp only; split
  · simp
  · split
    · split
      · rename_i h; have e := congrArg State.pwr (insMeets_frame s ho h); exact e
      · simp [directSpill]; split <;> simp
    · simp
@[simp] theorem treePut_stk (k : Nat) (o : TOp) (ho : o.virt = false) : (treePut s k o).stk = s.stk := by
  unfold treePut; dsimp only; split
  · simp
  · split
    · split
      · rename_i h; have e := congrArg State.stk (insMeets_frame s ho h); exact e
      · simp [directSpill]; split <;> simp
    · simp
@[simp] theorem treePut_rings (k : Nat) (o : TOp) (ho : o.virt = false) : (treePut s k o).rings = s.rings := by
  unfold treePut; dsimp only; split
  · simp
  · split
    · split
      · rename_i h; have e := congrArg State.rings (insMeets_frame s ho h); exact e
      · simp [directSpill]; split <;> simp
    · simp
@[simp] theorem treePut_cmdRot (k : Nat) (o : TOp) (ho : o.virt = false) : (treePut s k o).cmdRot = s.cmdRot := by
  unfold treePut; dsimp only; split
  · simp
  · split
    · split
      · rename_i h; have e := congrArg State.cmdRot (insMeets_frame s ho h); exact e
      · simp [directSpill]; split <;> simp
    · simp
@[simp] theorem treePut_wft (k : Nat) (o : TOp) (ho : o.virt = false) : (treePut s k o).wft = s.wft := by
  unfold treePut; dsimp only; split
  · simp
  · split
    · split
      · rename_i h; have e := congrArg State.wft (insMeets_frame s ho h); exact e
      · simp [directSpill]; split <;> simp
    · simp
@[simp] theorem treePut_coh (k : Nat) (o : TOp) (ho : o.virt = false) : (treePut s k o).coh = s.coh := by
  unfold treePut; dsimp only; split
  · simp
  · split
    · split
      · rename_i h; have e := congrArg State.coh (insMeets_frame s ho h); exact e
      · simp [directSpill]; split <;> simp
    · simp
@[simp] theorem treePut_wol (k : Nat) (o : TOp) (ho : o.virt = false) : (treePut s k o).wol = s.wol := by
  unfold treePut; dsimp only; split
  · simp
  · split
    · split
      · rename_i h; have e := congrArg State.wol (insMeets_frame s ho h); exact e
      · simp [directSpill]; split <;> simp
    · simp
@[simp] theorem treePut_count (k : Nat) (o : TOp) (ho : o.virt = false) : (treePut s k o).count = s.count := by
  unfold treePut; dsimp only; split
  · simp
  · split
    · split
      · rename_i h; have e := congrArg State.count (insMeets_frame s ho h); exact e
      · simp [directSpill]; split <;> simp
    · simp
@[simp] theorem treePut_pending (k : Nat) (o : TOp) (ho : o.virt = false) : (treePut s k o).pending = s.pending := by
  unfold treePut; dsimp only; split
  · simp
  · split
    · split
      · rename_i h; have e := congrArg State.pending (insMeets_frame s ho h); exact e
      · simp [directSpill]; split <;> simp
    · simp
theorem treePut_frame (k : Nat) (o : TOp) (ho : o.virt = false) :
    treePut s k o = { s with
      regs := (treePut s k o).regs
      tg := (treePut s k o).tg
      lanes := (treePut s k o).lanes
      prf := (treePut s k o).prf } := by
  apply State.ext <;> simp [ho]

/-! ### errEvent -/

@[simp] theorem errEvent_par (src : Nat) : (errEvent s src).par = s.par := by
  unfold errEvent sendRaise; dsimp only; (repeat' split) <;> simp [mkOp]
@[simp] theorem errEvent_rst (src : Nat) : (errEvent s src).rst = s.rst := by
  unfold errEvent sendRaise; dsimp only; (repeat' split) <;> simp [mkOp]
@[simp] theorem errEvent_mem (src : Nat) : (errEvent s src).mem = s.mem := by
  unfold errEvent sendRaise; dsimp only; (repeat' split) <;> simp [mkOp]
@[simp] theorem errEvent_win (src : Nat) : (errEvent s src).win = s.win := by
  unfold errEvent sendRaise; dsimp only; (repeat' split) <;> simp [mkOp]
@[simp] theorem errEvent_localPins (src : Nat) : (errEvent s src).localPins = s.localPins := by
  unfold errEvent sendRaise; dsimp only; (repeat' split) <;> simp [mkOp]
@[simp] theorem errEvent_msg (src : Nat) : (errEvent s src).msg = s.msg := by
  unfold errEvent sendRaise; dsimp only; (repeat' split) <;> simp [mkOp]
@[simp] theorem errEvent_miss (src : Nat) : (errEvent s src).miss = s.miss := by
  unfold errEvent sendRaise; dsimp only; (repeat' split) <;> simp [mkOp]
@[simp] theorem errEvent_move (src : Nat) : (errEvent s src).move = s.move := by
  unfold errEvent sendRaise; dsimp only; (repeat' split) <;> simp [mkOp]
@[simp] theorem errEvent_pnl (src : Nat) : (errEvent s src).pnl = s.pnl := by
  unfold errEvent sendRaise; dsimp only; (repeat' split) <;> simp [mkOp]
@[simp] theorem errEvent_rnk (src : Nat) : (errEvent s src).rnk = s.rnk := by
  unfold errEvent sendRaise; dsimp only; (repeat' split) <;> simp [mkOp]
@[simp] theorem errEvent_port (src : Nat) : (errEvent s src).port = s.port := by
  unfold errEvent sendRaise; dsimp only; (repeat' split) <;> simp [mkOp]
@[simp] theorem errEvent_stk (src : Nat) : (errEvent s src).stk = s.stk := by
  unfold errEvent sendRaise; dsimp only; (repeat' split) <;> simp [mkOp]
@[simp] theorem errEvent_rings (src : Nat) : (errEvent s src).rings = s.rings := by
  unfold errEvent sendRaise; dsimp only; (repeat' split) <;> simp [mkOp]
@[simp] theorem errEvent_cmdRot (src : Nat) : (errEvent s src).cmdRot = s.cmdRot := by
  unfold errEvent sendRaise; dsimp only; (repeat' split) <;> simp [mkOp]
@[simp] theorem errEvent_wft (src : Nat) : (errEvent s src).wft = s.wft := by
  unfold errEvent sendRaise; dsimp only; (repeat' split) <;> simp [mkOp]
@[simp] theorem errEvent_coh (src : Nat) : (errEvent s src).coh = s.coh := by
  unfold errEvent sendRaise; dsimp only; (repeat' split) <;> simp [mkOp]
@[simp] theorem errEvent_wol (src : Nat) : (errEvent s src).wol = s.wol := by
  unfold errEvent sendRaise; dsimp only; (repeat' split) <;> simp [mkOp]
@[simp] theorem errEvent_count (src : Nat) : (errEvent s src).count = s.count := by
  unfold errEvent sendRaise; dsimp only; (repeat' split) <;> simp [mkOp]
@[simp] theorem errEvent_pending (src : Nat) : (errEvent s src).pending = s.pending := by
  unfold errEvent sendRaise; dsimp only; (repeat' split) <;> simp [mkOp]
theorem errEvent_frame (src : Nat) :
    errEvent s src = { s with
      regs := (errEvent s src).regs
      tg := (errEvent s src).tg
      lanes := (errEvent s src).lanes
      err := (errEvent s src).err
      prf := (errEvent s src).prf
      bur := (errEvent s src).bur
      sbd := (errEvent s src).sbd
      pwr := (errEvent s src).pwr } := by
  apply State.ext <;> simp

/-! ### occ -/

@[simp] theorem occ_par (src flag unit : Nat) (fresh : Bool) : (occ s src flag unit fresh).par = s.par := by
  unfold occ; dsimp only; split <;> simp
@[simp] theorem occ_rst (src flag unit : Nat) (fresh : Bool) : (occ s src flag unit fresh).rst = s.rst := by
  unfold occ; dsimp only; split <;> simp
@[simp] theorem occ_mem (src flag unit : Nat) (fresh : Bool) : (occ s src flag unit fresh).mem = s.mem := by
  unfold occ; dsimp only; split <;> simp
@[simp] theorem occ_win (src flag unit : Nat) (fresh : Bool) : (occ s src flag unit fresh).win = s.win := by
  unfold occ; dsimp only; split <;> simp
@[simp] theorem occ_localPins (src flag unit : Nat) (fresh : Bool) : (occ s src flag unit fresh).localPins = s.localPins := by
  unfold occ; dsimp only; split <;> simp
@[simp] theorem occ_msg (src flag unit : Nat) (fresh : Bool) : (occ s src flag unit fresh).msg = s.msg := by
  unfold occ; dsimp only; split <;> simp
@[simp] theorem occ_miss (src flag unit : Nat) (fresh : Bool) : (occ s src flag unit fresh).miss = s.miss := by
  unfold occ; dsimp only; split <;> simp
@[simp] theorem occ_move (src flag unit : Nat) (fresh : Bool) : (occ s src flag unit fresh).move = s.move := by
  unfold occ; dsimp only; split <;> simp
@[simp] theorem occ_pnl (src flag unit : Nat) (fresh : Bool) : (occ s src flag unit fresh).pnl = s.pnl := by
  unfold occ; dsimp only; split <;> simp
@[simp] theorem occ_rnk (src flag unit : Nat) (fresh : Bool) : (occ s src flag unit fresh).rnk = s.rnk := by
  unfold occ; dsimp only; split <;> simp
@[simp] theorem occ_port (src flag unit : Nat) (fresh : Bool) : (occ s src flag unit fresh).port = s.port := by
  unfold occ; dsimp only; split <;> simp
@[simp] theorem occ_stk (src flag unit : Nat) (fresh : Bool) : (occ s src flag unit fresh).stk = s.stk := by
  unfold occ; dsimp only; split <;> simp
@[simp] theorem occ_rings (src flag unit : Nat) (fresh : Bool) : (occ s src flag unit fresh).rings = s.rings := by
  unfold occ; dsimp only; split <;> simp
@[simp] theorem occ_cmdRot (src flag unit : Nat) (fresh : Bool) : (occ s src flag unit fresh).cmdRot = s.cmdRot := by
  unfold occ; dsimp only; split <;> simp
@[simp] theorem occ_wft (src flag unit : Nat) (fresh : Bool) : (occ s src flag unit fresh).wft = s.wft := by
  unfold occ; dsimp only; split <;> simp
@[simp] theorem occ_coh (src flag unit : Nat) (fresh : Bool) : (occ s src flag unit fresh).coh = s.coh := by
  unfold occ; dsimp only; split <;> simp
@[simp] theorem occ_wol (src flag unit : Nat) (fresh : Bool) : (occ s src flag unit fresh).wol = s.wol := by
  unfold occ; dsimp only; split <;> simp
@[simp] theorem occ_count (src flag unit : Nat) (fresh : Bool) : (occ s src flag unit fresh).count = s.count := by
  unfold occ; dsimp only; split <;> simp
@[simp] theorem occ_pending (src flag unit : Nat) (fresh : Bool) : (occ s src flag unit fresh).pending = s.pending := by
  unfold occ; dsimp only; split <;> simp
theorem occ_frame (src flag unit : Nat) (fresh : Bool) :
    occ s src flag unit fresh = { s with
      regs := (occ s src flag unit fresh).regs
      tg := (occ s src flag unit fresh).tg
      lanes := (occ s src flag unit fresh).lanes
      err := (occ s src flag unit fresh).err
      prf := (occ s src flag unit fresh).prf
      bur := (occ s src flag unit fresh).bur
      sbd := (occ s src flag unit fresh).sbd
      pwr := (occ s src flag unit fresh).pwr } := by
  apply State.ext <;> simp

/-! ### setFlag -/

@[simp] theorem setFlag_par (src off i unit : Nat) (fresh : Bool) : (setFlag s src off i unit fresh).par = s.par := by
  unfold setFlag; split <;> simp
@[simp] theorem setFlag_rst (src off i unit : Nat) (fresh : Bool) : (setFlag s src off i unit fresh).rst = s.rst := by
  unfold setFlag; split <;> simp
@[simp] theorem setFlag_mem (src off i unit : Nat) (fresh : Bool) : (setFlag s src off i unit fresh).mem = s.mem := by
  unfold setFlag; split <;> simp
@[simp] theorem setFlag_win (src off i unit : Nat) (fresh : Bool) : (setFlag s src off i unit fresh).win = s.win := by
  unfold setFlag; split <;> simp
@[simp] theorem setFlag_localPins (src off i unit : Nat) (fresh : Bool) : (setFlag s src off i unit fresh).localPins = s.localPins := by
  unfold setFlag; split <;> simp
@[simp] theorem setFlag_msg (src off i unit : Nat) (fresh : Bool) : (setFlag s src off i unit fresh).msg = s.msg := by
  unfold setFlag; split <;> simp
@[simp] theorem setFlag_miss (src off i unit : Nat) (fresh : Bool) : (setFlag s src off i unit fresh).miss = s.miss := by
  unfold setFlag; split <;> simp
@[simp] theorem setFlag_move (src off i unit : Nat) (fresh : Bool) : (setFlag s src off i unit fresh).move = s.move := by
  unfold setFlag; split <;> simp
@[simp] theorem setFlag_pnl (src off i unit : Nat) (fresh : Bool) : (setFlag s src off i unit fresh).pnl = s.pnl := by
  unfold setFlag; split <;> simp
@[simp] theorem setFlag_rnk (src off i unit : Nat) (fresh : Bool) : (setFlag s src off i unit fresh).rnk = s.rnk := by
  unfold setFlag; split <;> simp
@[simp] theorem setFlag_port (src off i unit : Nat) (fresh : Bool) : (setFlag s src off i unit fresh).port = s.port := by
  unfold setFlag; split <;> simp
@[simp] theorem setFlag_stk (src off i unit : Nat) (fresh : Bool) : (setFlag s src off i unit fresh).stk = s.stk := by
  unfold setFlag; split <;> simp
@[simp] theorem setFlag_rings (src off i unit : Nat) (fresh : Bool) : (setFlag s src off i unit fresh).rings = s.rings := by
  unfold setFlag; split <;> simp
@[simp] theorem setFlag_cmdRot (src off i unit : Nat) (fresh : Bool) : (setFlag s src off i unit fresh).cmdRot = s.cmdRot := by
  unfold setFlag; split <;> simp
@[simp] theorem setFlag_wft (src off i unit : Nat) (fresh : Bool) : (setFlag s src off i unit fresh).wft = s.wft := by
  unfold setFlag; split <;> simp
@[simp] theorem setFlag_coh (src off i unit : Nat) (fresh : Bool) : (setFlag s src off i unit fresh).coh = s.coh := by
  unfold setFlag; split <;> simp
@[simp] theorem setFlag_wol (src off i unit : Nat) (fresh : Bool) : (setFlag s src off i unit fresh).wol = s.wol := by
  unfold setFlag; split <;> simp
@[simp] theorem setFlag_count (src off i unit : Nat) (fresh : Bool) : (setFlag s src off i unit fresh).count = s.count := by
  unfold setFlag; split <;> simp
@[simp] theorem setFlag_pending (src off i unit : Nat) (fresh : Bool) : (setFlag s src off i unit fresh).pending = s.pending := by
  unfold setFlag; split <;> simp
theorem setFlag_frame (src off i unit : Nat) (fresh : Bool) :
    setFlag s src off i unit fresh = { s with
      regs := (setFlag s src off i unit fresh).regs
      tg := (setFlag s src off i unit fresh).tg
      lanes := (setFlag s src off i unit fresh).lanes
      err := (setFlag s src off i unit fresh).err
      prf := (setFlag s src off i unit fresh).prf
      bur := (setFlag s src off i unit fresh).bur
      sbd := (setFlag s src off i unit fresh).sbd
      pwr := (setFlag s src off i unit fresh).pwr } := by
  apply State.ext <;> simp

/-! ### glbErr -/

@[simp] theorem glbErr_par (off : Nat) (src : Src) (kind : Nat) : (glbErr s off src kind).par = s.par := by
  simp [glbErr, glbCapture]
@[simp] theorem glbErr_rst (off : Nat) (src : Src) (kind : Nat) : (glbErr s off src kind).rst = s.rst := by
  simp [glbErr, glbCapture]
@[simp] theorem glbErr_mem (off : Nat) (src : Src) (kind : Nat) : (glbErr s off src kind).mem = s.mem := by
  simp [glbErr, glbCapture]
@[simp] theorem glbErr_win (off : Nat) (src : Src) (kind : Nat) : (glbErr s off src kind).win = s.win := by
  simp [glbErr, glbCapture]
@[simp] theorem glbErr_localPins (off : Nat) (src : Src) (kind : Nat) : (glbErr s off src kind).localPins = s.localPins := by
  simp [glbErr, glbCapture]
@[simp] theorem glbErr_msg (off : Nat) (src : Src) (kind : Nat) : (glbErr s off src kind).msg = s.msg := by
  simp [glbErr, glbCapture]
@[simp] theorem glbErr_miss (off : Nat) (src : Src) (kind : Nat) : (glbErr s off src kind).miss = s.miss := by
  simp [glbErr, glbCapture]
@[simp] theorem glbErr_move (off : Nat) (src : Src) (kind : Nat) : (glbErr s off src kind).move = s.move := by
  simp [glbErr, glbCapture]
@[simp] theorem glbErr_pnl (off : Nat) (src : Src) (kind : Nat) : (glbErr s off src kind).pnl = s.pnl := by
  simp [glbErr, glbCapture]
@[simp] theorem glbErr_rnk (off : Nat) (src : Src) (kind : Nat) : (glbErr s off src kind).rnk = s.rnk := by
  simp [glbErr, glbCapture]
@[simp] theorem glbErr_port (off : Nat) (src : Src) (kind : Nat) : (glbErr s off src kind).port = s.port := by
  simp [glbErr, glbCapture]
@[simp] theorem glbErr_stk (off : Nat) (src : Src) (kind : Nat) : (glbErr s off src kind).stk = s.stk := by
  simp [glbErr, glbCapture]
@[simp] theorem glbErr_rings (off : Nat) (src : Src) (kind : Nat) : (glbErr s off src kind).rings = s.rings := by
  simp [glbErr, glbCapture]
@[simp] theorem glbErr_cmdRot (off : Nat) (src : Src) (kind : Nat) : (glbErr s off src kind).cmdRot = s.cmdRot := by
  simp [glbErr, glbCapture]
@[simp] theorem glbErr_wft (off : Nat) (src : Src) (kind : Nat) : (glbErr s off src kind).wft = s.wft := by
  simp [glbErr, glbCapture]
@[simp] theorem glbErr_coh (off : Nat) (src : Src) (kind : Nat) : (glbErr s off src kind).coh = s.coh := by
  simp [glbErr, glbCapture]
@[simp] theorem glbErr_wol (off : Nat) (src : Src) (kind : Nat) : (glbErr s off src kind).wol = s.wol := by
  simp [glbErr, glbCapture]
@[simp] theorem glbErr_count (off : Nat) (src : Src) (kind : Nat) : (glbErr s off src kind).count = s.count := by
  simp [glbErr, glbCapture]
@[simp] theorem glbErr_pending (off : Nat) (src : Src) (kind : Nat) : (glbErr s off src kind).pending = s.pending := by
  simp [glbErr, glbCapture]
theorem glbErr_frame (off : Nat) (src : Src) (kind : Nat) :
    glbErr s off src kind = { s with
      regs := (glbErr s off src kind).regs
      tg := (glbErr s off src kind).tg
      lanes := (glbErr s off src kind).lanes
      err := (glbErr s off src kind).err
      prf := (glbErr s off src kind).prf
      bur := (glbErr s off src kind).bur
      sbd := (glbErr s off src kind).sbd
      pwr := (glbErr s off src kind).pwr } := by
  apply State.ext <;> simp

/-! ### While the block runs -/

theorem running_iff : running s = true ↔
    s.rst.phase = .run ∧ pwrState s = 0 ∧ pwrPhase s = 0 ∧ s.pwr.restore = false := by
  simp [running, and_assoc]

theorem abandonPrep_of_phase {s : State} (h : pwrPhase s ≠ 1) : abandonPrep s = s := by simp [abandonPrep, h]

/-- In RUN a wake cause changes nothing (17 R417). -/
theorem wake_running {s : State} (h : running s = true) (code idx : Nat) : wake s code idx = s := by
  obtain ⟨_, hs, hp, _⟩ := (running_iff s).mp h
  simp [wake, abandonPrep, hs, hp]

/-- In RUN activity is noted, and nothing else (17 R403). -/
theorem activity_running {s : State} (h : running s = true) : activity s = begun s := by
  obtain ⟨_, _, hp, _⟩ := (running_iff s).mp h
  simp [activity, abandonPrep, hp, begun]

theorem burWake_running {s : State} (h : running s = true) (old : State) : burWake old s = s := by
  obtain ⟨_, _, hp, _⟩ := (running_iff s).mp h
  simp [burWake, hp]

theorem regPortOpen_running {s : State} (h : running s = true) : regPortOpen s = true := by
  obtain ⟨hr, hs, hp, _⟩ := (running_iff s).mp h
  simp [regPortOpen, liveOn, grpOn, hr, hp]

theorem portsOpen_running {s : State} (h : running s = true) : portsOpen s = true := by
  obtain ⟨hr, hs, hp, _⟩ := (running_iff s).mp h
  simp [portsOpen, hr, hs, hp]

theorem engOn_running {s : State} (h : running s = true) (k : Nat) : engOn s k = true := by
  obtain ⟨hr, hs, hp, _⟩ := (running_iff s).mp h
  simp [engOn, grpOn, hr, hs, hp]

theorem fastReach_running {s : State} (h : running s = true) (off : Nat) : fastReach s off = true := by
  obtain ⟨hr, hs, hp, _⟩ := (running_iff s).mp h
  simp [fastReach, mainReach, hr, hp]

/-! ### The error path -/

/-- A flag that is set, with room in the log's queue: the flag register and the queue, and nothing else (18 R427). -/
theorem setFlag_spec {s : State} {off i : Nat} (src unit : Nat) (fresh : Bool) (hq : s.err.queue.length < 16)
    (hp : proofMask off = 0) (hi : i < 32) :
    let t := setFlag s src off i unit fresh
    Flagged s t src off i unit fresh ∧ t = { s with regs := t.regs, err := t.err } ∧ RegsApart s t [off] := by
  unfold setFlag
  by_cases hb : s.bit off i = true
  · simp [hb, Flagged, RegsApart]
  · have hb' : s.bit off i = false := by simpa using hb
    have he : (s.setBitR off i true).err = s.err := by simp
    simp only [hb', Bool.false_eq_true, if_false, occ, occQuiet, he, hq, if_true]
    refine ⟨⟨?_, ?_⟩, ?_, ?_⟩
    · show (s.setBitR off i true).bit off i = true
      simp only [State.bit, rd_setBitR, bitAt, if_true]
      rw [getLsbD_setBit _ _ _ _ hi]; simp
    · simp [hb']
    · apply State.ext <;> simp
      simp [State.setBitR, wr_prf_unproofed _ _ hp]
    · intro j hj
      have : j ≠ off := by simpa using hj
      have h := rd_setBitR s off i j true
      simp only [this, if_false] at h
      exact h

/-- The commands that a meaning answers with a next state. -/
theorem gives_intro {i : Instr} {s t : State} {P : State → Prop} (h : exec i s = .next t) (p : P t) : Gives i s P := ⟨t, h, p⟩

theorem gives_mono {i : Instr} {s : State} {P Q : State → Prop} (h : Gives i s P) (pq : ∀ t, P t → Q t) : Gives i s Q := by
  obtain ⟨t, ht, hp⟩ := h
  exact ⟨t, ht, pq t hp⟩

/-! ### Register accesses -/

/-- Presenting and taking responses change the port alone. -/
theorem portShow_frame (s : State) : portShow s = { s with port := (portShow s).port } := by
  unfold portShow; split <;> rfl
theorem portTaken_frame (s : State) (n : Nat) : portTaken s n = { s with port := (portTaken s n).port } :=
  portShow_frame { s with port := { s.port with q := takeRsps n s.port.q } }

theorem trigOver_running {s : State} (h : running s = true) : running (trigOver s) = true := h

/-- Where an access goes while the block runs (02 R32, 16 R378): from the register port it is accepted where the port has room
and its frame's engine takes it, and is then served; a write from elsewhere takes effect at once. -/
theorem srcWrite_running {s : State} (h : running s = true) (a : BusAcc) :
    srcWrite s a =
      if a.src = .port then
        let p := portTaken s a.taken
        if portRoom p && !portHeld p a then
          let p := portSeen p a.off.toNat
          portServe (portAccept p) p.port.next a
        else p
      else
        let s := if a.same then s else trigOver s
        if a.read then s else (busWrite s a.off.toNat a.size.toNat a.data a.priv a.sec a.src).1 := by
  obtain ⟨hr, hs, hp, _⟩ := (running_iff s).mp h
  have hk : running (portTaken s a.taken) = true := by rw [portTaken_frame]; exact h
  have hi : (portTaken s a.taken).rst.phase = .run := by rw [portTaken_frame]; exact hr
  unfold srcWrite
  split
  · unfold portWrite
    cases hroom : portRoom (portTaken s a.taken)
    · simp [hroom]
    · cases hh : portHeld (portTaken s a.taken) a <;>
        simp [hroom, hi, hh, regPortOpen_running hk, portLast, portAccept]
  · have ht : running (if a.same = true then s else trigOver s) = true := by split <;> exact h
    have hp' : pwrPhase (if a.same = true then s else trigOver s) = 0 := by split <;> exact hp
    simp [fastReach_running ht, wake_running ht, hp']

/-- A misaligned 32-bit write, or one that names no word, is a bus error (16 R379). -/
theorem busWrite_error (s : State) {off : Nat} (data : W64) (priv sec : Bool) (src : Src)
    (h : off % 4 ≠ 0 ∨ regRow s.par off = none) : busWrite s off 2 data priv sec src = (s, true) := by
  have : busWords s off 2 src = [] := by
    rcases h with h | h <;> simp [busWords, builtFor, h]
  simp [busWrite, this]


end Sys2Proof.Machine
end

