-- ==== Sys2Proof/Laws/PerInstr.lean ====
section
/-! SUPPORT. A law per row of the table: when it is well formed. -/

namespace Sys2Proof.Laws

/-- The instruction of a Burin that a row stands for. -/
def Row.stands : Instr → Option BInstr
  | .nop _ => some (.nop)
  | .add _ rd ra rb => some (.alu .add rd ra rb)
  | .sub _ rd ra rb => some (.alu .sub rd ra rb)
  | .and _ rd ra rb => some (.alu .and rd ra rb)
  | .or _ rd ra rb => some (.alu .or rd ra rb)
  | .xor _ rd ra rb => some (.alu .xor rd ra rb)
  | .shl _ rd ra rb => some (.alu .shl rd ra rb)
  | .shr _ rd ra rb => some (.alu .shr rd ra rb)
  | .sar _ rd ra rb => some (.alu .sar rd ra rb)
  | .mul _ rd ra rb => some (.alu .mul rd ra rb)
  | .cmp _ ra rb => some (.cmp ra rb)
  | .crc _ rd ra rb => some (.alu .crc rd ra rb)
  | .addi _ rd ra imm => some (.imm .addi rd ra imm)
  | .andi _ rd ra imm => some (.imm .andi rd ra imm)
  | .ori _ rd ra imm => some (.imm .ori rd ra imm)
  | .xori _ rd ra imm => some (.imm .xori rd ra imm)
  | .shiLeft _ rd ra amt => some (.shi .left rd ra amt)
  | .shiRight _ rd ra amt => some (.shi .right rd ra amt)
  | .shiArith _ rd ra amt => some (.shi .arith rd ra amt)
  | .lui _ rd imm => some (.lui rd imm)
  | .cmpi _ ra imm => some (.cmpi ra imm)
  | .ldb _ rd ra imm _ => some (.load .byte rd ra imm)
  | .ldh _ rd ra imm _ => some (.load .half rd ra imm)
  | .ldw _ rd ra imm _ => some (.load .word rd ra imm)
  | .ldd _ rd ra imm _ => some (.ldd rd ra imm)
  | .ldwp _ rd ra imm _ => some (.ldwp rd ra imm)
  | .stb _ rd ra imm _ => some (.store .byte rd ra imm)
  | .sth _ rd ra imm _ => some (.store .half rd ra imm)
  | .stw _ rd ra imm _ => some (.store .word rd ra imm)
  | .std _ rd ra imm _ => some (.std rd ra imm)
  | .stwp _ rd ra imm _ => some (.stwp rd ra imm)
  | .ator _ rd ra rb _ => some (.ator rd ra rb)
  | .atclr _ rd ra rb _ => some (.atclr rd ra rb)
  | .b _ cond off => some (.b cond off)
  | .call _ mask off _ => some (.call mask off)
  | .callr _ mask rt _ => some (.callr mask rt)
  | .ret _ _ => some (.ret)
  | .rep _ rc => some (.rep rc)
  | .sys _ imm => some (.sys imm)
  | .rett _ => some (.rett)
  | .flgRead _ rd => some (.flgRead rd 0)
  | .flgWrite _ ra => some (.flgWrite 0 ra)
  | .flgIeSet _ => some (.flgIe true 0 0)
  | .flgIeClear _ => some (.flgIe false 0 0)
  | .wait _ => some (.wait)
  | .emul _ word => some (.undef word)
  | _ => none

/-- A row is well formed exactly when the Burin instruction that it stands for, if it stands for one, has a word of 14 R331 to
R333; no word of the table spells it. -/
def Row.Statement (i : Instr) : Prop :=
  i.wf = (Row.stands i).all BInstr.wf ∧ ∀ nbits w, decodeTableWord nbits w ≠ some i

theorem Row.coldReset (inst smb : BitVec 7) (winBase : BitVec 41) (intact : Bool) : Row.Statement (.coldReset inst smb winBase intact) := ⟨rfl, fun _ _ h => nomatch h⟩
theorem Row.sramInitDone : Row.Statement .sramInitDone := ⟨rfl, fun _ _ h => nomatch h⟩
theorem Row.rstWarmFall : Row.Statement .rstWarmFall := ⟨rfl, fun _ _ h => nomatch h⟩
theorem Row.rstWarmRise : Row.Statement .rstWarmRise := ⟨rfl, fun _ _ h => nomatch h⟩
theorem Row.glbRstCtrlWarm (acc : RegAcc) : Row.Statement (.glbRstCtrlWarm acc) := ⟨rfl, fun _ _ h => nomatch h⟩
theorem Row.warmFlushDone (badP : List (BitVec 10)) (badV : List (BitVec 16)) : Row.Statement (.warmFlushDone badP badV) := ⟨rfl, fun _ _ h => nomatch h⟩
theorem Row.warmQuiet : Row.Statement .warmQuiet := ⟨rfl, fun _ _ h => nomatch h⟩
theorem Row.warmDomainRelease : Row.Statement .warmDomainRelease := ⟨rfl, fun _ _ h => nomatch h⟩
theorem Row.strokeBoundary (held : Bool) (ups : List Upset) : Row.Statement (.strokeBoundary held ups) := ⟨rfl, fun _ _ h => nomatch h⟩
theorem Row.epochBoundary : Row.Statement .epochBoundary := ⟨rfl, fun _ _ h => nomatch h⟩
theorem Row.refcntSnapshot : Row.Statement .refcntSnapshot := ⟨rfl, fun _ _ h => nomatch h⟩
theorem Row.refSnapAck (ref : W64) : Row.Statement (.refSnapAck ref) := ⟨rfl, fun _ _ h => nomatch h⟩
theorem Row.alignStroke : Row.Statement .alignStroke := ⟨rfl, fun _ _ h => nomatch h⟩
theorem Row.heartbeatWindowEnd : Row.Statement .heartbeatWindowEnd := ⟨rfl, fun _ _ h => nomatch h⟩
theorem Row.proofSweepComplete : Row.Statement .proofSweepComplete := ⟨rfl, fun _ _ h => nomatch h⟩
theorem Row.idleThreshold : Row.Statement .idleThreshold := ⟨rfl, fun _ _ h => nomatch h⟩
theorem Row.wiredLineChange (n : BitVec 12) (lvl : Bool) (samples : BitVec 17) (shown : Bool) : Row.Statement (.wiredLineChange n lvl samples shown) := ⟨rfl, fun _ _ h => nomatch h⟩
theorem Row.wiredFilterAccept (n : BitVec 12) (samples : BitVec 17) : Row.Statement (.wiredFilterAccept n samples) := ⟨rfl, fun _ _ h => nomatch h⟩
theorem Row.wiredConfigRead (k : BitVec 4) : Row.Statement (.wiredConfigRead k) := ⟨rfl, fun _ _ h => nomatch h⟩
theorem Row.winCtlWrite (n : BitVec 12) (acc : RegAcc) : Row.Statement (.winCtlWrite n acc) := ⟨rfl, fun _ _ h => nomatch h⟩
theorem Row.winRouteWrite (n : BitVec 12) (acc : RegAcc) : Row.Statement (.winRouteWrite n acc) := ⟨rfl, fun _ _ h => nomatch h⟩
theorem Row.winXstatWrite (n : BitVec 12) (acc : RegAcc) : Row.Statement (.winXstatWrite n acc) := ⟨rfl, fun _ _ h => nomatch h⟩
theorem Row.localInputChange (t : BitVec 7) (n : BitVec 4) (lvl : Bool) : Row.Statement (.localInputChange t n lvl) := ⟨rfl, fun _ _ h => nomatch h⟩
theorem Row.tgtIcfgWrite (t : BitVec 7) (i : BitVec 5) (acc : RegAcc) : Row.Statement (.tgtIcfgWrite t i acc) := ⟨rfl, fun _ _ h => nomatch h⟩
theorem Row.msgWrite (addr : W64) (data : W32) (be : BitVec 4) (src : BitVec 24) : Row.Statement (.msgWrite addr data be src) := ⟨rfl, fun _ _ h => nomatch h⟩
theorem Row.msgDecode : Row.Statement .msgDecode := ⟨rfl, fun _ _ h => nomatch h⟩
theorem Row.slowSetDone (n : BitVec 6) (fail : Bool) : Row.Statement (.slowSetDone n fail) := ⟨rfl, fun _ _ h => nomatch h⟩
theorem Row.msgFenceReq (acc : RegAcc) : Row.Statement (.msgFenceReq acc) := ⟨rfl, fun _ _ h => nomatch h⟩
theorem Row.msgFenceDone : Row.Statement .msgFenceDone := ⟨rfl, fun _ _ h => nomatch h⟩
theorem Row.msgPqCfgWrite (acc : RegAcc) : Row.Statement (.msgPqCfgWrite acc) := ⟨rfl, fun _ _ h => nomatch h⟩
theorem Row.lookupIssue (slice : BitVec 3) (idle : BitVec 2) : Row.Statement (.lookupIssue slice idle) := ⟨rfl, fun _ _ h => nomatch h⟩
theorem Row.missFill (slice n : BitVec 3) : Row.Statement (.missFill slice n) := ⟨rfl, fun _ _ h => nomatch h⟩
theorem Row.ins (t : BitVec 7) : Row.Statement (.ins t) := ⟨rfl, fun _ _ h => nomatch h⟩
theorem Row.ext (t : BitVec 7) : Row.Statement (.ext t) := ⟨rfl, fun _ _ h => nomatch h⟩
theorem Row.rem (t : BitVec 7) : Row.Statement (.rem t) := ⟨rfl, fun _ _ h => nomatch h⟩
theorem Row.rpr (t : BitVec 7) : Row.Statement (.rpr t) := ⟨rfl, fun _ _ h => nomatch h⟩
theorem Row.age (t : BitVec 7) : Row.Statement (.age t) := ⟨rfl, fun _ _ h => nomatch h⟩
theorem Row.mvo (t : BitVec 7) : Row.Statement (.mvo t) := ⟨rfl, fun _ _ h => nomatch h⟩
theorem Row.fls (t : BitVec 7) : Row.Statement (.fls t) := ⟨rfl, fun _ _ h => nomatch h⟩
theorem Row.claimResponse (t : BitVec 7) : Row.Statement (.claimResponse t) := ⟨rfl, fun _ _ h => nomatch h⟩
theorem Row.leadArrive (t : BitVec 7) (virt fail : Bool) : Row.Statement (.leadArrive t virt fail) := ⟨rfl, fun _ _ h => nomatch h⟩
theorem Row.sweepStart (t : BitVec 7) (virt : Bool) : Row.Statement (.sweepStart t virt) := ⟨rfl, fun _ _ h => nomatch h⟩
theorem Row.sweepLinesArrive (t : BitVec 7) (virt fail : Bool) : Row.Statement (.sweepLinesArrive t virt fail) := ⟨rfl, fun _ _ h => nomatch h⟩
theorem Row.sweepAttrArrive (t : BitVec 7) (virt fail : Bool) : Row.Statement (.sweepAttrArrive t virt fail) := ⟨rfl, fun _ _ h => nomatch h⟩
theorem Row.backgroundSweep (t : BitVec 7) (virt : Bool) : Row.Statement (.backgroundSweep t virt) := ⟨rfl, fun _ _ h => nomatch h⟩
theorem Row.spillSetDone (l : BitVec 3) (fail : Bool) : Row.Statement (.spillSetDone l fail) := ⟨rfl, fun _ _ h => nomatch h⟩
theorem Row.flushDone : Row.Statement .flushDone := ⟨rfl, fun _ _ h => nomatch h⟩
theorem Row.rnkCtrlWrite (acc : RegAcc) : Row.Statement (.rnkCtrlWrite acc) := ⟨rfl, fun _ _ h => nomatch h⟩
theorem Row.loadDone (t : Option (BitVec 7)) (bad : List (BitVec 7 × BitVec 11)) : Row.Statement (.loadDone t bad) := ⟨rfl, fun _ _ h => nomatch h⟩
theorem Row.claim (t : BitVec 7) (p : Path) : Row.Statement (.claim t p) := ⟨rfl, fun _ _ h => nomatch h⟩
theorem Row.complete (t : BitVec 7) (p : Path) (arg : W32) : Row.Statement (.complete t p arg) := ⟨rfl, fun _ _ h => nomatch h⟩
theorem Row.deactivate (t : BitVec 7) (p : Path) (arg : W32) : Row.Statement (.deactivate t p arg) := ⟨rfl, fun _ _ h => nomatch h⟩
theorem Row.send (t : BitVec 7) (p : Path) (arg : W32) : Row.Statement (.send t p arg) := ⟨rfl, fun _ _ h => nomatch h⟩
theorem Row.setPmask (t : BitVec 7) (p : Path) (arg : W32) : Row.Statement (.setPmask t p arg) := ⟨rfl, fun _ _ h => nomatch h⟩
theorem Row.setSplit (t : BitVec 7) (p : Path) (arg : W32) : Row.Statement (.setSplit t p arg) := ⟨rfl, fun _ _ h => nomatch h⟩
theorem Row.setVpe (t : BitVec 7) (p : Path) (arg : W32) : Row.Statement (.setVpe t p arg) := ⟨rfl, fun _ _ h => nomatch h⟩
theorem Row.peek (t : BitVec 7) (p : Path) : Row.Statement (.peek t p) := ⟨rfl, fun _ _ h => nomatch h⟩
theorem Row.undefinedOp (t : BitVec 7) (op : BitVec 4) (ctx : BitVec 2) (arg : W32) : Row.Statement (.undefinedOp t op ctx arg) := ⟨rfl, fun _ _ h => nomatch h⟩
theorem Row.park (fail : Bool) : Row.Statement (.park fail) := ⟨rfl, fun _ _ h => nomatch h⟩
theorem Row.parkSetDone (n : BitVec 7) (e : SetEnd) : Row.Statement (.parkSetDone n e) := ⟨rfl, fun _ _ h => nomatch h⟩
theorem Row.switchSave (t : BitVec 7) (ctxFail : Bool) (bad : List (BitVec 11)) : Row.Statement (.switchSave t ctxFail bad) := ⟨rfl, fun _ _ h => nomatch h⟩
theorem Row.switchLoad (t : BitVec 7) (ctxFail : Bool) (bad : List (BitVec 11)) : Row.Statement (.switchLoad t ctxFail bad) := ⟨rfl, fun _ _ h => nomatch h⟩
theorem Row.switchDone (t : BitVec 7) : Row.Statement (.switchDone t) := ⟨rfl, fun _ _ h => nomatch h⟩
theorem Row.quiesceDone (p : BitVec 10) : Row.Statement (.quiesceDone p) := ⟨rfl, fun _ _ h => nomatch h⟩
theorem Row.panelResetDone (p : BitVec 10) : Row.Statement (.panelResetDone p) := ⟨rfl, fun _ _ h => nomatch h⟩
theorem Row.panelDestroyDone (p : BitVec 10) : Row.Statement (.panelDestroyDone p) := ⟨rfl, fun _ _ h => nomatch h⟩
theorem Row.pnlCtrlWrite (acc : RegAcc) : Row.Statement (.pnlCtrlWrite acc) := ⟨rfl, fun _ _ h => nomatch h⟩
theorem Row.panelRestoreDone (badP : List (BitVec 10)) (badV : List (BitVec 16)) : Row.Statement (.panelRestoreDone badP badV) := ⟨rfl, fun _ _ h => nomatch h⟩
theorem Row.cmdDbWrite (r : BitVec 3) (acc : RegAcc) : Row.Statement (.cmdDbWrite r acc) := ⟨rfl, fun _ _ h => nomatch h⟩
theorem Row.descriptorFetch (r : BitVec 3) (fail : Bool) : Row.Statement (.descriptorFetch r fail) := ⟨rfl, fun _ _ h => nomatch h⟩
theorem Row.completionRecordWrite (r : BitVec 3) (fail : Bool) : Row.Statement (.completionRecordWrite r fail) := ⟨rfl, fun _ _ h => nomatch h⟩
theorem Row.cmdRctrlWrite (r : BitVec 3) (acc : RegAcc) : Row.Statement (.cmdRctrlWrite r acc) := ⟨rfl, fun _ _ h => nomatch h⟩
theorem Row.cmdRstatClear (r : BitVec 3) (acc : RegAcc) : Row.Statement (.cmdRstatClear r acc) := ⟨rfl, fun _ _ h => nomatch h⟩
theorem Row.mbxAck (acc : RegAcc) : Row.Statement (.mbxAck acc) := ⟨rfl, fun _ _ h => nomatch h⟩
theorem Row.cmdNop (r : BitVec 3) : Row.Statement (.cmdNop r) := ⟨rfl, fun _ _ h => nomatch h⟩
theorem Row.sync (r : BitVec 3) : Row.Statement (.sync r) := ⟨rfl, fun _ _ h => nomatch h⟩
theorem Row.srcMap (r : BitVec 3) (c : CmdMem) : Row.Statement (.srcMap r c) := ⟨rfl, fun _ _ h => nomatch h⟩
theorem Row.srcUnmap (r : BitVec 3) (c : CmdMem) : Row.Statement (.srcUnmap r c) := ⟨rfl, fun _ _ h => nomatch h⟩
theorem Row.evMap (r : BitVec 3) (c : CmdMem) : Row.Statement (.evMap r c) := ⟨rfl, fun _ _ h => nomatch h⟩
theorem Row.evUnmap (r : BitVec 3) (c : CmdMem) : Row.Statement (.evUnmap r c) := ⟨rfl, fun _ _ h => nomatch h⟩
theorem Row.evAttr (r : BitVec 3) (c : CmdMem) : Row.Statement (.evAttr r c) := ⟨rfl, fun _ _ h => nomatch h⟩
theorem Row.evMove (r : BitVec 3) (c : CmdMem) : Row.Statement (.evMove r c) := ⟨rfl, fun _ _ h => nomatch h⟩
theorem Row.moveTablesVisible (c : CmdMem) : Row.Statement (.moveTablesVisible c) := ⟨rfl, fun _ _ h => nomatch h⟩
theorem Row.moveRedirectRemove : Row.Statement .moveRedirectRemove := ⟨rfl, fun _ _ h => nomatch h⟩
theorem Row.xltInv (r : BitVec 3) (fail : Bool) : Row.Statement (.xltInv r fail) := ⟨rfl, fun _ _ h => nomatch h⟩
theorem Row.evSetPend (r : BitVec 3) (c : CmdMem) : Row.Statement (.evSetPend r c) := ⟨rfl, fun _ _ h => nomatch h⟩
theorem Row.evClrPend (r : BitVec 3) (c : CmdMem) : Row.Statement (.evClrPend r c) := ⟨rfl, fun _ _ h => nomatch h⟩
theorem Row.evQuery (r : BitVec 3) (c : CmdMem) : Row.Statement (.evQuery r c) := ⟨rfl, fun _ _ h => nomatch h⟩
theorem Row.panelCreate (r : BitVec 3) : Row.Statement (.panelCreate r) := ⟨rfl, fun _ _ h => nomatch h⟩
theorem Row.panelVattr (r : BitVec 3) (fail : Bool) : Row.Statement (.panelVattr r fail) := ⟨rfl, fun _ _ h => nomatch h⟩
theorem Row.panelShare (r : BitVec 3) : Row.Statement (.panelShare r) := ⟨rfl, fun _ _ h => nomatch h⟩
theorem Row.panelQuiesce (r : BitVec 3) : Row.Statement (.panelQuiesce r) := ⟨rfl, fun _ _ h => nomatch h⟩
theorem Row.panelResume (r : BitVec 3) : Row.Statement (.panelResume r) := ⟨rfl, fun _ _ h => nomatch h⟩
theorem Row.panelReset (r : BitVec 3) : Row.Statement (.panelReset r) := ⟨rfl, fun _ _ h => nomatch h⟩
theorem Row.panelDestroy (r : BitVec 3) : Row.Statement (.panelDestroy r) := ⟨rfl, fun _ _ h => nomatch h⟩
theorem Row.vpeCreate (r : BitVec 3) (c : CmdMem) : Row.Statement (.vpeCreate r c) := ⟨rfl, fun _ _ h => nomatch h⟩
theorem Row.vpeDoorbell (r : BitVec 3) (c : CmdMem) : Row.Statement (.vpeDoorbell r c) := ⟨rfl, fun _ _ h => nomatch h⟩
theorem Row.vpeDestroy (r : BitVec 3) (fail : Bool) : Row.Statement (.vpeDestroy r fail) := ⟨rfl, fun _ _ h => nomatch h⟩
theorem Row.safeExit (r : BitVec 3) : Row.Statement (.safeExit r) := ⟨rfl, fun _ _ h => nomatch h⟩
theorem Row.safeLeave : Row.Statement .safeLeave := ⟨rfl, fun _ _ h => nomatch h⟩
theorem Row.wftPhyUp (p : BitVec 2) : Row.Statement (.wftPhyUp p) := ⟨rfl, fun _ _ h => nomatch h⟩
theorem Row.wftPhyDown (p : BitVec 2) : Row.Statement (.wftPhyDown p) := ⟨rfl, fun _ _ h => nomatch h⟩
theorem Row.wftCredit (p : BitVec 2) : Row.Statement (.wftCredit p) := ⟨rfl, fun _ _ h => nomatch h⟩
theorem Row.trainTimer (p : BitVec 2) : Row.Statement (.trainTimer p) := ⟨rfl, fun _ _ h => nomatch h⟩
theorem Row.idleTimer (p : BitVec 2) : Row.Statement (.idleTimer p) := ⟨rfl, fun _ _ h => nomatch h⟩
theorem Row.replayTimeout (p : BitVec 2) : Row.Statement (.replayTimeout p) := ⟨rfl, fun _ _ h => nomatch h⟩
theorem Row.portDownTimeout (p : BitVec 2) : Row.Statement (.portDownTimeout p) := ⟨rfl, fun _ _ h => nomatch h⟩
theorem Row.idle (p : BitVec 2) (f : BitVec 256) : Row.Statement (.idle p f) := ⟨rfl, fun _ _ h => nomatch h⟩
theorem Row.train (p : BitVec 2) (f : BitVec 256) : Row.Statement (.train p f) := ⟨rfl, fun _ _ h => nomatch h⟩
theorem Row.hello (p : BitVec 2) (f : BitVec 256) : Row.Statement (.hello p f) := ⟨rfl, fun _ _ h => nomatch h⟩
theorem Row.floodSettled : Row.Statement .floodSettled := ⟨rfl, fun _ _ h => nomatch h⟩
theorem Row.routesComputed : Row.Statement .routesComputed := ⟨rfl, fun _ _ h => nomatch h⟩
theorem Row.route (p : BitVec 2) (f : BitVec 256) : Row.Statement (.route p f) := ⟨rfl, fun _ _ h => nomatch h⟩
theorem Row.tmap (p : BitVec 2) (f : BitVec 256) : Row.Statement (.tmap p f) := ⟨rfl, fun _ _ h => nomatch h⟩
theorem Row.commit (p : BitVec 2) (f : BitVec 256) : Row.Statement (.commit p f) := ⟨rfl, fun _ _ h => nomatch h⟩
theorem Row.joinAtReached (us : BitVec 16) : Row.Statement (.joinAtReached us) := ⟨rfl, fun _ _ h => nomatch h⟩
theorem Row.align (p : BitVec 2) (f : BitVec 256) : Row.Statement (.align p f) := ⟨rfl, fun _ _ h => nomatch h⟩
theorem Row.join (p : BitVec 2) (f : BitVec 256) : Row.Statement (.join p f) := ⟨rfl, fun _ _ h => nomatch h⟩
theorem Row.linkdn (p : BitVec 2) (f : BitVec 256) : Row.Statement (.linkdn p f) := ⟨rfl, fun _ _ h => nomatch h⟩
theorem Row.raise (p : BitVec 2) (f : BitVec 256) : Row.Statement (.raise p f) := ⟨rfl, fun _ _ h => nomatch h⟩
theorem Row.level (p : BitVec 2) (f : BitVec 256) : Row.Statement (.level p f) := ⟨rfl, fun _ _ h => nomatch h⟩
theorem Row.hstate (p : BitVec 2) (f : BitVec 256) : Row.Statement (.hstate p f) := ⟨rfl, fun _ _ h => nomatch h⟩
theorem Row.dack (p : BitVec 2) (f : BitVec 256) : Row.Statement (.dack p f) := ⟨rfl, fun _ _ h => nomatch h⟩
theorem Row.crsp (p : BitVec 2) (f : BitVec 256) (m : CmdMem) : Row.Statement (.crsp p f m) := ⟨rfl, fun _ _ h => nomatch h⟩
theorem Row.unknownFlit (p : BitVec 2) (f : BitVec 256) : Row.Statement (.unknownFlit p f) := ⟨rfl, fun _ _ h => nomatch h⟩
theorem Row.wftSetPend (p : BitVec 2) (f : BitVec 256) : Row.Statement (.wftSetPend p f) := ⟨rfl, fun _ _ h => nomatch h⟩
theorem Row.wftClrPend (p : BitVec 2) (f : BitVec 256) : Row.Statement (.wftClrPend p f) := ⟨rfl, fun _ _ h => nomatch h⟩
theorem Row.wftAttWrite (p : BitVec 2) (f : BitVec 256) (fail : Bool) : Row.Statement (.wftAttWrite p f fail) := ⟨rfl, fun _ _ h => nomatch h⟩
theorem Row.wftAttClaim (p : BitVec 2) (f : BitVec 256) (fail : Bool) : Row.Statement (.wftAttClaim p f fail) := ⟨rfl, fun _ _ h => nomatch h⟩
theorem Row.wftAttRelease (p : BitVec 2) (f : BitVec 256) (fail : Bool) : Row.Statement (.wftAttRelease p f fail) := ⟨rfl, fun _ _ h => nomatch h⟩
theorem Row.wftPendTest (p : BitVec 2) (f : BitVec 256) (fail : Bool) : Row.Statement (.wftPendTest p f fail) := ⟨rfl, fun _ _ h => nomatch h⟩
theorem Row.wftQuery (p : BitVec 2) (f : BitVec 256) (fail : Bool) : Row.Statement (.wftQuery p f fail) := ⟨rfl, fun _ _ h => nomatch h⟩
theorem Row.wftRedisc (acc : RegAcc) : Row.Statement (.wftRedisc acc) := ⟨rfl, fun _ _ h => nomatch h⟩
theorem Row.wftPrst (acc : RegAcc) : Row.Statement (.wftPrst acc) := ⟨rfl, fun _ _ h => nomatch h⟩
theorem Row.cohRequestIssue (accs : List CohAcc) (tag : Byte) : Row.Statement (.cohRequestIssue accs tag) := ⟨rfl, fun _ _ h => nomatch h⟩
theorem Row.gnt (tag : Byte) (st : BitVec 3) : Row.Statement (.gnt tag st) := ⟨rfl, fun _ _ h => nomatch h⟩
theorem Row.gntD (tag : Byte) (st : BitVec 3) (data : BitVec 512) (poison : Bool) : Row.Statement (.gntD tag st data poison) := ⟨rfl, fun _ _ h => nomatch h⟩
theorem Row.retry (tag : Byte) : Row.Statement (.retry tag) := ⟨rfl, fun _ _ h => nomatch h⟩
theorem Row.retryReissue (tag : Byte) : Row.Statement (.retryReissue tag) := ⟨rfl, fun _ _ h => nomatch h⟩
theorem Row.wbGo (tag : Byte) : Row.Statement (.wbGo tag) := ⟨rfl, fun _ _ h => nomatch h⟩
theorem Row.evAck (tag : Byte) : Row.Statement (.evAck tag) := ⟨rfl, fun _ _ h => nomatch h⟩
theorem Row.err (tag : Byte) (k : CohBad) : Row.Statement (.err tag k) := ⟨rfl, fun _ _ h => nomatch h⟩
theorem Row.snS (line : BitVec 46) (tag : Byte) : Row.Statement (.snS line tag) := ⟨rfl, fun _ _ h => nomatch h⟩
theorem Row.snU (line : BitVec 46) (tag : Byte) : Row.Statement (.snU line tag) := ⟨rfl, fun _ _ h => nomatch h⟩
theorem Row.snI (line : BitVec 46) (tag : Byte) : Row.Statement (.snI line tag) := ⟨rfl, fun _ _ h => nomatch h⟩
theorem Row.cohFlushReq (acc : RegAcc) : Row.Statement (.cohFlushReq acc) := ⟨rfl, fun _ _ h => nomatch h⟩
theorem Row.cohFlushDone : Row.Statement .cohFlushDone := ⟨rfl, fun _ _ h => nomatch h⟩
theorem Row.nop (u : Bur) : Row.Statement (.nop u) := ⟨rfl, fun _ _ h => nomatch h⟩
theorem Row.add (u : Bur) (rd ra rb : RegNo) : Row.Statement (.add u rd ra rb) := ⟨rfl, fun _ _ h => nomatch h⟩
theorem Row.sub (u : Bur) (rd ra rb : RegNo) : Row.Statement (.sub u rd ra rb) := ⟨rfl, fun _ _ h => nomatch h⟩
theorem Row.and (u : Bur) (rd ra rb : RegNo) : Row.Statement (.and u rd ra rb) := ⟨rfl, fun _ _ h => nomatch h⟩
theorem Row.or (u : Bur) (rd ra rb : RegNo) : Row.Statement (.or u rd ra rb) := ⟨rfl, fun _ _ h => nomatch h⟩
theorem Row.xor (u : Bur) (rd ra rb : RegNo) : Row.Statement (.xor u rd ra rb) := ⟨rfl, fun _ _ h => nomatch h⟩
theorem Row.shl (u : Bur) (rd ra rb : RegNo) : Row.Statement (.shl u rd ra rb) := ⟨rfl, fun _ _ h => nomatch h⟩
theorem Row.shr (u : Bur) (rd ra rb : RegNo) : Row.Statement (.shr u rd ra rb) := ⟨rfl, fun _ _ h => nomatch h⟩
theorem Row.sar (u : Bur) (rd ra rb : RegNo) : Row.Statement (.sar u rd ra rb) := ⟨rfl, fun _ _ h => nomatch h⟩
theorem Row.mul (u : Bur) (rd ra rb : RegNo) : Row.Statement (.mul u rd ra rb) := ⟨rfl, fun _ _ h => nomatch h⟩
theorem Row.cmp (u : Bur) (ra rb : RegNo) : Row.Statement (.cmp u ra rb) := ⟨rfl, fun _ _ h => nomatch h⟩
theorem Row.crc (u : Bur) (rd ra rb : RegNo) : Row.Statement (.crc u rd ra rb) := ⟨rfl, fun _ _ h => nomatch h⟩
theorem Row.addi (u : Bur) (rd ra : RegNo) (imm : BitVec 18) : Row.Statement (.addi u rd ra imm) := ⟨rfl, fun _ _ h => nomatch h⟩
theorem Row.andi (u : Bur) (rd ra : RegNo) (imm : BitVec 18) : Row.Statement (.andi u rd ra imm) := ⟨rfl, fun _ _ h => nomatch h⟩
theorem Row.ori (u : Bur) (rd ra : RegNo) (imm : BitVec 18) : Row.Statement (.ori u rd ra imm) := ⟨rfl, fun _ _ h => nomatch h⟩
theorem Row.xori (u : Bur) (rd ra : RegNo) (imm : BitVec 18) : Row.Statement (.xori u rd ra imm) := ⟨rfl, fun _ _ h => nomatch h⟩
theorem Row.shiLeft (u : Bur) (rd ra : RegNo) (amt : BitVec 5) : Row.Statement (.shiLeft u rd ra amt) := ⟨rfl, fun _ _ h => nomatch h⟩
theorem Row.shiRight (u : Bur) (rd ra : RegNo) (amt : BitVec 5) : Row.Statement (.shiRight u rd ra amt) := ⟨rfl, fun _ _ h => nomatch h⟩
theorem Row.shiArith (u : Bur) (rd ra : RegNo) (amt : BitVec 5) : Row.Statement (.shiArith u rd ra amt) := ⟨rfl, fun _ _ h => nomatch h⟩
theorem Row.lui (u : Bur) (rd : RegNo) (imm : BitVec 18) : Row.Statement (.lui u rd imm) := ⟨rfl, fun _ _ h => nomatch h⟩
theorem Row.cmpi (u : Bur) (ra : RegNo) (imm : BitVec 18) : Row.Statement (.cmpi u ra imm) := ⟨rfl, fun _ _ h => nomatch h⟩
theorem Row.ldb (u : Bur) (rd ra : RegNo) (imm : BitVec 18) (fail : Bool) : Row.Statement (.ldb u rd ra imm fail) := ⟨rfl, fun _ _ h => nomatch h⟩
theorem Row.ldh (u : Bur) (rd ra : RegNo) (imm : BitVec 18) (fail : Bool) : Row.Statement (.ldh u rd ra imm fail) := ⟨rfl, fun _ _ h => nomatch h⟩
theorem Row.ldw (u : Bur) (rd ra : RegNo) (imm : BitVec 18) (fail : Bool) : Row.Statement (.ldw u rd ra imm fail) := ⟨rfl, fun _ _ h => nomatch h⟩
theorem Row.ldd (u : Bur) (rd ra : RegNo) (imm : BitVec 18) (fail : Bool) : Row.Statement (.ldd u rd ra imm fail) := ⟨rfl, fun _ _ h => nomatch h⟩
theorem Row.ldwp (u : Bur) (rd ra : RegNo) (imm : BitVec 18) (fail : Bool) : Row.Statement (.ldwp u rd ra imm fail) := ⟨rfl, fun _ _ h => nomatch h⟩
theorem Row.stb (u : Bur) (rd ra : RegNo) (imm : BitVec 18) (fail : Bool) : Row.Statement (.stb u rd ra imm fail) := ⟨rfl, fun _ _ h => nomatch h⟩
theorem Row.sth (u : Bur) (rd ra : RegNo) (imm : BitVec 18) (fail : Bool) : Row.Statement (.sth u rd ra imm fail) := ⟨rfl, fun _ _ h => nomatch h⟩
theorem Row.stw (u : Bur) (rd ra : RegNo) (imm : BitVec 18) (fail : Bool) : Row.Statement (.stw u rd ra imm fail) := ⟨rfl, fun _ _ h => nomatch h⟩
theorem Row.std (u : Bur) (rd ra : RegNo) (imm : BitVec 18) (fail : Bool) : Row.Statement (.std u rd ra imm fail) := ⟨rfl, fun _ _ h => nomatch h⟩
theorem Row.stwp (u : Bur) (rd ra : RegNo) (imm : BitVec 18) (fail : Bool) : Row.Statement (.stwp u rd ra imm fail) := ⟨rfl, fun _ _ h => nomatch h⟩
theorem Row.ator (u : Bur) (rd ra rb : RegNo) (fail : Bool) : Row.Statement (.ator u rd ra rb fail) := ⟨rfl, fun _ _ h => nomatch h⟩
theorem Row.atclr (u : Bur) (rd ra rb : RegNo) (fail : Bool) : Row.Statement (.atclr u rd ra rb fail) := ⟨rfl, fun _ _ h => nomatch h⟩
theorem Row.b (u : Bur) (cond : BitVec 4) (off : BitVec 22) : Row.Statement (.b u cond off) := ⟨rfl, fun _ _ h => nomatch h⟩
theorem Row.call (u : Bur) (mask : Byte) (off : BitVec 18) (fail : Bool) : Row.Statement (.call u mask off fail) := ⟨rfl, fun _ _ h => nomatch h⟩
theorem Row.callr (u : Bur) (mask : Byte) (rt : RegNo) (fail : Bool) : Row.Statement (.callr u mask rt fail) := ⟨rfl, fun _ _ h => nomatch h⟩
theorem Row.ret (u : Bur) (fail : Bool) : Row.Statement (.ret u fail) := ⟨rfl, fun _ _ h => nomatch h⟩
theorem Row.rep (u : Bur) (rc : RegNo) : Row.Statement (.rep u rc) := ⟨rfl, fun _ _ h => nomatch h⟩
theorem Row.sys (u : Bur) (imm : BitVec 18) : Row.Statement (.sys u imm) := ⟨rfl, fun _ _ h => nomatch h⟩
theorem Row.rett (u : Bur) : Row.Statement (.rett u) := ⟨rfl, fun _ _ h => nomatch h⟩
theorem Row.flgRead (u : Bur) (rd : RegNo) : Row.Statement (.flgRead u rd) := ⟨rfl, fun _ _ h => nomatch h⟩
theorem Row.flgWrite (u : Bur) (ra : RegNo) : Row.Statement (.flgWrite u ra) := ⟨rfl, fun _ _ h => nomatch h⟩
theorem Row.flgIeSet (u : Bur) : Row.Statement (.flgIeSet u) := ⟨rfl, fun _ _ h => nomatch h⟩
theorem Row.flgIeClear (u : Bur) : Row.Statement (.flgIeClear u) := ⟨rfl, fun _ _ h => nomatch h⟩
theorem Row.wait (u : Bur) : Row.Statement (.wait u) := ⟨rfl, fun _ _ h => nomatch h⟩
theorem Row.emul (u : Bur) (word : W32) : Row.Statement (.emul u word) := ⟨rfl, fun _ _ h => nomatch h⟩
theorem Row.interruptTake (u : Bur) : Row.Statement (.interruptTake u) := ⟨rfl, fun _ _ h => nomatch h⟩
theorem Row.timerExpire (u : Bur) : Row.Statement (.timerExpire u) := ⟨rfl, fun _ _ h => nomatch h⟩
theorem Row.hbWrite (u : Bur) : Row.Statement (.hbWrite u) := ⟨rfl, fun _ _ h => nomatch h⟩
theorem Row.peerOutWrite (u : Bur) (w : W32) : Row.Statement (.peerOutWrite u w) := ⟨rfl, fun _ _ h => nomatch h⟩
theorem Row.hostOutWrite (u : Bur) (w : W32) : Row.Statement (.hostOutWrite u w) := ⟨rfl, fun _ _ h => nomatch h⟩
theorem Row.burHold (acc : RegAcc) : Row.Statement (.burHold acc) := ⟨rfl, fun _ _ h => nomatch h⟩
theorem Row.burRst (acc : RegAcc) : Row.Statement (.burRst acc) := ⟨rfl, fun _ _ h => nomatch h⟩
theorem Row.bootReady (u : Bur) : Row.Statement (.bootReady u) := ⟨rfl, fun _ _ h => nomatch h⟩
theorem Row.imageCopyDone (u : Bur) (fail : Bool) : Row.Statement (.imageCopyDone u fail) := ⟨rfl, fun _ _ h => nomatch h⟩
theorem Row.bootAuth (u : Bur) : Row.Statement (.bootAuth u) := ⟨rfl, fun _ _ h => nomatch h⟩
theorem Row.burLoadData (acc : RegAcc) : Row.Statement (.burLoadData acc) := ⟨rfl, fun _ _ h => nomatch h⟩
theorem Row.ping : Row.Statement .ping := ⟨rfl, fun _ _ h => nomatch h⟩
theorem Row.handover : Row.Statement .handover := ⟨rfl, fun _ _ h => nomatch h⟩
theorem Row.ident : Row.Statement .ident := ⟨rfl, fun _ _ h => nomatch h⟩
theorem Row.sbOpen (d : List Byte) : Row.Statement (.sbOpen d) := ⟨rfl, fun _ _ h => nomatch h⟩
theorem Row.sbClose (d : List Byte) : Row.Statement (.sbClose d) := ⟨rfl, fun _ _ h => nomatch h⟩
theorem Row.sbStatus (d : List Byte) (later : Bool) : Row.Statement (.sbStatus d later) := ⟨rfl, fun _ _ h => nomatch h⟩
theorem Row.regRead (d : List Byte) (later : Bool) : Row.Statement (.regRead d later) := ⟨rfl, fun _ _ h => nomatch h⟩
theorem Row.regWrite (d : List Byte) (later : Bool) : Row.Statement (.regWrite d later) := ⟨rfl, fun _ _ h => nomatch h⟩
theorem Row.logRead (d : List Byte) (later : Bool) : Row.Statement (.logRead d later) := ⟨rfl, fun _ _ h => nomatch h⟩
theorem Row.fwBegin (d : List Byte) (later : Bool) : Row.Statement (.fwBegin d later) := ⟨rfl, fun _ _ h => nomatch h⟩
theorem Row.fwData (d : List Byte) (later : Bool) : Row.Statement (.fwData d later) := ⟨rfl, fun _ _ h => nomatch h⟩
theorem Row.fwEnd (d : List Byte) (later : Bool) : Row.Statement (.fwEnd d later) := ⟨rfl, fun _ _ h => nomatch h⟩
theorem Row.safeEnter (d : List Byte) (later : Bool) : Row.Statement (.safeEnter d later) := ⟨rfl, fun _ _ h => nomatch h⟩
theorem Row.sbSafeExit (d : List Byte) (later : Bool) : Row.Statement (.sbSafeExit d later) := ⟨rfl, fun _ _ h => nomatch h⟩
theorem Row.sealClear (d : List Byte) (later : Bool) (lvl : Bool) : Row.Statement (.sealClear d later lvl) := ⟨rfl, fun _ _ h => nomatch h⟩
theorem Row.lockClear (d : List Byte) (later : Bool) : Row.Statement (.lockClear d later) := ⟨rfl, fun _ _ h => nomatch h⟩
theorem Row.warmReset (d : List Byte) (later : Bool) : Row.Statement (.warmReset d later) := ⟨rfl, fun _ _ h => nomatch h⟩
theorem Row.fwCall (d : List Byte) : Row.Statement (.fwCall d) := ⟨rfl, fun _ _ h => nomatch h⟩
theorem Row.sbUndefinedCode (cmd : Byte) : Row.Statement (.sbUndefinedCode cmd) := ⟨rfl, fun _ _ h => nomatch h⟩
theorem Row.sbQuickCommand : Row.Statement .sbQuickCommand := ⟨rfl, fun _ _ h => nomatch h⟩
theorem Row.sessionIdleTimeout : Row.Statement .sessionIdleTimeout := ⟨rfl, fun _ _ h => nomatch h⟩
theorem Row.smbusTimeout : Row.Statement .smbusTimeout := ⟨rfl, fun _ _ h => nomatch h⟩
theorem Row.replyBusyTimeout : Row.Statement .replyBusyTimeout := ⟨rfl, fun _ _ h => nomatch h⟩
theorem Row.stretchLimit : Row.Statement .stretchLimit := ⟨rfl, fun _ _ h => nomatch h⟩
theorem Row.mirrorClaim : Row.Statement .mirrorClaim := ⟨rfl, fun _ _ h => nomatch h⟩
theorem Row.mirrorDone : Row.Statement .mirrorDone := ⟨rfl, fun _ _ h => nomatch h⟩
theorem Row.sbdCtrlClose (acc : RegAcc) : Row.Statement (.sbdCtrlClose acc) := ⟨rfl, fun _ _ h => nomatch h⟩
theorem Row.presenceWindowOpen : Row.Statement .presenceWindowOpen := ⟨rfl, fun _ _ h => nomatch h⟩
theorem Row.presenceWindowExpire : Row.Statement .presenceWindowExpire := ⟨rfl, fun _ _ h => nomatch h⟩
theorem Row.sealBreak : Row.Statement .sealBreak := ⟨rfl, fun _ _ h => nomatch h⟩
theorem Row.registerWrite (a : BusAcc) : Row.Statement (.registerWrite a) := ⟨rfl, fun _ _ h => nomatch h⟩
theorem Row.glbLockWrite (acc : RegAcc) : Row.Statement (.glbLockWrite acc) := ⟨rfl, fun _ _ h => nomatch h⟩
theorem Row.prfRefWrite (acc : RegAcc) : Row.Statement (.prfRefWrite acc) := ⟨rfl, fun _ _ h => nomatch h⟩
theorem Row.prfAdopt (acc : RegAcc) : Row.Statement (.prfAdopt acc) := ⟨rfl, fun _ _ h => nomatch h⟩
theorem Row.errorLogWrite : Row.Statement .errorLogWrite := ⟨rfl, fun _ _ h => nomatch h⟩
theorem Row.deepPrepDone (badP : List (BitVec 10)) (badV : List (BitVec 16)) : Row.Statement (.deepPrepDone badP badV) := ⟨rfl, fun _ _ h => nomatch h⟩
theorem Row.consentPoint (ref : W64) (bad : List (BitVec 7)) : Row.Statement (.consentPoint ref bad) := ⟨rfl, fun _ _ h => nomatch h⟩
theorem Row.clkMainStopAck (lvl : Bool) (ref : W64) : Row.Statement (.clkMainStopAck lvl ref) := ⟨rfl, fun _ _ h => nomatch h⟩
theorem Row.clkFastStopAck (lvl : Bool) : Row.Statement (.clkFastStopAck lvl) := ⟨rfl, fun _ _ h => nomatch h⟩
theorem Row.pwrRetAck (lvl : Bool) (ref : W64) : Row.Statement (.pwrRetAck lvl ref) := ⟨rfl, fun _ _ h => nomatch h⟩
theorem Row.pwrOffAck (lvl : Bool) : Row.Statement (.pwrOffAck lvl) := ⟨rfl, fun _ _ h => nomatch h⟩
theorem Row.deepDomainRestore (ref : W64) (bad : Option (BitVec 16)) (flips : List (BitVec 13 × Byte)) : Row.Statement (.deepDomainRestore ref bad flips) := ⟨rfl, fun _ _ h => nomatch h⟩
theorem Row.wakeInput (w : WakeSrc) : Row.Statement (.wakeInput w) := ⟨rfl, fun _ _ h => nomatch h⟩
theorem Row.deepCountdown : Row.Statement .deepCountdown := ⟨rfl, fun _ _ h => nomatch h⟩
theorem Row.switchBack : Row.Statement .switchBack := ⟨rfl, fun _ _ h => nomatch h⟩
theorem Row.targetRestoreDone (bad : List (BitVec 7)) : Row.Statement (.targetRestoreDone bad) := ⟨rfl, fun _ _ h => nomatch h⟩
theorem Row.pwrToMain (acc : RegAcc) : Row.Statement (.pwrToMain acc) := ⟨rfl, fun _ _ h => nomatch h⟩
theorem Row.pwrHoldRelease (acc : RegAcc) : Row.Statement (.pwrHoldRelease acc) := ⟨rfl, fun _ _ h => nomatch h⟩
theorem Row.pwrDvfsReqWrite (acc : RegAcc) : Row.Statement (.pwrDvfsReqWrite acc) := ⟨rfl, fun _ _ h => nomatch h⟩
theorem Row.dvfsFreqAck (lvl : Bool) : Row.Statement (.dvfsFreqAck lvl) := ⟨rfl, fun _ _ h => nomatch h⟩
theorem Row.dvfsVoltAck (lvl : Bool) : Row.Statement (.dvfsVoltAck lvl) := ⟨rfl, fun _ _ h => nomatch h⟩
theorem Row.rstColdFall : Row.Statement .rstColdFall := ⟨rfl, fun _ _ h => nomatch h⟩
theorem Row.refSnapAckFall : Row.Statement .refSnapAckFall := ⟨rfl, fun _ _ h => nomatch h⟩
theorem Row.presenceButtonRelease : Row.Statement .presenceButtonRelease := ⟨rfl, fun _ _ h => nomatch h⟩
theorem Row.portValidWithoutReady (t : Option (BitVec 7)) : Row.Statement (.portValidWithoutReady t) := ⟨rfl, fun _ _ h => nomatch h⟩
theorem Row.checkErrorFlit (p : BitVec 2) (f : BitVec 256) : Row.Statement (.checkErrorFlit p f) := ⟨rfl, fun _ _ h => nomatch h⟩
theorem Row.sbMalformedTransaction (cmd : Option Byte) (d : List Byte) : Row.Statement (.sbMalformedTransaction cmd d) := ⟨rfl, fun _ _ h => nomatch h⟩
theorem Row.writebackLastBeatAccept : Row.Statement .writebackLastBeatAccept := ⟨rfl, fun _ _ h => nomatch h⟩

end Sys2Proof.Laws
end

