-- ==== Sys2Proof/Laws/Sideband.lean ====
section
/-! SUPPORT. The laws of the side-band's CRC-8. -/

namespace Sys2Proof.Laws
open Sys2Proof.Machine

/-- The CRC over bytes followed by their own CRC is 0 (15 R359). -/
theorem crc8_chk (l : List Byte) : crc8 (l ++ [crc8 l]) = 0 := by
  have h : crc8 (l ++ [crc8 l]) = crc8Byte (crc8 l) (crc8 l) := by simp [crc8]
  rw [h, crc8Byte, BitVec.xor_self]
  decide

/-- What follows such bytes has the CRC that it has alone. -/
theorem crc8_after (l r : List Byte) (h : crc8 l = 0) : crc8 (l ++ r) = crc8 r := by
  simp only [crc8, List.foldl_append] at h ⊢; rw [h]

end Sys2Proof.Laws
end

