-- ==== Sys2Proof/Tests/Slice0.lean ====
section
/-! SUPPORT. Tests of the model on fixed states, and a state that meets the hypotheses of each statement. -/

set_option Elab.async false

namespace Sys2Proof.Tests
open Sys2Proof.Machine

/-- The state that a command goes on to. -/
def after (i : Instr) (s : State) : State :=
  match exec i s with
  | .next t => t
  | _ => s

/-- The block after a reset that has ended: running in RUN, everything else at its reset value. -/
def run0 : State := { State.reset with rst := { rstReset with phase := .run } }

/-- A privileged and secure write. -/
def privSec (src : Src) (d : W32) : RegAcc := { data := d, priv := true, sec := true, src := src }

theorem test_run0_runs : running run0 = true := by decide +kernel

/-! ### The checks of WellFormed (14 R333) -/

theorem test_wf_ldd_odd : Instr.wf (.ldd .a 3 1 0 false) = false := by decide
theorem test_wf_std_odd : Instr.wf (.std .a 5 1 0 false) = false := by decide
theorem test_wf_ldwp_same : Instr.wf (.ldwp .a 2 2 4 false) = false := by decide
theorem test_wf_b_reserved : Instr.wf (.b .a 9 0) = false := by decide
theorem test_wf_emul_defined : Instr.wf (.emul .a 0) = false := by decide
theorem test_wf_emul_undefined : Instr.wf (.emul .a 0xE0000000) = true := by decide

/-! ### Words of 14 R331 and R332, written out by format -/

-- R: opcode 0x01, rd 3, ra 1, rb 2, func 0x1
theorem test_dec_sub : burDecode 0b00000100110001001000000000000001 = .alu .sub 3 1 2 := by decide
-- R: func 0x9 with rd 0
theorem test_dec_cmp : burDecode 0b00000100000001001000000000001001 = .cmp 1 2 := by decide
-- I: opcode 0x02, rd 5, ra 2, imm18 -1
theorem test_dec_addi : burDecode 0b00001001010010111111111111111111 = .imm .addi 5 2 0x3FFFF := by decide
-- I: opcode 0x06, imm18[6:5] 0b10, imm18[4:0] 4
theorem test_dec_shi : burDecode 0b00011000010010000000000001000100 = .shi .arith 1 2 4 := by decide
-- I: opcode 0x0C with rd 3, reserved
theorem test_dec_ldd_odd : burDecode 0b00110000110001000000000000000000 = .undef 0x30C40000 := by decide
-- B: opcode 0x18, cond 3, off22 -2
theorem test_dec_b : burDecode 0b01100000111111111111111111111110 = .b 3 0x3FFFFE := by decide
-- C: opcode 0x19, mask 0b00000101, off18 8
theorem test_dec_call : burDecode 0b01100100000101000000000000001000 = .call 5 8 := by decide
-- CR: opcode 0x1A, mask 0xFF, rt 7
theorem test_dec_callr : burDecode 0b01101011111111011100000000000000 = .callr 0xFF 7 := by decide
-- P: opcode 0x1C, rc 3
theorem test_dec_rep : burDecode 0b01110000110000000000000000000000 = .rep 3 := by decide
-- F: opcode 0x1F, sub 3
theorem test_dec_flg : burDecode 0b01111100000000110000000000000000 = .flgIe false 0 0 := by decide
-- opcode 0x38: reserved for emulated instructions
theorem test_dec_reserved : burDecode 0xE0000000 = .undef 0xE0000000 := by decide

/-! ### Reset (02) -/

theorem test_cold_fall : (after .rstColdFall (run0.wr Reg.STK_LEN 40)).rd Reg.STK_LEN = 32 := by decide +kernel
theorem test_cold_reset : (after (.coldReset 5 0x18 1 true) State.reset).rd Reg.GLB_ID = 0x1805 ∧
    (after (.coldReset 5 0x18 1 true) State.reset).rst.phase = .init ∧
    (after (.coldReset 5 0x18 1 true) State.reset).rd Reg.SBD_PRES = 0x200 ∧
    (after (.coldReset 5 0x18 1 true) State.reset).rd64 Reg.GLB_WIN_BASE = 0x800000 := by decide +kernel
def small : Par := { targets := 16, wired := 64, panels := 4, vpes := 16, weftPorts := 2 }
/-- A small instance, held in cold reset. -/
def cold1 : State := { State.reset with par := small }
def init1 : State := after (.coldReset 5 0x18 1 true) cold1
theorem wit_InitialisationEnds : init1.rst.phase = .init ∧ init1.rst.pendingTrig = none ∧ init1.rst.pinAfterWake = false ∧
    init1.port.stalled = [] ∧ pwrPhase init1 ≠ 4 := by decide +kernel
/-- The small instance as it runs. -/
def run1 : State := after .sramInitDone init1
theorem test_init_done : run1.rst.phase = .run ∧ run1.bit Reg.GLB_STATUS 0 = true ∧ run1.stk.cur = 32 ∧ run1.count = 0 ∧
    run1.bur.a.ipend = 1 := by decide +kernel
theorem wit_running : running run1 = true := by decide +kernel
theorem test_warm_fall : (after .rstWarmFall run1).rst.phase = .w3 ∧
    (after .rstWarmFall run1).fld Reg.GLB_RST_CAUSE 3 0 = 2 := by decide +kernel
theorem test_warm_write : (after (.glbRstCtrlWarm (privSec .burA 1)) run1).rst.phase = .w2 ∧
    (after (.glbRstCtrlWarm (privSec .burA 1)) run1).fld Reg.GLB_RST_CAUSE 3 0 = 4 := by decide +kernel
def w2 : State := after (.glbRstCtrlWarm (privSec .port 1)) run1
theorem wit_WarmResetGoesOn_w2 : w2.rst.phase = .w2 ∧ warmFlushed (discardPhys w2) = true ∧ w2.coh.evb = [] := by decide +kernel
def w3 : State := after (.warmFlushDone [] []) w2
theorem wit_WarmResetGoesOn_w3 : w3.rst.phase = .w3 ∧ cohClean w3 = true ∧ recsOut w3 = true ∧ w3.err.queue = [] := by decide +kernel
theorem test_warm_quiet : let t := after .warmQuiet ((w3.wr Reg.STK_LEN 40).wr Reg.MSG_CTRL 0)
    t.rst.phase = .w5 ∧ t.rd Reg.STK_LEN = 40 ∧ t.rd Reg.MSG_CTRL = 1 ∧ t.rd Reg.GLB_ID = 0x1805 := by decide +kernel
def w5 : State := after .warmQuiet w3
theorem wit_WarmResetGoesOn_w5 : w5.rst.phase = .w5 ∧ w5.rst.byPin = false := by decide +kernel
theorem test_warm_release : (after .warmDomainRelease w5).rst.phase = .init := by decide +kernel
theorem test_warm_rise_early : (after .rstWarmRise (after .rstWarmFall run1)).rst.earlyRise = true := by decide +kernel

/-! ### Strokes and proof (08, 16) -/

theorem wit_StrokeBoundary : running run1 = true ∧ run1.stk.commitIn = none ∧ run1.bur.due = false := by decide +kernel
theorem test_boundary : (after (.strokeBoundary false []) run1).count = 1 ∧ (after (.strokeBoundary false []) run1).prf.pos = 1 ∧
    (after (.strokeBoundary false []) run1).bur.win = 1 := by decide +kernel
/-- The table cache holds line 8 in a state. -/
def upLine (x : Moesi) : State := { run1 with coh := { run1.coh with lines := [(8, x)], ways := [(8, 0)] } }
theorem wit_StrokeBoundary_line : lineState (upLine .m) (8 : BitVec 46).toNat = some .m ∧ (upLine .m).err.queue.length < 16 ∧
    (∀ j, j < 8 → ((upLine .e).ring j).run = none) ∧ lineState (upset (upLine .e) (.line 8 0xFF true)) 8 = none ∧
    (upset (upLine .e) (.line 8 0xFF true)).bit Reg.COH_ERR 5 = false ∧
    (upset ((upLine .m).store64 0x208 0x77) (.line 8 2 true)).load64 0x208 = 0 ∧
    (upset (upLine .m) (.line 8 2 true)).rd64 Reg.COH_ERR_LOG = 0x8000000000000205 ∧
    (upset (upLine .m) (.line 8 2 false)).bit Reg.COH_ERR 4 = true := by decide +kernel
-- slot 3 of the error log, ARRAY 6
theorem wit_StrokeBoundary_array : run1.bit Reg.GLB_ECC 1 = false ∧
    (upset run1 (.array (.slot 3) true)).rd Reg.GLB_ECC_LOG = 0x800820C6 ∧
    (upset run1 (.array (.slot 3) false)).bit Reg.GLB_ECC 0 = true := by decide +kernel
def upOp : State := run1.modTgt 2 fun x => { x with opq := [mkOp .ins false 4130 { prio := 0x40, group := false, cls := 0 } 0] }
theorem wit_StrokeBoundary_parity : (opAt (upOp.tgt 2) 0).isSome = true ∧ ((upset upOp (.parity (.op 2 0) none)).tgt 2).opq = [] ∧
    (upset upOp (.parity (.op 2 0) none)).bit Reg.GLB_DPAR 0 = true ∧
    (upset upOp (.parity (.op 2 0) (some 0x55))).fld Reg.GLB_DPAR_LOG 31 4 = 0x400055 := by decide +kernel
def upBur : State := run1.modCore .a fun c => { c with st := .run, flags := 0x10 }
theorem wit_StrokeBoundary_burin : burRuns upBur .a = true ∧ (upBur.core .a).waiting = false ∧ flagT (upBur.core .a).flags = false ∧
    ((upset upBur (.burin .a 0x120 true)).core .a).pc = 0x1C ∧ ((upset upBur (.burin .a 0x120 true)).core .a).taddr = 0x120 := by
  decide +kernel
/-- No event of the boundary before is due any more. -/
def quiet1 : State := { run1 with stk := { run1.stk with epochDue := false, snapDue := none } }
theorem wit_StrokeBoundary_ups : settle (trigOver quiet1) = quiet1 ∧
    settle (trigOver (upsets quiet1 [.array (.slot 3) false])) = upsets quiet1 [.array (.slot 3) false] ∧
    running (upsets quiet1 [.array (.slot 3) false]) = true := by decide +kernel
theorem test_jump : (after (.strokeBoundary false []) { run1 with stk := { run1.stk with dec := some (0, 300) } }).count = 301 := by
  decide +kernel
theorem wit_EpochRefills : run1.stk.epochDue = true ∧ run1.par.targets / 16 = 1 := by decide +kernel
theorem test_epoch : (after .epochBoundary run1).stk.epochDue = false ∧
    Tbl.find (after .epochBoundary run1).msg.slots 0 = some (xltRate run1 0 * 16) := by decide +kernel
def snap0 : State := { run1.wr Reg.GLB_REFCNT_HZ 1000000000 with stk := { run1.stk with snapDue := some .anchor } }
theorem wit_SnapshotHandshake : snap0.stk.snapDue = some .anchor ∧ snap0.stk.snap.req = false ∧ snap0.stk.snap.ack = false ∧
    refLegal snap0 = true := by decide +kernel
def snap1 : State := after .refcntSnapshot snap0
theorem wit_SnapshotHandshake_ack : snap1.stk.snap.req = true ∧ snap1.stk.snap.ack = false ∧
    snap1.stk.snapUse = .anchor := by decide +kernel
theorem test_snap_anchor : (after (.refSnapAck 5000) snap1).rd64 Reg.STK_ORIGIN_REF = 5000 ∧
    (after (.refSnapAck 5000) snap1).stk.snap.req = false := by decide +kernel
theorem test_snap_fall : (after .refSnapAckFall (after (.refSnapAck 5000) snap1)).stk.snap.ack = false := by decide +kernel
-- the example of 08: lag 125, LEN 32, CATCH 24 and JUMP 256 give 500 catch-up strokes
theorem test_catch_up : lagDecision 125 (16 * 2 ^ 32) 32 24 256 = (500, 0, false) := by decide +kernel
theorem test_slip : lagDecision (-3) (16 * 2 ^ 32) 32 24 256 = (0, 0, true) ∧
    lagDecision (-2) (16 * 2 ^ 32) 32 24 256 = (0, 0, false) := by decide +kernel
def sweep0 (cmp adopt : Bool) : State :=
  { run1 with prf := { run1.prf with adopting := true, adoptOk := true,
                                     done := some { crc := 7, segs := [1, 2, 3, 4], cmp := cmp, adopt := adopt } } }
theorem wit_ProofSweeps : (sweep0 true true).prf.done.isSome = true ∧ (7 : W32) ≠ (sweep0 true false).rd Reg.PRF_REF ∧
    (sweep0 true true).prf.adopting = true ∧ (sweep0 true true).prf.adoptOk = true := by decide +kernel
theorem test_sweep_mismatch : (after .proofSweepComplete (sweep0 true false)).bit Reg.PRF_ERR 0 = true ∧
    (after .proofSweepComplete (sweep0 true false)).rd Reg.PRF_LAST = 7 := by decide +kernel
theorem test_sweep_adopt : (after .proofSweepComplete (sweep0 false true)).rd Reg.PRF_REF = 7 ∧
    (after .proofSweepComplete (sweep0 false true)).prf.hold = false := by decide +kernel
def pA : Attr := { prio := 0x40, group := false, cls := 2 }
def upSpill : State := { run1 with lanes := [(0, [{ set := true, t := 2, ev := 4130, vpe := none, prio := 0x40, drop := false, wid := none }])] }
theorem wit_StrokeBoundary_spill : (upSpill.lane 0).all (·.set) = true ∧ upSpill.tg.all (fun e => e.2.dsp.isEmpty) = true ∧
    (upset upSpill (.parity (.spill 0 0) none)).lane 0 = [] ∧
    (upset upSpill (.parity (.spill 0 0) none)).bit Reg.GLB_DPAR 1 = true := by decide +kernel
/-- Target 2's chunk 5 holds a pending event of priority 0x20 whose lead is known, or not. -/
def sum1 (ok : Bool) : State := (run1.wr Reg.RNK_CTRL 1).modTgt 2 fun x =>
  { x with sumP := [(4, { prio := 0x30, lead := 1, leadOk := true, v := true }), (5, { prio := 0x20, lead := 9, leadOk := ok, v := true })] }
theorem wit_EpochRefills_lead : refillOk (sum1 true) 2 false = true ∧
    bestChunk (leadChunk ((sum1 true).tgt 2) false) (((sum1 true).tgt 2).sums false) =
      some (5, { prio := 0x20, lead := 9, leadOk := true, v := true }) ∧ beatsRoot (sum1 true) 2 false 0x20 = true ∧
    beatsRoot ((sum1 true).modTgt 2 fun x => { x with entries := [{ ev := 40, virt := false, group := false, base := 0x20, arr := 0, eff := 0x20, cls := 0 }] }) 2 false 0x20 = false := by
  decide +kernel
theorem test_order5 : ((after (.strokeBoundary false []) (sum1 true)).tgt 2).leadP = some (5 * 1024 + 9) ∧
    (after (.strokeBoundary false []) (sum1 true)).rd64 Reg.RNK_LEAD_CNT = 1 ∧
    ((after (.strokeBoundary false []) (sum1 false)).tgt 2).swpP.waiting = [5] := by decide +kernel
/-- 20 waiting operations, 3 carried over, a sweep insert and a class whose word was written. -/
def adm1 : State := { run1 with rnk := { run1.rnk with classW := 4 } }.modTgt 2 fun x =>
  { x with opq := (List.range 20).map (fun k => mkOp .ins false (BitVec.ofNat 21 (5000 + k)) pA 0),
           carry := (List.range 3).map (fun k => mkOp .ins false (BitVec.ofNat 21 (6000 + k)) pA 0),
           sbuf := [mkOp .ins false 7000 pA 0], entries := [{ ev := 40, virt := false, group := false, base := 0x20, arr := 0, eff := 0x20, cls := 2 }] }
theorem wit_EpochRefills_admit : (((adm1.tgt 2).carry ++ (adm1.tgt 2).opq ++ (adm1.tgt 2).sbuf).all fun o =>
    (redirected adm1 2 o).isNone && !offTreeNow adm1 2 o) = true := by decide +kernel
-- 16 slots of 32 cycles: one AGE, the 3 carried over, 12 of the queue
theorem test_order6 : let x := (after (.strokeBoundary false []) adm1).tgt 2
    x.adm.map (·.kind) = .age :: List.replicate 15 .ins ∧ (x.adm.drop 1).head?.map (·.ev) = some 6000 ∧
    x.opq.length = 8 ∧ x.opq.head?.map (·.ev) = some 5012 ∧ x.sbuf.length = 1 ∧ x.slots = 16 := by decide +kernel
-- the four lengths of the stroke that begins
theorem wit_LagRules_kinds : ((boundaryTime { run1 with stk := { run1.stk with stretchN := 2, catchN := 3 } } false).stk.kind,
    (boundaryTime { run1 with stk := { run1.stk with catchN := 3 } } false).stk.kind,
    (boundaryTime (run1.setBitR Reg.STK_STAT 14 true) false).stk.kind, (boundaryTime run1 false).stk.kind) =
    (.stretch, .catchUp, .fast, .normal) := by decide +kernel
theorem wit_LagRules_commit : let s := { run1 with stk := { run1.stk with commitIn := some (1000, 2) } }
    s.stk.alignIn = none ∧ (after (.strokeBoundary false []) s).count = 1002 ∧
    (after (.strokeBoundary false []) s).stk.epochNext = true := by decide +kernel
def align1 (n : Stroke) : State := { run1.wr64 Reg.STK_ORIGIN_CNT 500 with count := 1000, stk := { run1.stk with alignIn := some (n, 0) } }
theorem wit_LagRules_align : (align1 900).stk.commitIn = none ∧ (align1 900).err.queue.length < 16 ∧
    (alignOrder (align1 990)).stk.stretchN = 40 ∧ (alignOrder (align1 990)).rd64 Reg.STK_ORIGIN_CNT = 490 ∧
    (alignOrder (align1 1003)).rd64 Reg.STK_ORIGIN_CNT = 503 ∧ (alignOrder (align1 1003)).fld Reg.STK_STAT 23 16 = 0xFD ∧
    (alignOrder (align1 500)).bit Reg.STK_ERR 1 = true ∧ (alignOrder (align1 1001)).rd64 Reg.STK_ORIGIN_CNT = 500 := by decide +kernel
/-- A snapshot that measures, asked for at count 100; the origin is count 0 at 0. -/
def meas (ref0 : Option W64) : State :=
  let s := (run1.wr Reg.GLB_REFCNT_HZ 1000000000).wr64 Reg.STK_ORIGIN_CNT 0
  { s with stk := { s.stk with snap := { req := true, ack := false }, snapUse := .measure, snapAt := 100, lastRef := ref0, per := periodNow s } }
theorem wit_SnapshotHandshake_measure : (meas none).stk.snap.req = true ∧ (meas none).stk.snap.ack = false ∧ refLegal (meas none) = true ∧
    refBack (meas none) 1600 = false ∧ (meas none).stk.snapUse = .measure ∧ (meas none).bit Reg.STK_STAT 14 = false ∧
    periodNow (meas none) = (meas none).stk.per ∧ refBack (meas (some 9000)) 1600 = true ∧ (meas (some 9000)).stk.snap.req = true := by
  decide +kernel
-- a stroke of 16 ticks: 10 strokes late, LEN 32 and CATCH 24; a slip; REFCNT gone back
theorem test_snap_measure : (after (.refSnapAck 1760) (meas none)).stk.dec = some (40, 0) ∧
    (after (.refSnapAck 1760) (meas none)).fld Reg.STK_STAT 11 0 = 10 ∧
    (after (.refSnapAck 1500) (meas none)).rd64 Reg.STK_SLIP_CNT = 1 ∧
    (after (.refSnapAck 1500) (meas none)).rd64 Reg.STK_ORIGIN_CNT = 100 ∧
    (after (.refSnapAck 1600) (meas (some 9000))).bit Reg.STK_ERR 0 = true := by decide +kernel
-- an advancing count starts an epoch as SHIFT asks
theorem wit_LagRules_epoch : (boundaryTime { run1 with count := 63, stk := { run1.stk with shift := 6 } } false).stk.epochDue = true ∧
    (boundaryTime { run1 with count := 64, stk := { run1.stk with shift := 6 } } false).stk.epochDue = false := by decide +kernel

/-! ### Wired and local inputs (04, 09) -/

/-- Line 3 enabled, edge, single routing to target 2 of instance 5, priority 0x40. -/
def win1 : State := (run1.wr (winOff 3 Reg.WIN_CTL) 0x140).wr (winOff 3 Reg.WIN_ROUTE) 0x282
/-- Its filter takes 5 samples. -/
def winF : State := win1.wr (winOff 3 Reg.WIN_FILT) 4
theorem wit_WiredLineFilters : 3 < win1.par.wired ∧ (win1.line 3).pin ≠ true ∧ winEn win1 3 = true ∧ running win1 = true ∧
    (true != winPol win1 3) ≠ winLine win1 3 ∧ win1.fld (winOff 3 Reg.WIN_FILT) 15 0 = 0 ∧
    Admits win1 (privSec .port 0) := by unfold Admits; decide +kernel
theorem wit_WiredLineFilters_count : (winF.line 3).count = false ∧ winF.fld (winOff 3 Reg.WIN_FILT) 15 0 ≠ 0 ∧
    running winF = true ∧ winEn winF 3 = true := by decide +kernel
def win2 : State := after (.wiredLineChange 3 true 0 true) winF
theorem wit_WiredLineFilters_back : (win2.line 3).count = true ∧ (win2.line 3).pin ≠ false ∧
    (false != winPol win2 3) = winLine win2 3 ∧ win2.bit (winOff 3 Reg.WIN_FILT) 16 = false := by decide +kernel
theorem test_glitch : (after (.wiredLineChange 3 false 3 true) win2).fld (winOff 3 Reg.WIN_XSTAT) 28 21 = 1 := by decide +kernel
def win3 : State := after (.wiredFilterAccept 3 5) win2
-- a state that lasted longer than FLT_LEN samples had been accepted
theorem test_accept_late : winLine (after (.wiredLineChange 3 false 5 true) win2) 3 = true ∧
    ((after (.wiredLineChange 3 false 5 true) win2).line 3).count = true := by decide +kernel
-- FLT_LEN 0: the first sample is accepted
theorem test_accept_at_once : winLine (after (.wiredLineChange 3 true 0 true) win1) 3 = true := by decide +kernel
theorem test_accept : winLine win3 3 = true ∧ (win3.line 3).change = some (true, 0) := by decide +kernel
theorem wit_WiredRouting : bankNext win3 0 = some 3 ∧ (win3.line 3).holder = none ∧ inSafe win3 = false ∧
    win3.fld (winOff 3 Reg.WIN_ROUTE) 15 14 = 0 ∧ isLocal win3 0x282 = true ∧ (win3.tgt 2).opq.length < 64 := by decide +kernel
theorem test_route : ((after (.wiredConfigRead 0) win3).tgt 2).opq =
    [mkOp .ins false 35 { prio := 0x40, group := false, cls := 0 } 0] ∧
    ((after (.wiredConfigRead 0) win3).line 3).holder = some 0x282 := by decide +kernel
/-- Line 3, level, held by target 2, deasserted. -/
def win4 : State := (win1.modLine 3 fun l => { l with holder := some 0x282, change := some (false, 9) })
theorem wit_WiredRouting_drop : bankNext win4 0 = some 3 ∧ (win4.line 3).change = some (false, 9) ∧ running win4 = true := by
  decide +kernel
theorem wit_WiredRouting_room : opqFull win4 2 = false ∧ (win4.line 3).holder = some 0x282 ∧ isLocal win4 0x282 = true := by
  decide +kernel
/-- Routed to target 20, which is not built. -/
def win5 : State := win3.wr (winOff 3 Reg.WIN_ROUTE) 0x294
theorem wit_WiredRouting_unrouted : win5.par.targets ≤ 20 ∧ (win5.line 3).unr = none ∧ win5.err.queue.length < 16 ∧
    isLocal win5 0x294 = true := by decide +kernel
theorem test_unrouted : ((after (.wiredConfigRead 0) win5).line 3).unr = some 0 ∧
    (after (.wiredConfigRead 0) win5).err.queue.map (·.src) = [14] := by decide +kernel
theorem test_drop : ((after (.wiredConfigRead 0) win4).tgt 2).opq.map (·.kind) = [.drop] := by decide +kernel
theorem wit_WiredRouting_rotating : rotating (some 3) [1, 3, 7] = some 7 ∧ rotating (some 7) [1, 3, 7] = some 1 := by
  decide +kernel
theorem wit_WiredEntryWrites : running run1 = true ∧ (3 : BitVec 12).toNat < run1.par.wired ∧ locked run1 0 = false ∧
    winEn run1 3 = false ∧ (run1.line 3).unr = none := by decide +kernel
theorem test_win_ctl : (after (.winCtlWrite 3 (privSec .port 0x540)) run1).rd (winOff 3 Reg.WIN_CTL) = 0x540 ∧
    winLine (after (.winCtlWrite 3 (privSec .port 0x540)) run1) 3 = true := by decide +kernel
theorem test_win_route_reserved : (after (.winRouteWrite 3 (privSec .port 0xC281)) win1).rd (winOff 3 Reg.WIN_ROUTE) = 0x281 ∧
    (after (.winRouteWrite 3 (privSec .port 0xC281)) win1).bit Reg.GLB_ERR 1 = true := by decide +kernel
theorem test_win_xid : (after (.winXstatWrite 3 (privSec .burA 0x1020)) win1).fld (winOff 3 Reg.WIN_XSTAT) 20 0 = 0x1020 ∧
    (after (.winXstatWrite 3 (privSec .burA 0x101F)) win1).fld (winOff 3 Reg.WIN_XSTAT) 20 0 = 0 := by decide +kernel
theorem wit_LocalInputs : (3 : BitVec 7).toNat < run1.par.targets ∧ run1.bit (icfgOff 3 21) 13 ≠ true ∧
    run1.bit (icfgOff 3 21) 12 = false ∧ (run1.setBitR (icfgOff 3 21) 12 true).bit (icfgOff 3 21) 12 = true := by decide +kernel
theorem test_local : ((after (.localInputChange 3 5 true) (run1.setBitR (icfgOff 3 21) 12 true)).tgt 3).opq =
    [{ mkOp .ins false 21 { prio := 0xFF, group := false, cls := 0 } 0 with level := true }] := by decide +kernel
theorem test_icfg : (after (.tgtIcfgWrite 3 21 (privSec .port 0x1F123)) run1).rd (icfgOff 3 21) = 0x1123 ∧
    ((after (.tgtIcfgWrite 3 21 (privSec .port 0x1F123)) run1).tgt 3).opq.map (·.kind) = [.rpr] ∧
    (after (.tgtIcfgWrite 3 5 (privSec .port 0x1123)) run1).rd (icfgOff 3 5) = 0x123 := by decide +kernel
-- FLT_LEN 4 on CLK_AON, the change not sampled
def winA : State := win1.wr (winOff 3 Reg.WIN_FILT) 0x10004
theorem wit_WiredLineFilters_unseen : (winA.line 3).count = false ∧ winA.bit (winOff 3 Reg.WIN_FILT) 16 = true ∧
    ((after (.wiredLineChange 3 true 0 false) winA).line 3).count = false ∧
    ((after (.wiredLineChange 3 true 0 false) winA).line 3).pin = true := by decide +kernel
theorem wit_WiredLineFilters_short : (win2.line 3).count = true ∧ ¬ win2.fld (winOff 3 Reg.WIN_FILT) 15 0 < (win2.line 3).seen + 4 ∧
    winLine (after (.wiredFilterAccept 3 4) win2) 3 = false := by decide +kernel
/-- Line 3 routed to the set of targets 1, 2 and 7, where target 2's running priority is the highest. -/
def winS (mode : Nat) (rot : Option (BitVec 4)) : State :=
  ((win3.wr (winOff 3 Reg.WIN_ROUTE) (BitVec.ofNat 32 (mode * 2 ^ 14 + 0x860000))).modLine 3 fun l => { l with rot := rot }).modTgt 1
    fun x => { x with phys := { x.phys with stack := [{ ev := 50, group := false, eff := 0x10, pv := 0x10, pend := none }] } }
theorem wit_WiredRouting_lowest : RouteChooses (winS 1 none) 3 0x282 none := by
  have e : field ((winS 1 none).rd (winOff 3 Reg.WIN_ROUTE)) 15 14 = 1 := by decide +kernel
  unfold RouteChooses; dsimp only; rw [e]
  refine ⟨2, by decide +kernel, by decide +kernel, by decide +kernel, fun k h => ?_⟩
  have := h.1; interval_cases k <;> revert h <;> decide +kernel
theorem wit_WiredRouting_rotated : RouteChooses (winS 2 (some 2)) 3 0x287 (some 7) := by
  have e : field ((winS 2 (some 2)).rd (winOff 3 Reg.WIN_ROUTE)) 15 14 = 2 := by decide +kernel
  unfold RouteChooses; dsimp only; rw [e]
  refine ⟨7, by decide +kernel, by decide +kernel, by decide +kernel, .inl ⟨by decide +kernel, fun k h => ?_⟩⟩
  have := h.1; interval_cases k <;> revert h <;> decide +kernel
theorem wit_WiredRouting_wraps : RouteChooses (winS 2 (some 7)) 3 0x281 (some 1) := by
  have e : field ((winS 2 (some 7)).rd (winOff 3 Reg.WIN_ROUTE)) 15 14 = 2 := by decide +kernel
  unfold RouteChooses; dsimp only; rw [e]
  refine ⟨1, by decide +kernel, by decide +kernel, by decide +kernel, .inr ⟨fun k h => ?_, fun k h => ?_⟩⟩ <;>
  · have := h.1; interval_cases k <;> revert h <;> decide +kernel
theorem test_route_set : ((after (.wiredConfigRead 0) (winS 1 none)).line 3).holder = some 0x282 ∧
    ((after (.wiredConfigRead 0) (winS 2 (some 2))).line 3).holder = some 0x287 ∧
    ((after (.wiredConfigRead 0) (winS 2 (some 2))).line 3).rot = some 7 ∧
    ((after (.wiredConfigRead 0) (winS 2 (some 7))).line 3).rot = some 1 := by decide +kernel
theorem no_route {s : State} {n : Nat} {g : BitVec 14} {rot : Option (BitVec 4)} (e : field (s.rd (winOff n Reg.WIN_ROUTE)) 15 14 = 3)
    (h : RouteChooses s n g rot) : False := by
  unfold RouteChooses at h; dsimp only at h; rw [e] at h; exact h
-- RMODE 3: no target
theorem wit_WiredRouting_none : field ((winS 3 none).rd (winOff 3 Reg.WIN_ROUTE)) 15 14 = 3 ∧
    ((after (.wiredConfigRead 0) (winS 3 none)).line 3).unr = some 0 := by decide +kernel

/-! ### Messages and lookups (05, 06) -/

def msg1 : State := after (.msgWrite 0x800000 7 0xF 3) run1
theorem wit_MessageWrites : running run1 = true ∧ run1.msg.stage.length < 4 ∧ running msg1 = true ∧
    msg1.msg.stage.length = 1 ∧ decodeFault msg1 (msg1.msg.stage.headD ⟨0, 0, 0, 0, 0, 9⟩) = none ∧
    admits msg1 0 = true := by decide +kernel
theorem test_admit : (after .msgDecode msg1).msg.q.map (fun e => (e.q, e.slice, e.w.wid)) = [(0, 0, 0)] ∧
    (after .msgDecode msg1).msg.stage = [] := by decide +kernel
-- R98: byte enables not all set is check 4, MSG_ERR bit 3
def msgBad : State := after (.msgWrite 0x800000 7 0x7 3) run1
theorem test_decode_fault : (after .msgDecode msgBad).rd Reg.MSG_ERR = 8 ∧ (after .msgDecode msgBad).rd Reg.MSG_ERR_CNT = 1 ∧
    (after .msgDecode msgBad).rd Reg.MSG_ERR_LOG0 = 0x81800000 ∧ (after .msgDecode msgBad).err.queue.length = 1 := by
  decide +kernel
def msgShut : State := { msg1 with msg := { msg1.msg with pqCap := 0 } }
theorem wit_MessageWrites_slow : admits msgShut 0 = false ∧ msgShut.msg.slow.length < 64 ∧
    (after .msgDecode msgShut).msg.slow.length = 1 := by decide +kernel
def msgFull : State :=
  { msgShut with msg := { msgShut.msg with slow := List.replicate 64 ⟨0, 0, ⟨0, 0, 0, 0, 0, 9⟩, .busy⟩ } }
theorem wit_MessageWrites_held : 64 ≤ msgFull.msg.slow.length ∧ admits msgFull 0 = false ∧ slowHeld msgFull = true ∧
    (after .msgDecode msgFull).rd64 Reg.MSG_BP_CNT = 1 ∧ (after .msgDecode msgFull).msg.held = true := by decide +kernel
/-- The table cache holds a line, exclusively. -/
def holds (s : State) (l : List Nat) : State := { s with coh := { s.coh with lines := l.map fun k => (k, Moesi.e) } }
/-- Source 3 may raise physical events; its data value 7 is event 4130 on target 2 of instance 5, priority 0x40. -/
def tables (s : State) : State :=
  ((((((((s.wr64 Reg.XLT_SRC_BASE 0x10004).wr64 Reg.XLT_ATT_BASE 0x2000D).wr Reg.XLT_CTRL 1).store64 0x10060 0x10003).store64
    0x10068 0x30000).store64 0x10070 16).store64 0x30070 0x0282000010224001))
def xltM : State := after .msgDecode (after (.msgWrite 0x800000 7 0xF 3) (tables run1))
/-- Lines 0x401 and 0xC01 hold the source entry and the map entry. -/
def xlt1 : State := holds xltM [0x401, 0xC01]
theorem wit_Lookups : running xlt1 = true ∧ 0 < xlt1.par.targets / 16 ∧ xlt1.miss = [] ∧ pickQueue xlt1 0 = some 0 ∧
    (subHead xlt1 0 0).isSome = true ∧ slowNext xlt1 0 = none ∧ Passes xlt1 (xltEn xlt1) ⟨0x800000, 7, 0xF, 3, 0, 0⟩ ∧
    Cached xlt1 ⟨0x800000, 7, 0xF, 3, 0, 0⟩ := by
  unfold Passes Cached; decide +kernel
theorem wit_Lookups_miss : srcHeld xltM ⟨0x800000, 7, 0xF, 3, 0, 0⟩ = false ∧
    srcHeld (holds xltM [0x401]) ⟨0x800000, 7, 0xF, 3, 0, 0⟩ = true ∧
    (holds xltM [0x401]).held (mapLine (holds xltM [0x401]) ⟨0x800000, 7, 0xF, 3, 0, 0⟩) = false := by decide +kernel
theorem test_miss_map : (after (.lookupIssue 0 0) (holds xltM [0x401])).miss.map (·.line) = [0xC01] := by decide +kernel
theorem test_lookup : ((after (.lookupIssue 0 0) xlt1).tgt 2).opq =
    [{ mkOp .ins false 4130 { prio := 0x40, group := false, cls := 0 } 0 with wid := some 0 }] := by decide +kernel
theorem test_lookup_fault : (after (.lookupIssue 0 0) (xlt1.wr Reg.XLT_CTRL 0)).rd Reg.XLT_FAULT = 1 ∧
    (after (.lookupIssue 0 0) (xlt1.store64 0x30070 0)).rd Reg.XLT_FAULT = 0x20 := by decide +kernel
theorem wit_Lookups_fault : checkHead (xlt1.wr Reg.XLT_CTRL 0) false ⟨0x800000, 7, 0xF, 3, 0, 0⟩ = some 0 := by decide +kernel
def xlt2 : State := holds (after (.lookupIssue 0 0) xltM) [0x401, 0xC01]
theorem wit_Lookups_fill : missNth xlt2 0 0 = some
      { slice := 0, q := 0, w := ⟨0x800000, 7, 0xF, 3, 0, 0⟩, slow := false, atMap := false, en := true, line := 0x401,
        slot := true } ∧ xlt2.held 0x401 = true ∧ xlt2.coh.failed = [] ∧
    running xlt2 = true := by decide +kernel
theorem test_fill : (after (.missFill 0 0) xlt2).miss = [] ∧
    ((after (.missFill 0 0) xlt2).tgt 2).opq.length = 1 := by decide +kernel
/-- The same write on the slow path, its result held for the set. -/
def slow1 : State := after (.lookupIssue 0 0)
  (holds (after .msgDecode ({ after (.msgWrite 0x800000 7 0xF 3) (tables run1) with msg := { msg1.msg with pqCap := 0 } }))
    [0x401, 0xC01])
theorem wit_Lookups_slow : pickQueue slow1 0 = none := by decide +kernel
def slow2 : State := holds ((slow1.wr64 Reg.RNK_PT_BASE 0x1000000).wr Reg.RNK_CTRL 1) [0x42008]
theorem wit_SlowPathAndFence : running slow2 = true ∧ slow2.rnkEn = true ∧ Memory.wf slow2.mem = true ∧
    (slow2.msg.slow[0]?).map (·.stage) = some (.set (lookupRes slow2 ⟨0x800000, 7, 0xF, 3, 0, 0⟩)) ∧
    isLocal slow2 0x282 = true ∧ redirDest slow2 (.tgt 0x282) 4130 = .tgt 0x282 ∧ slowHolder slow2 2 4130 = 2 ∧
    setWaits slow2 (.tgt 0x282) 4130 0 = false ∧ slow2.failures (.slowSet 0) = 0 ∧ Owned slow2 (bitAddr slow2 2 none 4130) 1 ∧ slow2.lanes = [] ∧ slow2.err.queue.length < 16 := by
  unfold Owned; decide +kernel
-- byte 0x1000000 + 2 * 0x40000 + 4130 / 8, bit 2
theorem test_slow_set : Memory.read (after (.slowSetDone 0 false) slow2).mem 0x1080204 = 4 ∧
    (after (.slowSetDone 0 false) slow2).msg.slow = [] ∧
    (after (.slowSetDone 0 true) slow2).rd Reg.MSG_ERR = 0x40 := by decide +kernel
def fence1 : State := after (.msgFenceReq (privSec .port 1)) msg1
theorem test_fence : fence1.bit Reg.MSG_FENCE 1 = false ∧ (after .msgFenceDone fence1).msg.fence = some 1 := by decide +kernel
theorem wit_SlowPathAndFence_done : ∀ w ∈ liveWids { fence1 with msg := { fence1.msg with stage := [] } }, 1 ≤ w := by
  decide +kernel
theorem wit_SlowPathAndFence_cfg : pqRsvBad run1 0x01000080 = false ∧ field (0x01000080 : W32) 14 0 = 0x80 ∧
    field (0x01000080 : W32) 30 16 = 0x100 ∧ 16384 < field (0x4001 : W32) 14 0 := by decide +kernel
theorem test_pq_cfg : (after (.msgPqCfgWrite (privSec .burA 0x01000080)) run1).rd Reg.MSG_PQ_CFG = 0x01000080 ∧
    (after (.msgPqCfgWrite (privSec .burA 0x01004001)) run1).fld Reg.MSG_PQ_CFG 14 0 = 0x400 := by decide +kernel

/-! ### Hatch trees (07) -/

def ent (ev : EventId) (p : Byte) (arr : Stroke) : Entry :=
  { ev := ev, virt := false, group := true, base := p, arr := arr, eff := p, cls := 0 }
theorem test_ranks : ranksAbove 10 (ent 9 1 5) (ent 8 2 0) = true ∧ ranksAbove 10 (ent 9 1 5) (ent 8 1 6) = true ∧
    ranksAbove 10 (ent 8 1 5) (ent 9 1 5) = true ∧ ranksAbove 10 (ent 9 1 5) (ent 8 1 5) = false := by decide
theorem wit_RankingOrder : headOf (run1.modTgt 2 fun x => { x with entries := [ent 9 1 0, ent 8 1 0] }) 2 false =
    some (ent 8 1 0) := by decide +kernel

/-- Target 2 with one operation admitted and the given entries. -/
def tree (o : TOp) (l : List Entry) : State :=
  (run1.wr64 Reg.RNK_PT_BASE 0x1000000).modTgt 2 fun x => { x with adm := [o], slots := 4, entries := l }
def opIns : TOp := mkOp .ins false 4130 { prio := 0x40, group := true, cls := 0 } 0
def trIns : State := tree opIns []
theorem wit_TreeOperations_ins : Issues trIns 2 opIns ∧ insMeets trIns 2 opIns trIns.count = none ∧
    takesLeaf (trIns.tgt 2) opIns = true ∧ Memory.wf trIns.mem = true := by unfold Issues; decide +kernel
theorem test_ins : ((after (.ins 2) trIns).tgt 2).entries = [ent 4130 0x40 0] ∧ ((after (.ins 2) trIns).tgt 2).slots = 3 ∧
    ((after (.ins 2) trIns).tgt 2).adm = [] := by decide +kernel
/-- A byte of host memory set. -/
def putB (s : State) (a : Nat) (v : Byte) : State := { s with mem := Memory.write s.mem a v }
/-- The event's bit is set in the table of target 5. -/
def trElse : State := putB (trIns.wr Reg.RNK_CTRL 1) 0x1140204 4
theorem wit_TreeOperations_else : Issues trElse 2 opIns ∧ heldElse trElse 2 opIns = some 5 ∧
    meetsAt trElse 2 opIns trElse.count = none ∧ activeIn (trElse.tgt 5) false 4130 = false ∧
    ((after (.ins 2) trElse).tgt 2).entries = [] := by unfold Issues; decide +kernel
/-- A full tree: 4,096 copies of one entry stand for it. -/
def trFull : State := tree opIns (List.replicate 4096 (ent 77 0x50 0))
theorem wit_TreeOperations_full : takesLeaf (trFull.tgt 2) opIns = false ∧ worstOf 0 (List.replicate 16 (ent 77 0x50 0)) =
    some (ent 77 0x50 0) ∧ spillFull trFull 2 = false := by decide +kernel
def opClr : TOp := mkOp .clr false 4130 { prio := 0, group := false, cls := 0 } 0
def trClr : State := tree opClr [ent 4130 0x40 0]
theorem wit_TreeOperations_clr : Issues trClr 2 opClr ∧ activeIn (trClr.tgt 2) false 4130 = false ∧
    (residentIn (trClr.tgt 2) false 4130).isSome = true ∧ lineOn trClr 2 false 4130 = false := by
  unfold Issues; decide +kernel
theorem test_clr : ((after (.rem 2) trClr).tgt 2).entries = [] := by decide +kernel
def trClr0 : State := holds (putB ((tree opClr []).wr Reg.RNK_CTRL 1) 0x1080204 0xFF) [0x42008]
theorem wit_TreeOperations_bit : Issues trClr0 2 opClr ∧ trClr0.rnkEn = true ∧ trClr0.lane 0 = [] ∧
    Memory.wf trClr0.mem = true ∧ Memory.read (after (.rem 2) trClr0).mem 0x1080204 = 0xFB := by
  unfold Issues; decide +kernel
def opRpr : TOp := mkOp .rpr false 4130 { prio := 0x30, group := false, cls := 2 } 0
theorem test_rpr : Issues (tree opRpr [ent 4130 0x40 0]) 2 opRpr ∧
    ((after (.rpr 2) (tree opRpr [ent 4130 0x40 0, ent 9 1 0])).tgt 2).entries.map (fun e => (e.base, e.eff, e.cls)) =
    [(0x30, 0x30, 2), (1, 1, 0)] := by unfold Issues; decide +kernel
-- class 0 with I 4 and C 0x20: after 16 strokes an entry of 0x40 is at 0x3C (03 R75)
def trAge : State :=
  { tree (ageOp 0) [ent 4130 0x40 0] with rnk := { run1.rnk with classes := [(0, 0x200004)] }, count := 16 }
theorem test_age : Issues trAge 2 (ageOp 0) ∧ ((after (.age 2) trAge).tgt 2).entries.map (·.eff) = [0x3C] := by
  unfold Issues; decide +kernel
def opFls : TOp := mkOp .fls false 4130 { prio := 0x40, group := true, cls := 0 } 0
theorem test_fls : Issues (tree opFls [ent 4130 0x40 0]) 2 opFls ∧
    (after (.fls 2) (tree opFls [ent 4130 0x40 0])).lane 0 = [spillOf trIns 2 false 4130 0x40 none] := by
  unfold Issues; decide +kernel
def trExt : State := run1.modTgt 2 fun x => { x with entries := [ent 4130 0x40 0], ext := some (false, 4130), slots := 2 }
theorem test_ext : (trExt.tgt 2).slots ≠ 0 ∧ ((after (.ext 2) trExt).tgt 2).entries = [] ∧
    ((after (.ext 2) trExt).tgt 2).ext = none := by decide +kernel

/-- Pending tables in use, the bits of events 4130 and 4131 of target 2 set; their attribute entries read priority 0x40. -/
def trPt : State := putB (putB ((run1.wr64 Reg.RNK_PT_BASE 0x1000000).wr Reg.RNK_CTRL 1) 0x1080204 0x0C) (4130 * 16) 0x40
/-- The table cache holds the lines of the chunk and of the attribute entries. -/
def trPt' : State := holds (trPt.wr64 Reg.XLT_ATT_BASE 0xD) [0x408, 0x42008, 0x42009]
def trLead : State := trPt'.modTgt 2 fun x => { x with leadP := some 4130 }
theorem wit_RefillsAndSweeps_lead : running trLead = true ∧ laneHas trLead 2 none 4130 = false ∧
    pendBit trLead 2 none 4130 = true ∧ noAttrs trLead none 4130 = false ∧ trLead.move = none ∧ Memory.wf trLead.mem = true ∧
    trLead.err.queue.length < 16 := by decide +kernel
theorem test_lead : ((after (.leadArrive 2 false false) trLead).tgt 2).urgent.map (fun o => (o.ev, o.attr.prio, o.refill)) =
    [(4130, 0x40, true)] ∧ Memory.read (after (.leadArrive 2 false false) trLead).mem 0x1080204 = 8 ∧
    ((after (.leadArrive 2 false false) trLead).tgt 2).swpP.waiting = [4] := by decide +kernel
theorem wit_RefillsAndSweeps_gone : pendBit (trPt'.modTgt 2 fun x => { x with leadP := some 4129 }) 2 none 4129 = false := by
  decide +kernel
def trWait : State := trPt'.modTgt 2 fun x =>
  { x with sumP := [(4, { prio := 0x40, lead := 34, leadOk := true, v := true })], swpP := { x.swpP with waiting := [4] } }
theorem wit_RefillsAndSweeps_start : refillOk trWait 2 false = true ∧ (trWait.tgt 2).swpP.run = none ∧
    bestWaiting (trWait.tgt 2) false = some 4 := by decide +kernel
def trBack : State := (trWait.modTgt 2 fun x => { x with swpP := { x.swpP with waiting := [] } }).setFld Reg.RNK_REFILL 28 16 8
theorem wit_RefillsAndSweeps_back : refillOk trBack 2 false = true ∧
    (trBack.tgt 2).entries.length < trBack.fld Reg.RNK_REFILL 28 16 ∧ (trBack.tgt 2).leadP = none ∧
    (bestChunk (fun _ => false) (trBack.tgt 2).sumP).isSome = true := by decide +kernel
theorem test_back : ((after (.backgroundSweep 2 false) trBack).tgt 2).swpP.run =
    some { chunk := 4, taken := false, snap := [], result := Sum.empty } := by decide +kernel
def trLines : State := after (.sweepStart 2 false) trWait
theorem wit_RefillsAndSweeps_lines : ((trLines.tgt 2).swp false).run =
    some { chunk := 4, taken := false, snap := [], result := Sum.empty } ∧ chunkOf 4130 = 4 ∧
    pendBit trLines 2 none 4130 = true := by decide +kernel
def trAttr : State := after (.sweepLinesArrive 2 false false) trLines
theorem wit_RefillsAndSweeps_attr : ((trAttr.tgt 2).swpP.run).map (fun r => (r.taken, r.snap)) = some (true, [4130, 4131]) ∧
    sweepUrgent trAttr 2 false = true ∧ trAttr.fld Reg.RNK_REFILL 12 0 < 4096 ∧ noAttrs trAttr none 4130 = false := by
  decide +kernel
/-- The root is better than the sweep's chunk, so the sweep is not urgent. -/
def trCalm : State := trAttr.modTgt 2 fun x => { x with entries := [ent 9 1 0] }
theorem test_sweep_attr : sweepUrgent trCalm 2 false = false ∧
    ((after (.sweepAttrArrive 2 false false) trCalm).tgt 2).sbuf.map (·.ev) = [4130] ∧
    ((after (.sweepAttrArrive 2 false false) trCalm).tgt 2).swpP.run.map (·.snap) = some [4131] ∧
    Memory.read (after (.sweepAttrArrive 2 false false) trCalm).mem 0x1080204 = 8 := by decide +kernel

def trSpill : State := trPt'.setLane 0 [spillOf trPt' 2 false 4200 0x22 none]
theorem wit_SpillsFlushAndLoad_spill : trSpill.lane 0 = [spillOf trPt' 2 false 4200 0x22 none] ∧ trSpill.rnkEn = true ∧
    Memory.wf trSpill.mem = true ∧ running trSpill = true ∧ trSpill.err.queue.length < 16 := by decide +kernel
theorem test_spill : Memory.read (after (.spillSetDone 0 false) trSpill).mem 0x108020D = 1 ∧
    ((after (.spillSetDone 0 false) trSpill).tgt 2).sumP =
      [(4, { prio := 0x22, lead := 104, leadOk := true, v := true })] ∧
    (after (.spillSetDone 0 true) trSpill).rd Reg.RNK_ERR = 4 := by decide +kernel
/-- A preparation for DEEP with every tree empty; the summary tables lie at 0x2000000. -/
def trFlush : State := setPwrPhase ((trPt'.wr64 Reg.RNK_SUM_BASE 0x2000000).modTgt 2 fun x =>
  { x with sumP := [(4, { prio := 0x40, lead := 34, leadOk := true, v := true })] }) 1
theorem wit_SpillsFlushAndLoad_flush : pwrPhase trFlush = 1 ∧ treesEmpty trFlush = true ∧ trFlush.rnkEn = true ∧
    Memory.wf trFlush.mem = true ∧ Tbl.nodup trFlush.tg = true ∧ sumBase trFlush 16 ≤ 2 ^ 52 ∧
    (∀ e ∈ trFlush.tg, e.1 < 16 ∧ Tbl.nodup e.2.sumP = true ∧ ∀ c ∈ e.2.sumP, c.1 < 2048) := by decide +kernel
theorem test_flush : (after .flushDone trFlush).load32 (0x2000000 + 2 * 0x2000 + 16) = 0xC2240 ∧
    (after .flushDone trFlush).bit Reg.RNK_STAT 2 = true := by decide +kernel
theorem test_rnk_ctrl : (after (.rnkCtrlWrite (privSec .port 3)) run1).rd Reg.RNK_CTRL = 1 ∧
    (after (.rnkCtrlWrite (privSec .port 3)) run1).rnk.rebuild = true ∧
    (after (.rnkCtrlWrite (privSec .port 0)) trPt).rnkEn = true := by decide +kernel
/-- A load of the tables that the flush wrote. -/
def trLoad : State := after (.rnkCtrlWrite (privSec .port 1))
  { (run1.wr64 Reg.RNK_SUM_BASE 0x2000000) with mem := (after .flushDone trFlush).mem }
theorem wit_SpillsFlushAndLoad_load : running trLoad = true ∧ trLoad.bit Reg.RNK_STAT 0 = true ∧ trLoad.rnk.rebuild = false ∧
    badWords trLoad [] 2 = [] := by decide +kernel
theorem test_load_done : ((after (.loadDone none []) trLoad).tgt 2).sumP =
    [(4, { prio := 0x40, lead := 34, leadOk := true, v := true })] ∧
    (after (.loadDone none []) trLoad).bit Reg.RNK_STAT 0 = false := by decide +kernel
/-- The tables of targets 0 and 1 have been read. -/
def trLoad2 : State := { trLoad with rnk := { trLoad.rnk with loaded := [1, 0] } }
theorem wit_SpillsFlushAndLoad_load_one : nextLoad trLoad2 2 = true ∧ toLoad trLoad2 ≠ [2] ∧ trLoad2.coh.failed = [] ∧
    ((after (.loadDone (some 2) []) trLoad2).tgt 2).sumP = [(4, { prio := 0x40, lead := 34, leadOk := true, v := true })] ∧
    (after (.loadDone (some 2) []) trLoad2).bit Reg.RNK_STAT 0 = true := by decide +kernel
theorem wit_SpillsFlushAndLoad_calm : (∀ e ∈ trSpill.tg, e.2.dsp = []) ∧ trSpill.failures (.spill 0) = 0 := by decide +kernel
-- a local input's event is level, a message event is edge
def opDrop (ev : EventId) : TOp := mkOp .drop false ev { prio := 0, group := false, cls := 0 } 0
def trDrop (ev : EventId) : State := tree (opDrop ev) [ent ev 0x40 0]
theorem wit_TreeOperations_drop : Issues (trDrop 21) 2 (opDrop 21) ∧ isLevel (trDrop 21) false 21 = true ∧
    latchOn (trDrop 21) 2 false 21 = false ∧ inTree (trDrop 21) 2 false 21 = true ∧
    ((after (.rem 2) (trDrop 21)).tgt 2).entries = [] := by unfold Issues; decide +kernel
theorem wit_TreeOperations_drop_edge : Issues (trDrop 4130) 2 (opDrop 4130) ∧ isLevel (trDrop 4130) false 4130 = false ∧
    ((after (.rem 2) (trDrop 4130)).tgt 2).entries = [ent 4130 0x40 0] := by unfold Issues; decide +kernel
-- the bit's line is not held: its clear waits in the lane
theorem test_clear_waits : ((after (.rem 2) (holds trClr0 [])).lane 0).map (·.ev) = [4130] ∧
    Memory.read (after (.rem 2) (holds trClr0 [])).mem 0x1080204 = 0xFF := by decide +kernel
/-- An insert that has to take the worst entry's leaf, while its cluster's spill buffer is full. -/
def opRepl : TOp := { opIns with refill := true, swept := true, repl := true }
def trCarry : State := (tree opRepl [ent 9 0x80 0]).setLane 0 (List.replicate 32 (spillOf run1 2 false 4200 0x22 none))
theorem wit_TreeOperations_carry : Issues trCarry 2 opRepl ∧ opRepl.kind = .ins ∧ insSpills trCarry 2 opRepl = true ∧
    spillFull trCarry 2 = true ∧ ((after (.ins 2) trCarry).tgt 2).skip = [opRepl] := by unfold Issues; decide +kernel
theorem wit_RefillsAndSweeps_held : Held trLead (bitAddr trLead 2 none 4130) 1 ∧ Owned trLead (bitAddr trLead 2 none 4130) 1 ∧
    AttrHeld trLead none 4130 ∧ trLead.failures (.refill 2 false) = 0 ∧ redirOf trLead (homeOf trLead 2 none) 4130 = none ∧
    Held trLines (bitAddr trLines 2 none (BitVec.ofNat 21 (4 * 1024))) 128 ∧ Owned trCalm (bitAddr trCalm 2 none 4130) 1 ∧
    AttrHeld trCalm none 4130 ∧ Owned trSpill (bitAddr trSpill 2 none 4200) 1 ∧ trFlush.coh.evb = [] := by
  unfold Held Owned AttrHeld Serves; decide +kernel
-- without its line a lead waits
theorem test_lead_waits : ((after (.leadArrive 2 false false) (holds trLead [])).tgt 2).leadP = some 4130 ∧
    ((after (.leadArrive 2 false false) (holds trLead [])).tgt 2).urgent = [] := by decide +kernel

/-! ### Targets (09) -/

def tgClaim : State := run1.modTgt 2 fun x =>
  { x with entries := [ent 4130 0x40 0], phys := { x.phys with pmask := 0xFF, split1 := 2 } }
theorem wit_ClaimsAndCompletions : running tgClaim = true ∧ 2 < tgClaim.par.targets ∧ (tgClaim.tgt 2).wait = none ∧
    claimPick tgClaim 2 0 = some (ent 4130 0x40 0) ∧ claimPick run1 2 0 = none ∧ (run1.tgt 2).wait = none := by decide +kernel
def tgAct : State := after (.claim 2 (.chan 0)) tgClaim
-- 0x40 - 2^2 + 1
theorem test_claim : (tgAct.tgt 2).phys.stack = [{ ev := 4130, group := true, eff := 0x40, pv := 0x3D, pend := none }] ∧
    (tgAct.tgt 2).ext = some (false, 4130) := by decide +kernel
theorem test_claim_none : ((after (.claim 2 (.chan 0)) run1).tgt 2).rsp = 0x1FFFFF := by decide +kernel
def tgIdle : State := after (.claimResponse 2) (after (.ext 2) (tgAct.modTgt 2 fun x => { x with slots := 2 }))
-- ID 4130, group 1 at bit 21, E 0x40 at bits 29..22, TAKEN
theorem test_claim_response : (tgIdle.tgt 2).rsp = 0x90201022 ∧ (tgIdle.tgt 2).wait = none := by decide +kernel
theorem test_peek : ((after (.peek 2 (.chan 0)) tgClaim).tgt 2).rsp = 0x90201022 ∧
    ((after (.peek 2 (.chan 0)) tgClaim).tgt 2).entries.length = 1 := by decide +kernel
theorem wit_ClaimsAndCompletions_end : running tgIdle = true ∧ field (4130 : W32) 31 21 = 0 ∧
    (onStack (tgIdle.tgt 2) false 4130).isSome = true ∧ lineOn tgIdle 2 false 4130 = false ∧
    latchOn tgIdle 2 false 4130 = false ∧ (tgIdle.tgt 2).phys.splitcOf false true = false ∧
    onSplit (tgIdle.tgt 2) false 4130 = none ∧ onStack (tgIdle.tgt 2) false 4131 = none ∧ tgIdle.err.queue.length < 16 := by
  decide +kernel
theorem test_complete : ((after (.complete 2 (.chan 1) 4130) tgIdle).tgt 2).phys.stack = [] ∧
    ((after (.deactivate 2 (.chan 1) 4130) tgIdle).tgt 2).phys.stack = [] := by decide +kernel
def tgSplit : State := tgIdle.modTgt 2 fun x => { x with phys := { x.phys with splitc1 := true } }
theorem test_priority_drop : ((after (.complete 2 (.chan 0) 4130) tgSplit).tgt 2).phys.stack = [] ∧
    ((after (.complete 2 (.chan 0) 4130) tgSplit).tgt 2).phys.split.map (·.ev) = [4130] := by decide +kernel
theorem test_bad_complete : (after (.complete 2 (.chan 0) 4131) tgIdle).rd (tgtOff 2 Reg.TGT_BADC_CNT) = 1 ∧
    ((after (.complete 2 (.chan 0) 4131) tgIdle).tgt 2).rsp = 0x100 := by decide +kernel
def tgPend : State := tgIdle.modTgt 2 fun x => setPendPart x false 4130 { prio := 0x30, group := true, cls := 0 } 7
theorem test_pend_again : ((after (.deactivate 2 (.chan 0) 4130) tgPend).tgt 2).opq.map (fun o => (o.kind, o.attr.prio, o.arr)) =
    [(.ins, 0x30, 7)] := by decide +kernel
-- SEND of event 3 to target 4 of instance 5
theorem wit_SendsAndSettings_send : field (0x2843 : W32) 31 18 = 0 ∧ field (0x2843 : W32) 17 4 = run1.instId.toNat * 128 + 4 ∧
    (icfgAttr run1 4 3).group = false := by decide +kernel
theorem test_send : ((after (.send 2 (.chan 0) 0x2843) run1).tgt 4).opq =
    [mkOp .ins false 3 (icfgAttr run1 4 3) 0] ∧ ((after (.send 2 (.chan 0) 0x2843) run1).tgt 2).rsp = 0 ∧
    ((after (.send 2 (.chan 1) 0x2843) run1).tgt 4).opq = [] ∧
    (after (.send 2 (.chan 1) 0x2843) run1).bit (tgtOff 4 Reg.TGT_ERR) 3 = true := by decide +kernel
theorem test_pmask : ((after (.setPmask 2 (.chan 1) 0x10) (run1.modTgt 2 fun x => { x with nsfloor := 0x80 })).tgt 2).phys.pmask =
    0x80 ∧ ((after (.setPmask 2 (.chan 0) 0x10) run1).tgt 2).phys.pmask = 0x10 := by decide +kernel
theorem test_split : ((after (.setSplit 2 (.chan 0) 0xDB) run1).tgt 2).phys =
    { (run1.tgt 2).phys with split1 := 3, splitc1 := true, split0 := 5, splitc0 := true } := by decide +kernel
def vpe7 : VWord := { VWord.empty with v := true, panel := 1 }
def tgVpe : State := (run1.setVword 7 vpe7).setPanel 1 { Panel.empty with state := .active, vbits := 16 }
theorem wit_SendsAndSettings_vpe : field (0x10007 : W32) 31 16 = 1 ∧ (7 : BitVec 16).toNat < tgVpe.par.vpes ∧
    (tgVpe.tgt 2).sw = none ∧ (tgVpe.tgt 2).ext = none ∧ (tgVpe.vword 7).v = true ∧ (tgVpe.vword 7).res = false ∧
    (tgVpe.tgt 2).vpe ≠ 7 := by decide +kernel
theorem test_set_vpe : ((after (.setVpe 2 (.chan 0) 0x10007) tgVpe).tgt 2).sw =
    some { step := .s2, old := none, new := some 7 } := by decide +kernel
theorem test_undefined_op : ((after (.undefinedOp 2 0xF 0 0) run1).tgt 2).rsp = 2 ∧
    (after (.undefinedOp 2 0xF 0 0) run1).bit (tgtOff 2 Reg.TGT_ERR) 1 = true := by decide +kernel
-- SET_VPE with V 0 and no vPE resident is a switch too
theorem wit_SendsAndSettings_no_vpe : field (0 : W32) 31 16 = 0 ∧ (run1.tgt 2).vpeV = false ∧
    ((after (.setVpe 2 (.chan 0) 0) run1).tgt 2).sw = some { step := .s2, old := none, new := none } := by decide +kernel
theorem test_opcodes : after (.undefinedOp 2 7 0 0) tgClaim = after (.peek 2 (.chan 0)) tgClaim ∧
    after (.undefinedOp 2 4 0 0x10) run1 = after (.setPmask 2 (.chan 0) 0x10) run1 := by decide +kernel
/-- vPE 7 runs on target 2 with event 4130 active and raised again; its Panel is then quiesced. -/
def tgVirt (st : PState) : State :=
  ((run1.setVword 7 { vpe7 with res := true, target := 2 }).setPanel 1 { Panel.empty with state := st, vbits := 16 }).modTgt 2 fun x =>
    { x with vpe := 7, vpeV := true, virt := { x.virt with stack := [{ ev := 4130, group := true, eff := 0x40, pv := 0x40,
                                                                       pend := some (some ({ prio := 0x30, group := true, cls := 0 }, 7)) }] } }
theorem wit_ClaimsAndCompletions_park : guestOn ((tgVirt .quiesced).tgt 2) = true ∧ vpeInsertable (tgVirt .quiesced) 7 = false ∧
    ((after (.deactivate 2 (.chan 2) 4130) (tgVirt .quiesced)).pnl.parkQ.map fun k => (k.v, k.ev, k.prio)) = [(7, 4130, 0x30)] ∧
    ((after (.deactivate 2 (.chan 2) 4130) (tgVirt .active)).tgt 2).opq.map (fun o => (o.virt, o.reent)) = [(true, true)] := by
  decide +kernel
/-- Over the frame, from the register port and from Burin A. -/
def frP (sec : Bool) : Path := .frame sec .port { wide := true }
theorem wit_frame : Offers tgClaim 2 (frP true) ∧ Offers tgClaim 2 (.frame false .burA) ∧ Offers tgClaim 2 (.chan 2) := by
  unfold Offers frP; decide +kernel
-- a 64-bit read of TGT_CLAIM: the claim below, the peek beside it in the upper half, on the access's byte lanes
theorem test_frame_claim :
    (after (.claim 2 (frP true)) run1).port.data = 0x001FFFFF001FFFFF ∧
    ((after (.claim 2 (frP true)) run1).port.q.map (·.rsp)) = [some (false, 0x001FFFFF001FFFFF)] ∧
    ((after (.claim 2 (frP true)) tgClaim).tgt 2).wait.map (·.wide) = some true ∧
    ((after (.claim 2 (frP true)) tgClaim).port.q.map (·.rsp)) = [none] ∧
    ((after (.claim 2 (frP true)) { tgClaim with tg := tgAct.tg }).tgt 2) = tgAct.tgt 2 := by decide +kernel
-- a write leaves its status in TGT_OPSTAT, the channel's response as it was
theorem test_frame_opstat : (after (.complete 2 (.frame true .burA) 4131) tgIdle).rd (tgtOff 2 Reg.TGT_OPSTAT) = 0x100 ∧
    ((after (.complete 2 (.frame true .burA) 4131) tgIdle).tgt 2).rsp = (tgIdle.tgt 2).rsp ∧
    ((after (.setPmask 2 (.frame true .burA) 0x2010) run1).tgt 2).nsfloor = 0x20 ∧
    ((after (.setSplit 2 (.frame false .burA) 0xDB) run1).tgt 2).phys.split1 = 3 ∧
    ((after (.setVpe 2 (.frame true .burA) 0x10007) tgVpe).tgt 2).sw.isSome = true := by decide +kernel
theorem test_context_3 : ((after (.claim 2 (.chan 3)) tgClaim).tgt 2).rsp = 2 ∧
    (after (.send 2 (.chan 3) 0x2843) run1).bit (tgtOff 2 Reg.TGT_ERR) 1 = true := by decide +kernel
-- SEND to all targets here, to an absent instance, to a target out of range
theorem wit_SendsAndSettings_all : (∀ j < run1.par.targets, j ≠ 2 → (run1.tgt j).opq.length < 64) ∧ run1.wft.ift = [] ∧
    field (0x40003 : W32) 19 18 = 1 ∧ present run1 9 = false ∧ targetsOf run1 5 ≤ 20 := by decide +kernel
theorem test_send_all : let t := after (.send 2 (.chan 0) 0x40003) run1
    (List.range 16).map (fun j => (t.tgt j).opq.length) = [1, 1, 0, 1, 1, 1, 1, 1, 1, 1, 1, 1, 1, 1, 1, 1] := by decide +kernel
theorem test_send_status : ((after (.send 2 (.chan 0) 0x4843) run1).tgt 2).rsp = 9 ∧
    ((after (.send 2 (.chan 0) 0x2943) run1).tgt 2).rsp = 4 := by decide +kernel
/-- vPE 7, resident on target 2, sends to itself, and to vPE 8 of another Panel. -/
def tgGuest : State := (tgVirt .active).setVword 8 { vpe7 with panel := 2 }
theorem wit_SendsAndSettings_guest : guestOn (tgGuest.tgt 2) = true ∧ vpeInsertable tgGuest 7 = true ∧
    ((after (.send 2 (.chan 2) 0x73) tgGuest).tgt 2).opq.map (fun o => (o.virt, o.ev, o.vpe)) = [(true, 3, 7)] ∧
    ((after (.send 2 (.chan 2) 0x83) tgGuest).tgt 2).rsp = 4 ∧
    ((after (.send 2 (.chan 2) 0x73) (tgVirt .quiesced)).pnl.parkQ.map (·.ev)) = [3] := by decide +kernel

/-! ### Panels and vPEs (10) -/

/-- Panel 1 ACTIVE with 16 event bits, vPE 7 in it with its tables at 0x40000 and 0x50000, its context at 0x8700. -/
def pn1 : State := (((tgVpe.wr64 Reg.PNL_VPE_BASE 0x8000).wr Reg.PNL_CTRL 1).store64 0x8708 0x40000).store64 0x8710 0x50000
def pnPark : State := { holds pn1 [0x21C, 0x1008] with pnl := { pn1.pnl with parkQ := [{ v := 7, ev := 4130, prio := 0x40, wid := none }] } }
theorem wit_ParksAndSwitches_park : running pnPark = true ∧ pnPark.move = none ∧ pnPark.pnl.parks.length < 128 ∧
    Held pnPark (vctx pnPark 7) 64 := by unfold Held; decide +kernel
/-- The park in progress, vPE 7 resident on target 2. -/
def pnParked : State := (after (.park false) pnPark).setVword 7 { vpe7 with res := true, target := 2 }
theorem wit_ParksAndSwitches_set : pnParked.pnl.parks[0]? = some { v := 7, ev := 4130, prio := 0x40, wid := none } ∧
    Memory.wf pnParked.mem = true ∧ (pnParked.vword 7).res = true ∧ leavingVpe pnParked 7 = false ∧ vpeLaneHas pnParked 7 4130 = false ∧
    pnParked.err.queue.length < 16 ∧ vHeldElse pnParked 7 4130 [] = none ∧ pnParked.failures (.park 0) = 0 ∧
    Owned pnParked (bitAddr pnParked 0 (some 7) 4130) 1 := by unfold Owned; decide +kernel
theorem test_park_set : Memory.read (after (.parkSetDone 0 .good) pnParked).mem 0x40204 = 4 ∧
    ((after (.parkSetDone 0 .good) pnParked).tgt 2).sumV = [(4, { prio := 0x40, lead := 34, leadOk := true, v := true })] ∧
    (after (.parkSetDone 0 .setFail) pnParked).rd Reg.PNL_ERR = 1 := by decide +kernel
/-- vPE 7 leaves target 2 with one active event. -/
def pnLeave : State := (pn1.setVword 7 { vpe7 with res := true, switching := true, target := 2 }).modTgt 2 fun x =>
  { x with sw := some { step := .s2, old := some 7, new := none }, vpe := 7, vpeV := true,
           virt := { x.virt with pmask := 0xF0, stack := [{ ev := 4130, group := true, eff := 0x40, pv := 0x3D, pend := none }] } }
theorem wit_ParksAndSwitches_save : running pnLeave = true ∧ Memory.wf pnLeave.mem = true ∧ flushedOut pnLeave 2 7 = true ∧
    (pnLeave.tgt 2).sumV = [] ∧ bitAt (dbWord pnLeave 7) 8 = false := by decide +kernel
def pnLeft : State := after (.switchSave 2 false []) pnLeave
-- word 4: PMASK 0xF0, depth 1 at bits 16..12; word 8: ID 4130, E at 28..21, PV at 36..29, V at 38
theorem test_switch_save : pnLeft.load64 0x8720 = 0x10F0 ∧ pnLeft.load64 0x8740 = 0x47A8001022 ∧
    (pnLeft.vword 7).res = false ∧ (pnLeft.tgt 2).virt = Ctx.empty := by decide +kernel
theorem test_switch_done : ((after (.switchDone 2) pnLeft).tgt 2).vpeV = false ∧
    (after (.switchDone 2) pnLeft).rd64 Reg.PNL_SWITCH_CNT = 1 := by decide +kernel
theorem wit_ParksAndSwitches_done : running pnLeft = true ∧
    (pnLeft.tgt 2).sw = some { step := .s4, old := some 7, new := none } := by decide +kernel
/-- vPE 7 comes back, its Panel with 11 event bits and one summary word. -/
def pnCome : State := ((((after (.switchDone 2) pnLeft).setPanel 1 { Panel.empty with state := .active, vbits := 11 }).modTgt 2
  fun x => { x with sw := some { step := .s2, old := none, new := some 7 } }).store32 0x50004 0xC2240)
theorem wit_ParksAndSwitches_load : running pnCome = true ∧ Memory.wf pnCome.mem = true ∧
    mayLoad pnCome { step := .s2, old := none, new := some 7 } 7 = true ∧
    (pnCome.panel (pnCome.vword 7).panel).vbits ≤ 21 := by decide +kernel
theorem test_switch_load : ((after (.switchLoad 2 false []) pnCome).tgt 2).virt.stack =
    [{ ev := 4130, group := true, eff := 0x40, pv := 0x3D, pend := none }] ∧
    ((after (.switchLoad 2 false []) pnCome).tgt 2).sumV = [(1, { prio := 0x40, lead := 34, leadOk := true, v := true })] ∧
    (after (.switchLoad 2 false []) pnCome).load32 0x50004 = 0 := by decide +kernel

/-- A descriptor of an opcode with its tag, and words 1 to 4. -/
def desc (op : Nat) (l : List W64) : Desc := { index := 0, w := (BitVec.ofNat 64 (op + 0x77 * 2 ^ 16) :: l) ++ List.replicate (7 - l.length) 0 }
/-- Ring 0 enabled with one descriptor fetched. -/
def onRing (s : State) (d : Desc) : State := (s.wr (ringOff 0 Reg.CMD_RCTRL) 0x61).setRing 0 { Ring.empty with fetched := [d] }
def pnCreate : State := onRing pn1 (desc 0x30 [2 + 16 * 2 ^ 10, 0x60000])
theorem wit_PanelAndVpeCommands_create : Starts pnCreate 0 0x30 (desc 0x30 [2 + 16 * 2 ^ 10, 0x60000]) ∧
    pnCreate.bit Reg.PNL_CTRL 0 = true ∧ pnCreate.pnl.restoring = false ∧ pnCreate.pnl.restored = false ∧
    (desc 0x30 [2 + 16 * 2 ^ 10, 0x60000]).panel < pnCreate.par.panels ∧ (pnCreate.panel 2).ring = none ∧
    (pnCreate.panel 2).state = .free ∧ capBad pnCreate 2 = false ∧ overcommit pnCreate 2 = false := by
  unfold Starts; decide +kernel
theorem test_panel_create : (after (.panelCreate 0) pnCreate).panel 2 =
    { Panel.empty with vbits := 16, vattBase := 0x60000, pend := some (staged pnCreate 2), toActive := true, ring := some 0 } := by
  decide +kernel
def pnAt (st : PState) (d : Desc) : State := onRing (pn1.setPanel 1 { Panel.empty with state := st, vbits := 16 }) d
theorem test_vattr : (after (.panelVattr 0 false) (pnAt .active (desc 0x31 [1 + 3 * 2 ^ 10 + 0x22 * 2 ^ 16 + 5 * 2 ^ 24]))).load64 48 = 0xA22 := by
  decide +kernel
theorem wit_PanelAndVpeCommands_starts : Starts (pnAt .active (desc 0x33 [1])) 0 0x33 (desc 0x33 [1]) ∧
    Starts (pnAt .active (desc 0x32 [1])) 0 0x32 (desc 0x32 [1]) ∧ shareCheck (pnAt .active (desc 0x32 [1])) 1 = none ∧
    Starts (pnAt .active (desc 0x31 [1])) 0 0x31 (desc 0x31 [1]) ∧ Starts (pnAt .quiesced (desc 0x34 [1])) 0 0x34 (desc 0x34 [1]) ∧
    Starts (pnAt .quiesced (desc 0x35 [1])) 0 0x35 (desc 0x35 [1]) := by unfold Starts; decide +kernel
theorem test_panel_states : ((after (.panelQuiesce 0) (pnAt .active (desc 0x33 [1]))).panel 1).state = .quiescing ∧
    ((after (.panelResume 0) (pnAt .quiesced (desc 0x34 [1]))).panel 1).toActive = true ∧
    ((after (.panelReset 0) (pnAt .quiesced (desc 0x35 [1]))).panel 1).state = .resetting ∧
    ((after (.panelShare 0) (pnAt .active (desc 0x32 [1]))).panel 1).pend.isSome = true ∧
    ((after (.panelShare 0) (pnAt .free (desc 0x32 [1]))).ring 0).recs.map (·.status) = [4] := by decide +kernel
def pnFree : State := pnAt .reset (desc 0x36 [3])
theorem wit_PanelAndVpeCommands_destroy : Starts ((onRing pn1 (desc 0x36 [2])).setPanel 2 { Panel.empty with state := .reset }) 0 0x36 (desc 0x36 [2]) ∧
    vpesOf (onRing pn1 (desc 0x36 [2])) 2 = [] := by unfold Starts; decide +kernel
theorem test_panel_destroy : ((after (.panelDestroy 0) ((onRing pn1 (desc 0x36 [2])).setPanel 2
    { Panel.empty with state := .reset })).panel 2).state = .destroying := by decide +kernel
-- doorbell: threshold 0x10, EN, target 2 of instance 5, event 4130
def dbw : W64 := 0x0000102202820110
/-- The attribute table lies at 0x100000, with 13 event bits. -/
def vpCreate : State := onRing (pn1.wr64 Reg.XLT_ATT_BASE 0x10000D) (desc 0x38 [8 + 2 ^ 16, 0x40000, 0x50000, dbw])
theorem wit_PanelAndVpeCommands_vpe : Starts vpCreate 0 0x38 (desc 0x38 [8 + 2 ^ 16, 0x40000, 0x50000, dbw]) ∧
    (vpCreate.vword 8).v = false ∧ vpeBusy vpCreate 8 = false ∧ Memory.wf vpCreate.mem = true ∧ reqFree vpCreate = true ∧
    dbRange vpCreate dbw = false ∧ dbGroup vpCreate 0 dbw = false ∧ dbLate vpCreate dbw = none ∧
    isLocal vpCreate (dbTgt dbw) = true ∧ vctx vpCreate 8 + 256 ≤ attAddr vpCreate (dbEvt dbw) := by
  unfold Starts; decide +kernel
theorem test_vpe_create : (after (.vpeCreate 0 .good) vpCreate).vword 8 =
    { VWord.empty with v := true, dbarm := true, panel := 1 } ∧ (after (.vpeCreate 0 .good) vpCreate).load64 0x8818 = dbw ∧
    ((after (.vpeCreate 0 .good) vpCreate).ring 0).recs.map (·.status) = [0] := by decide +kernel
def vpDb : State := (onRing (pn1.wr64 Reg.XLT_ATT_BASE 0x10000D) (desc 0x39 [7, dbw])).setVword 7 { vpe7 with res := true }
theorem test_vpe_doorbell : Starts vpDb 0 0x39 (desc 0x39 [7, dbw]) ∧ (vpDb.vword 7).res = true ∧
    (after (.vpeDoorbell 0 .good) vpDb).load64 0x8718 = dbw := by unfold Starts; decide +kernel
def vpGone : State := pnAt .quiesced (desc 0x3A [7])
theorem test_vpe_destroy : Starts vpGone 0 0x3A (desc 0x3A [7]) ∧ (vpGone.vword 7).v = true ∧
    ((after (.vpeDestroy 0 false) vpGone).vword 7).v = false := by unfold Starts; decide +kernel

/-- A command of ring 0 that waits for Panel 1. -/
def pnWait (st : PState) : State := (pn1.setPanel 1 { Panel.empty with state := st, vbits := 16, due := true, ring := some 0 }).setRing 0
  { Ring.empty with run := some { desc := desc 0x33 [1], status := 0, kind := .panel 1 } }
theorem wit_PanelPhasesEnd : (pnWait .quiescing).panel 1 = { Panel.empty with state := .quiescing, vbits := 16, due := true, ring := some 0 } ∧
    ((pnWait .quiescing).ring 0).fetched = [] ∧ running (pnWait .quiescing) = true := by decide +kernel
theorem test_quiesce_done : ((after (.quiesceDone 1) (pnWait .quiescing)).panel 1).state = .quiesced ∧
    ((after (.quiesceDone 1) (pnWait .quiescing)).ring 0).recs.map (·.status) = [0] ∧
    ((after (.panelResetDone 1) (pnWait .resetting)).panel 1).state = .reset ∧
    ((after (.panelDestroyDone 1) (pnWait .destroying)).panel 1) = Panel.empty := by decide +kernel
def pnSaved : State := { run1 with pnl := { run1.pnl with saved := true } }
theorem test_pnl_ctrl : (after (.pnlCtrlWrite (privSec .port 3)) pnSaved).rd Reg.PNL_CTRL = 1 ∧
    (after (.pnlCtrlWrite (privSec .port 3)) pnSaved).pnl.restoring = true := by decide +kernel
/-- A restore of Panel 2, ACTIVE with 16 event bits, shares 5 and 7; the vPE words are at their contexts. -/
def pnRest : State := ((((after (.pnlCtrlWrite (privSec .port 3)) ((pnSaved.wr64 Reg.PNL_SAVE_BASE 0x70000).wr64 Reg.PNL_VPE_BASE 0x8000)).store64
  0x70040 0x60101).store64 0x70048 0x700000005).store64 0x8728 0x200001)
theorem wit_PanelPhasesEnd_restore : running pnRest = true ∧ pnRest.pnl.restoring = true ∧ pnRest.par.vpes ≤ 65536 ∧
    ∀ p < 4, entryBad (pnRest.load64 (saveAddr pnRest p)) (pnRest.load64 (saveAddr pnRest p + 8))
      (pnRest.load64 (saveAddr pnRest p + 16)) (pnRest.load64 (saveAddr pnRest p + 24)) = false := by decide +kernel
theorem test_panel_restore : let t := after (.panelRestoreDone [] []) pnRest
    t.panel 2 = { Panel.empty with state := .active, vbits := 16, vattBase := 0x60000 } ∧
    t.rd (shareOff 2 Reg.PNL_SHR_LIVE1) = 7 ∧ (t.vword 7).v = true ∧ (t.vword 7).panel = 2 := by decide +kernel
/-- vPE 8 of the same Panel, resident on target 3 with tables at 0x60000 and context at 0x8800, has event 4130 active. -/
def pnElse : State := ((((pnParked.setVword 8 { vpe7 with res := true, target := 3 }).store64 0x8808 0x60000).modTgt 3 fun x =>
  { x with vpe := 8, vpeV := true, virt := { x.virt with stack := [{ ev := 4130, group := true, eff := 0x40, pv := 0x40, pend := none }] } }).setPanel 1
    { Panel.empty with state := .active, vbits := 16, vattBase := 0x80000 })
def pnElse' : State := holds pnElse [lineOf (attEntry pnElse true 1 4130), lineOf (attEntry pnElse true 1 4130) + 1, 0x220, 0x221]
theorem wit_ParksAndSwitches_else : vHeldElse pnElse' 7 4130 [] = some 8 ∧ (pnElse'.vword 8).res = true ∧ AttrHeld pnElse' (some 8) 4130 ∧
    (((after (.parkSetDone 0 .good) pnElse').tgt 3).virt.stack.map (·.pend.isSome)) = [true] := by
  unfold AttrHeld Serves; decide +kernel
-- a park waits for its context's line
theorem test_park_waits : (after (.park false) (holds pnPark [])).pnl.parks = [] := by decide +kernel
-- a boundary makes the created Panel ACTIVE with its shares live, and completes the command
theorem wit_PanelAndVpeCommands_boundary : let s := after (.panelCreate 0) (pnCreate.wr (shareOff 2 Reg.PNL_SHR_REQ0) 0x50005)
    (s.panel 2).toActive = true ∧ (s.panel 2).pend.isSome = true ∧ (s.panel 2).ring = some 0 ∧ (s.ring 0).run.isSome = true ∧ s.rst.phase ≠ .w2 := by
  decide +kernel
theorem test_activation : let t := after (.strokeBoundary false []) (after (.panelCreate 0) (pnCreate.wr (shareOff 2 Reg.PNL_SHR_REQ0) 0x50005))
    (t.panel 2).state = .active ∧ t.rd (shareOff 2 Reg.PNL_SHR_LIVE0) = 0x50005 ∧ (t.ring 0).run = none ∧
    (t.ring 0).recs.map (fun e => (e.status, e.op)) = [(0, 0x30)] := by decide +kernel

/-! ### Rings and their commands (11, 06) -/

/-- Ring 2 enabled with 64 slots, descriptors at 0x1000 and records at 0x2000. -/
def rg1 : State := ((run1.wr (ringOff 2 Reg.CMD_RCTRL) 0x61).wr64 (ringOff 2 Reg.CMD_RBASE) 0x1000).wr64 (ringOff 2 Reg.CMD_CBASE) 0x2000
theorem wit_CommandRings_db : ringEn rg1 2 = true ∧ 5 < ringN rg1 2 ∧ ringN rg1 2 ≤ 64 ∧
    outstanding rg1 2 (ringTail rg1 2) ≤ outstanding rg1 2 5 := by decide +kernel
theorem test_db : (after (.cmdDbWrite 2 (privSec .port 5)) rg1).rd (ringOff 2 Reg.CMD_TAIL) = 5 ∧
    (after (.cmdDbWrite 2 (privSec .port 64)) rg1).bit Reg.GLB_ERR 1 = true ∧
    (after (.cmdDbWrite 2 (privSec .port 5)) run1).bit (ringOff 2 Reg.CMD_RSTAT) 4 = true := by decide +kernel
theorem wit_CommandRings_en : ringEn run1 3 = false ∧ run1.bit (ringOff 3 Reg.CMD_RSTAT) 1 = false ∧ locked run1 3 = false ∧
    field (0x71 : W32) 8 4 = 7 := by decide +kernel
theorem test_rctrl : ringN (after (.cmdRctrlWrite 3 (privSec .burA 0x71)) run1) 3 = 128 ∧
    (after (.cmdRctrlWrite 3 (privSec .burA 0x71)) run1).rd (ringOff 3 Reg.CMD_HEAD) = 0x10000 := by decide +kernel
theorem test_rstat : (after (.cmdRstatClear 2 (privSec .port 0xFFFFFFFF)) (rg1.wr (ringOff 2 Reg.CMD_RSTAT) 0x1E)).rd (ringOff 2 Reg.CMD_RSTAT) = 2 := by
  decide +kernel
def rgMbx : State := mbxFill run1 2 (desc 0x22 []) [1, 2, 3, 4]
theorem test_mbx_ack : mbxValid rgMbx = true ∧ (after (.mbxAck (privSec .port 1)) rgMbx).rd64 (Reg.MBX_DATA + 24) = 0 ∧
    (after (.mbxAck (privSec .port 1)) rgMbx).rd64 Reg.MBX_STAT = 0x770004 := by decide +kernel
/-- A NOP of tag 0x77 in slot 0, and one with a reserved bit set in slot 1. -/
def rg2 : State := after (.cmdDbWrite 2 (privSec .port 2)) (holds ((rg1.store64 0x1000 0x770000).store64 0x1040 0x770200) [0x40, 0x41, 0x80])
theorem wit_CommandRings_fetch : nextFetch rg2 2 = some 0 ∧ rg2.failures (.desc 2) = 0 ∧ rg2.ring 2 = Ring.empty ∧
    descCheck (readDesc rg2 2 0) = none ∧ descCheck (readDesc rg2 2 1) = some 3 ∧ rg2.err.queue.length < 16 := by decide +kernel
def rg3 : State := after (.descriptorFetch 2 false) rg2
theorem test_fetch : (rg3.ring 2).fetched.map (·.tag) = [0x77] ∧
    (after (.descriptorFetch 2 true) rg2).bit (ringOff 2 Reg.CMD_RSTAT) 2 = true := by decide +kernel
def rg4 : State := after (.cmdNop 2) rg3
theorem test_nop : Starts rg3 2 0 (readDesc rg2 2 0) ∧ (rg4.ring 2).recs.map (fun e => (e.status, e.tag)) = [(0, 0x77)] := by
  unfold Starts; decide +kernel
theorem wit_CommandRings_bad : nextFetch rg4 2 = some 1 ∧ (rg4.ring 2).fetched = [] ∧ (rg4.ring 2).run = none := by decide +kernel
theorem test_bad_descriptor : ((after (.descriptorFetch 2 false) rg4).ring 2).recs.map (·.status) = [0, 3] := by decide +kernel
theorem wit_CommandRings_record : (rg4.ring 2).recs.length = 1 ∧ (∀ j, j < 8 → (rg4.ring j).run = none) ∧
    rg4.bit (ringOff 2 Reg.CMD_RSTAT) 3 = false ∧ ringN rg4 2 ≤ 65536 ∧ rg4.wft.owed = [] ∧ Memory.wf rg4.mem = true ∧
    (rg4.ring 2).recs.all (fun e => !e.cev) = true ∧ (rg4.ring 2).fetched.all (fun d => decide (descCheck d = none)) = true := by decide +kernel
-- PHASE 1, status 0, tag 0x77, opcode 0, ring 2 at bit 40
theorem test_record : (after (.completionRecordWrite 2 false) rg4).load64 0x2000 = 0x20000770001 ∧
    (after (.completionRecordWrite 2 false) rg4).rd (ringOff 2 Reg.CMD_HEAD) = 0x10001 ∧
    (after (.completionRecordWrite 2 true) rg4).bit (ringOff 2 Reg.CMD_RSTAT) 3 = true := by decide +kernel

def rgSync : State := onRing run1 (desc 0x01 [0x100])
theorem test_sync : Starts rgSync 0 1 (desc 0x01 [0x100]) ∧ Starts (onRing run1 (desc 0x01 [0])) 0 1 (desc 0x01 [0]) ∧
    (after (.sync 0) rgSync).bit Reg.MSG_FENCE 1 = false ∧ ((after (.sync 0) rgSync).ring 0).recs = [] ∧
    ((after (.sync 0) (onRing run1 (desc 0x01 [0]))).ring 0).recs.map (·.status) = [0] := by unfold Starts; decide +kernel
def inSafeSt (s : State) : State := { s with err := { s.err with safe := .safe } }
def exit0 : Desc := desc 0x40 []
theorem wit_SyncAndSafeCommands : Starts (onRing run1 exit0) 0 0x40 exit0 ∧ Starts (inSafeSt (onRing run1 exit0)) 0 0x40 exit0 ∧
    (onRing run1 exit0).err.safe = .out := by unfold Starts; decide +kernel
theorem wit_SyncAndSafeCommands_norun : ∀ u, ((inSafeSt (onRing run1 exit0)).core u).st ≠ .run := by
  intro u; cases u <;> decide +kernel
def safeRun : State := (inSafeSt (onRing run1 exit0)).modCore .a fun c => { c with st := .run }
theorem test_safe_exit : ((after (.safeExit 0) (onRing run1 exit0)).ring 0).recs.map (·.status) = [0] ∧
    ((after (.safeExit 0) (inSafeSt (onRing run1 exit0))).ring 0).recs.map (·.status) = [1] ∧
    (after (.safeExit 0) safeRun).fld Reg.GLB_SAFE 1 0 = 3 := by decide +kernel
def safeLeft : State := after (.safeExit 0) safeRun
theorem test_safe_leave : safeLeft.err.safe = .leaving (some 0) none ∧ (after .safeLeave safeLeft).err.safe = .out ∧
    ((after .safeLeave safeLeft).ring 0).recs.map (·.status) = [0] := by decide +kernel

/-- A table command of ring 0 over the tables of xlt1, with a quiet engine. -/
def tb (d : Desc) : State := onRing (holds (tables run1) [0x401, 0x402, 0xC01, 0xC02, 0xC08]) d
def mapSrc : Desc := desc 0x10 [4 + 2 ^ 24 + 5 * 2 ^ 36, 0x90000]
theorem wit_TableCommands_src : Starts (tb mapSrc) 0 0x10 mapSrc ∧ lookupWids (tb mapSrc) = [] ∧
    Memory.wf (tb mapSrc).mem = true ∧ mapSrc.src < 2 ^ srcBits (tb mapSrc) ∧ (readSrc (tb mapSrc) 4).valid = false := by
  unfold Starts; decide +kernel
theorem test_src_map : let t := after (.srcMap 0 .good) (tb mapSrc)
    t.load64 0x10080 = 0x14003 ∧ t.load64 0x10088 = 0x90000 ∧ (t.ring 0).recs.map (·.status) = [0] := by decide +kernel
def unSrc : Desc := desc 0x11 [3]
theorem test_src_unmap : Starts ((tb unSrc).store64 0x10070 0) 0 0x11 unSrc ∧ (readSrc ((tb unSrc).store64 0x10070 0) 3).mapCnt = 0 ∧
    (after (.srcUnmap 0 .good) ((tb unSrc).store64 0x10070 0)).load64 0x10060 = 0x10002 ∧
    ((after (.srcUnmap 0 .good) (tb unSrc)).ring 0).recs.map (·.status) = [1] := by unfold Starts; decide +kernel
-- source 3, data 9: event 4131 on target 2, priority 0x50, group 1
def mapEv : Desc := desc 0x12 [3 + 9 * 2 ^ 24, 0x0282000010235004]
theorem wit_TableCommands_map : Starts (tb mapEv) 0 0x12 mapEv ∧ keyMap (tb mapEv) mapEv = some 0x30090 ∧
    mapEv.ent.attr.group = true ∧ mapCheck (tb mapEv) (readSrc (tb mapEv) 3) mapEv.ent = none ∧
    (readMap (tb mapEv) 0x30090).valid = false ∧ remoteDest (tb mapEv) false mapEv.ent.dest = false ∧
    attEntry (tb mapEv) false 0 4131 = 0x30230 ∧ (tb mapEv).load64 0x30230 = 0 := by unfold Starts; decide +kernel
def tbMapped : State := after (.evMap 0 .good) (tb mapEv)
theorem test_ev_map : tbMapped.load64 0x30090 = 0x0282000010235005 ∧ tbMapped.load64 0x10070 = 17 ∧
    tbMapped.load64 0x30230 = 0x2823150 ∧ (tbMapped.ring 0).recs.map (·.status) = [0] := by decide +kernel
/-- The next command after the mapping. -/
def tb2 (d : Desc) : State := holds (onRing (after (.evMap 0 .good) (tb mapEv)) d) [0x401, 0x402, 0xC01, 0xC02, 0xC08]
def unEv : Desc := desc 0x13 [3 + 9 * 2 ^ 24]
def atEv : Desc := desc 0x14 [3 + 9 * 2 ^ 24, 0x2204]
theorem wit_TableCommands_att : Starts (tb2 unEv) 0 0x13 unEv ∧ Starts (tb2 atEv) 0 0x14 atEv ∧
    keyMap (tb2 atEv) atEv = some 0x30090 ∧ (readMap (tb2 atEv) 0x30090).valid = true ∧ keyGroup0 (tb2 atEv) atEv = false ∧
    isLocal (tb2 atEv) ((attDest ((tb2 atEv).load64 0x30230)).truncate 14) = true := by unfold Starts; decide +kernel
theorem test_ev_unmap : let t := after (.evUnmap 0 .good) (tb2 unEv)
    t.load64 0x30090 = 0x0282000010235004 ∧ t.load64 0x30230 = 0x2822150 ∧ t.load64 0x10070 = 16 := by decide +kernel
theorem test_ev_attr : let t := after (.evAttr 0 .good) (tb2 atEv)
    t.load64 0x30230 = 0x2823122 ∧ t.load64 0x30090 = 0x0282000010232205 ∧ (t.tgt 2).opq.map (·.kind) = [.rpr] := by decide +kernel
def invAll : Desc := desc 0x16 [2 ^ 24]
theorem test_xlt_inv : Starts (holds (tb invAll) []) 0 0x16 invAll ∧
    ((after (.xltInv 0 false) (holds (tb invAll) [])).ring 0).recs.map (·.status) = [0] := by
  unfold Starts; decide +kernel

-- event 4131 from target 2 to target 6 of instance 5
def mvEv : Desc := desc 0x15 [3 + 9 * 2 ^ 24, 0x0286000000000000]
theorem wit_Moves : Starts (tb2 mvEv) 0 0x15 mvEv ∧ keyMap (tb2 mvEv) mvEv = some 0x30090 ∧ keyGroup0 (tb2 mvEv) mvEv = false ∧
    field (mvEv.word 2) 63 48 = (tb2 mvEv).instId.toNat * 128 + 6 ∧ (attDest ((tb2 mvEv).load64 0x30230)).toNat = 0x282 := by
  unfold Starts; decide +kernel
def mv1 : State := after (.evMove 0 .good) (tb2 mvEv)
theorem test_ev_move : (mv1.tgt 2).opq.map (·.kind) = [.mvo] ∧ mv1.move.map (·.new) = some (.tgt 0x286) := by decide +kernel
/-- The move-out is admitted, the event resident on target 2. -/
def mv2 : State := mv1.modTgt 2 fun x => { x with adm := x.opq, opq := [], slots := 3, entries := [ent 4131 0x50 0] }
theorem wit_Moves_mvo : (headOp mv2 2).map (·.kind) = some .mvo ∧ (mv2.move.map (·.step)) = some .v1 ∧
    residentIn (mv2.tgt 2) false 4131 = some (ent 4131 0x50 0) ∧ activeIn (mv2.tgt 2) false 4131 = false := by decide +kernel
def mv3 : State := after (.mvo 2) mv2
theorem test_mvo : (mv3.tgt 2).entries = [] ∧ (mv3.tgt 6).opq.map (fun o => (o.kind, o.ev, o.attr.prio)) = [(.ins, 4131, 0x50)] ∧
    mv3.move.map (·.step) = some .v3 := by decide +kernel
def mvAct : State := mv2.modTgt 2 fun x => { x with phys := { x.phys with stack := [{ ev := 4131, group := true, eff := 1, pv := 1, pend := none }] } }
theorem test_mvo_busy : ((after (.mvo 2) mvAct).ring 0).recs.map (·.status) = [1] ∧ (after (.mvo 2) mvAct).move = none := by
  decide +kernel
def mv4 : State := after (.moveTablesVisible .good) mv3
theorem wit_Moves_tables : mv3.move.map (fun m => (m.step, m.found, m.mapA, m.attA)) = some (.v3, true, 0x30090, 0x30230) ∧
    Memory.wf mv3.mem = true ∧ laneHas mv3 2 none 4131 = false := by decide +kernel
theorem test_move_tables : mv4.load64 0x30090 = 0x0286000010235005 ∧ mv4.load64 0x30230 = 0x2863150 := by decide +kernel
theorem test_move_end : (mv4.move.map (oldHolds mv4)) = some false ∧ (after .moveRedirectRemove mv4).move = none ∧
    ((after .moveRedirectRemove mv4).ring 0).recs.map (·.status) = [0] := by decide +kernel

def setP (op : Nat) : Desc := desc op [4131]
theorem wit_EventStateCommands : Starts (tb2 (setP 0x20)) 0 0x20 (setP 0x20) ∧ Starts (tb2 (setP 0x21)) 0 0x21 (setP 0x21) ∧
    Starts (tb2 (setP 0x22)) 0 0x22 (setP 0x22) ∧ reqFree (tb2 (setP 0x22)) = true ∧
    findHolder (tb2 (setP 0x22)) (setP 0x22) = .tgt 2 4131 { prio := 0x50, group := true, cls := 0 } ∧
    mbxBusy (tb2 (setP 0x22)) = false := by unfold Starts; decide +kernel
theorem test_ev_set_clr : ((after (.evSetPend 0 .good) (tb2 (setP 0x20))).tgt 2).opq.map (·.kind) = [.ins] ∧
    ((after (.evClrPend 0 .good) (tb2 (setP 0x21))).tgt 2).opq.map (·.kind) = [.clr] := by decide +kernel
-- ID 4131, inactive, group 1 at bit 25, priority 0x50 at bits 36..29, EFF 0xFF, holder 0x282
theorem test_ev_query : (after (.evQuery 0 .good) (tb2 (setP 0x22))).rd64 Reg.MBX_DATA = 0x02821FEA02001023 ∧
    (after (.evQuery 0 .good) (tb2 (setP 0x22))).rd64 (Reg.MBX_DATA + 16) = 1 ∧
    ((after (.evQuery 0 .good) (tb2 (setP 0x22))).ring 0).recs.map (·.result) = [0x02821FEA02001023] := by decide +kernel

theorem wit_CommandRings_lines : Held rg2 0x1000 64 ∧ Held rg4 0x1040 64 ∧ Owned rg4 (ringCpl rg4 2) 32 ∧ ringBase rg2 2 = 0x1000 ∧
    ringCpl rg4 2 = 0x2000 ∧ (rg4.ring 2).recs.map (·.index) = [0] ∧ rg4.failures (.record 2) = 0 ∧ (rg4.ring 2).bad = false := by
  unfold Held Owned; decide +kernel
-- a descriptor whose line is not held waits
theorem test_fetch_waits : ((after (.descriptorFetch 2 false) (holds rg2 [])).ring 2).fetched = [] := by decide +kernel
theorem wit_TableCommands_lines : transWids (tb mapSrc) = [] ∧ Owned (tb mapSrc) (srcAddr (tb mapSrc) 4) 32 ∧
    Owned (tb unSrc) (srcAddr (tb unSrc) 3) 32 ∧ Serves (tb mapEv) (mapReads (tb mapEv) mapEv) ∧ Owned (tb mapEv) 0x30230 8 ∧
    Owned (tb mapEv) 0x30090 8 ∧ Owned (tb mapEv) (srcAddr (tb mapEv) 3 + 16) 8 ∧ Serves (tb2 unEv) (keyReads (tb2 unEv) unEv) ∧
    Serves (tb2 atEv) (keyReads (tb2 atEv) atEv) ∧ Owned (tb2 unEv) 0x30090 8 ∧ Owned (tb2 unEv) 0x30230 8 ∧
    (holds (tb invAll) []).coh.lines = [] ∧ (holds (tb invAll) []).coh.drop = [] := by unfold Owned Serves; decide +kernel
theorem wit_Moves_lines : Serves (tb2 mvEv) (keyReads (tb2 mvEv) mvEv) ∧ Owned mv3 0x30090 8 ∧ Owned mv3 0x30230 8 ∧
    mv2.wft.redirs = [] ∧ (mv4.move.map (oldThere mv4)) = some false ∧ mv4.wft.cmds = [] ∧ mv4.wft.reqWait = [] := by
  unfold Owned Serves; decide +kernel
theorem wit_EventStateCommands_lines : Serves (tb2 (setP 0x22)) (evReads (tb2 (setP 0x22)) (setP 0x22)) ∧
    queryReads (tb2 (setP 0x22)) (.tgt 2 4131 { prio := 0x50, group := true, cls := 0 }) = false := by unfold Serves; decide +kernel
/-- Line 3, of group 1 and without a holder: EV_SET_PEND makes its target the holder. -/
def evLine : Desc := desc 0x20 [35]
def tbLine : State := onRing (win1.wr (winOff 3 Reg.WIN_CTL) 0x8140) evLine
theorem wit_EventStateCommands_line : findHolder tbLine evLine = .tgt 2 35 { prio := 0x40, group := true, cls := 0 } ∧
    wiredEv tbLine 35 = true ∧ Starts tbLine 0 0x20 evLine ∧ ((after (.evSetPend 0 .good) tbLine).line 3).holder = some 0x282 := by
  unfold Starts; decide +kernel

/-! ### The Weft link (12) -/

/-- A flit with a good CHECK. -/
def flit (ty : Byte) (src dst : BitVec 7) (bc : Bool) (seq : Byte) (pay : Nat) : Flit :=
  wireFlit WPort.empty { ty := ty, dst := dst, pay := BitVec.ofNat 160 pay, src := src, bc := bc, hops := 1, port := none } seq
def wfOut : OutFlit := { ty := 0x10, dst := 9, pay := 1, src := 5, bc := false, hops := 1, port := none }
/-- Port 0 is up to port 1 of instance 9: SEQ 7 is expected, one flit is not acknowledged. -/
def wfx : WPort :=
  { WPort.empty with st := .up, phy := true, nbr := 9, nbrPort := 1, gotTrain := true, gotAck := true, credits := 2, rxCred := 32,
                     txSeq := 3, rxSeq := 7, rxAny := true, replay := [(1, wfOut), (2, wfOut)] }
/-- Instance 5, joined to instance 9, the Anchor. -/
def wf : State := modWft (setWport (tables run1) 0 wfx) fun w =>
  { w with jst := .joined, anchor := some 9, gen := 4, routes := [(9, { port := 0, hops := 1 })], tag := 0xABCD1234 }
/-- Its other port trains. -/
def wfT : State := modStk (setWport wf 1 { WPort.empty with st := .training, rxCred := 32, phy := true }) fun k =>
  { k with snapDue := none, snapUse := .measure }
def wfDisc : State := modWft wf fun w => { w with jst := .discovery, disc := true, routes := [], itab := [(5, ownHello wf)] }
def wfAnchor : State := modWft wf fun w => { w with anchor := some 5, itab := [(5, ownHello wf), (9, { tag := 9, ports := [] })] }

theorem test_phy : (wport (after (.wftPhyUp 1) wf) 1).st = .training ∧ (wport (after (.wftPhyDown 1) wfT) 1).st = .down ∧
    (wport (after (.wftPhyDown 0) wf) 0).st = .down ∧ (wport (after (.wftPhyDown 0) wf) 0).resend = [wfOut, wfOut] ∧
    (after (.wftPhyDown 0) wf).bit Reg.WFT_ERR 7 = true ∧ (after (.wftPhyDown 0) wf).fld Reg.WFT_PSTAT 31 24 = 1 := by
  decide +kernel
theorem wit_WeftPorts : wftOn wf = true ∧ (0 : BitVec 2).toNat < wf.par.weftPorts ∧ (wport wf 0).st = .up ∧
    wf.err.queue.length < 16 ∧ (wport wf 0).replay ≠ [] ∧ (wport wfT 1).st = .training ∧ wf.wft.outq = [] := by decide +kernel
theorem wit_WeftPorts_resend : ∀ q, (wport wf q).resend = [] := fun q =>
  Tbl.get_of_all (fun x : WPort => x.resend = []) _ _ q rfl (by decide +kernel)
/-- The flit waits for a credit. -/
def wfWait : State := modWft (modWport wf 0 fun x => { x with credits := 0 }) fun w => { w with outq := [wfOut] }
theorem test_credit : let t := after (.wftCredit 0) wfWait
    t.wft.outq = [] ∧ (wport t 0).replay.map (·.1) = [1, 2, 3] ∧ flitSeq (wport t 0).sent = 3 ∧
    flitAck (wport t 0).sent = 6 ∧ checkOk (wport t 0).sent = true ∧ t.rd64 Reg.WFT_TX_CNT = 1 := by decide +kernel
theorem wit_WeftPorts_route : (Tbl.find wfWait.wft.routes wfOut.dst.toNat).map (·.port) = some 0 ∧ (wport wfWait 0).credits = 0 ∧
    (wport wfWait 0).replay.length < 64 := by decide +kernel
-- TRAIN of port 1: sending port in bits 1:0, TAG from bit 2
theorem test_train_idle : flitPay (wport (after (.trainTimer 1) wfT) 1).sent = BitVec.ofNat 160 (1 + 0xABCD1234 * 4) ∧
    flitType (wport (after (.idleTimer 0) wf) 0).sent = 0 ∧ flitAckV (wport (after (.idleTimer 0) wf) 0).sent = true := by
  decide +kernel
theorem test_replay_check : (wport (after (.replayTimeout 0) wf) 0).st = .training ∧
    (after (.checkErrorFlit 0 (flit 0x13 9 5 false 7 0 ^^^ 1)) wf).bit Reg.WFT_ERR 2 = true ∧
    (wport (after (.checkErrorFlit 0 (flit 0x13 9 5 false 7 0 ^^^ 1)) wf) 0).st = .training := by decide +kernel
/-- Every credit that port 0 has returned is used. -/
def wfNoCred : State := modWport wf 0 fun x => { x with rxCred := 0 }
theorem wit_WeftPorts_beyond : wftOn wfNoCred = true ∧ (wport wfNoCred 0).st = .up ∧ checkOk (flit 0x13 9 5 false 7 0) = true ∧
    flitType (flit 0x13 9 5 false 7 0) = 0x13 ∧ (wport wfNoCred 0).rxCred = 0 ∧ wfNoCred.err.queue.length < 16 ∧
    (after (.dack 0 (flit 0x13 9 5 false 7 0)) wfNoCred).bit Reg.WFT_ERR 3 = true ∧
    (wport (after (.dack 0 (flit 0x13 9 5 false 7 0)) wfNoCred) 0).rxCred = 32 := by decide +kernel
theorem wit_WeftPorts_timers : wftOn wfT = true ∧ tagged wfT = true ∧ (wport wfT 1).st = .training ∧ wf.wft.jst ≠ .isolated ∧
    (wport wf 0).rxAny = true := by decide +kernel
theorem test_prst : (wport (after (.wftPrst (privSec .port 1)) wf) 0).st = .training ∧
    (after (.wftPrst (privSec .port 1)) wf).fld Reg.WFT_PSTAT 31 24 = 1 := by decide +kernel

theorem wit_unknown : let f := flit 0x55 9 5 false 7 0
    running wf = true ∧ portUp wf 0 = true ∧ checkOk f = true ∧ malformed f = true ∧ flitSeq f = (wport wf 0).rxSeq ∧
    (after (.unknownFlit 0 f) wf).bit Reg.WFT_ERR 0 = true ∧ (after (.unknownFlit 0 f) wf).rd Reg.WFT_ERR_CNT = 1 := by
  decide +kernel
/-- IDLE with ACK 1 valid. -/
def idleF : Flit := wireFlit { WPort.empty with rxSeq := 2, rxAny := true } { wfOut with ty := 0, src := 9, dst := 5, pay := 0 } 0
theorem wit_idle : Reaches wf 0 idleF 0 ∧ flitAckV idleF = true ∧ flitAck idleF = 1 ∧
    (wport (after (.idle 0 idleF) wf) 0).replay = [(2, wfOut)] := by unfold Reaches Arrives Free; decide +kernel
def wfFirst : State := modWft (setWport run1 1 { WPort.empty with st := .training, rxCred := 32, phy := true, gotTrain := true, nbr := 9 })
  fun w => { w with jst := .training }
theorem wit_idle_up : Reaches wfFirst 1 idleF 0 ∧ (wport (after (.idle 1 idleF) wfFirst) 1).st = .up ∧
    (after (.idle 1 idleF) wfFirst).wft.outq.map (fun f => (f.ty, f.port, f.pay)) =
      [(2, some 1, BitVec.ofNat 160 (0x89 * 2 ^ 72))] := by unfold Reaches Arrives Free; decide +kernel
def trainF (src : BitVec 7) (tag : Nat) : Flit := flit 1 src 5 false 0 (2 + tag * 4)
theorem wit_train : Reaches wfT 1 (trainF 14 77) 1 ∧ (wport wfT 1).gotAck = false ∧
    (wport (after (.train 1 (trainF 14 77)) wfT) 1).nbr = 14 ∧ (wport (after (.train 1 (trainF 14 77)) wfT) 1).nbrPort = 2 := by
  unfold Reaches Arrives Free; decide +kernel
theorem test_loop : Reaches wfT 1 (trainF 5 0xABCD1234) 1 ∧
    (wport (after (.train 1 (trainF 5 0xABCD1234)) wfT) 1).st = .disabled ∧
    (after (.train 1 (trainF 5 0xABCD1234)) wfT).bit Reg.WFT_ERR 4 = true := by unfold Reaches Arrives Free; decide +kernel
theorem test_dup_train : Reaches (setWport wfDisc 1 (wport wfT 1)) 1 (trainF 5 3) 1 ∧ wfDisc.wft.routes = [] ∧
    (after (.train 1 (trainF 5 3)) (setWport wfDisc 1 (wport wfT 1))).wft.jst = .isolated := by
  unfold Reaches Arrives Free; decide +kernel
/-- HELLO of instance 2, TAG 0x22, port 0 to instance 9. -/
def hello2 (bc : Bool) (gen : Nat) (src : BitVec 7) : Flit := flit 2 src 5 bc 7 (0x22 + gen * 2 ^ 32 + 0x89 * 2 ^ 64)
theorem wit_hello : Reaches wfDisc 0 (hello2 true 0 2) 2 ∧
    Tbl.find (after (.hello 0 (hello2 true 0 2)) wfDisc).wft.itab 2 = some { tag := 0x22, ports := [some 9, none, none, none] } ∧
    (after (.hello 0 (hello2 true 0 5)) wfDisc).wft.jst = .isolated := by unfold Reaches Arrives Free; decide +kernel
theorem wit_hello_join : Reaches wfDisc 0 (hello2 false 3 2) 2 ∧ (after (.hello 0 (hello2 false 3 2)) wfDisc).wft.jst = .joining ∧
    Reaches wf 0 (hello2 false 0 2) 2 ∧ isAnchor wf = false ∧ Tbl.find wf.wft.routes 2 = none ∧
    flitType (wport (after (.hello 0 (hello2 false 0 2)) wf) 0).sent = 7 := by unfold Reaches Arrives Free; decide +kernel
def joinF (id : Nat) : Flit := flit 7 9 5 false 7 (0x22 + id * 2 ^ 32 + 0x89 * 2 ^ 64)
theorem wit_join : Reaches wfAnchor 0 (joinF 2) 7 ∧ isAnchor wfAnchor = true ∧
    (after (.join 0 (joinF 2)) wfAnchor).wft.compute = true ∧ ((after (.join 0 (joinF 2)) wfAnchor).wft.itab.map (·.1)) = [2, 5, 9] ∧
    Tbl.find wfAnchor.wft.routes 9 ≠ none ∧ ((after (.join 0 (joinF 9)) wfAnchor).wft.itab.map (·.1)) = [5] := by
  unfold Reaches Arrives Free; decide +kernel
/-- The Anchor 5 and its neighbour 9 each know the link between them. -/
def wfTwo : State := modWft wfAnchor fun w =>
  { w with itab := [(5, { tag := 1, ports := [some 9, none, none, none] }), (9, { tag := 2, ports := [none, some 5] })] }
theorem wit_join_again : Reaches wfTwo 0 (joinF 9) 7 ∧ isAnchor wfTwo = true ∧ wfTwo.wft.jst = .joined ∧
    Tbl.find wfTwo.wft.routes 9 ≠ none ∧ (reached wfTwo.wft.itab 5).contains 9 = true ∧
    ((after (.join 0 (joinF 9)) wfTwo).wft.itab.map (·.1)) = [5] ∧ (after (.join 0 (joinF 9)) wfTwo).wft.compute = true := by
  unfold Reaches Arrives Free; decide +kernel
def linkF (warm : Bool) : Flit := flit 8 9 5 false 7 (1 + warm.toNat * 2 ^ 9)
theorem wit_linkdn : Reaches wf 0 (linkF true) 8 ∧ (wport (after (.linkdn 0 (linkF true)) wf) 0).st = .training ∧
    Reaches wfAnchor 0 (linkF false) 8 ∧ (after (.linkdn 0 (linkF false)) wfAnchor).wft.compute = true ∧
    (Tbl.find wfAnchor.wft.itab 9).isSome = true := by unfold Reaches Arrives Free; decide +kernel
theorem wit_linkdn_warm : Reaches wfTwo 0 (linkF true) 8 ∧ wfTwo.wft.disc = false ∧ wfTwo.err.queue.length < 16 ∧
    isAnchor wfTwo = true ∧ (wport (after (.linkdn 0 (linkF true)) wfTwo) 0).failed = none ∧
    (Tbl.find (after (.linkdn 0 (linkF true)) wfTwo).wft.itab 5).map (·.ports) = some [none, none, none, none] ∧
    (after (.linkdn 0 (linkF true)) wfTwo).wft.compute = true := by unfold Reaches Arrives Free; decide +kernel
def wfLost : State := modWport wf 1 fun x => { x with failed := some 14 }
theorem wit_port_down : (wport wfLost 1).failed = some 14 ∧ portUp wfLost 1 = false ∧
    flitPay (wport (after (.portDownTimeout 1) wfLost) 0).sent = BitVec.ofNat 160 (1 + 14 * 4) := by decide +kernel
theorem wit_port_down_route : isAnchor wfLost = false ∧ anchorId wfLost = 9 ∧ wfLost.wft.jst = .joined ∧
    wfLost.wft.disc = false ∧ (Tbl.find wfLost.wft.routes 9).map (·.port) = some 0 ∧ portUp wfLost 0 = true := by decide +kernel
theorem wit_settled : wftOn wfDisc = true ∧ (wfDisc.wft.itab.map (·.1)) = [5] ∧
    (after .floodSettled wfDisc).wft.anchor = some 5 ∧ (after .floodSettled wfDisc).wft.compute = true ∧
    (after .floodSettled (modWft wfDisc fun w => { w with jst := .joined })).bit Reg.WFT_ERR 8 = true := by decide +kernel
theorem wit_redisc : wfT.wft.jst = .joined ∧ (wfT.rd Reg.WFT_CTRL ||| 0x100) = 0x1CF ∧ 4 ≤ wfT.fld Reg.WFT_CTRL 7 4 ∧
    (after (.wftRedisc (privSec .burA 0x1CF)) (modWft wfT fun w => { w with anchor := some 5 })).wft.disc = true := by
  decide +kernel

/-! The ring of six instances of 12, "Example: discovery of a ring". -/

def ring6 : Tbl Hello :=
  [(5, 9, 11), (9, 2, 5), (2, 14, 9), (14, 7, 2), (7, 11, 14), (11, 5, 7)].map fun e =>
    (e.1, { tag := 0, ports := [some (BitVec.ofNat 7 e.2.1), some (BitVec.ofNat 7 e.2.2), none, none] })
theorem test_ring_routes : [14, 9, 7, 5, 11].map (fun d => (routeTo ring6 2 d).map fun r => (r.port.toNat, r.hops.toNat)) =
    [some (0, 1), some (1, 1), some (0, 2), some (1, 2), some (0, 3)] := by decide +kernel
theorem test_ring_parent : parentOf ring6 2 11 = 0 ∧ (routeTo ring6 11 2).map (·.hops) = some 3 ∧ childOf ring6 2 2 = 3 ∧
    childOf ring6 2 5 = 2 := by decide +kernel

def wfRoutes : State := modWft wfAnchor fun w =>
  { w with jst := .discovery, routes := [], compute := true,
           itab := [(5, { tag := 1, ports := [some 9] }), (9, { tag := 2, ports := [none, some 5] })] }
theorem wit_routes : isAnchor wfRoutes = true ∧
    (routedSet wfRoutes.wft.itab 5).length = (reached wfRoutes.wft.itab 5).length ∧
    (after .routesComputed wfRoutes).wft.gen = 5 ∧ (after .routesComputed wfRoutes).wft.tmapWait = [9] ∧
    (after .routesComputed wfRoutes).wft.outq.length = 6 := by decide +kernel
/-- A ROUTE flit from the Anchor 9: GEN 6, PARENT 0, CHILD 0; the entry of instance 16 g + 9 leads through port 0, 1 hop. -/
def routeF (g : Nat) (seq : Byte) : Flit := flit 3 9 5 false seq (6 + g * 2 ^ 8 + 0x44 * 2 ^ (32 + 72))
def wfDisc9 : State := modWft wfDisc fun w => { w with anchor := some 9, disc := false }
theorem wit_route : Reaches wfDisc9 0 (routeF 0 7) 3 ∧
    (after (.route 0 (routeF 0 7)) wfDisc9).wft.genIn.map (·.groups.map (·.1)) = some [0] := by unfold Reaches Arrives Free; decide +kernel
def wfSeven : State := modWft wfDisc9 fun w =>
  { w with genIn := some { gen := 6, src := 9, groups := (List.range 7).map fun g => (g + 1, 0), parent := 0, child := 0 } }
theorem wit_route_eighth : Reaches wfSeven 0 (routeF 0 7) 3 ∧
    (after (.route 0 (routeF 0 7)) wfSeven).wft.routes = [(9, { port := 0, hops := 1 })] ∧
    (after (.route 0 (routeF 0 7)) wfSeven).wft.gen = 6 ∧ flitType (wport (after (.route 0 (routeF 0 7)) wfSeven) 0).sent = 4 := by
  unfold Reaches Arrives Free; decide +kernel
def tmapF (bc : Bool) : Flit := flit 4 9 5 bc 7 (32 + 15 * 2 ^ 8 + 2 ^ 13)
theorem wit_tmap : Reaches wf 0 (tmapF false) 4 ∧
    (after (.tmap 0 (tmapF true)) wf).wft.tmaps = [(9, { targets := 32, attBits := 15, xltEn := true })] ∧
    (after (.tmap 0 (tmapF false)) (modWft wfAnchor fun w => { w with tmapWait := [9, 2] })).wft.tmapWait = [2] := by
  unfold Reaches Arrives Free; decide +kernel
def commitF : Flit := flit 5 9 5 true 7 (1000 + 4 * 2 ^ 48 + 1500 * 2 ^ 64 + 9 * 2 ^ 112)
def wfCommitted : State := after (.commit 0 commitF) wfDisc9
theorem wit_commit : Reaches wfDisc9 0 commitF 5 ∧ wfCommitted.stk.commitIn = some (1000, 1) ∧
    wfCommitted.wft.joinAt = some 1500 ∧ wfCommitted.fld Reg.STK_ALIGN 3 0 = 9 := by unfold Reaches Arrives Free; decide +kernel
theorem wit_commit_kept : (modWft wfDisc9 fun w => { w with keepCount := true }).wft.jst = .discovery ∧
    (after (.commit 0 commitF) (modWft wfDisc9 fun w => { w with keepCount := true })).stk.commitIn = none := by decide +kernel
def wfAtJoin : State := modStk { wfCommitted with count := 1500 } fun k => { k with commitIn := none }
theorem wit_join_at : wftOn wfAtJoin = true ∧ ¬(wfAtJoin.count - 1500).toInt < 0 ∧ wfAtJoin.win = [] ∧
    (after (.joinAtReached 70) wfAtJoin).wft.jst = .joined ∧ (after (.joinAtReached 70) wfAtJoin).rd Reg.WFT_DISC_TIME = 70 := by
  decide +kernel
theorem wit_align : Reaches wf 0 (flit 6 9 5 true 7 5000) 6 ∧
    (after (.align 0 (flit 6 9 5 true 7 5000)) wf).stk.alignIn = some (5000, 1) := by unfold Reaches Arrives Free; decide +kernel
def wfDue : State := modStk (modWft wfAnchor fun w => { w with child := 1 }) fun k => { k with alignDue := true }
theorem wit_align_stroke : wftOn wfDue = true ∧ wfDue.stk.alignDue = true ∧
    flitType (wport (after .alignStroke wfDue) 0).sent = 6 := by decide +kernel

/-- RAISE of message event 4131 for target 2: PRIO 0x50, group 1, IFT 3, ARRIVAL 77, SOURCE 0x1234. -/
def raiseF (kind w target : Nat) : Flit :=
  flit 0x10 9 5 false 7 (4131 + target * 2 ^ 21 + 0x50 * 2 ^ 28 + 2 ^ 39 + kind * 2 ^ 40 + 3 * 2 ^ 44 + w * 2 ^ 53 +
    77 * 2 ^ 64 + 21 * 2 ^ 112 + 0x1234 * 2 ^ 128)
theorem wit_raise : Reaches wf 0 (raiseF 0 0 2) 0x10 ∧ ownMsg wf 4131 = true ∧
    ((after (.raise 0 (raiseF 0 0 2)) wf).tgt 2).opq.map (fun o => (o.ev, o.attr.prio, o.arr)) = [(4131, 0x50, 77)] ∧
    flitPay (wport (after (.raise 0 (raiseF 0 0 2)) wf) 0).sent = 3 := by unfold Reaches Arrives Free; decide +kernel
theorem test_raise_wired : Reaches wf 0 (raiseF 0 1 2) 0x10 ∧
    (Tbl.find (after (.raise 0 (raiseF 0 1 2)) wf).wft.rl 4131).map (fun r => (r.origin, r.lineNo)) = some (9, 21) := by
  unfold Reaches Arrives Free; decide +kernel
-- a LEVEL of the asserted line has come since its last RAISE: this one is a level line's
/-- What is known here of line 21 of instance 9. -/
def rl21 (level fresh : Bool) : RLine := { origin := 9, lineNo := 21, level := level, state := true, fresh := fresh, latch := false, code := none }
def wfFresh : State := modWft wf fun w => { w with rl := [(4131, rl21 false true)], lseqIn := [(36885, 5)] }
theorem wit_raise_level : Reaches wfFresh 0 (raiseF 0 1 2) 0x10 ∧
    ((after (.raise 0 (raiseF 0 1 2)) wfFresh).tgt 2).opq.map (·.level) = [true] ∧
    (Tbl.find (after (.raise 0 (raiseF 0 1 2)) wfFresh).wft.rl 4131).map (·.level) = some true := by
  unfold Reaches Arrives Free; decide +kernel
theorem test_raise_fault : let t := after (.raise 0 (raiseF 0 0 99)) wf
    flitPay (wport t 0).sent = 0x203 ∧ t.bit Reg.XLT_FAULT cDest = true ∧ t.fld Reg.XLT_FLOG0 23 0 = 0x1234 ∧
    t.fld Reg.XLT_FLOG1 20 0 = 4131 := by decide +kernel
def sendF : Flit := flit 0x10 9 5 false 7 (6 + 2 * 2 ^ 21 + 2 * 2 ^ 40 + 3 * 2 ^ 44)
theorem wit_raise_send : Reaches wf 0 sendF 0x10 ∧ ((after (.raise 0 sendF) wf).tgt 2).opq.map (·.ev) = [6] := by
  unfold Reaches Arrives Free; decide +kernel
def levelF (on : Bool) (q : Nat) : Flit := flit 0x11 9 5 false 7 (4131 + 2 * 2 ^ 21 + on.toNat * 2 ^ 28 + q * 2 ^ 29 + 21 * 2 ^ 37)
def wfLev : State := modWft wf fun w => { w with rl := [(4131, rl21 true false)], lseqIn := [(36885, 5)] }
theorem wit_level : Reaches wfLev 0 (levelF false 6) 0x11 ∧ ((after (.level 0 (levelF false 6)) wfLev).tgt 2).opq.map (·.kind) = [.drop] ∧
    ((after (.level 0 (levelF false 5)) wfLev).tgt 2).opq = [] ∧
    (Tbl.find (after (.level 0 (levelF true 3)) wf).wft.rl 4131).map (fun r => (r.level, r.state)) = some (true, true) ∧
    Tbl.find (after (.level 0 (levelF true 3)) wf).wft.lseqIn 36885 = some 3 := by
  unfold Reaches Arrives Free; decide +kernel
theorem wit_level_again : Reaches wfLev 0 (levelF true 5) 0x11 ∧
    (∃ r, Tbl.find wfLev.wft.rl 4131 = some r ∧ lineIs r (levelF true 5) = true) ∧
    (Tbl.find (after (.level 0 (levelF true 5)) wfLev).wft.rl 4131).map (·.fresh) = some true := by
  unfold Reaches Arrives Free
  exact ⟨by decide +kernel, ⟨_, rfl, by decide +kernel⟩, by decide +kernel⟩
def hstateF (code : Nat) : Flit := flit 0x12 9 5 false 7 (17 + code * 2 ^ 12)
def wfHeld : State := wf.modLine 17 fun l => { l with holder := some (BitVec.ofNat 14 (9 * 128 + 3)) }
theorem wit_hstate : Reaches wfHeld 0 (hstateF 2) 0x12 ∧ (wfHeld.line 17).holder = some 1155 ∧
    (after (.hstate 0 (hstateF 2)) wfHeld).fld (winOff 17 Reg.WIN_FILT) 18 17 = 2 ∧
    ((after (.hstate 0 (hstateF 3)) wfHeld).line 17).holder = none := by unfold Reaches Arrives Free; decide +kernel
def wfIft : State := modWft wf fun w => { w with ift := [(3, { dst := 9, pay := 0, q := 0 })] }
theorem wit_dack : Reaches wfIft 0 (flit 0x13 9 5 false 7 3) 0x13 ∧ (after (.dack 0 (flit 0x13 9 5 false 7 3)) wfIft).wft.ift = [] := by
  unfold Reaches Arrives Free; decide +kernel

/-- CMD of a code for event 4131 of target 2, REQ 4. -/
def cmdF (code att : Nat) : Flit := flit 0x20 9 5 false 7 (code + 4 * 2 ^ 4 + 4131 * 2 ^ 12 + 2 * 2 ^ 33 + att * 2 ^ 64)
theorem wit_WeftCommands : Reaches wf 0 (cmdF 1 0x150) 0x20 ∧ ownMsg wf (cmdEvent (cmdF 1 0x150)) = true ∧
    Memory.wf wf.mem = true ∧ ((after (.wftSetPend 0 (cmdF 1 0x150)) wf).tgt 2).opq.map (fun o => (o.kind, o.attr.prio)) = [(.ins, 0x50)] ∧
    ((after (.wftClrPend 0 (cmdF 2 0x150)) wf).tgt 2).opq.map (·.kind) = [.clr] ∧
    (after (.wftClrPend 0 (cmdF 2 0x150)) wf).wft.owed.length = 1 := by unfold Reaches Arrives Free; decide +kernel
theorem test_att : attAddr wf 4131 = 0x30230 ∧ (after (.wftAttWrite 0 (cmdF 3 0x3150) false) wf).load64 0x30230 = 0x3150 ∧
    (after (.wftAttClaim 0 (cmdF 4 0x2823150) false) wf).load64 0x30230 = 0x2823150 ∧
    (after (.wftAttRelease 0 (cmdF 5 0) false) (wf.store64 0x30230 0x3150)).load64 0x30230 = 0x2150 := by decide +kernel
/-- The entry of event 4131 is in use and mapped. -/
def wfAtt : State := wf.store64 0x30230 0x2823150
theorem wit_WeftCommands_att : Reaches wfAtt 0 (cmdF 4 0x3150) 0x20 ∧ cmdGrp1 (cmdF 4 0x3150) = false ∧
    cmdMoves (cmdF 4 0x3150) = false ∧ attMapped (wfAtt.load64 0x30230) = true ∧
    (after (.wftAttClaim 0 (cmdF 4 0x3150) false) wfAtt).load64 0x30230 = 0x2823150 ∧
    (after (.wftAttWrite 0 (cmdF 3 0x2000) false) wfAtt).load64 0x30230 = 0x2822150 := by
  unfold Reaches Arrives Free; decide +kernel
-- ATT_RELEASE with MAPPED 1 puts back what the entry held before the claim
def cmdF8 (code att : Nat) : Flit := flit 0x20 9 5 false 8 (code + 4 * 2 ^ 4 + 4131 * 2 ^ 12 + 2 * 2 ^ 33 + att * 2 ^ 64)
def wfClaimed : State := after (.wftAttClaim 0 (cmdF 4 0x2823150) false) (wf.store64 0x30230 0x77)
theorem wit_WeftCommands_undo : wfClaimed.load64 0x30230 = 0x2823150 ∧ wfClaimed.wft.claims = [(4131, 0x77)] ∧
    (after (.wftAttRelease 0 (cmdF8 5 0x1000) false) wfClaimed).wft.claims = [] ∧
    (after (.wftAttRelease 0 (cmdF8 5 0x1000) false) wfClaimed).load64 0x30230 = 0x77 := by decide +kernel
def wfPend : State := ((wf.wr Reg.RNK_CTRL 1).wr Reg.RNK_PT_BASE 0x40000)
theorem test_pend_test : wfPend.rnkEn = true ∧ residentIn (wfPend.tgt 2) false 4131 = none ∧
    pendBit (putBit wfPend 2 none 4131 true) 2 none 4131 = true ∧
    (after (.wftPendTest 0 (cmdF 6 0) false) (putBit wfPend 2 none 4131 true)).mem = wfPend.mem ∧
    bitAt (flitPay (wport (after (.wftPendTest 0 (cmdF 6 0) false) (putBit wfPend 2 none 4131 true)) 0).sent) 20 = true := by
  decide +kernel
theorem test_wft_query : let t := after (.wftQuery 0 (cmdF 7 0x150) false) wf
    (wport t 0).replay.length = 4 ∧ bitAt (flitPay (wport t 0).sent) 21 = true := by decide +kernel
theorem wit_WeftCommands_range : ownMsg wf (cmdEvent (flit 0x20 9 5 false 7 (1 + 0x12 * 2 ^ 12))) = false ∧
    ownMsg wf 0x25 = false ∧ field (flitPay (wport (after (.wftQuery 0 (flit 0x20 9 5 false 7 (7 + 0x25 * 2 ^ 12)) false) wf) 0).sent) 19 12 =
      stBadRange := by decide +kernel
/-- Ring 2's EV_SET_PEND waits for its CRSP, REQ 4. -/
def wfReq (c : Cont) (p0 : Option W64) : State :=
  (modWft wf fun w => { w with cmds := [(4, { ring := 2, inst := 9, cont := c, part0 := p0, part1 := none })] }).setRing 2
    { Ring.empty with run := some { desc := desc 0x20 [4131], status := 0, kind := .remote } }
def crspF (status part data : Nat) : Flit := flit 0x21 9 5 false 7 (4 * 2 ^ 4 + status * 2 ^ 12 + part * 2 ^ 21 + data * 2 ^ 64)
theorem wit_crsp : Reaches (wfReq .setClr none) 0 (crspF 1 0 0) 0x21 ∧
    ((after (.crsp 0 (crspF 1 0 0) .good) (wfReq .setClr none)).ring 2).recs.map (·.status) = [1] ∧
    (after (.crsp 0 (crspF 1 0 0) .good) (wfReq .setClr none)).wft.cmds = [] := by unfold Reaches Arrives Free; decide +kernel
theorem wit_crsp_parts : Reaches (wfReq .query none) 0 (crspF 3 0 0) 0x21 ∧
    ((after (.crsp 0 (crspF 3 0 0) .good) (wfReq .query none)).ring 2).recs.map (·.status) = [3] ∧
    (after (.crsp 0 (crspF 3 0 0) .good) (wfReq .query none)).wft.cmds.map (·.2.cont) = [.rest] ∧
    (after (.crsp 0 (crspF 3 2 0) .good) (wfReq .rest none)).wft.cmds = [] := by unfold Reaches Arrives Free; decide +kernel
theorem test_crsp_query : (after (.crsp 0 (crspF 0 0 0x77) .good) (wfReq .query none)).wft.cmds.map (·.2.part0) = [some 0x77] ∧
    (after (.crsp 0 (crspF 0 7 0x99) .good) (wfReq .query (some 0x77))).rd64 (Reg.MBX_DATA + 8) = 0x99 ∧
    (after (.crsp 0 (crspF 0 7 0x99) .good) (wfReq .query (some 0x77))).rd64 (Reg.MBX_DATA + 16) = 3 ∧
    ((after (.crsp 0 (crspF 0 7 0x99) .good) (wfReq .query (some 0x77))).ring 2).recs.map (·.result) = [0x77] := by decide +kernel

/-! Clauses of their own -/
-- a malformed request, a RAISE and a CMD beyond the credits
theorem test_beyond : (after (.raise 0 (raiseF 0 0 2)) wfNoCred).bit Reg.WFT_ERR 3 = true ∧
    (after (.wftSetPend 0 (cmdF 1 0x150)) wfNoCred).bit Reg.WFT_ERR 3 = true ∧
    (after (.unknownFlit 0 (flit 0x55 9 5 false 7 0)) wfNoCred).bit Reg.WFT_ERR 3 = true := by decide +kernel
-- from W1 on neither TRAIN nor IDLE goes out
theorem wit_WeftPorts_warm : ({ wfT with rst := { wfT.rst with phase := .w2 } } : State).rst.phase ≠ .run := by decide +kernel
-- the Anchor adopts new routes while joined: an unacknowledged RAISE goes out again
def wfAgain : State := modWft wfRoutes fun w =>
  { w with jst := .joined, routes := [(9, { port := 0, hops := 1 })], ift := [(3, { dst := 9, pay := 7, q := 0 })], outq := [] }
theorem wit_WeftRoutes_again : wfAgain.wft.jst = .joined ∧ (∀ e ∈ wfAgain.wft.routes,
      Tbl.find (routesOf wfAgain.wft.itab wfAgain.instId.toNat wfAgain.instId.toNat) e.1 ≠ none) ∧
    (resent wfAgain).map (fun f => (f.ty, f.pay)) = [(0x10, 7)] ∧
    ((after .routesComputed wfAgain).wft.outq ++ (wport (after .routesComputed wfAgain) 0).replay.map (·.2)).any (fun f => f.ty = 0x10) = true := by
  decide +kernel
theorem wit_WeftRoutes_levels : noLevels wfAgain := by
  have h : ∀ a < 64, ∀ b < 64, winLevel wfAgain (64 * a + b) = false := by decide +kernel
  refine ⟨fun n hn => ?_, by decide +kernel⟩
  have e := h (n / 64) (by omega) (n % 64) (by omega)
  rwa [Nat.div_add_mod] at e
/-- Another instance adopts a GEN while joined. -/
def wfSevenJ : State := modWft wfSeven fun w => { w with jst := .joined, routes := [(9, { port := 0, hops := 1 })] }
theorem wit_WeftRoutes_adopt : Reaches wfSevenJ 0 (routeF 0 7) 3 ∧ (after (.route 0 (routeF 0 7)) wfSevenJ).wft.gen = 6 := by
  unfold Reaches Arrives Free; decide +kernel
-- the last TMAP: COMMIT to every instance, or to the newcomers alone
def wfMaps (j : JState) : State := modWft wfAnchor fun w => { w with jst := j, tmapWait := [9], child := 1 }
theorem wit_WeftRoutes_maps : Reaches (wfMaps .discovery) 0 (tmapF false) 4 ∧ Reaches (wfMaps .joined) 0 (tmapF false) 4 ∧
    isAnchor (wfMaps .joined) = true ∧ (after (.tmap 0 (tmapF false)) (wfMaps .discovery)).wft.joinAt.isSome = true ∧
    ((after (.tmap 0 (tmapF false)) (wfMaps .joined)).wft.outq.map (·.ty)) = [5] := by unfold Reaches Arrives Free; decide +kernel
-- a LINKDN that names a newcomer, and a JOIN of an ID whose TAG is known
theorem wit_WeftJoining_refused : Reaches wfDisc 0 (flit 8 9 5 false 7 (1 + 5 * 4)) 8 ∧
    (after (.linkdn 0 (flit 8 9 5 false 7 (1 + 5 * 4))) wfDisc).wft.jst = .isolated := by unfold Reaches Arrives Free; decide +kernel
def joinOwn : Flit := flit 7 9 5 false 7 (2 + 9 * 2 ^ 32 + 0x89 * 2 ^ 64)
theorem wit_WeftJoining_own : Reaches wfTwo 0 joinOwn 7 ∧ (Tbl.find wfTwo.wft.itab 9).map (·.tag) = some 2 ∧
    (after (.join 0 joinOwn) wfTwo).wft.compute = true ∧ (Tbl.find (after (.join 0 joinOwn) wfTwo).wft.itab 9).isSome = true := by
  unfold Reaches Arrives Free; decide +kernel
-- inter-target events and their ranges
theorem test_cmd_target : let e := flit 0x20 9 5 false 7 (1 + 4 * 2 ^ 4 + 3 * 2 ^ 12 + 2 * 2 ^ 33)
    ((after (.wftSetPend 0 e) wf).tgt 2).opq.map (fun o => (o.ev, o.setp)) = [(3, true)] ∧
    field (flitPay (wport (after (.wftClrPend 0 (flit 0x20 9 5 false 7 (2 + 4 * 2 ^ 4 + 4131 * 2 ^ 12 + 99 * 2 ^ 33))) wf) 0).sent) 19 12 =
      stBadRange := by decide +kernel
-- a move of another instance: PEND_TEST queues the move-out, an active event answers BUSY, the redirect's end is acknowledged
theorem test_cmd_move : ((after (.wftPendTest 0 (cmdF 6 0x4822150) false) wf).tgt 2).opq.map (·.kind) = [.mvo] ∧
    ((after (.wftPendTest 0 (cmdF 6 0x4822150) false) wf).wft.redirs.map fun r => (r.inst, r.req)) = [(9, 4)] ∧
    field (flitPay (wport (after (.wftPendTest 0 (cmdF 6 0) false) (wf.modTgt 2 fun x => { x with phys := { x.phys with
      stack := [{ ev := 4131, group := true, eff := 1, pv := 1, pend := none }] } })) 0).sent) 19 12 = stBusy := by decide +kernel
-- ATT_WRITE: a free entry is mapped, one with another destination claimed
theorem test_att_uses : (after (.wftAttWrite 0 (cmdF 3 0x4823150) false) wf).load64 0x30230 = 0x4823150 ∧
    (after (.wftAttWrite 0 (cmdF 3 0x4823150) false) (wf.store64 0x30230 0x2822150)).load64 0x30230 = 0x2823150 ∧
    (after (.wftAttWrite 0 (cmdF 3 0x4823150) false) (wf.store64 0x30230 0x2822150)).wft.claims = [(4131, 0x2822150)] := by
  decide +kernel
-- a SEND of target 2 to target 3 of instance 9
theorem wit_SendsAndSettings_remote : present wf 9 = true ∧ iftFree wf = some 0 ∧
    ((after (.send 2 (.chan 0) 0x4833) (modWft wf fun w => { w with tmaps := [(9, { targets := 32, attBits := 15, xltEn := true })] })).wft.ift.map fun e =>
      (e.2.dst, field e.2.pay 41 40)) = [(9, 2)] := by decide +kernel

/-! ### The coherent agent (13) -/

def acc (who : AccWho) (l : Nat) (u w : Bool) : CohAcc := { who := who, line := BitVec.ofNat 46 l, unique := u, waited := w }
/-- A table access of Burin A, of class 7. -/
def accA (l : Nat) (u : Bool) : CohAcc := acc (.burin .a) l u false
-- 01 R10: park 5, lookup 2, load 6, spill 4; the load has waited 16 cycles
theorem test_class_order : [AccWho.park 0, .lookup 0, .load, .spill 0, .slowSet 0, .burin .b].map (accClass run1) = [5, 2, 6, 4, 3, 7] ∧
    accFirst run1 [acc (.park 0) 1 true false, acc (.lookup 0) 2 false false, acc .load 3 false true, acc (.spill 0) 4 true false] =
      some (acc .load 3 false true) ∧
    accFirst run1 [acc (.park 0) 1 true false, acc (.lookup 0) 2 false false, acc (.lookup 1) 3 false false] =
      some (acc (.lookup 0) 2 false false) := by decide +kernel
theorem wit_CoherentRequests : running run1 = true ∧ run1.coh.drop = [] ∧ (∀ j, j < 8 → (run1.ring j).run = none) ∧
    Tbl.find run1.coh.reqs 0x21 = none ∧ run1.err.queue.length < 16 ∧ lineState run1 0x408 = none ∧
    freeWay run1 0x408 = some 0 ∧ accWaits run1 (accA 0x408 true) = true ∧
    accFirst run1 ([accA 0x408 true].filter fun a => accWaits run1 a && accReady run1 a) = some (accA 0x408 true) := by
  decide +kernel
/-- The agent with one line in a state, and a request outstanding under tag 0x21. -/
def cohSt (l : Nat) (x : Moesi) : State := modCoh run1 fun c => { c with lines := [(l, x)], ways := [(l, 0)] }
def cohReq (s : State) (op : CohOp) (l : Nat) (u lost : Bool) (delay : Option Nat) : State :=
  putReq s 0x21 { newReq op l (some (.burin .a)) 7 u with lost := lost, delay := delay }
theorem test_issue : (Tbl.find (after (.cohRequestIssue [accA 0x408 true] 0x21) run1).coh.reqs 0x21).map (·.op) = some .rdU ∧
    (after (.cohRequestIssue [accA 0x408 true] 0x21) run1).coh.ways = [(0x408, 0)] ∧
    (Tbl.find (after (.cohRequestIssue [accA 0x408 true] 0x21) (cohSt 0x408 .s)).coh.reqs 0x21).map (·.op) = some .upg ∧
    (after (.cohRequestIssue [accA 0x408 true] 0x21) run1).coh.out = some { op := 2, line := 0x408, tag := 0x21 } ∧
    ((after (.cohRequestIssue [accA 0x408 true] 0x21) run1).wol.contains Reg.COH_MODE) = true := by decide +kernel
/-- A full set 8, its way 0 modified; no line of it has been used since the reset. -/
def cohFull : State := modCoh run1 fun c =>
  { c with lines := (List.range 16).map fun i => (8 + 256 * i, if i = 0 then .m else .s),
           ways := (List.range 16).map fun i => (8 + 256 * i, i) }
theorem test_evict : freeWay cohFull 0x2008 = none ∧ victim cohFull 0x2008 = some 8 ∧ lineState cohFull 8 = some .m ∧
    accFirst cohFull ([accA 0x2008 false].filter fun a => accWaits cohFull a && accReady cohFull a) = some (accA 0x2008 false) ∧
    (after (.cohRequestIssue [accA 0x2008 false] 0x21) cohFull).coh.evb.map (fun e => (e.line, e.dirty)) = [(8, true)] ∧
    (Tbl.find (after (.cohRequestIssue [accA 0x2008 false] 0x21) cohFull).coh.reqs 0x21).map (·.op) = some .wbD ∧
    freeWay (after (.cohRequestIssue [accA 0x2008 false] 0x21) cohFull) 0x2008 = some 0 := by decide +kernel
-- the line used last is not the next victim (R309)
theorem test_plru : let s := modCoh cohFull fun c => cohUse c 8
    (victim s 0x2008).any (· ≠ 8) = true ∧
    (victim (modCoh s fun c => (List.range 15).foldl (fun c i => cohUse c (8 + 256 * (i + 1))) c) 0x2008) = some 8 := by decide +kernel
def cohDrop : State := modCoh (cohSt 8 .s) fun c => { c with drop := [(8, .flush)] }
theorem wit_CoherentRequests_drop : running cohDrop = true ∧ nextDrop cohDrop = some 8 ∧ lineState cohDrop 8 = some .s ∧
    (Tbl.find (after (.cohRequestIssue [] 0x21) cohDrop).coh.reqs 0x21).map (·.op) = some .evC := by decide +kernel
theorem test_gnt : lineState (after (.gnt 0x21 2) (cohReq (cohSt 8 .s) .upg 8 true false none)) 8 = some .m ∧
    (Tbl.find (after (.gnt 0x21 2) (cohReq run1 .upg 8 true true none)).coh.reqs 0x21).map (fun q => (q.op, q.retries)) = some (.rdU, 1) ∧
    (after (.gnt 0x22 2) (cohReq run1 .upg 8 true true none)).bit Reg.COH_ERR 3 = true := by decide +kernel
theorem test_gnt_d : let t := after (.gntD 0x21 3 0x1122334455667788 false) (cohReq run1 .rdS 8 false false none)
    lineState t 8 = some .o ∧ Memory.read t.mem 0x200 = 0x88 ∧ Memory.read t.mem 0x207 = 0x11 ∧ t.rd64 Reg.COH_FILL_CNT = 1 := by
  decide +kernel
theorem test_poison_err : let s := cohReq run1 .rdS 8 false false none
    lineState (after (.gntD 0x21 1 5 true) s) 8 = none ∧ (after (.gntD 0x21 1 5 true) s).bit Reg.COH_ERR 1 = true ∧
    (after (.err 0x21 .err) s).bit Reg.COH_ERR 2 = true ∧ (after (.err 0x21 .err) s).coh.reqs = [] ∧
    (after (.err 0x21 .err) s).coh.failed = [(.burin .a, 8)] ∧
    (after (.err 0x21 .err) s).rd64 Reg.COH_ERR_LOG = 0x800000000000023A := by decide +kernel
-- a poisoned GNT_D of a UPG leaves no line
theorem test_poison_upg : lineState (after (.gntD 0x21 2 5 true) (cohReq (cohSt 8 .s) .upg 8 true false none)) 8 = none := by
  decide +kernel
theorem wit_CoherentRequests_out : let s := cohReq run1 .rdS 8 false false none
    (Tbl.find s.coh.reqs 0x21).map (fun q => (q.delay, q.held)) = some (none, none) ∧
    (Tbl.find s.coh.reqs 0x21).map (fun q => (q.op, q.cls)) = some (.rdS, 7) ∧
    (Tbl.find s.coh.reqs 0x21).map (·.who) = some (some (.burin .a)) ∧
    s.coh.drop = [] ∧ (∀ j, j < 8 → (s.ring j).run = none) ∧ Memory.wf s.mem = true ∧ running s = true := by decide +kernel
-- R311: reserved encodings, a stray beat, and 6 and 3 as the last defined ones
theorem test_proto : let s := cohReq run1 .rdS 8 false false none
    (after (.err 0x21 (.rsp 7)) s).bit Reg.COH_ERR 3 = true ∧ (after (.err 0x21 (.rsp 7)) s).coh.failed = [(.burin .a, 8)] ∧
    (after (.err 0x21 (.rsp 6)) s).bit Reg.COH_ERR 3 = false ∧ (after (.err 0x22 .beat) s).bit Reg.COH_ERR 3 = true ∧
    (after (.err 0 (.snp 4 8)) s).bit Reg.COH_ERR 3 = true ∧ (after (.err 0 (.snp 3 8)) s).bit Reg.COH_ERR 3 = false := by decide +kernel
theorem test_reissue : (Tbl.find (after (.retryReissue 0x21) (cohReq run1 .rdS 8 false false (some 9))).coh.reqs 0x21).map (·.delay) =
    some none := by decide +kernel
/-- A retry's delay is drawn from a free value; what it does to the rest is fixed. -/
theorem test_retry (s : State) (h : s = cohReq run1 .rdS 8 false false none) :
    ((after (.retry 0x21) s).coh.draws, (after (.retry 0x21) s).rd64 Reg.COH_RETRY_CNT, (after (.retry 0x21) s).rd Reg.COH_RETRY_MAX) =
      (1, 1, 1) := by subst h; decide +kernel

theorem test_snoops : (after (.snS 8 0x44) (cohSt 8 .m)).coh.srsp.map (·.op) = some 6 ∧ lineState (after (.snS 8 0x44) (cohSt 8 .m)) 8 = some .o ∧
    (after (.snU 8 0x44) (cohSt 8 .e)).coh.srsp.map (·.op) = some 4 ∧ lineState (after (.snU 8 0x44) (cohSt 8 .e)) 8 = none ∧
    (after (.snI 8 0x44) (cohSt 8 .e)).coh.srsp.map (·.op) = some 1 ∧ (after (.snS 8 0x44) (cohSt 8 .s)).coh.srsp.map (·.op) = some 2 := by
  decide +kernel
theorem wit_CoherentSnoops : (∀ x, x ∈ [Moesi.m, .o, .e, .s] → inEvb (cohSt 8 x) 8 = false ∧ reqFor (cohSt 8 x) 8 = none ∧
    (cohSt 8 x).coh.drop = [] ∧ running (cohSt 8 x) = true ∧ trimWays (cohSt 8 x).coh = (cohSt 8 x).coh) ∧ lineState run1 8 = none := by decide +kernel
theorem test_snoop_upg : (Tbl.find (after (.snU 8 0x44) (cohReq (cohSt 8 .s) .upg 8 true false none)).coh.reqs 0x21).map (·.lost) = some true := by
  decide +kernel
/-- An eviction outstanding under tag 0x21. -/
def cohOut (s : State) (op : CohOp) (l : Nat) : State := putReq s 0x21 (newReq op l none 0 false)
/-- The example of 13: line 8 of target 12's table, evicted by WB_D with tag 0x21, crossed by a snoop. -/
def cohEv : State := cohOut (modCoh run1 fun c => { c with evb := [{ line := 8, dirty := true, snooped := false, tag := 0x21, data := 7 }] })
  .wbD 8
theorem wit_CoherentRequests_evict_err : (Tbl.find cohEv.coh.reqs 0x21).map (·.who) = some none ∧
    (after (.err 0x21 .err) cohEv).coh.evb = [] ∧ (after (.err 0x21 .err) cohEv).bit Reg.COH_ERR 2 = true := by decide +kernel
def cohEv1 : State := after (.snS 8 0x44) cohEv
theorem test_example : reqFor cohEv 8 = none ∧ lineState cohEv 8 = none ∧ cohEv1.coh.srsp.map (fun r => (r.op, r.data.map (·.dirty))) = some (4, some true) ∧
    (after (.wbGo 0x21) cohEv1).coh.evb = [] ∧ (after (.wbGo 0x21) cohEv1).coh.wbq.map (·.dirty) = [false] ∧
    (after .writebackLastBeatAccept (after (.wbGo 0x21) cohEv1)).coh.wbq = [] := by decide +kernel
def cohEvC : State := cohOut (modCoh run1 fun c => { c with evb := [{ line := 8, dirty := false, snooped := false, tag := 0x21, data := 0 }] })
  .evC 8
theorem test_ev_ack : (after (.evAck 0x21) cohEvC).coh.evb = [] ∧ (after (.evAck 0x21) cohEvC).coh.reqs = [] ∧
    cohEvC.coh.drop = [] ∧ (∀ j, j < 8 → (cohEvC.ring j).run = none) := by decide +kernel
def cohOwn : State := cohReq (run1.wr Reg.COH_MODE 1) .rdU 8 true false none
theorem test_held : ownerMode cohOwn = true ∧ (reqFor cohOwn 8).map (·.2.held) = some none ∧
    (Tbl.find (after (.snU 8 0x44) cohOwn).coh.reqs 0x21).map (·.held) = some (some (.snU, 0x44)) ∧
    (after (.gntD 0x21 2 9 false) (after (.snU 8 0x44) cohOwn)).coh.srsp.map (fun r => (r.op, r.data.map (·.dirty))) = some (4, some true) := by
  decide +kernel
theorem wit_CoherentSnoops_second : let s := after (.snU 8 0x44) cohOwn
    (reqFor s 8).map (·.2.held) = some (some (.snU, 0x44)) ∧ inEvb s 8 = false ∧
    (after (.snU 8 0x45) s).coh.srsp.map (fun r => (r.op, r.tag)) = some (1, 0x45) ∧
    (after (.snU 8 0x45) s).bit Reg.COH_ERR 3 = true := by decide +kernel
theorem test_coh_flush : (after (.cohFlushReq (privSec .port 1)) (cohSt 8 .m)).coh.drop = [(8, .flush)] ∧
    (after (.cohFlushReq (privSec .port 1)) (cohSt 8 .m)).bit Reg.COH_FLUSH 1 = false ∧
    (after .cohFlushDone (run1.setBitR Reg.COH_FLUSH 1 false)).bit Reg.COH_FLUSH 1 = true := by decide +kernel
/-- A clear waits in lane 0 for line 0x42008: its grant lets the lane go on (07 R165). -/
def cohLane : State := cohReq { holds trClr0 [] with lanes := (after (.rem 2) (holds trClr0 [])).lanes } .rdU 0x42008 true false none
theorem test_grant_drains : (cohLane.lane 0).length = 1 ∧ cohLane.coh.drop = [] ∧
    (after (.gntD 0x21 2 0xFF00000000 false) cohLane).lane 0 = [] ∧
    Memory.read (after (.gntD 0x21 2 0xFF00000000 false) cohLane).mem 0x1080204 = 0xFB := by decide +kernel
-- a flush waits for the lines that its write named, not for those upset later
theorem test_flush_names : (after .cohFlushDone ((modCoh run1 fun c => { c with drop := [(8, .upset)] }).setBitR Reg.COH_FLUSH 1 false)).bit
    Reg.COH_FLUSH 1 = true := by decide +kernel
-- a request on behalf of a Panel's parks is known by its Panel
theorem test_accPanels : (Tbl.find (after (.cohRequestIssue [acc (.park 0) 0x1008 true false] 0x21) (holds pnParked [])).coh.reqs 0x21).map
    (·.pnls) = some [1] := by decide +kernel

/-! ### The side-band port (15) -/

-- the check value of the SMBus PEC polynomial
theorem test_crc8 : crc8 [0x31, 0x32, 0x33, 0x34, 0x35, 0x36, 0x37, 0x38, 0x39] = 0xF4 := by decide +kernel
/-- A write half with a good CHK. -/
def half8 (s : State) (cmd : Byte) (b : List Byte) : List Byte :=
  b ++ [crc8 ((smbAddr s ++ (0 : BitVec 1)) :: cmd :: BitVec.ofNat 8 (b.length + 1) :: b)]
/-- A request of the session 0x5C with SEQ 2. -/
def ask (s : State) (cmd : Byte) (args : List Byte) : List Byte := half8 s cmd (0x5C :: 2 :: args)
def sbIdle : State := (run1.setFld Reg.GLB_ID 14 8 0x2A).modCore .a fun c => { c with st := .empty }
def sb0 : State := modSbd sbIdle fun b => { b with token := some 0x5C }
/-- In SAFE, with the window open. -/
def sbSafe : State := (inSafeSt sb0).setBitR Reg.SBD_PRES 0 true
theorem wit_SidebandPort : running sb0 = true ∧ sbOn sb0 = true ∧ sb0.sbd.mirror = none ∧ sb0.sbd.closing = false ∧
    sb0.err.queue.length < 16 ∧ frameFlag sbIdle 1 (half8 sbIdle 1 [0, 1]) = none ∧ sbIdle.sbd.token = none ∧
    Asks sb0 2 (ask sb0 2 []) := by unfold Asks; decide +kernel
theorem test_open : (after (.sbOpen (half8 sbIdle 1 [0, 1])) sbIdle).sbd.token.isSome = true ∧
    (after (.sbOpen (half8 sbIdle 1 [0, 1])) sbIdle).sbd.reply.length = 3 ∧
    (after (.sbOpen (half8 sbIdle 1 [0, 1])) sbIdle).rd Reg.SBD_CNT = 1 := by decide +kernel
theorem test_open_busy : ((after (.sbOpen (half8 sb0 1 [0, 1])) sb0).sbd.reply.take 2) = [1, 1] := by decide +kernel
theorem test_close : (after (.sbClose (ask sb0 2 [])) sb0).sbd.token = none ∧ (after (.sbClose (ask sb0 2 [])) sb0).sbd.reply = [0, 2] := by
  decide +kernel
theorem test_ident : (after .ident sb0).sbd.reply.drop 8 = [5, 4, 2, 1] ∧ (after .ident sb0).sbd.reply.length = 12 ∧
    (after .ident sbSafe).sbd.reply.drop 8 = [5, 7, 3, 1] := by decide +kernel
theorem test_malformed : frameFlag sb0 0x55 [] = some 0 ∧ frameFlag sb0 3 (ask sb0 3 [7]) = some 1 ∧
    frameFlag sb0 3 [0x5C, 2, 0] = some 2 ∧ (after (.sbUndefinedCode 0x55) sb0).bit Reg.SBD_ERR 0 = true ∧
    (after (.sbMalformedTransaction (some 3) [0x5C, 2, 0]) sb0).bit Reg.SBD_ERR 2 = true ∧
    (after (.sbMalformedTransaction (some 3) (ask sb0 3 [])) sb0).bit Reg.SBD_ERR 3 = true ∧
    (after (.sbMalformedTransaction none []) sb0).bit Reg.SBD_ERR 3 = true := by decide +kernel
/-- A request waits in the mirror. -/
def sbWait (claimed : Bool) : State := modSbd sb0 fun b =>
  { b with mirror := some { cmd := 3, seq := 2, data := [0x5C, 2], claimed := claimed, onBus := true, win := false } }
theorem test_session_end : (after .sessionIdleTimeout sb0).sbd.token = none ∧ (after .sessionIdleTimeout (sbWait true)).sbd.token = some 0x5C ∧
    (after (.sbdCtrlClose (privSec .port 1)) sb0).sbd.token = none ∧ (after (.sbdCtrlClose (privSec .port 1)) (sbWait true)).sbd.closing = true := by
  decide +kernel
theorem test_mirror : server (sbWait false) = 2 ∧ (after .mirrorClaim (sbWait false)).sbd.mirror.map (·.claimed) = some true ∧
    (after .replyBusyTimeout (sbWait false)).sbd.reply.take 2 = [1, 3] ∧ (after .replyBusyTimeout (sbWait true)).sbd.mirror.isSome = true ∧
    (after .stretchLimit (sbWait true)).bit Reg.SBD_ERR 5 = true ∧ (after .smbusTimeout (sbWait true)).bit Reg.SBD_ERR 4 = true := by
  decide +kernel
def sbFw : State := ((sbWait true).wr Reg.SBD_MRSP 0x00030002).modCore .a fun c => { c with st := .run }
theorem test_mirror_done : server sbFw = 1 ∧ (after .mirrorDone sbFw).sbd.reply = [0, 3] ∧
    (after .mirrorDone sbFw).sbd.last = some (2, [0, 3]) ∧ (after .mirrorDone sbFw).sbd.mirror = none := by decide +kernel
theorem test_presence : (after .presenceWindowOpen sb0).rd Reg.SBD_PRES = 0x301 ∧ (after .presenceWindowOpen sb0).rd (Reg.SBD_CNT + 4) = 1 ∧
    (after .presenceWindowOpen (after .presenceWindowOpen sb0)).rd (Reg.SBD_CNT + 4) = 1 ∧
    (after .presenceButtonRelease (after .presenceWindowOpen sb0)).rd Reg.SBD_PRES = 0x201 ∧
    (after .presenceWindowExpire (after .presenceWindowOpen sb0)).rd Reg.SBD_PRES = 0x300 ∧
    (after .sealBreak sb0).rd Reg.SBD_PRES = 0x400 ∧ (after .sealBreak sb0).rd (Reg.SBD_CNT + 4) = 0x10000 := by decide +kernel

theorem wit_SidebandCommands : Served sb0 3 (ask sb0 3 []) ∧ Served sbSafe 0x20 (ask sbSafe 0x20 [3]) ∧
    Served sb0 0x10 (ask sb0 0x10 [0, 0, 0, 4]) ∧ Served sb0 0x11 (ask sb0 0x11 [0x14, 0x20, 3, 4, 0, 0, 0, 0, 0, 0, 0, 0]) ∧
    Served sb0 0x12 (ask sb0 0x12 [5, 0]) ∧ Served sbSafe 0x28 (ask sbSafe 0x28 []) ∧ Served sbSafe 0x29 (ask sbSafe 0x29 []) ∧
    Served sbSafe 0x2A (ask sbSafe 0x2A []) ∧ Served sbSafe 0x2B (ask sbSafe 0x2B []) ∧ Served sbSafe 0x2C (ask sbSafe 0x2C []) := by
  refine ⟨?_, ?_, ?_, ?_, ?_, ?_, ?_, ?_, ?_, ?_⟩ <;> (unfold Served Asks; decide +kernel)
theorem test_sb_status : (after (.sbStatus (ask sb0 3 []) false) sb0).sbd.reply = [0, 3, 2, 0x12, 0, 4, 0, 0] := by decide +kernel
-- GLB_ID holds INSTANCE_ID 5 and the address 0x2A
theorem test_reg_read : frameWaits sb0 Reg.GLB_ID = false ∧ (busRead (begun sb0) Reg.GLB_ID 2 true true .side).isSome = true ∧
    (after (.regRead (ask sb0 0x10 (bytesOf Reg.GLB_ID 3 ++ [4])) false) sb0).sbd.reply = [0, 0x10, 5, 0x2A, 0, 0, 0, 0, 0, 0] ∧
    (after (.regRead (ask sb0 0x10 (bytesOf Reg.GLB_ID 3 ++ [2])) false) sb0).sbd.reply.take 2 = [4, 0x10] := by decide +kernel
def askWr (s : State) (off v : Nat) : List Byte := ask s 0x11 (bytesOf off 3 ++ [4] ++ bytesOf v 8)
theorem test_reg_write : dangerous sb0 Reg.STK_LEN = false ∧
    (after (.regWrite (askWr sb0 Reg.STK_LEN 40) false) sb0).rd Reg.STK_LEN = 40 ∧
    (after (.regWrite (askWr sb0 Reg.STK_LEN 40) false) sb0).sbd.reply = [0, 0x11] ∧
    (after (.regWrite (askWr sb0 Reg.GLB_LOCK 1) false) sb0).sbd.reply = [8, 0x11] ∧
    (after (.regWrite (askWr sb0 Reg.GLB_LOCK 1) false) sb0).rd Reg.GLB_LOCK = 0 := by decide +kernel
theorem test_log_read : (after (.logRead (ask sb0 0x12 [5, 0]) false) sb0).sbd.reply = 0 :: 0x12 :: List.replicate 24 0 ∧
    (after (.logRead (ask sb0 0x12 [64, 0]) false) sb0).sbd.reply.take 2 = [4, 0x12] := by decide +kernel
def fw1 : State := after (.fwBegin (ask sbSafe 0x20 [3]) false) sbSafe
def fwNext (s : State) (cmd : Byte) (args : List Byte) : List Byte := half8 s cmd (0x5C :: 3 :: args)
theorem test_fw : fw1.sbd.reply = [0, 0x20] ∧ selHeld fw1 3 = true ∧ Served fw1 0x21 (fwNext fw1 0x21 [0xF0, 0x5F, 0x11, 0x22, 0x33, 0x44]) ∧
    Tbl.get 0 (after (.fwData (fwNext fw1 0x21 [0xF0, 0x5F, 0x11, 0x22, 0x33, 0x44]) false) fw1).bur.b.code 0x5FF0 = 0x44332211 ∧
    Served fw1 0x22 (fwNext fw1 0x22 [3]) ∧ (after (.fwEnd (fwNext fw1 0x22 [3]) false) fw1).bur.a.st = .boot ∧
    (∀ x, x ∈ burSel 3 → holdBit fw1 x = true) := by unfold Served Asks; decide +kernel
theorem test_safe_enter : (after (.safeEnter (ask sbSafe 0x28 []) false) sbSafe).sbd.reply = [0, 0x28] ∧
    (after (.safeEnter (ask sb0 0x28 []) false) (sb0.setBitR Reg.SBD_PRES 0 true)).fld Reg.GLB_SAFE 3 0 = 14 ∧
    (after (.safeEnter (ask sb0 0x28 []) false) sb0).sbd.reply = [8, 0x28] := by decide +kernel
theorem test_sb_safe_exit : (after (.sbSafeExit (ask sbSafe 0x29 []) false) sbSafe).sbd.reply = [1, 0x29] ∧
    (∀ x, (sbSafe.core x).st ≠ .run) ∧
    (after (.sbSafeExit (ask sb0 0x29 []) false) (sb0.setBitR Reg.SBD_PRES 0 true)).sbd.reply = [0, 0x29] := by
  refine ⟨by decide +kernel, fun x => by cases x <;> decide +kernel, by decide +kernel⟩
theorem test_seal_lock : (after (.sealClear (ask sbSafe 0x2A []) false true) (sbSafe.setBitR Reg.SBD_PRES 10 true)).rd Reg.SBD_PRES = 0x201 ∧
    (after (.sealClear (ask sbSafe 0x2A []) false false) (sbSafe.setBitR Reg.SBD_PRES 10 true)).sbd.reply = [1, 0x2A] ∧
    (after (.lockClear (ask sbSafe 0x2B []) false) (sbSafe.wr Reg.GLB_LOCK 0x1F)).rd Reg.GLB_LOCK = 8 := by decide +kernel
theorem test_sb_warm : (after (.warmReset (ask sbSafe 0x2C []) false) sbSafe).rst.phase = .w2 ∧
    (after (.warmReset (ask sbSafe 0x2C []) false) sbSafe).fld Reg.GLB_RST_CAUSE 3 0 = 5 ∧
    (after (.warmReset (ask sbSafe 0x2C []) false) sbSafe).sbd.reply = [0, 0x2C] := by decide +kernel
def callD (s : State) : List Byte := ask s 0x30 (List.replicate 24 7)
def sbRun : State := sb0.modCore .a fun c => { c with st := .run }
theorem test_fw_call : Asks sbRun 0x30 (callD sbRun) ∧ server sbRun = 1 ∧ Served sb0 0x30 (callD sb0) ∧
    (after (.fwCall (callD sbRun)) sbRun).bur.a.ipend.getLsbD 4 = true ∧
    (after (.fwCall (callD sb0)) sb0).sbd.reply.take 2 = [1, 0x30] := by unfold Served Asks; decide +kernel

theorem wit_SidebandCommands_read : let d := ask sb0 0x10 (bytesOf Reg.MSG_ADMIT_CNT 3 ++ [8])
    Served sb0 0x10 d ∧ numOf ((d.drop 2).take 3) = Reg.MSG_ADMIT_CNT ∧ (d.getD 5 0).toNat = 8 ∧ Reg.MSG_ADMIT_CNT % 8 = 0 ∧
    builtFor sb0 .side Reg.MSG_ADMIT_CNT = true ∧ builtFor sb0 .side (Reg.MSG_ADMIT_CNT + 4) = true ∧
    isTgtOff Reg.MSG_ADMIT_CNT = false ∧ (after (.regRead d false) sb0).sbd.reply = 0 :: 0x10 :: List.replicate 8 0 := by
  unfold Served Asks; decide +kernel
theorem wit_SidebandCommands_width : let d := ask sb0 0x10 (bytesOf Reg.GLB_ID 3 ++ [2])
    Served sb0 0x10 d ∧ (d.getD 5 0).toNat = 2 ∧ frameWaits sb0 Reg.GLB_ID = false ∧ busWords sb0 0x9999C 2 .side = [] ∧
    (after (.regRead (ask sb0 0x10 (bytesOf 0x9999C 3 ++ [4])) false) sb0).sbd.reply.take 2 = [4, 0x10] ∧
    (after (.regWrite (ask sb0 0x11 (bytesOf 0x9999C 3 ++ [4] ++ bytesOf 1 8)) false) sb0).sbd.reply.take 2 = [4, 0x11] := by
  unfold Served Asks; decide +kernel
theorem wit_SidebandCommands_write : let d := askWr sb0 Reg.STK_LEN 40
    Served sb0 0x11 d ∧ numOf ((d.drop 2).take 3) = Reg.STK_LEN ∧ (d.getD 5 0).toNat = 4 ∧ (d.getD 6 0).toNat % 128 = 40 ∧
    vpeWaits sb0 Reg.GLB_LOCK = false ∧ winOpen sb0 = false ∧ dangerous sb0 Reg.GLB_LOCK = true ∧
    builtFor sb0 .side Reg.GLB_LOCK = true := by unfold Served Asks; decide +kernel
/-- The exit from SAFE is under way. -/
def sbLeave : State := { sbSafe with err := { sbSafe.err with safe := .leaving none none } }
theorem wit_SidebandCommands_leaving : Served sbLeave 0x29 (ask sbLeave 0x29 []) ∧ Served sbLeave 0x28 (ask sbLeave 0x28 []) ∧
    ((after (.sbSafeExit (ask sbLeave 0x29 []) false) sbLeave).sbd.mirror.map (·.cmd)) = some 0x29 ∧
    (after (.safeEnter (ask sbLeave 0x28 []) false) sbLeave).err.safe = .leaving none (some 3) := by
  refine ⟨?_, ?_, ?_, ?_⟩ <;> first | (unfold Served Asks; decide +kernel) | decide +kernel
def sbSafeRun : State := sbSafe.modCore .b fun c => { c with st := .run }
theorem wit_SidebandCommands_exit : Served sbSafeRun 0x29 (ask sbSafeRun 0x29 []) ∧ sbSafeRun.err.safe = .safe ∧
    burinRuns sbSafeRun = true ∧ ((after (.sbSafeExit (ask sbSafeRun 0x29 []) false) sbSafeRun).err.safe = .leaving none none) := by
  refine ⟨?_, ?_, ?_, ?_⟩ <;> first | (unfold Served Asks; decide +kernel) | decide +kernel
-- a server that takes its time, and firmware, which is interrupted (14 R341)
theorem wit_SidebandCommands_later : ((after (.sbStatus (ask sb0 3 []) true) sb0).sbd.mirror.map fun q => (q.cmd, q.claimed)) = some (3, false) ∧
    Served sbRun 3 (ask sbRun 3 []) ∧ (askedOf sbRun).bur.a.ipend.getLsbD 4 = true ∧
    (after (.sbStatus (ask sbRun 3 []) false) sbRun).bur.a.ipend.getLsbD 4 = true := by
  refine ⟨?_, ?_, ?_, ?_⟩ <;> first | (unfold Served Asks; decide +kernel) | decide +kernel
theorem wit_SidebandCommands_hold : inSafe sb0 = false ∧ servesAfter sb0 3 = false ∧
    (after (.fwBegin (ask (sb0.setBitR Reg.SBD_PRES 0 true) 0x20 [3]) false) (sb0.setBitR Reg.SBD_PRES 0 true)).sbd.reply.take 2 =
      [1, 0x20] := by decide +kernel
theorem wit_SidebandCommands_seal : Served sbSafe 0x2A (ask sbSafe 0x2A []) ∧ winOpen sb0 = false ∧ server sb0 = 2 := by
  unfold Served Asks; decide +kernel
/-- No Burin serves. -/
def sbNone : State := sb0.modCore .a fun c => { c with st := .held }
theorem wit_SidebandCommands_none : server sbNone = 0 ∧ running sbNone = true ∧ sbOn sbNone = true ∧
    frameFlag sbNone 3 (ask sbNone 3 []) = none ∧ sbNone.sbd.mirror = none ∧
    (after (.sbStatus (ask sbNone 3 []) false) sbNone).sbd.reply.take 2 = [1, 3] ∧
    (after (.sbStatus (ask sbNone 3 []) false) sbNone).sbd.last.isSome = true := by decide +kernel
/-- Firmware, with the window open, has the request of a command claimed and answers it with a status. -/
def sbAns (cmd st : Byte) : State :=
  modSbd (((sb0.setBitR Reg.SBD_PRES 0 true).wr Reg.SBD_MRSP (BitVec.ofNat 32 (2 + st.toNat * 2 ^ 8 + cmd.toNat * 2 ^ 16))).modCore .a fun c => { c with st := .run }) fun b =>
    { b with mirror := some { cmd := cmd, seq := 2, data := [0x5C, 2, 2], claimed := true, onBus := true, win := true } }
theorem wit_SidebandPort_answers : server (sbAns 0x28 0) = 1 ∧ (sbAns 0x28 0).sbd.closing = false ∧ (sbAns 0x28 0).sbd.token ≠ none ∧
    (∀ c ∈ [0x20, 0x28, 0x2A, 0x2B, 0x2C], ∀ q, (sbAns c 0).sbd.mirror = some q → safeWaits (sbAns c 0) q = false) := by
  refine ⟨by decide +kernel, by decide +kernel, by decide +kernel, ?_⟩
  intro c hc q h
  have e : q = { cmd := c, seq := 2, data := [0x5C, 2, 2], claimed := true, onBus := true, win := true } := by cases h; rfl
  subst e; revert c; decide +kernel
-- answered OK, a command with presence has its effect; answered BUSY, none
theorem test_answer_ok : ((after .mirrorDone (sbAns 0x28 0)).fld Reg.GLB_SAFE 11 2, (after .mirrorDone (sbAns 0x28 1)).fld Reg.GLB_SAFE 11 2) = (7, 0) ∧
    (after .mirrorDone (sbAns 0x2C 0)).rst.phase = .w2 ∧ (after .mirrorDone (sbAns 0x2C 0)).sbd.reply = [0, 0x2C] ∧
    (after .mirrorDone ((sbAns 0x2B 0).wr Reg.GLB_LOCK 0x1F)).rd Reg.GLB_LOCK = 8 ∧ holdBit (after .mirrorDone (sbAns 0x20 0)) .b = true := by
  decide +kernel
-- FW_DATA leaves its place in BUR_LOAD_CTL
theorem test_fw_data_ctl : (after (.fwData (fwNext fw1 0x21 [0xF0, 0x5F, 0x11, 0x22, 0x33, 0x44]) false) fw1).fld Reg.BUR_LOAD_CTL 16 2 = 0x5FF1 ∧
    (after (.fwData (fwNext fw1 0x21 [0xF0, 0x5F, 0x11, 0x22, 0x33, 0x44]) false) fw1).fld Reg.BUR_LOAD_CTL 1 0 = 3 := by decide +kernel
-- SAFE_ENTER in SAFE is one more cause (log 95)
theorem test_safe_again : (after (.safeEnter (ask sbSafe 0x28 []) false) sbSafe).fld Reg.GLB_SAFE 11 4 = 1 ∧
    (after (.safeEnter (ask sbSafe 0x28 []) false) sbSafe).err.queue.map (·.flag) = [3] := by decide +kernel
-- the PEC of a reply; none without a transaction
theorem test_pec : (after (.sbClose (ask sb0 2 [])) sb0).sbd.pec = crc8 [smbAddr sb0 ++ (1 : BitVec 1), 2, 0, 2] ∧
    (after (.sbMalformedTransaction none []) sb0).sbd.pec = 0xFF ∧ (after (.sbMalformedTransaction none []) sb0).sbd.reply = [] := by
  decide +kernel

/-! ### Registers (16) -/

def wr4 (off : Nat) (d : W64) (priv : Bool) : Instr :=
  .registerWrite { off := BitVec.ofNat 24 off, size := 2, data := d, priv := priv, sec := true, src := .port }
def wr8 (off : Nat) (d : W64) : Instr :=
  .registerWrite { off := BitVec.ofNat 24 off, size := 3, data := d, priv := true, sec := true, src := .port }
def xltOn : State := run0.wr Reg.XLT_CTRL 1

theorem wit_XltBasesLocked :
    (after (wr8 Reg.XLT_SRC_BASE 0x12345018) xltOn).rd64 Reg.XLT_SRC_BASE = 0x10 ∧
    (after (wr4 (Reg.XLT_SRC_BASE + 4) 0x100000000 true) xltOn).fld Reg.GLB_ERR_ADDR 23 0 = Reg.XLT_SRC_BASE ∧
    (after (wr4 (Reg.XLT_SRC_BASE + 4) 0x100000000 true) xltOn).bit Reg.GLB_ERR 0 = true ∧
    (after (wr8 Reg.XLT_SRC_BASE 0xF00FFFFF12345018) run0).rd64 Reg.XLT_SRC_BASE = 0x000FFFFF12345018 ∧
    (after (wr4 (Reg.XLT_ATT_BASE + 4) 0x100000000 true) run0).bit Reg.GLB_ERR 0 = false ∧
    (after (wr4 (Reg.XLT_ATT_BASE + 4) 0x100000000 true) run0).rd (Reg.XLT_ATT_BASE + 4) = 1 ∧
    (after (wr4 Reg.XLT_ATT_BASE 21 true) run0).fld Reg.XLT_ATT_BASE 4 0 = 21 := by decide +kernel

def oneOcc : Occ := { src := 4, flag := 1, unit := 0, stroke := 7, fresh := true }
def logOne : State := (State.wr run0 Reg.GLB_ELOG_STAT 63)
def logTwo : State := { logOne with err := { logOne.err with queue := [oneOcc] } }

theorem wit_RegisterWrites :
    (after (wr4 (Reg.STK_LEN + 2) 40 true) run0).port.q.map (·.rsp) = [some (true, 0)] ∧
    (after (wr4 0x9000 0 true) run0).port.q.map (·.rsp) = [some (true, 0)] ∧
    (after (wr4 Reg.STK_LEN 23 true) run0).bit Reg.GLB_ERR 1 = true ∧ (after (wr4 Reg.STK_LEN 23 true) run0).fld Reg.STK_LEN 6 0 = 32 ∧
    (after (wr4 Reg.STK_LEN 24 true) run0).fld Reg.STK_LEN 6 0 = 24 ∧ (after (wr4 Reg.STK_LEN 64 true) run0).fld Reg.STK_LEN 6 0 = 64 ∧
    after (wr4 Reg.STK_LEN 64 false) run0 = seen run0 { privSec .port 64 with priv := false } Reg.STK_LEN ∧
    (after (.glbLockWrite (privSec .port 0x3)) run0).rd Reg.GLB_LOCK = 3 ∧
    (after (.glbLockWrite (privSec .burA 0x4)) (run0.wr Reg.GLB_LOCK 1)).rd Reg.GLB_LOCK = 5 ∧
    (after (.glbLockWrite (privSec .burA 0x4)) (run0.wr Reg.GLB_LOCK 1)).bit Reg.GLB_ERR 0 = true ∧
    (after (.prfRefWrite (privSec .port 0x1234)) run0).prf.hold = false ∧
    (after (.prfRefWrite (privSec .port 0x1234)) run0).rd Reg.PRF_REF = 0x1234 ∧
    (after (.prfAdopt (privSec .port 2)) run0).prf.adopting = true ∧
    (after (.prfAdopt (privSec .port 2)) (run0.wr Reg.GLB_LOCK 2)).fld Reg.GLB_ERR_ADDR 23 0 = Reg.PRF_CTRL := by decide +kernel

/-- A 32-bit read on the register port. -/
def rd4 (off : Nat) : BusAcc :=
  { off := BitVec.ofNat 24 off, size := 2, data := 0, priv := true, sec := true, src := .port, read := true }
/-- Every one of 8 accesses is unanswered. -/
def portFull : State := { run0 with port := { run0.port with next := 8, q := (List.range 8).map fun k => { id := k, rsp := none } } }
theorem wit_RegisterWrites_port : Admits run0 (attrsOf (rd4 Reg.STK_LEN)) ∧ (regRow run0.par Reg.STK_LEN).isSome = true ∧
    Reg.STK_LEN < 0x38100 ∧ isTgtOff Reg.STK_LEN = false ∧
    (after (.registerWrite (rd4 Reg.STK_LEN)) run0).port.q.map (·.rsp) = [some (false, 32)] ∧
    regRow run0.par 0x9000 = none ∧ portHeld run0 (rd4 0x9000) = false ∧
    portRoom (portTaken portFull 0) = false ∧ (after (.registerWrite (rd4 Reg.STK_LEN)) portFull).port = portFull.port := by
  unfold Admits; decide +kernel

theorem wit_RegisterWrites_log :
    (after .errorLogWrite logTwo).rd Reg.GLB_ELOG_STAT = 0x40 ∧ (after .errorLogWrite logTwo).err.queue = [] ∧
    (after .errorLogWrite logTwo).bur.b.ipend = 0x20 ∧ (Tbl.find (after .errorLogWrite logTwo).err.slots 63).isSome = true := by
  decide +kernel

/-! ### Power (17) -/

/-- The block in a power state and phase. -/
def pwrAt (st ph : Nat) : State := setPwrPhase (setPwrState run0 st) ph
def withPwr (s : State) (f : Pwr → Pwr) : State := { s with pwr := f s.pwr }
def up : Pair := { req := true, ack := false }
def done : Pair := { req := true, ack := true }
def low : Pair := { req := false, ack := false }
def fell : Pair := { req := false, ack := true }

/-- A choice is due with idle count 5 and thresholds of 5 (DOZE), nap (NAP) and deep (DEEP). -/
def idle5 (nap deep : W32) : State :=
  withPwr (((run0.wr Reg.PWR_IDLE_CNT 5).wr Reg.PWR_IDLE_DOZE 5).wr Reg.PWR_IDLE_NAP nap |>.wr Reg.PWR_IDLE_DEEP deep
    |>.wr Reg.PWR_TSAVE_BASE 0x1000) fun p => { p with due := true }

theorem wit_PowerEntry_choice :
    pwrPhase (after .idleThreshold (idle5 6 0)) = 2 ∧ (after .idleThreshold (idle5 6 0)).pwr.target = 1 ∧
    (after .idleThreshold (idle5 5 6)).pwr.target = 2 ∧ pwrPhase (after .idleThreshold (idle5 5 5)) = 1 ∧
    pwrPhase (after .idleThreshold ((idle5 5 5).wr Reg.PWR_OVR 0)) = 0 := by decide +kernel

def prepared : State := (pwrAt 0 1).setBitR Reg.RNK_STAT 2 true
theorem wit_PowerEntry_prep : pwrPhase prepared = 1 ∧ prepared.bit Reg.RNK_STAT 2 = true ∧ prepared.pwr.ready = false ∧
    vpesOut prepared = true ∧ prepared.bit Reg.PNL_CTRL 0 = false ∧ (after (.deepPrepDone [] []) prepared).pwr.ready = true := by
  decide +kernel

/-- A consent round for state k at point p, all Burins held. -/
def round (k : BitVec 2) (p : Nat) : State :=
  let s := withPwr (pwrAt 0 2) fun x => { x with target := k, point := p, stopped := p - 1 }
  { s with bur := { s.bur with a := { s.bur.a with st := .held }, b := { s.bur.b with st := .held } } }

theorem wit_PowerEntry_round :
    refusers (round 2 1) = [] ∧ (after (.consentPoint 9 []) (round 2 1)).pwr.point = 2 ∧
    pwrState (after (.consentPoint 9 []) (round 1 5)) = 1 ∧ pwrPhase (after (.consentPoint 9 []) (round 2 5)) = 3 ∧
    (after (.consentPoint 9 []) (round 3 5)).pwr.save = none ∧ (after (.consentPoint 9 []) (round 2 5)).pwr.save.isSome = true ∧
    pwrPhase (after (.consentPoint 9 []) (round 3 5)) = 3 := by decide +kernel

theorem wit_PowerEntry_abort :
    let s := withPwr (round 2 5) fun p => { p with wakeSeen := true }
    let t := after (.consentPoint 9 []) s
    refusers s = [13] ∧ s.rst.pendingTrig = none ∧ t.fld Reg.PWR_LAST_ABORT 6 3 = 13 ∧ t.bit Reg.PWR_LAST_ABORT 7 = true ∧
    t.bit Reg.PWR_LAST_ABORT 22 = true ∧ t.fld Reg.PWR_LAST_ABORT 2 0 = 5 ∧ pwrPhase t = 0 := by decide +kernel

theorem wit_PowerEntry_doze : (round 1 1).pwr.target = 1 ∧ refuses (round 1 1) 6 = false ∧ (round 1 1).rst.phase = .run ∧
    ((after .idleThreshold (idle5 6 0)).core .a).ipend = 0x40 := by decide +kernel

/-- The commit for state k. -/
def commit (k : BitVec 2) : State := withPwr (pwrAt 0 3) fun p => { p with target := k, main := { req := decide (k = 2), ack := false } }

theorem wit_PowerEntry_acks :
    cohClean (commit 3) = true ∧ (commit 3).err.queue = [] ∧ (after (.clkMainStopAck true 9) (commit 3)).bit Reg.PWR_STAT 5 = true ∧
    (after (.clkMainStopAck true 9) (commit 2)).pwr.ret = up ∧
    (after (.clkMainStopAck false 9) (withPwr (pwrAt 2 5) fun p => { p with main := fell })).pwr.main = low ∧
    (after (.clkFastStopAck true) (withPwr (commit 3) fun p => { p with fast := up })).pwr.off = up ∧
    (after (.clkFastStopAck false) (withPwr (pwrAt 3 4) fun p => { p with fast := fell })).pwr.fast = low := by decide +kernel

def intoNap : State := withPwr ((commit 2).wr Reg.PWR_IDLE_DEEP 1 |>.wr Reg.PWR_OPP 2000) fun p => { p with ret := up }
theorem wit_PowerEntry_nap :
    intoNap.pwr.latched = none ∧ wakeOn intoNap = [] ∧ pwrState (after (.pwrRetAck true 0) intoNap) = 2 ∧
    (after (.pwrRetAck true 0) intoNap).pwr.countdown = some 1 ∧
    pwrState (after (.pwrOffAck true) (withPwr (commit 3) fun p => { p with off := up })) = 3 := by decide +kernel

/-- Asleep in state k, wake input 15 enabled and active high. -/
def slept (k : Nat) : State := withPwr ((pwrAt k 4).wr Reg.PWR_WAKE_CFG 0x8000) fun p => { p with ret := done, countdown := some 4 }

/-- Line 4095 is wake-capable and asserted when high. -/
def sleptWin (k : Nat) : State := (slept k).wr (winOff 4095 Reg.WIN_CTL) 0x10000

theorem wit_PowerWakeAndPoints_wake :
    (after (.wakeInput (.input 15 true)) run0).pwr.wakeIn = 0x8000 ∧
    (after (.wakeInput (.input 15 true)) (slept 2)).rd Reg.PWR_LAST_WAKE = 0x200F1 ∧
    (after (.wakeInput (.input 15 true)) (slept 3)).rd Reg.PWR_LAST_WAKE = 0x300F1 ∧
    (after (.wakeInput (.line 4095 true 1)) (sleptWin 3)).rd Reg.PWR_LAST_WAKE = 0x3FFF2 ∧
    (after (.wakeInput (.line 4095 true 1)) (sleptWin 3)).pwr.wokeLine = some 4095 ∧
    (after (.wakeInput (.line 4095 false 1)) (sleptWin 3)).pwr.step = (slept 3).pwr.step ∧
    (after (.wakeInput (.line 4095 true 0)) (sleptWin 3)).pwr.step = (slept 3).pwr.step ∧
    (after .deepCountdown (slept 2)).rd Reg.PWR_LAST_WAKE = 0x20006 ∧
    (after (.portValidWithoutReady none) (pwrAt 1 0)).rd Reg.PWR_LAST_WAKE = 0x10005 ∧
    (after (.portValidWithoutReady (some 0)) (round 2 1)).pwr.wakeSeen = true := by decide +kernel

/-- The save of an entry at snapshot 100 and count 7, with P of one tick. -/
-- its length takes in the reserved word alone; 0x48674BC7 is the CRC-32C of four zero bytes
def savedOf : State := { (run0.wr Reg.RNK_CTRL 1).wr Reg.STK_LEN 40 with
  par := { run0.par with targets := 1 }, count := 7, stk := { run0.stk with per := 2 ^ 32 } }
def saved : Save :=
  { img := bytesOf 0x00030000 4 ++ bytesOf 16 4 ++ bytesOf 0x48674BC7 4 ++ bytesOf 0 4 ++ saveBody savedOf 100 }
theorem test_save_set : saved.ok = true ∧ (saved.snap, saved.count, saved.refPer) = (100, 7, 2 ^ 32) ∧
    (saved.flip [(12, 1)]).ok = false ∧ (saved.flip [(2, 1)]).ok = false ∧
    Tbl.find (savedWords 1 saved) Reg.STK_LEN = some 40 := by decide +kernel
def outOfNap : State := withPwr ((pwrAt 2 4).wr Reg.GLB_REFCNT_HZ 1000000) fun p => { p with ret := fell, save := some saved }
def outOfDeep : State := withPwr (pwrAt 3 4) fun p => { p with step := 12, save := some saved }

theorem wit_PowerWakeAndPoints_restart :
    outOfNap.pwr.wokeLine = none ∧ pwrPhase (after (.pwrRetAck false 130) outOfNap) = 5 ∧
    (after (.pwrRetAck false 130) outOfNap).count = 30 ∧ (after (.pwrRetAck false 130) outOfNap).bit Reg.PWR_CTRL 1 = true ∧
    (after (.pwrOffAck false) (withPwr (slept 3) fun p => { p with off := fell, fast := done })).pwr.fast = fell := by
  decide +kernel

-- the save set whole, with a word that cannot be corrected, and with a byte lost: only the second is an uncorrectable error
theorem wit_PowerWakeAndPoints_deep :
    let t := after (.deepDomainRestore 130 none []) outOfDeep
    let b := after (.deepDomainRestore 130 (some 7) []) outOfDeep
    let f := after (.deepDomainRestore 130 none [(12, 1)]) outOfDeep
    t.rd Reg.RNK_CTRL = 0 ∧ t.rd Reg.STK_LEN = 40 ∧ t.count = 7 ∧ t.wft.tag = 130 ∧
    b.rd Reg.GLB_LOCK = 0x1F ∧ b.bit Reg.GLB_ECC 1 = true ∧ pwrPhase b = 5 ∧
    f.rd Reg.GLB_LOCK = 0x1F ∧ f.bit Reg.GLB_ECC 1 = false ∧ f.bit Reg.PWR_ERR 0 = true := by decide +kernel

def switching : State := withPwr (pwrAt 3 5) fun p => { p with switchDue := true }
def restoring : State :=
  withPwr (((State.setBitR run0 Reg.PWR_STAT 5 true).setBitR Reg.PWR_STAT 6 false)) fun p =>
    { p with restore := true, relWait := true, save := some saved }
def restoring1 : State := { restoring with par := { restoring.par with targets := 2 } }

theorem wit_PowerWakeAndPoints_back :
    pwrState (after .switchBack switching) = 0 ∧ pwrPhase (after .switchBack switching) = 0 ∧
    (after .switchBack switching).pwr.restore = true ∧
    (after (.targetRestoreDone [1]) restoring1).bit Reg.PWR_STAT 6 = true ∧
    (after (.targetRestoreDone [1]) restoring1).bit Reg.PWR_STAT 5 = false ∧
    (after (.targetRestoreDone [1]) restoring1).bit Reg.PWR_ERR 2 = true ∧
    (after (.targetRestoreDone [1]) restoring1).rnkEn = true := by decide +kernel

/-- A warm reset has come before the restore. -/
def restoreCut : State := withPwr restoring1 fun p => { p with restoreCut := true }
theorem wit_PowerWakeAndPoints_cut : restoreCut.rst.phase = .run ∧ pwrPhase restoreCut = 0 ∧ pwrState restoreCut = 0 ∧
    restoreCut.pwr.restore = true ∧ (after (.targetRestoreDone [1]) restoreCut).bit Reg.PWR_STAT 6 = true ∧
    (after (.targetRestoreDone [1]) restoreCut).rnkEn = false ∧ (after (.targetRestoreDone [1]) restoreCut).pwr.restore = false ∧
    switching.rst.pinAfterWake = false ∧ switching.rst.pendingTrig = none := by decide +kernel

/-- Points 0 (2000 MHz, 800 mV) and 3 (1600 MHz, 750 mV), as in R424. -/
def points : State := (run0.wr Reg.PWR_OPP (w32 (2000 + 800 * 4096))).wr (Reg.PWR_OPP + 12) (w32 (1600 + 750 * 4096))
-- The example of R424.
theorem test_dvfs_example :
    let three := after (.pwrDvfsReqWrite (privSec .burA 0x33)) points
    let acked := after (.dvfsFreqAck true) three
    let zero := after (.pwrDvfsReqWrite (privSec .port 0)) (State.wr points Reg.PWR_DVFS_STATUS 0x33)
    three.pwr.freq = up ∧ three.pwr.volt = low ∧ three.pwr.vHeld = some 3 ∧ three.bit Reg.PWR_DVFS_STATUS 11 = true ∧
    acked.pwr.volt = up ∧ fAck acked = 3 ∧ zero.pwr.volt = up ∧ zero.pwr.fHeld = some 0 := by decide +kernel

theorem wit_PowerWakeAndPoints_dvfs :
    (after (.dvfsFreqAck true) (withPwr points fun p => { p with freq := up, freqPt := 3 })).pwr.freq = fell ∧
    (after (.dvfsFreqAck false) (withPwr points fun p => { p with freq := fell })).pwr.freq = low ∧
    vAck (after (.dvfsVoltAck true) (withPwr points fun p => { p with volt := up, voltPt := 7 })) = 7 ∧
    (after (.dvfsVoltAck false) (withPwr points fun p => { p with volt := fell })).pwr.volt = low := by decide +kernel

theorem wit_PowerWakeAndPoints_writes :
    (after (.pwrToMain (privSec .burB 3)) (pwrAt 2 5)).bit Reg.PWR_CTRL 1 = true ∧
    (after (.pwrToMain (privSec .port 2)) run0).bit Reg.PWR_CTRL 0 = false ∧
    (after (.pwrHoldRelease (privSec .port 1)) (State.setBitR run0 Reg.PWR_STAT 5 true)).bit Reg.PWR_STAT 5 = false ∧
    (after (.pwrHoldRelease (privSec .port 1)) restoring1).pwr.relWait = true := by decide +kernel

/-- A preparation with the Panels enabled and an entry resident: the Panels are saved first, then the flush begins. -/
def prep1 : State := ((setPwrPhase (run1.wr64 Reg.PNL_SAVE_BASE 0x70000) 1).wr Reg.PNL_CTRL 1).modTgt 2 fun x => { x with entries := [ent 4130 0x40 0] }
theorem wit_PowerEntry_prep_panels : prep1.rst.phase = .run ∧ prep1.pwr.ready = false ∧ vpesOut prep1 = true ∧ prep1.bit Reg.PNL_CTRL 0 = true ∧
    prep1.pwr.prepSaved = false ∧ prep1.coh.failed = [] ∧ prep1.coh.evb = [] := by decide +kernel
theorem test_prep_panels : (after (.deepPrepDone [] []) prep1).pnl.saved = true ∧ (after (.deepPrepDone [] []) prep1).pwr.ready = false ∧
    ((after (.deepPrepDone [] []) prep1).tgt 2).opq.map (·.kind) = [.fls] := by decide +kernel
/-- A local line has changed in the round that aborts: the target engine sees it then. -/
def roundPin : State := after (.localInputChange 3 5 true)
  (withPwr ((State.setBitR (round 2 5) (icfgOff 3 21) 12 true)) fun p => { p with wakeSeen := true, stopped := 4 })
theorem wit_PowerEntry_pins : localPin roundPin 3 5 = true ∧ roundPin.bit (icfgOff 3 21) 13 = false ∧ localUnformed roundPin 3 = true ∧
    (after (.consentPoint 9 []) roundPin).bit (icfgOff 3 21) 13 = true ∧
    ((after (.consentPoint 9 []) roundPin).tgt 3).opq.map (·.kind) = [.ins] := by decide +kernel
theorem wit_PowerEntry_save : (commit 3).pwr.target = 3 ∧ (commit 3).pwr.main.ack = false ∧ refBack (commit 3) 9 = false ∧
    (after (.clkMainStopAck true 9) (commit 3)).pwr.save.map (fun v => (v.snap, v.count, v.num 0 4, v.num 4 4)) =
      some (9, 0, 0x00030000, 940 + 5 * 128) := by decide +kernel
/-- Target 0's write failed on the way in, target 1's read on the way out. -/
def restoring2 : State := withPwr restoring1 fun p => { p with tsaveBad := [0] }
theorem wit_PowerWakeAndPoints_tsave : (∀ k < 2, restoring2.lostIn .tgtSave (tsaveAddr restoring2 k) 512 = false) ∧
    (after (.targetRestoreDone [1]) restoring2).bit Reg.PWR_ERR 2 = true ∧
    ((after (.targetRestoreDone [1]) restoring2).tgt 0).phys = (restoring2.tgt 0).phys ∧ dvfsUp points = true := by decide +kernel

/-! ### Burins (14) -/

/-- Burin A runs an image at 0x100. -/
def core0 : BurCore :=
  { burReset0 with st := .run, pc := 0x100, flags := 0x10,
                   g := [(1, 0xFFFFFFFF), (2, 1), (3, 0x80000000), (4, 0x100008), (5, 0x80000010), (6, 0x100001), (8, 0x30),
                         (14, 0x100100)],
                   data := [(2, 0x33445566), (3, 0x778899AA), (64, 0x200), (65, 0x3), (66, 0xAAAA), (67, 0xBBBB)] }
def bur0 : State := run0.setCore .a core0
def bur1 (f : BurCore → BurCore) : State := run0.setCore .a (f core0)

theorem wit_BurSteps : BurSteps bur0 .a := by unfold BurSteps; decide +kernel

theorem test_add : ((after (.add .a 7 1 2) bur0).core .a).gr 7 = 0 ∧
    ((after (.add .a 7 1 2) bur0).core .a).flags = 0x15 := by decide +kernel
theorem test_sub : ((after (.sub .a 7 3 2) bur0).core .a).gr 7 = 0x7FFFFFFF ∧
    ((after (.sub .a 7 3 2) bur0).core .a).flags = 0x1C := by decide +kernel
theorem test_cmp : ((after (.cmp .a 2 1) bur0).core .a).flags = 0x10 := by decide +kernel
theorem test_sar : ((after (.sar .a 7 3 2) bur0).core .a).gr 7 = 0xC0000000 := by decide +kernel
-- 16 R396: the check value of "123456789" is 0xE3069283
theorem test_crc : crc32c 0x393837363534333231 9 = 0xE3069283 := by decide +kernel
theorem test_lui : ((after (.lui .a 7 0x3FFFF) bur0).core .a).gr 7 = 0xFFFFC000 := by decide +kernel

/-! Loads: the slot of 14 R335; LDD and LDWP; the host window -/

theorem test_ldh : ((after (.ldh .a 7 4 2 false) bur0).core .a).slot = [(7, 0x3344)] := by decide +kernel
theorem test_ldd : ((after (.ldd .a 8 4 0 false) bur0).core .a).slot = [(8, 0x33445566), (9, 0x778899AA)] := by decide +kernel
theorem test_slot_lands : ((after (.addi .a 7 7 1) (after (.ldw .a 7 4 0 false) bur0)).core .a).gr 7 = 0x33445566 := by
  decide +kernel
/-- The host windows' line 0 is held. -/
def burHeld : State := holds bur0 [0]
theorem wit_BurinLoads_host : BurSteps burHeld .a ∧ Loadable burHeld .a ((burHeld.core .a).gr 5) 4 false ∧
    hostAddr core0 (core0.gr 5) = 0x10 ∧ Held burHeld 0x10 4 := by
  unfold BurSteps Loadable Held; decide +kernel
theorem wit_BurinLoads_waits : regionOf (core0.gr 5) = .host ∧ running bur0 = true ∧ ¬ Held bur0 (hostAddr core0 (core0.gr 5)) 1 ∧
    ¬ Held bur0 (hostAddr core0 (core0.gr 5)) 8 := by unfold Held; decide +kernel
/-- A block register: STK_LEN, at the Burin's address of it. -/
def blkLen : W32 := w32 (0x1000000 + Reg.STK_LEN)
theorem wit_BurinLoads_block : regionOf blkLen = .block ∧ blkLen.toNat % 4 = 0 ∧ builtFor bur0 (burSrc .a) Reg.STK_LEN = true ∧
    isTgtOff Reg.STK_LEN = false ∧ frameWaits bur0 Reg.STK_LEN = false ∧
    ((busRead bur0 Reg.STK_LEN 2 true true (burSrc .a)).any fun p => decide (p.1.core .a = core0 ∧
      p.1.coh.missed = bur0.coh.missed ∧ p.1.coh.failed = bur0.coh.failed)) = true := by decide +kernel
def burBlk : State := bur1 fun c => { c with g := Tbl.put (Tbl.put c.g 9 blkLen) 2 48 }
theorem test_block_load : ((after (.ldw .a 7 9 0 false) burBlk).core .a).slot = [(7, regRead burBlk Reg.STK_LEN true true)] := by
  decide +kernel
theorem test_block_store : (after (.stw .a 2 9 0 false) burBlk).fld Reg.STK_LEN 6 0 = 48 := by decide +kernel
theorem wit_BurinLoads_pair : (core0.gr 4).toNat % 8 = 0 ∧ regionOf (core0.gr 4) = .data := by decide +kernel
theorem test_stb_host : (after (.stb .a 1 5 3 false) burHeld).mem = [(0x13, 0xFF)] := by decide +kernel
theorem wit_BurinStores_host : Storable burHeld .a ((burHeld.core .a).gr 5) 4 false ∧ Owned burHeld 0x10 4 := by
  unfold Storable Owned; decide +kernel
theorem wit_BurinStores_waits : ¬ Owned bur0 (hostAddr core0 (core0.gr 5)) 1 ∧ inSafe bur0 = false ∧
    ¬ Owned bur0 (hostAddr core0 (core0.gr 5)) 8 := by unfold Owned; decide +kernel
theorem wit_BurinStores_block : vpeWaits burBlk Reg.STK_LEN = false ∧ busWords burBlk Reg.STK_LEN 2 (burSrc .a) ≠ [] ∧
    burBlk.coh.failed = [] ∧ 24 ≤ ((burBlk.core .a).gr 2).toNat % 128 ∧ ((burBlk.core .a).gr 2).toNat % 128 ≤ 64 ∧
    (after (.stw .a 2 9 0 false) burBlk).coh = burBlk.coh := by decide +kernel
theorem test_sth_data : sramLoad ((after (.sth .a 1 4 2 false) bur0).core .a) 0x100008 4 = 0xFFFF5566 := by decide +kernel
theorem test_std_data : sramLoad ((after (.std .a 2 4 0 false) bur0).core .a) 0x100008 8 = 0x8000000000000001 := by
  decide +kernel
theorem test_ator : sramLoad ((after (.ator .a 7 4 2 false) bur0).core .a) 0x100008 4 = 0x33445567 ∧
    ((after (.ator .a 7 4 2 false) bur0).core .a).slot = [(7, 0x33445566)] := by decide +kernel
theorem wit_BurinAtomics_bus : regionOf (core0.gr 8) = .code ∧ (core0.gr 8).toNat % 4 = 0 := by decide +kernel
theorem test_align : ((after (.ldh .a 7 6 0 false) bur0).core .a).tcause = 1 ∧
    ((after (.ldh .a 7 6 0 false) bur0).core .a).taddr = 0x100001 ∧
    ((after (.ldh .a 7 6 0 false) bur0).core .a).pc = 4 := by decide +kernel
theorem wit_BurinAccessTraps : (core0.gr 6).toNat % 4 ≠ 0 ∧ regionOf (core0.gr 3 - 4) = .none ∧ (core0.gr 3 - 4).toNat % 8 ≠ 0 ∧
    regionOf (0x7FFFFFF8 : W32) = .none ∧ regionOf core0.pc ≠ .rom := by decide +kernel
theorem test_stw_code : ((after (.stw .a 1 8 0 false) bur0).core .a).tcause = 2 := by decide +kernel
theorem wit_BurinAccessTraps_block : regionOf (0x1FFFFF0 : W32) = .block ∧ busWords bur0 0xFFFFF0 2 (burSrc .a) = [] ∧
    busWords bur0 Reg.STK_LEN 0 (burSrc .a) = [] := by decide +kernel
/-- An access of Burin A to line 0 that failed. -/
def burLost : State := { bur0 with coh := { bur0.coh with failed := [(.burin .a, 0)] } }
theorem wit_BurinAccessTraps_lost : burLost.lost (.burin .a) (hostAddr core0 (core0.gr 5)) = true ∧
    burLost.forget (.burin .a) = bur0 ∧ ((after (.ldw .a 7 5 0 false) burLost).core .a).tcause = 2 ∧
    ((after (.stw .a 7 5 0 false) burLost).core .a).tcause = 2 := by decide +kernel
def burLoc : State := bur1 fun c => { c with g := Tbl.put c.g 9 0x200000 }
theorem wit_BurinLocalRegisters : BurSteps burLoc .a ∧ flagT (burLoc.core .a).flags = false ∧
    regionOf ((burLoc.core .a).gr 9 + (0x1C : BitVec 18).signExtend 32) = .loc ∧ pwrPhase burLoc ≠ 4 := by
  unfold BurSteps; decide +kernel
def burTimer : State := bur1 fun c => { c with g := Tbl.put c.g 9 0x200000, timer := 5 }
theorem wit_BurinLocalRegisters_timer : BurSteps burTimer .a ∧ (burTimer.core .a).timer ≠ 0 ∧
    ((burTimer.core .a).gr 9 + (0x3C : BitVec 18).signExtend 32).toNat - 0x200000 = 0x3C := by unfold BurSteps; decide +kernel
theorem wit_BurinLocalRegisters_narrow : ((burLoc.core .a).gr 9).toNat % 8 = 0 ∧
    ((after (.ldb .a 7 9 0 false) burLoc).core .a).tcause = 2 ∧ ((after (.sth .a 7 9 4 false) burLoc).core .a).tcause = 2 ∧
    ((after (.ldh .a 7 9 4 false) burLoc).core .a).tcause = 2 ∧ ((after (.ldd .a 8 9 8 false) burLoc).core .a).tcause = 2 ∧
    ((after (.std .a 8 9 8 false) burLoc).core .a).tcause = 2 := by decide +kernel
theorem test_hb_stat : ((after (.ldw .a 7 9 0x2C false) burLoc).core .a).slot = [(7, 0x100)] ∧
    ((after (.stw .a 2 9 0x30 false) burLoc).core .a).hwin = 1 ∧ ((after (.stw .a 2 9 0x14 false) burLoc).core .a).trep = 1 ∧
    ((after (.stw .a 1 9 0x40 false) burLoc).core .a).veto = 1 := by decide +kernel
theorem test_imask : ((after (.stw .a 2 9 0x1C false) burLoc).core .a).imask = 1 := by decide +kernel
theorem test_b_back : ((after (.b .a 0 0x3FFFFF) bur0).core .a).pc = 0xFC := by decide +kernel
theorem test_flg_write : ((after (.flgWrite .a 1) bur0).core .a).flags = 0x1F := by decide +kernel

/-! Calls -/

theorem wit_BurinCalls : (core0.gr 14).toNat % 4 = 0 ∧ core0.spLo.toNat ≤ (core0.gr 14 - 16).toNat ∧
    regionOf (core0.gr 14 - 16) = regionOf (core0.gr 14 - 1) ∧ regionOf (core0.gr 14 - 16) = .data := by decide +kernel
theorem wit_BurinCalls_stack : ((bur1 fun c => { c with spLo := 0x1000FC }).core .a).spLo.toNat > (core0.gr 14 - 16).toNat := by
  decide +kernel
theorem test_call : let t := after (.call .a 3 8 false) bur0
    (t.core .a).gr 14 = 0x1000F0 ∧ (t.core .a).pc = 0x120 ∧ sramLoad (t.core .a) 0x1000F0 16 =
      0x104 + 3 * 2 ^ 32 + 0x100008 * 2 ^ 64 + 0x80000010 * 2 ^ 96 := by decide +kernel
theorem wit_BurinReturns : loadAt bur0 .a 0x100104 4 = 3 ∧ regionOf (0x10010C : W32) = .data ∧
    (core0.gr 14).toNat + 16 ≤ core0.spHi.toNat := by decide +kernel
theorem test_ret : let t := after (.ret .a false) bur0
    (t.core .a).gr 4 = 0xAAAA ∧ (t.core .a).gr 5 = 0xBBBB ∧ (t.core .a).gr 14 = 0x100110 ∧ (t.core .a).pc = 0x200 := by
  decide +kernel
theorem test_ret_high : let s := bur1 fun c => { c with spHi := 0x10010C }
    ((after (.ret .a false) s).core .a).tcause = 6 ∧ ((after (.ret .a false) s).core .a).gr 14 = 0x100100 := by decide +kernel

/-! REP: the example of 14 R340 -/

/-- REP g3 at 0x100, ADDI g3, g3, 2 behind it; g3 holds 5. -/
def rep0 : State := bur1 fun c => { c with g := Tbl.put c.g 3 5, code := [(64, 0x70C00000), (65, 0x08CC0002)] }
theorem wit_BurinRepeats : BurSteps rep0 .a ∧ fetchable ((rep0.core .a).pc + 4) = true ∧
    repIllegal (burDecode (BitVec.ofNat 32 (sramLoad (rep0.core .a) 0x104 4))) = false := by unfold BurSteps; decide +kernel
theorem test_rep : ((after (.rep .a 3) rep0).core .a).rep = some ⟨5, .imm .addi 3 3 2, 0x100, false⟩ := by decide +kernel
def rep1 : State := after (.rep .a 3) rep0
theorem wit_BurinRepeats_run : burReady rep1 .a = true ∧ (rep1.core .a).slot = [] := by decide +kernel
theorem test_rep_iteration : ((after (.addi .a 3 3 2) rep1).core .a).gr 3 = 7 ∧
    ((after (.addi .a 3 3 2) rep1).core .a).rep = some ⟨4, .imm .addi 3 3 2, 0x100, true⟩ := by decide +kernel
theorem test_rep_illegal : let s := bur1 fun c => { c with code := [(65, 0x80000000)] }
    ((after (.rep .a 3) s).core .a).tcause = 3 := by decide +kernel

/-! Traps and interrupts -/

theorem test_sys : ((after (.sys .a 0x155) bur0).core .a).tpc = 0x104 ∧ ((after (.sys .a 0x155) bur0).core .a).pc = 0x14 ∧
    ((after (.sys .a 0x155) bur0).core .a).flags = 0x20 := by decide +kernel
def trap0 : State := bur1 fun c => { c with flags := 0x20, tpc := 0x200, tflags := 0x11 }
theorem wit_BurinSystemRows_T : BurSteps trap0 .a ∧ flagT (trap0.core .a).flags = true ∧ (trap0.core .a).trep = 0 ∧
    decodeOp 0xE0000000 = none := by unfold BurSteps; decide +kernel
theorem test_rett : ((after (.rett .a) trap0).core .a).pc = 0x200 ∧ ((after (.rett .a) trap0).core .a).flags = 0x11 := by
  decide +kernel
theorem test_rett_rep : let s := bur1 fun c => { c with flags := 0x20, tpc := 0x100, trep := 3, code := [(65, 0x08CC0002)] }
    ((after (.rett .a) s).core .a).rep = some ⟨3, .imm .addi 3 3 2, 0x100, true⟩ ∧
    ((after (.rett .a) s).core .a).pc = 0x104 := by decide +kernel
theorem test_double_fault : ((after (.sys .a 0) trap0).core .a).st = .halted ∧
    (after (.sys .a 0) trap0).bit Reg.BUR_ERR 2 = true := by decide +kernel
def int0 : State := bur1 fun c => { c with ipend := 0x28, imask := 0xF8, timer := 7 }
theorem wit_BurinInterrupts : burRuns int0 .a = true ∧ flagIE (int0.core .a).flags = true ∧
    ((int0.core .a).ipend &&& (int0.core .a).imask).getLsbD 3 = true ∧ (int0.core .a).timer ≠ 0 ∧ pwrPhase int0 ≠ 4 := by
  decide +kernel
theorem test_interrupt_lowest : ((after (.interruptTake .a) int0).core .a).tcause = 0xB ∧
    ((after (.interruptTake .a) int0).core .a).pc = 0x2C := by decide +kernel
theorem test_peer_out : ((after (.peerOutWrite .a 7) bur0).core .b).peerIn = 7 ∧
    ((after (.peerOutWrite .a 7) bur0).core .b).ipend = 4 := by decide +kernel

/-! Boot, hold, watch, messages -/

def boot0 (f : BurCore → BurCore) : State := (run0.setCore .a (f burReset0)).setBitR Reg.GLB_STATUS 0 true
theorem wit_BurinBoot_ready : burRuns (boot0 id) .a = true ∧ (boot0 id).bit Reg.GLB_STATUS 0 = true ∧
    hdrWord ((boot0 id).core .a) 0 ≠ 0x504C5644 ∧ (boot0 id).bit Reg.BUR_IMG_BASE 0 = false := by decide +kernel
theorem wit_BurinBoot_copy : ((boot0 id).setBitR Reg.BUR_IMG_BASE 0 true).bit Reg.BUR_IMG_BASE 0 = true ∧
    hostReach (boot0 fun c => { c with boot := .copy }) = true := by decide +kernel
theorem wit_BurinBoot_copy_fails : let s := boot0 fun c => { c with boot := .copy }
    ((after (.imageCopyDone .a true) s).core .a).auth = 7 ∧ ((after (.imageCopyDone .a true) s).core .a).st = .empty ∧
    ({ s with coh := { s.coh with failed := [(.burin .a, 0)] } } : State).failures (.burin .a) ≠ 0 := by decide +kernel
theorem test_boot_empty : ((after (.bootReady .a) (boot0 id)).core .a).st = .empty := by decide +kernel
/-- A header that passes no check: MAGIC alone. -/
def badImg : State := boot0 fun c => { c with boot := .check, code := [(0x5FF0, 0x504C5644)] }
theorem test_auth_fails : authCode (badImg.core .a) = 1 ∧ ((after (.bootAuth .a) badImg).core .a).st = .authFail ∧
    (after (.bootAuth .a) badImg).err.safe = .safe := by decide +kernel
/-- An image of 64 bytes of zeros that passes every check of 14 R348; its CRCs are worked out by hand from 16 R396. -/
def goodHdr : Tbl W32 :=
  [(0x5FF0, 0x504C5644), (0x5FF1, 0x00020000), (0x5FF2, 0x00030000), (0x5FF3, 64), (0x5FF4, 0x03C8EB67), (0x5FFF, 0x498A4161)]
def goodImg : State := boot0 fun c => { c with boot := .check, code := goodHdr }
theorem wit_BurinBoot_auth : authCode (goodImg.core .a) = 0 := by decide +kernel
theorem test_auth_runs : ((after (.bootAuth .a) goodImg).core .a).st = .run ∧
    ((after (.bootAuth .a) goodImg).core .a).gr 0 = 2 := by decide +kernel

theorem wit_BurinHold : locked bur0 2 = false ∧ holdBit bur0 .a = false ∧ primary bur0 = .a := by decide +kernel
def burBoth : State := bur0.setCore .b { burReset0 with st := .run }
theorem test_hold_hands_over : ((after (.burHold (privSec .port 1)) burBoth).core .a).st = .held ∧
    primary (after (.burHold (privSec .port 1)) burBoth) = .b := by decide +kernel
theorem test_rst : ((after (.burRst (privSec .port 4)) bur0).core .a).st = .boot ∧
    ((after (.burRst (privSec .port 4)) bur0).core .a).gr 1 = 0 := by decide +kernel
def loadSt : State := (after (.burHold (privSec .port 1)) bur0).wr Reg.BUR_LOAD_CTL 0x1FFC1
theorem wit_BurinLoad : selHeld (loadSt.wr Reg.BUR_LOAD_CTL 0x17FFD) 1 = true ∧ selHeld bur0 1 = false := by decide +kernel
theorem test_load : let t := after (.burLoadData (privSec .port 0x504C5644)) (loadSt.wr Reg.BUR_LOAD_CTL 0x17FC1)
    hdrWord (t.core .a) 0 = 0x504C5644 ∧ t.rd Reg.BUR_LOAD_CTL = 0x17FC5 := by decide +kernel
theorem test_load_run : (after (.burLoadData (privSec .port 1)) (bur0.wr Reg.BUR_LOAD_CTL 1)).bit Reg.BUR_ERR 5 = true := by
  decide +kernel

def watch0 : State :=
  let s := (run0.setCore .a { core0 with miss := 3, beat := false }).setCore .b { burReset0 with st := .run, beat := true }
  { s with bur := { s.bur with due := true } }
theorem wit_BurinWatch : missNext watch0 .a = 4 ∧ missNext watch0 .b = 0 ∧ monitored watch0 .b = true ∧
    pwrPhase watch0 ≠ 4 := by decide +kernel
theorem test_takeover : ((after .heartbeatWindowEnd watch0).core .a).st = .boot ∧
    primary (after .heartbeatWindowEnd watch0) = .b ∧ (after .heartbeatWindowEnd watch0).bit Reg.BUR_ERR 4 = true := by
  decide +kernel
/-- The same window in a warm reset: the role stays, and no takeover is logged. -/
def watchW : State := { watch0 with rst := { watch0.rst with phase := .w2 } }
theorem wit_BurinWatch_warm : watchW.bur.due = true ∧ watchW.rst.phase ≠ .run ∧ missNext watchW .a = 4 ∧
    primary (after .heartbeatWindowEnd watchW) = .a ∧ (after .heartbeatWindowEnd watchW).bit Reg.BUR_ERR 4 = false := by
  decide +kernel
def watch1 : State := watch0.modCore .b fun c => { c with st := .held }
theorem wit_BurinWatch_alone : missNext watch1 .a = 4 ∧ missNext watch1 .b < 4 ∧ monitored watch1 .b = false ∧
    primary (after .heartbeatWindowEnd watch1) = .a ∧ ((after .heartbeatWindowEnd watch1).core .a).st = .boot := by decide +kernel
def watch2 : State := watch0.modCore .b fun c => { c with miss := 3, beat := false }
theorem wit_BurinWatch_both : missNext watch2 .a = 4 ∧ missNext watch2 .b = 4 ∧ watch2.err.safe = .out ∧
    (after .heartbeatWindowEnd watch2).err.safe = .safe ∧ (after .heartbeatWindowEnd watch2).fld Reg.GLB_SAFE 3 2 = 1 := by
  decide +kernel
def watch3 : State := watch0.modCore .a fun c => { c with miss := 2 }
theorem wit_BurinWatch_none : missNext watch3 .a = 3 ∧ missNext watch3 .b = 0 ∧
    ((after .heartbeatWindowEnd watch3).core .a).miss = 3 ∧ ((after .heartbeatWindowEnd watch3).core .b).beat = false := by
  decide +kernel
def asked0 (code : W32) : State := { burBoth.wr Reg.BUR_HOST_MSG code with bur := { burBoth.bur with asked := true } }
theorem wit_BurinMessages : (asked0 1).bur.asked = true ∧ burRuns (asked0 1) (primary (asked0 1)) = true ∧
    (asked0 1).fld Reg.BUR_HOST_MSG 7 0 = 1 ∧ (asked0 0).fld Reg.BUR_HOST_MSG 7 0 = 0 := by decide +kernel
theorem wit_BurinMessages_bad : (asked0 2).fld Reg.BUR_HOST_MSG 7 0 = 2 ∧
    burRuns (asked0 2) (primary (asked0 2)) = true ∧ goesOn (exec .ping (asked0 2)) = true := by decide +kernel
theorem test_ping : (after .ping (asked0 0)).rd Reg.BUR_HOST_RSP = 0x100 := by decide +kernel
theorem test_handover : primary (after .handover (asked0 1)) = .b := by decide +kernel

end Sys2Proof.Tests
end

section
/-! PROOFS. What every command keeps: the integration parameters, the queue of waiting commands, the canonical form of host
memory and, but for the commands that R178, R189 and R41 name, STK_COUNT. One rule for each operation of the model: it keeps
what the state that it is given kept. A rule's term follows the operation's own text, from the last update to the first; an
update of another field is the same by definition. -/

namespace Sys2Proof.Machine

/-- What no command touches from a state `s₀` to a state `s`: the integration parameters (R20), the queue of waiting commands
(log 1), the canonical form of host memory, and, where `cs` asks for it, STK_COUNT (R178). -/
def Kept (cs : Bool) (s₀ s : State) : Prop :=
  s.par = s₀.par ∧ s.pending = s₀.pending ∧ (Memory.wf s₀.mem = true → Memory.wf s.mem = true) ∧
  (cs = true → s.count = s₀.count)

/-- The same of a command's outcome. -/
def KeptOut (cs : Bool) (s₀ : State) (o : Host.Outcome State Fault Refusal) : Prop := ∀ t, o = .next t → Kept cs s₀ t

namespace Kept

variable {cs : Bool} {s₀ s t : State}

theorem refl : Kept cs s s := ⟨rfl, rfl, id, fun _ => rfl⟩

theorem par_eq (h : Kept cs s₀ s) : s.par = s₀.par := h.1

theorem pending_eq (h : Kept cs s₀ s) : s.pending = s₀.pending := h.2.1

theorem mem_wf (h : Kept cs s₀ s) : Memory.wf s₀.mem = true → Memory.wf s.mem = true := h.2.2.1

theorem count_eq (h : Kept true s₀ s) : s.count = s₀.count := h.2.2.2 rfl

/-- A state with another memory in canonical form keeps what a state kept. -/
theorem withMem {m : List Host.Cell} (h : Kept cs s₀ s) (hm : Memory.wf s.mem = true → Memory.wf m = true) :
    Kept cs s₀ { s with mem := m } := by
  obtain ⟨hp, hq, hw, hc⟩ := h
  exact ⟨hp, hq, fun w => hm (hw w), hc⟩

/-- Where STK_COUNT may move, a state with another count keeps what a state kept. -/
theorem moved {c : Stroke} (h : Kept false s₀ s) : Kept false s₀ { s with count := c } := by
  obtain ⟨hp, hq, hw, -⟩ := h
  exact ⟨hp, hq, hw, nofun⟩

theorem ite {p : Prop} [Decidable p] (hs : Kept cs s₀ s) (ht : Kept cs s₀ t) : Kept cs s₀ (if p then s else t) := by
  split
  · exact hs
  · exact ht

theorem foldl {α : Type} {f : State → α → State} {l : List α} (hf : ∀ s a, Kept cs s₀ s → Kept cs s₀ (f s a))
    (h : Kept cs s₀ s) : Kept cs s₀ (l.foldl f s) := by
  induction l generalizing s with
  | nil => exact h
  | cons a l ih => exact ih (hf s a h)

theorem elim {α : Type} {o : Option α} {f : α → State} (h : Kept cs s₀ s) (hf : ∀ a, Kept cs s₀ (f a)) :
    Kept cs s₀ (o.elim s f) := by
  cases o with
  | none => exact h
  | some a => exact hf a

theorem getD {o : Option State} (h : Kept cs s₀ s) (ho : ∀ t, o = some t → Kept cs s₀ t) : Kept cs s₀ (o.getD s) := by
  cases o with
  | none => exact h
  | some t => exact ho t rfl

end Kept

namespace KeptOut
variable {cs : Bool} {s₀ s : State} {a b : Host.Outcome State Fault Refusal}

theorem next (h : Kept cs s₀ s) : KeptOut cs s₀ (.next s) := by
  rintro t ⟨⟩
  exact h

theorem ite {p : Prop} [Decidable p] (ha : KeptOut cs s₀ a) (hb : KeptOut cs s₀ b) : KeptOut cs s₀ (if p then a else b) := by
  split
  · exact ha
  · exact hb

end KeptOut

section
variable {cs : Bool} {s₀ s t : State}

/-! ### Memory, registers, lines of the state (Ops) -/

theorem Kept.storeBytes {a n v : Nat} (h : Kept cs s₀ s) : Kept cs s₀ (s.storeBytes a n v) :=
  .withMem h fun w => memStore_wf w a n v

theorem Kept.store32 {a : Nat} {v : W32} (h : Kept cs s₀ s) : Kept cs s₀ (s.store32 a v) := .storeBytes h

theorem Kept.store64 {a : Nat} {v : W64} (h : Kept cs s₀ s) : Kept cs s₀ (s.store64 a v) := .storeBytes h

theorem Kept.reads {a n : Nat} (h : Kept cs s₀ s) : Kept cs s₀ (s.reads a n) := h

theorem Kept.served (h : Kept cs s₀ s) (ht : Kept cs s₀ t) : Kept cs s₀ (s.served t) := .ite ht h

theorem Kept.ran (h : Kept cs s₀ t) : Kept cs s₀ (s.ran t) := h

theorem Kept.servedRun (h : Kept cs s₀ s) (ht : Kept cs s₀ t) : Kept cs s₀ (s.servedRun t) := .ite h (.ran ht)

theorem Kept.forget {w : AccWho} (h : Kept cs s₀ s) : Kept cs s₀ (s.forget w) := h

theorem Kept.withFail {w : AccWho} {n : Nat} {fail : Bool} {act : State → Bool → State}
    (hact : ∀ s f, Kept cs s₀ s → Kept cs s₀ (act s f)) (h : Kept cs s₀ s) : Kept cs s₀ (s.withFail w n fail act) :=
  .ite (hact _ _ h) (hact _ _ (.forget h))

theorem Kept.wr {off : Nat} {v : W32} (h : Kept cs s₀ s) : Kept cs s₀ (s.wr off v) := .ite h h

theorem Kept.wr64 {off : Nat} {v : W64} (h : Kept cs s₀ s) : Kept cs s₀ (s.wr64 off v) := .wr (.wr h)

theorem Kept.setFld {off hi lo v : Nat} (h : Kept cs s₀ s) : Kept cs s₀ (s.setFld off hi lo v) := .wr h

theorem Kept.setBitR {off i : Nat} {b : Bool} (h : Kept cs s₀ s) : Kept cs s₀ (s.setBitR off i b) := .wr h

theorem Kept.cnt64 {off : Nat} {n : optParam Nat 1} (h : Kept cs s₀ s) : Kept cs s₀ (s.cnt64 off n) := .wr64 h

theorem Kept.cnt32 {off : Nat} (h : Kept cs s₀ s) : Kept cs s₀ (s.cnt32 off) := .wr h

theorem Kept.setTgt {t : Nat} {x : Tg} (h : Kept cs s₀ s) : Kept cs s₀ (s.setTgt t x) := h

theorem Kept.modTgt {t : Nat} {f : Tg → Tg} (h : Kept cs s₀ s) : Kept cs s₀ (s.modTgt t f) := .setTgt h

theorem Kept.setLine {n : Nat} {x : Line} (h : Kept cs s₀ s) : Kept cs s₀ (s.setLine n x) := h

theorem Kept.modLine {n : Nat} {f : Line → Line} (h : Kept cs s₀ s) : Kept cs s₀ (s.modLine n f) := .setLine h

theorem Kept.setLane {l : Nat} {x : List LaneW} (h : Kept cs s₀ s) : Kept cs s₀ (s.setLane l x) := h

theorem Kept.setPwrState {v : Nat} (h : Kept cs s₀ s) : Kept cs s₀ (setPwrState s v) := .setFld h

theorem Kept.setPwrPhase {v : Nat} (h : Kept cs s₀ s) : Kept cs s₀ (setPwrPhase s v) := .setFld h

theorem Kept.abandonPrep (h : Kept cs s₀ s) : Kept cs s₀ (abandonPrep s) := .ite (.wr (.setPwrPhase h)) h

theorem Kept.activity (h : Kept cs s₀ s) : Kept cs s₀ (activity s) := .abandonPrep h

theorem Kept.lastWake {code idx : Nat} (h : Kept cs s₀ s) : Kept cs s₀ (lastWake s code idx) := .wr h

theorem Kept.secondsPass (h : Kept cs s₀ s) : Kept cs s₀ (secondsPass s) := h

theorem Kept.beginWake {code idx : Nat} (h : Kept cs s₀ s) : Kept cs s₀ (beginWake s code idx) :=
  .ite (.lastWake (.secondsPass h)) (.lastWake (.secondsPass h))

theorem Kept.wake {code idx : Nat} (h : Kept cs s₀ s) : Kept cs s₀ (wake s code idx) := by
  unfold Machine.wake
  dsimp only
  split
  · exact .abandonPrep h
  · exact .ite (.abandonPrep h) (.abandonPrep h)
  · exact .ite (.beginWake (.abandonPrep h)) (.abandonPrep h)
  · exact .abandonPrep h
  · exact .ite (.setPwrState (.lastWake (.abandonPrep h))) (.abandonPrep h)

theorem Kept.laneAdd {w : LaneW} (h : Kept cs s₀ s) : Kept cs s₀ (laneAdd s w) := .setLane h

theorem Kept.spill {t : Nat} {virt : Bool} {ev : EventId} {base : Byte} {wid : Option Nat} (h : Kept cs s₀ s) :
    Kept cs s₀ (spill s t virt ev base wid) :=
  .laneAdd h

theorem Kept.meetsAt {k : Nat} {o : TOp} {arr : Stroke} (h : Kept cs s₀ s) (e : meetsAt s k o arr = some t) :
    Kept cs s₀ t := by
  unfold Machine.meetsAt at e
  dsimp only at e
  split_ifs at e <;> cases e
  · exact h
  · exact h
  · exact .setTgt h
  · exact h

theorem Kept.vMerge {u : BitVec 16} {ev : EventId} {a : Attr} {arr : Stroke} (h : Kept cs s₀ s) :
    Kept cs s₀ (vMerge s u ev a arr) := by
  unfold Machine.vMerge
  refine .ite (.modTgt h) ?_
  split
  · exact .ran (.store64 h)
  · exact h

theorem Kept.insMeets {k : Nat} {o : TOp} {arr : Stroke} (h : Kept cs s₀ s) (e : insMeets s k o arr = some t) :
    Kept cs s₀ t := by
  unfold Machine.insMeets at e
  split at e
  · exact .meetsAt h (by rw [← e]; assumption)
  · split at e
    · obtain ⟨u, -, rfl⟩ := Option.map_eq_some_iff.1 e
      exact .vMerge h
    · obtain ⟨u, -, rfl⟩ := Option.map_eq_some_iff.1 e
      cases hu : Machine.meetsAt s u o arr with
      | none => exact h
      | some v => exact .meetsAt h hu

theorem Kept.directSpill {t : Nat} {o : TOp} (h : Kept cs s₀ s) : Kept cs s₀ (directSpill s t o) :=
  .ite (.modTgt (.cnt64 h)) (.spill (.cnt64 h))

theorem Kept.treePut {t : Nat} {o : TOp} (h : Kept cs s₀ s) : Kept cs s₀ (treePut s t o) := by
  unfold Machine.treePut
  refine .ite (.setTgt h) (.ite ?_ (.setTgt h))
  split
  · exact .insMeets h ‹_›
  · exact .directSpill h

theorem Kept.burWake (h : Kept cs s₀ s) : Kept cs s₀ (burWake t s) := .ite (.wake h) h

theorem Kept.ipendBit {i : Nat} (h : Kept cs s₀ s) : Kept cs s₀ (ipendBit s i) := .burWake h

theorem Kept.occQuiet {src flag unit : Nat} {fresh : Bool} (h : Kept cs s₀ s) :
    Kept cs s₀ (occQuiet s src flag unit fresh) :=
  .ite h (.ipendBit (.setFld h))

theorem Kept.flagQuiet {src off i unit : Nat} {fresh : Bool} (h : Kept cs s₀ s) :
    Kept cs s₀ (flagQuiet s src off i unit fresh) :=
  .ite h (.occQuiet (.setBitR h))

theorem Kept.sendRaise {flag : State → Nat → Nat → Nat → Nat → Bool → State} {k id : Nat} {nonsec : Bool} {arr : Stroke}
    (hf : ∀ s a b c d e, Kept cs s₀ s → Kept cs s₀ (flag s a b c d e)) (h : Kept cs s₀ s) :
    Kept cs s₀ (sendRaise flag s k id nonsec arr) := .ite (hf _ _ _ _ _ _ h) (.treePut h)

theorem Kept.errEvent {src : Nat} (h : Kept cs s₀ s) : Kept cs s₀ (errEvent s src) :=
  .ite (.sendRaise (fun _ _ _ _ _ _ h => .flagQuiet h) h) h

theorem Kept.occ {src flag unit : Nat} {fresh : Bool} (h : Kept cs s₀ s) : Kept cs s₀ (occ s src flag unit fresh) :=
  .ite (.occQuiet h) (.errEvent (.occQuiet h))

theorem Kept.setFlag {src off i unit : Nat} {fresh : Bool} (h : Kept cs s₀ s) :
    Kept cs s₀ (setFlag s src off i unit fresh) :=
  .ite h (.occ (.setBitR h))

theorem Kept.sendTo {k id : Nat} {nonsec : Bool} {arr : Stroke} (h : Kept cs s₀ s) :
    Kept cs s₀ (sendTo s k id nonsec arr) := .sendRaise (fun _ _ _ _ _ _ h => .setFlag h) h

theorem Kept.glbCapture {off : Nat} {src : Src} {kind : Nat} (h : Kept cs s₀ s) :
    Kept cs s₀ (glbCapture s off src kind) :=
  .wr (.wr h)

theorem Kept.glbErr {off : Nat} {src : Src} {kind : Nat} (h : Kept cs s₀ s) : Kept cs s₀ (glbErr s off src kind) :=
  .setFlag (.glbCapture h)

theorem Kept.capture {voff vbit : Nat} {put : State → State} (hput : Kept cs s₀ (put s)) (h : Kept cs s₀ s) :
    Kept cs s₀ (capture s voff vbit put).1 := by
  unfold Machine.capture
  split
  · exact h
  · exact .setBitR hput

theorem Kept.logErr {src off i unit voff vbit : Nat} {put : State → State} (hput : Kept cs s₀ (put s))
    (h : Kept cs s₀ s) : Kept cs s₀ (logErr s src off i unit voff vbit put) := .setFlag (.capture hput h)

theorem Kept.setRing {n : Nat} {x : Ring} (h : Kept cs s₀ s) : Kept cs s₀ (s.setRing n x) := h

theorem Kept.modRing {n : Nat} {f : Ring → Ring} (h : Kept cs s₀ s) : Kept cs s₀ (s.modRing n f) := .setRing h

theorem Kept.cmdFail {wid : Option Nat} (h : Kept cs s₀ s) : Kept cs s₀ (cmdFail s wid) := by
  unfold Machine.cmdFail
  split
  · exact h
  · exact .ite h (.ite h (.modRing h))

/-! ### Hatch trees (Tree) -/

theorem Kept.putBit {t : Nat} {vpe : Option (BitVec 16)} {ev : EventId} {b : Bool} (h : Kept cs s₀ s) :
    Kept cs s₀ (putBit s t vpe ev b) :=
  .storeBytes h

theorem Kept.markLive {t : Nat} {virt : Bool} {ev : EventId} {p : Byte} (h : Kept cs s₀ s) :
    Kept cs s₀ (markLive s t virt ev p) :=
  .modTgt h

theorem Kept.setVword {v : BitVec 16} {w : VWord} (h : Kept cs s₀ s) : Kept cs s₀ (s.setVword v w) := h

theorem Kept.setPanel {p : Nat} {x : Panel} (h : Kept cs s₀ s) : Kept cs s₀ (s.setPanel p x) := h

theorem Kept.parkReq {v : BitVec 16} {ev : EventId} {p : Byte} {wid : Option Nat} (h : Kept cs s₀ s) :
    Kept cs s₀ (parkReq s v ev p wid) :=
  h

theorem Kept.virtPut {o : TOp} (h : Kept cs s₀ s) : Kept cs s₀ (virtPut s o) := .ite (.treePut h) (.parkReq h)

theorem Kept.sendFlit {ty : Byte} {dst : BitVec 7} {pay : BitVec 160} (h : Kept cs s₀ s) :
    Kept cs s₀ (sendFlit s ty dst pay) :=
  h

theorem Kept.noteState {t : Nat} {virt : Bool} {ev : EventId} (h : Kept cs s₀ s) :
    Kept cs s₀ (noteState s t virt ev) := by
  unfold Machine.noteState
  refine .ite h (.ite (.ite (.modLine h) h) ?_)
  split
  · exact h
  · exact .ite h (.sendFlit h)

theorem Kept.setEarly {ev : EventId} {b : Bool} (h : Kept cs s₀ s) : Kept cs s₀ (setEarly s ev b) := .ite h h

theorem Kept.setLatch {t : Nat} {virt : Bool} {ev : EventId} {b : Bool} (h : Kept cs s₀ s) :
    Kept cs s₀ (setLatch s t virt ev b) := by
  unfold Machine.setLatch
  refine .ite (.setEarly h) (.ite h (.ite (.setBitR h) (.ite (.setBitR h) ?_)))
  split
  · exact h
  · exact h

theorem Kept.readAttr {vpe : Option (BitVec 16)} {ev : EventId} (h : Kept cs s₀ s) :
    Kept cs s₀ (readAttr s vpe ev) := by
  unfold Machine.readAttr
  split
  · exact .reads h
  · exact .ite h (.reads h)

theorem Kept.clearBit {t : Nat} {vpe : Option (BitVec 16)} {ev : EventId} (h : Kept cs s₀ s) :
    Kept cs s₀ (clearBit s t vpe ev) :=
  .ite (.putBit h) h

theorem Kept.applyClear {w : LaneW} (h : Kept cs s₀ s) : Kept cs s₀ (applyClear s w) :=
  .ite (.clearBit h) (.ite (.ite h (.noteState (.clearBit h))) (.noteState (.setLatch (.ite h (.clearBit h)))))

theorem Kept.applyClears {kept l : List LaneW} (h : Kept cs s₀ s) : Kept cs s₀ (applyClears s kept l).1 := by
  induction l generalizing s kept with
  | nil => exact h
  | cons w r ih =>
    unfold Machine.applyClears
    split
    · exact ih h
    · exact ih (.applyClear h)

theorem Kept.laneDrain {l : Nat} (h : Kept cs s₀ s) : Kept cs s₀ (laneDrain s l) := .setLane (.applyClears h)

theorem Kept.lanesDrain (h : Kept cs s₀ s) : Kept cs s₀ (lanesDrain s) := .foldl (fun _ _ h1 => .laneDrain h1) h

theorem Kept.laneHand {w : LaneW} (h : Kept cs s₀ s) : Kept cs s₀ (laneHand s w) := .ite (.laneAdd h) (.applyClear h)

theorem Kept.laneClear {t : Nat} {vpe : Option (BitVec 16)} {ev : EventId} {drop : Bool} {wid : Option Nat}
    (h : Kept cs s₀ s) : Kept cs s₀ (laneClear s t vpe ev drop wid) :=
  .laneHand h

theorem Kept.enterClear {t : Nat} {vpe : Option (BitVec 16)} {ev : EventId} (h : Kept cs s₀ s) :
    Kept cs s₀ (enterClear s t vpe ev) :=
  .laneHand h

theorem Kept.enter {t : Nat} {e : Entry} (h : Kept cs s₀ s) : Kept cs s₀ (enter s t e) :=
  .enterClear (.setBitR (.modTgt h))

theorem Kept.mergeBit {t : Nat} {o : TOp} (h : Kept cs s₀ s) : Kept cs s₀ (mergeBit s t o) := .ite (.enterClear h) h

theorem Kept.insDo {t : Nat} {o : TOp} (h : Kept cs s₀ s) : Kept cs s₀ (insDo s t o) := by
  unfold Machine.insDo
  dsimp only
  split
  · exact .noteState (.mergeBit (.ite (.setLatch (.insMeets (.ite (.cnt64 h) h) ‹_›))
      (.insMeets (.ite (.cnt64 h) h) ‹_›)))
  · refine .ite (.noteState (.enter (.ite (.setLatch (.ite (.cnt64 h) h)) (.ite (.cnt64 h) h)))) ?_
    split
    · exact .ite (.setLatch (.ite (.cnt64 h) h)) (.ite (.cnt64 h) h)
    · exact .ite (.noteState (.enter (.cnt64
        (.spill (.setTgt (.ite (.setLatch (.ite (.cnt64 h) h)) (.ite (.cnt64 h) h)))))))
        (.noteState (.cnt64 (.spill (.ite (.setLatch (.ite (.cnt64 h) h)) (.ite (.cnt64 h) h)))))

theorem Kept.mapEntries {t : Nat} {f : Entry → Entry} (h : Kept cs s₀ s) : Kept cs s₀ (mapEntries s t f) := .modTgt h

theorem Kept.takeOut {t : Nat} {virt : Bool} {ev : EventId} (h : Kept cs s₀ s) : Kept cs s₀ (takeOut s t virt ev) :=
  .modTgt h

theorem Kept.pullCarried {t : Nat} {virt : Bool} {ev : EventId} (h : Kept cs s₀ s) :
    Kept cs s₀ (pullCarried s t virt ev) :=
  .ite (.modTgt h) h

theorem Kept.dropDo {t : Nat} {virt : Bool} {ev : EventId} {vpe : BitVec 16} (h : Kept cs s₀ s) :
    Kept cs s₀ (dropDo s t virt ev vpe) :=
  .ite h (.ite (.ite h (.laneClear (.pullCarried (.takeOut h)))) (.laneClear h))

theorem Kept.clearPendPart {t : Nat} {virt : Bool} {ev : EventId} (h : Kept cs s₀ s) :
    Kept cs s₀ (clearPendPart s t virt ev) :=
  .modTgt h

theorem Kept.clearDo {t : Nat} {virt : Bool} {ev : EventId} {vpe : BitVec 16} {wid : Option Nat} (h : Kept cs s₀ s) :
    Kept cs s₀ (clearDo s t virt ev vpe wid) :=
  .ite (.noteState (.enterClear (.setLatch (.clearPendPart h))))
    (.ite (.ite (.setLatch (.modTgt (.mapEntries h))) (.laneClear (.setLatch (.pullCarried (.takeOut h)))))
    (.laneClear h))

theorem Kept.rprDo {t : Nat} {o : TOp} (h : Kept cs s₀ s) : Kept cs s₀ (rprDo s t o) := .mapEntries h

theorem Kept.ageDo {t : Nat} {c : BitVec 3} (h : Kept cs s₀ s) : Kept cs s₀ (ageDo s t c) := .mapEntries h

theorem Kept.flsDo {t : Nat} {virt : Bool} {ev : EventId} (h : Kept cs s₀ s) : Kept cs s₀ (flsDo s t virt ev) := by
  unfold Machine.flsDo
  split
  · exact h
  · exact .cnt64 (.spill (.takeOut h))

theorem Kept.offTree {t : Nat} {o : TOp} (h : Kept cs s₀ s) : Kept cs s₀ (offTree s t o) := by
  unfold Machine.offTree
  split
  · exact .parkReq h
  · split
    · exact .parkReq (.takeOut h)
    · exact h
  · exact .laneClear h
  · exact .laneClear h
  · exact h
  · exact h

/-! ### Rows of the trees, raises, refills, sweeps, spills (TreeOps) -/

theorem Kept.freeSlow {wid : Nat} (h : Kept cs s₀ s) : Kept cs s₀ (freeSlow s wid) := h

theorem Kept.iftSend {e : Ift} (h : Kept cs s₀ s) : Kept cs s₀ (iftSend s e) := by
  unfold Machine.iftSend
  split
  · exact .sendFlit (.elim h (fun _ => .freeSlow h))
  · exact h

theorem Kept.remoteRaise {g : BitVec 14} {ev : EventId} {a : Attr} {kind ctx : Nat} {w : Bool} {arr : Stroke}
    {lineNo src q : Nat} {wid slice : optParam (Option Nat) none} (h : Kept cs s₀ s) :
    Kept cs s₀ (remoteRaise s g ev a kind ctx w arr lineNo src q wid slice) :=
  .iftSend h

theorem Kept.reqSend {o : CmdOut} (h : Kept cs s₀ s) : Kept cs s₀ (reqSend s o) := .sendFlit h

theorem Kept.sendReq {ring inst code : Nat} {ev : EventId} {target : Nat} {att : W64} {k : Cont} (h : Kept cs s₀ s) :
    Kept cs s₀ (sendReq s ring inst code ev target att k) :=
  .ite (.reqSend h) h

theorem Kept.pumpReq {k : Nat} (h : Kept cs s₀ s) : Kept cs s₀ (pumpReq s k) := by
  induction k generalizing s with
  | zero => exact h
  | succ k ih =>
    unfold Machine.pumpReq
    split
    · exact h
    · exact .ite (ih (.reqSend h)) h

theorem Kept.forwardClear {g : BitVec 14} {o : TOp} (h : Kept cs s₀ s) : Kept cs s₀ (forwardClear s g o) := by
  unfold Machine.forwardClear
  dsimp only
  split
  · exact .sendReq (.modRing h)
  · exact .sendReq h

theorem Kept.forwardOp {m : Move} {o : TOp} (h : Kept cs s₀ s) : Kept cs s₀ (forwardOp s m o) := by
  unfold Machine.forwardOp
  split
  · exact .ite (.treePut h) (.ite (.remoteRaise h) (.ite (.forwardClear h) h))
  · split
    · exact .virtPut h
    · exact .ite (.treePut h) h
    · exact .ite (.treePut h) (.laneClear h)
    · exact .ite (.treePut h) (.laneClear h)
    · exact h

theorem Kept.treeEnq {t : Nat} {o : TOp} (h : Kept cs s₀ s) : Kept cs s₀ (treeEnq s t o) := by
  unfold Machine.treeEnq
  refine .ite ?_ (.treePut h)
  split
  · exact .forwardOp h
  · exact .treePut h

theorem Kept.virtRaise {v : BitVec 16} {ev : EventId} {a : Attr} {arr : Stroke} {wid : Option Nat} (h : Kept cs s₀ s) :
    Kept cs s₀ (virtRaise s v ev a arr wid) :=
  .ite (.treeEnq h) (.parkReq h)

theorem Kept.raiseEnq {t : Nat} {o : TOp} (h : Kept cs s₀ s) : Kept cs s₀ (raiseEnq s t o) :=
  .ite (.noteState (.treeEnq h)) (.treeEnq h)

theorem Kept.popOp {t : Nat} (h : Kept cs s₀ s) : Kept cs s₀ (popOp s t) := .modTgt (.ite h (.activity h))

theorem Kept.issue {k : Nat} {want : OpKind → Bool} {act : State → TOp → State}
    (hact : ∀ s o, Kept cs s₀ s → Kept cs s₀ (act s o)) (h : Kept cs s₀ s) : Kept cs s₀ (issue s k want act) := by
  unfold Machine.issue
  split
  · exact h
  · refine .ite h ?_
    split
    · exact .forwardOp (.popOp h)
    · exact .ite (.offTree (.popOp h)) (hact _ _ (.popOp h))

theorem Kept.carryOver {t : Nat} {o : TOp} (h : Kept cs s₀ s) : Kept cs s₀ (carryOver s t o) := .modTgt (.popOp h)

theorem Kept.issueIns {t : Nat} (h : Kept cs s₀ s) : Kept cs s₀ (issueIns s t) := by
  unfold Machine.issueIns
  split
  · exact .ite (.carryOver h) (.issue (fun _ _ h1 => .insDo h1) h)
  · exact h

theorem Kept.issueRem {t : Nat} (h : Kept cs s₀ s) : Kept cs s₀ (issueRem s t) :=
  .issue (fun _ _ h1 => .ite (.dropDo h1) (.clearDo h1)) h

theorem Kept.issueFls {t : Nat} (h : Kept cs s₀ s) : Kept cs s₀ (issueFls s t) := by
  unfold Machine.issueFls
  split
  · exact .ite (.carryOver h) (.issue (fun _ _ h1 => .flsDo h1) h)
  · exact h

theorem KeptOut.execExt {t : BitVec 7} (h : Kept cs s₀ s) : KeptOut cs s₀ (execExt t s) := by
  unfold Machine.execExt
  refine .next ?_
  dsimp only
  split
  · exact h
  · exact .ite h (.modTgt (.takeOut (.activity h)))

theorem Kept.admitQ {k n : Nat} {l : List TOp} (h : Kept cs s₀ s) : Kept cs s₀ (admitQ s k l n).1 := by
  induction l generalizing s n with
  | nil => exact h
  | cons o r ih =>
    unfold Machine.admitQ
    split
    · exact ih (.forwardOp h)
    · split
      · exact ih (.offTree h)
      · cases n with
        | zero => exact h
        | succ n => exact ih h

theorem Kept.admitSpills {l t k : Nat} (h : Kept cs s₀ s) : Kept cs s₀ (admitSpills s l t k) :=
  .modTgt (.admitQ (.admitQ (.admitQ (.setTgt h))))

theorem Kept.compareSum {t : Nat} {virt : Bool} (h : Kept cs s₀ s) : Kept cs s₀ (compareSum s t virt) := by
  unfold Machine.compareSum
  refine .ite h ?_
  dsimp only
  split
  · exact h
  · exact .ite h (.ite (.ite h (.cnt64 (.setTgt h))) (.setTgt h))

theorem Kept.eachTgt {f : State → Nat → State} (hf : ∀ s k, Kept cs s₀ s → Kept cs s₀ (f s k)) (h : Kept cs s₀ s) :
    Kept cs s₀ (eachTgt s f) := .foldl hf h

theorem Kept.classesLoad (h : Kept cs s₀ s) : Kept cs s₀ (classesLoad s) := h

theorem Kept.treesBoundary {l : Nat} (h : Kept cs s₀ s) : Kept cs s₀ (treesBoundary s l) :=
  .foldl (fun _ _ h1 => .admitSpills h1) (.eachTgt (fun _ _ h1 => .compareSum (.compareSum (.modTgt h1)))
    (.classesLoad h))

theorem Kept.rnkErr {i t : Nat} {ev : EventId} (h : Kept cs s₀ s) : Kept cs s₀ (rnkErr s i t ev) := .logErr (.wr h) h

theorem Kept.refillIns {t : Nat} {virt urgent swept repl : Bool} {ev : EventId} {a : Attr} (h : Kept cs s₀ s) :
    Kept cs s₀ (refillIns s t virt urgent swept repl ev a) := by
  unfold Machine.refillIns
  dsimp only
  split
  · exact .forwardOp h
  · exact .modTgt h

theorem Kept.leadArrive {t : Nat} {virt fail : Bool} (h : Kept cs s₀ s) : Kept cs s₀ (leadArrive s t virt fail) := by
  unfold Machine.leadArrive
  dsimp only
  split
  · exact h
  · exact .ite h (.ite (.rnkErr (.setTgt h))
      (.ite (.reads (.setTgt h)) (.ite (.noteState (.putBit (.setTgt h)))
      (.refillIns (.readAttr (.putBit (.setTgt h)))))))

theorem Kept.shtTake {k n : Nat} {virt : Bool} (h : Kept cs s₀ s) (e : shtTake s k virt n = some t) : Kept cs s₀ t := by
  unfold Machine.shtTake at e
  dsimp only at e
  split_ifs at e <;> cases e
  · exact h
  · exact h

theorem Kept.beginSweep {t : Nat} {virt : Bool} {k : Nat} (h : Kept cs s₀ s) : Kept cs s₀ (beginSweep s t virt k) := by
  unfold Machine.beginSweep
  split
  · exact .modTgt (.shtTake h ‹_›)
  · split
    · exact .modTgt (.shtTake h ‹_›)
    · exact h

theorem Kept.sweepStart {t : Nat} {virt : Bool} (h : Kept cs s₀ s) : Kept cs s₀ (sweepStart s t virt) := by
  unfold Machine.sweepStart
  refine .ite h ?_
  split
  · exact h
  · exact .beginSweep h

theorem Kept.backgroundSweep {t : Nat} {virt : Bool} (h : Kept cs s₀ s) : Kept cs s₀ (backgroundSweep s t virt) := by
  unfold Machine.backgroundSweep
  refine .ite ?_ h
  split
  · exact h
  · exact .beginSweep h

theorem Kept.sweepFail {t : Nat} {virt : Bool} {ev : EventId} (h : Kept cs s₀ s) : Kept cs s₀ (sweepFail s t virt ev) :=
  .rnkErr (.modTgt h)

theorem Kept.sweepSnap {t : Nat} {virt : Bool} {r : Sweep} (h : Kept cs s₀ s) : Kept cs s₀ (sweepSnap s t virt r) :=
  .setTgt h

theorem Kept.sweepLines {k : Nat} {virt fail : Bool} (h : Kept cs s₀ s) : Kept cs s₀ (sweepLines s k virt fail) := by
  unfold Machine.sweepLines
  split
  · exact h
  · refine .ite h ?_
    split
    · exact h
    · next u hu =>
      have hk : Kept cs s₀ u := by
        split at hu
        · exact .shtTake h hu
        · cases hu; exact h
      exact .ite (.sweepFail hk) (.sweepSnap (.reads hk))

theorem Kept.sweepNext {t : Nat} {virt : Bool} (h : Kept cs s₀ s) : Kept cs s₀ (sweepNext s t virt) := .modTgt h

theorem Kept.sweepPlace {t : Nat} {virt : Bool} {ev : EventId} (h : Kept cs s₀ s) :
    Kept cs s₀ (sweepPlace s t virt ev) :=
  .ite (.refillIns h) (.modTgt (.putBit h))

theorem Kept.sweepAttr {t : Nat} {virt fail : Bool} (h : Kept cs s₀ s) : Kept cs s₀ (sweepAttr s t virt fail) := by
  unfold Machine.sweepAttr
  dsimp only
  split
  · exact h
  · split
    · exact h
    · refine .ite h (.ite (.sweepNext (.reads h)) (.ite (.sweepNext (.noteState (.putBit h))) ?_))
      split
      · exact h
      · exact .ite (.sweepFail (.shtTake h ‹_›)) (.sweepNext (.sweepPlace (.readAttr (.putBit (.shtTake h ‹_›)))))

theorem Kept.markVirt {v : BitVec 16} {ev : EventId} {p : Byte} (h : Kept cs s₀ s) : Kept cs s₀ (markVirt s v ev p) :=
  .ite (.markLive h) (.setVword (.store32 h))

theorem Kept.directNext {t : Nat} (h : Kept cs s₀ s) : Kept cs s₀ (directNext s t) := by
  unfold Machine.directNext
  split
  · exact h
  · refine .ite h ?_
    dsimp only
    split
    · exact .forwardOp (.modTgt h)
    · refine .ite (.offTree (.modTgt h)) ?_
      split
      · exact .noteState (.insMeets (.modTgt h) ‹_›)
      · exact .spill (.modTgt h)

theorem Kept.directLane {l : Nat} (h : Kept cs s₀ s) : Kept cs s₀ (directLane s l) :=
  .foldl (fun _ _ h1 => .directNext h1) h

theorem Kept.spillSetDone {l : Nat} {fail : Bool} (h : Kept cs s₀ s) : Kept cs s₀ (spillSetDone s l fail) := by
  unfold Machine.spillSetDone
  split
  · exact h
  · refine .directLane (.laneDrain (.noteState (.ite (.rnkErr (.cmdFail (.setLane h))) ?_)))
    dsimp only
    split
    · exact .markLive (.putBit (.setLane h))
    · exact .ite (.markLive (.putBit (.setLane h))) (.markVirt (.putBit (.setLane h)))

theorem memSorted_of_sublist {m l : List Host.Cell} (h : memSorted m = true) (hl : l.Sublist m) :
    memSorted l = true := by
  induction hl with
  | slnil => exact h
  | cons _ _ ih => exact ih (memSorted_tail h)
  | cons_cons e hl ih =>
    exact memSorted_cons (memSorted_head_ne h) (ih (memSorted_tail h)) fun c hc => memSorted_lt h c (hl.subset hc)

theorem Memory.filter_wf {m : List Host.Cell} (h : Memory.wf m = true) (p : Host.Cell → Bool) :
    Memory.wf (m.filter p) = true := memSorted_of_sublist h List.filter_sublist

theorem Kept.writeSums (h : Kept cs s₀ s) : Kept cs s₀ (writeSums s) :=
  .foldl (fun _ _ h => .foldl (fun _ _ h => .store32 h) h)
    (.withMem h fun w => Memory.filter_wf w _)

theorem Kept.queueFls {t : Nat} {p : Entry → Bool} (h : Kept cs s₀ s) : Kept cs s₀ (queueFls s t p) := .modTgt h

theorem Kept.flushAll (h : Kept cs s₀ s) : Kept cs s₀ (flushAll s) := .eachTgt (fun _ _ h1 => .queueFls h1) h

theorem Kept.loadTgt {bad : List (Nat × Nat)} {t : Nat} (h : Kept cs s₀ s) : Kept cs s₀ (loadTgt bad s t) :=
  .foldl (fun _ _ h1 => .rnkErr h1) (.ite h (.modTgt h))

theorem Kept.loadEnd (h : Kept cs s₀ s) : Kept cs s₀ (loadEnd s) := .ite (.ite (.setBitR (.setBitR h)) (.setBitR h)) h

theorem Kept.loadDone {t : Option Nat} {bad : List (Nat × Nat)} (h : Kept cs s₀ s) : Kept cs s₀ (loadDone s t bad) := by
  unfold Machine.loadDone
  refine .ite h ?_
  split
  · exact .loadEnd (.foldl (fun _ _ h1 => .loadTgt h1) h)
  · exact .ite (.loadEnd (.loadTgt h)) h

/-! ### Target engines (Target) -/

theorem Kept.portAccept (h : Kept cs s₀ s) : Kept cs s₀ (portAccept s) := h

theorem Kept.portShow (h : Kept cs s₀ s) : Kept cs s₀ (portShow s) := by
  unfold Machine.portShow
  split
  · exact h
  · exact h

theorem Kept.portTaken {n : Nat} (h : Kept cs s₀ s) : Kept cs s₀ (portTaken s n) := .portShow h

theorem Kept.portAnswer {n : Nat} {err : Bool} {data : W64} (h : Kept cs s₀ s) : Kept cs s₀ (portAnswer s n err data) :=
  .portShow h

theorem Kept.answerRead {t : Nat} {p : Path} {w : W32} {lane : Nat} {also : optParam W64 0} (h : Kept cs s₀ s) :
    Kept cs s₀ (answerRead s t p w lane also) :=
  .ite (.ite (.portAnswer h) h) (.modTgt h)

theorem Kept.answer {t : Nat} {p : Path} {st : Nat} {ign : Bool} (h : Kept cs s₀ s) :
    Kept cs s₀ (answer s t p st ign) :=
  .ite (.wr h) (.modTgt h)

theorem Kept.tgtFlag {t i : Nat} (h : Kept cs s₀ s) : Kept cs s₀ (tgtFlag s t i) := .setFlag h

theorem Kept.badOp {t : Nat} {p : Path} (h : Kept cs s₀ s) : Kept cs s₀ (badOp s t p) := .answer (.tgtFlag h)

theorem Kept.badRsv {t : Nat} {p : Path} (h : Kept cs s₀ s) : Kept cs s₀ (badRsv s t p) := .answer (.tgtFlag h)

theorem Kept.badComplete {t : Nat} {p : Path} (h : Kept cs s₀ s) : Kept cs s₀ (badComplete s t p) :=
  .answer (.tgtFlag (.cnt32 h))

theorem Kept.noVpe {t : Nat} {p : Path} (h : Kept cs s₀ s) : Kept cs s₀ (noVpe s t p) := .answer (.tgtFlag h)

theorem Kept.frameOp {act : State → State} {read : Bool} {p : Path} (hact : ∀ s, Kept cs s₀ s → Kept cs s₀ (act s))
    (h : Kept cs s₀ s) : Kept cs s₀ (frameOp act read p s) :=
  have ha : Kept cs s₀ (Machine.portAccept (Machine.wake (Machine.activity s) 5 0)) := .portAccept (.wake (.activity h))
  .ite (.ite (hact _ (.wake h)) h) (.ite h (.ite (.portAnswer ha) (.ite (hact _ ha) (.portAnswer (hact _ ha)))))

theorem Kept.offered {p : Path} (h : Kept cs s₀ s) : Kept cs s₀ (offered p s) := .ite (.wake h) (.ite (.portTaken h) h)

theorem Kept.chanOp {act : State → State} {k : Nat} {p : Path} {read : Bool}
    (hact : ∀ s, Kept cs s₀ s → Kept cs s₀ (act s)) (h : Kept cs s₀ s) : Kept cs s₀ (chanOp act k p s read) :=
  .ite (.offered h) (.ite (.frameOp hact (.offered h)) (hact _ (.activity (.offered h))))

theorem Kept.takeClaim {t : Nat} {p : Path} {e : Entry} (h : Kept cs s₀ s) : Kept cs s₀ (takeClaim s t p e) :=
  .noteState (.setLatch (.setTgt h))

theorem Kept.claimDo {t : Nat} {p : Path} (h : Kept cs s₀ s) : Kept cs s₀ (claimDo s t p) := by
  unfold Machine.claimDo
  refine .ite (.badOp h) ?_
  split
  · exact .answerRead h
  · exact .takeClaim h

theorem Kept.claimResponse {t : Nat} (h : Kept cs s₀ s) : Kept cs s₀ (claimResponse s t) := by
  unfold Machine.claimResponse
  split
  · exact h
  · refine .ite h ?_
    dsimp only
    split
    · exact .portAnswer (.modTgt h)
    · exact .modTgt h
    · exact .modTgt (.modTgt h)

theorem Kept.peekDo {t : Nat} {p : Path} (h : Kept cs s₀ s) : Kept cs s₀ (peekDo s t p) :=
  .ite (.badOp h) (.answerRead h)

theorem Kept.deactivateAct {t : Nat} {virt : Bool} {a : Act} (h : Kept cs s₀ s) :
    Kept cs s₀ (deactivateAct s t virt a) := by
  unfold Machine.deactivateAct
  refine .noteState ?_
  split
  · exact .ite (.parkReq (.setTgt h)) (.treeEnq (.setTgt h))
  · exact .setTgt h

theorem Kept.completeAct {t : Nat} {p : Path} {ev : EventId} (h : Kept cs s₀ s) :
    Kept cs s₀ (completeAct s t p ev) := by
  unfold Machine.completeAct
  dsimp only
  split
  · exact .ite (.badComplete h) (.ite (.ite (.answer (.tgtFlag h)) (.answer (.setTgt h))) (.answer (.deactivateAct h)))
  · split
    · exact .ite (.answer (.deactivateAct h)) (.badComplete h)
    · exact .badComplete h

theorem Kept.deactAct {t : Nat} {p : Path} {ev : EventId} (h : Kept cs s₀ s) : Kept cs s₀ (deactAct s t p ev) := by
  unfold Machine.deactAct
  dsimp only
  split
  · exact .ite (.answer (.deactivateAct h)) (.badComplete h)
  · exact .badComplete h

theorem Kept.checked {k : Nat} {p : Path} {rsv : Bool} {act : State → State}
    (hact : ∀ s, Kept cs s₀ s → Kept cs s₀ (act s)) (h : Kept cs s₀ s) : Kept cs s₀ (checked s k p rsv act) :=
  .ite (.badOp h) (.ite (.badRsv h) (.ite (.noVpe h) (hact _ h)))

theorem Kept.completeDo {t : Nat} {p : Path} {arg : W32} (h : Kept cs s₀ s) : Kept cs s₀ (completeDo s t p arg) :=
  .checked (fun _ h1 => .completeAct h1) h

theorem Kept.deactDo {t : Nat} {p : Path} {arg : W32} (h : Kept cs s₀ s) : Kept cs s₀ (deactDo s t p arg) :=
  .checked (fun _ h1 => .deactAct h1) h

theorem Kept.remoteSend {i tl id : Nat} {ctx : BitVec 2} {all : Bool} (h : Kept cs s₀ s) :
    Kept cs s₀ (remoteSend s i tl id ctx all) :=
  .remoteRaise h

theorem Kept.sendAllLocal {t id : Nat} {nonsec : Bool} (h : Kept cs s₀ s) : Kept cs s₀ (sendAllLocal s t id nonsec) :=
  .foldl (fun _ _ h1 => .sendTo h1) h

theorem Kept.sendPhys {t : Nat} {p : Path} {arg : W32} (h : Kept cs s₀ s) : Kept cs s₀ (sendPhys s t p arg) := by
  unfold Machine.sendPhys
  dsimp only
  split
  · exact .ite (.answer h) (.ite (.answer h) (.ite (.answer (.sendTo h)) (.answer (.remoteSend h))))
  · exact .answer (.sendAllLocal h)
  · exact .answer (.foldl (fun _ _ h1 => .remoteSend h1) (.sendAllLocal h))

theorem Kept.virtSend {v : BitVec 16} {id : Nat} (h : Kept cs s₀ s) : Kept cs s₀ (virtSend s v id) := .virtRaise h

theorem Kept.sendGuest {t : Nat} {p : Path} {arg : W32} (h : Kept cs s₀ s) : Kept cs s₀ (sendGuest s t p arg) :=
  .ite (.answer (.foldl (fun _ _ h1 => .virtSend h1) h)) (.ite (.answer h) (.answer (.virtSend h)))

theorem Kept.sendDo {t : Nat} {p : Path} {arg : W32} (h : Kept cs s₀ s) : Kept cs s₀ (sendDo s t p arg) :=
  .checked (fun _ h1 => .ite (.sendGuest h1) (.sendPhys h1)) h

theorem Kept.setPmaskDo {t : Nat} {p : Path} {arg : W32} (h : Kept cs s₀ s) : Kept cs s₀ (setPmaskDo s t p arg) :=
  .checked (fun _ h1 => .ite (.answer (.setTgt h1))
    (.ite (.answer (.setTgt h1)) (.ite (.answer (.setTgt h1))
    (.ite (.answer (.glbErr (.setTgt h1))) (.answer (.modTgt (.setTgt h1))))))) h

theorem Kept.setSplitDo {t : Nat} {p : Path} {arg : W32} (h : Kept cs s₀ s) : Kept cs s₀ (setSplitDo s t p arg) :=
  .checked (fun _ h1 => .ite (.answer (.setTgt h1))
    (.ite (.answer (.setTgt h1)) (.ite (.answer (.glbErr (.setTgt h1))) (.answer (.modTgt (.setTgt h1)))))) h

theorem Kept.startSwitch {t : Nat} {new : Option (BitVec 16)} (h : Kept cs s₀ s) :
    Kept cs s₀ (startSwitch s t new) := by
  unfold Machine.startSwitch
  refine .queueFls (.foldl (fun _ _ h1 => .parkReq h1) (.setTgt ?_))
  split
  · refine .setVword ?_
    split
    · exact .setVword h
    · exact h
  · split
    · exact .setVword h
    · exact h

theorem Kept.setVpeDo {t : Nat} {p : Path} {arg : W32} (h : Kept cs s₀ s) : Kept cs s₀ (setVpeDo s t p arg) :=
  .ite (.badOp h) (.ite (.badRsv h) (.ite (.answer h) (.ite (.answer h) (.answer (.startSwitch h)))))

theorem Kept.chanOpDo {t : Nat} {op : BitVec 4} {ctx : BitVec 2} {arg : W32} (h : Kept cs s₀ s) :
    Kept cs s₀ (chanOpDo s t op ctx arg) := by
  unfold Machine.chanOpDo
  dsimp only
  split
  · exact .claimDo h
  · exact .completeDo h
  · exact .deactDo h
  · exact .sendDo h
  · exact .setPmaskDo h
  · exact .setSplitDo h
  · exact .setVpeDo h
  · exact .peekDo h
  · exact .badOp h

theorem Kept.undefinedOpDo {t : Nat} {op : BitVec 4} {ctx : BitVec 2} {arg : W32} (h : Kept cs s₀ s) :
    Kept cs s₀ (undefinedOpDo s t op ctx arg) :=
  .chanOpDo h

theorem Kept.localRaise {t i : Nat} (h : Kept cs s₀ s) : Kept cs s₀ (localRaise s t i) := .treeEnq h

theorem Kept.localDrop {t i : Nat} (h : Kept cs s₀ s) : Kept cs s₀ (localDrop s t i) := .treeEnq h

theorem Kept.localInput {t : Nat} {n : BitVec 4} {lvl : Bool} (h : Kept cs s₀ s) : Kept cs s₀ (localInput s t n lvl) :=
  .ite h (.ite (.setBitR h) (.ite (.localRaise (.wake (.activity (.setBitR h))))
    (.localDrop (.wake (.activity (.setBitR h))))))

theorem Kept.localSync {t n : Nat} (h : Kept cs s₀ s) : Kept cs s₀ (localSync s t n) := .localInput h

theorem Kept.localRestart (h : Kept cs s₀ s) : Kept cs s₀ (localRestart s) :=
  .foldl (fun _ _ h1 => .foldl (fun _ _ h2 => .localSync h2) h1) h

theorem Kept.localChange {t n : Nat} {lvl : Bool} (h : Kept cs s₀ s) : Kept cs s₀ (localChange s t n lvl) :=
  .ite (.localSync h) (.ite (.wake h) h)

/-! ### Wired inputs (Wired) -/

theorem Kept.setWinLine {n : Nat} {b : Bool} (h : Kept cs s₀ s) : Kept cs s₀ (setWinLine s n b) := .setBitR h

theorem Kept.glitchCount {n : Nat} (h : Kept cs s₀ s) : Kept cs s₀ (glitchCount s n) := .setFld h

theorem Kept.detect {n : Nat} {on : Bool} (h : Kept cs s₀ s) : Kept cs s₀ (detect s n on) := .modLine h

theorem Kept.filterAccept {n : Nat} (h : Kept cs s₀ s) : Kept cs s₀ (filterAccept s n) :=
  .ite h (.detect (.setWinLine (.modLine (.wake (.activity h)))))

theorem Kept.filterSamples {n samples : Nat} (h : Kept cs s₀ s) : Kept cs s₀ (filterSamples s n samples) :=
  .ite (.filterAccept h) h

theorem Kept.acceptAtOnce {n : Nat} (h : Kept cs s₀ s) : Kept cs s₀ (acceptAtOnce s n) := .ite (.filterAccept h) h

theorem Kept.countEnds {n : Nat} (h : Kept cs s₀ s) : Kept cs s₀ (countEnds s n) :=
  .ite (.glitchCount (.modLine h)) (.modLine h)

theorem Kept.lineChange {n : Nat} {lvl : Bool} {samples : Nat} {shown : Bool} (h : Kept cs s₀ s) :
    Kept cs s₀ (lineChange s n lvl samples shown) :=
  .ite h (.ite (.modLine (.filterSamples h))
    (.ite (.countEnds (.modLine (.filterSamples h))) (.acceptAtOnce (.modLine (.modLine (.filterSamples h))))))

theorem Kept.levelOut {n : Nat} {g : BitVec 14} {x : EventId} {on : Bool} {arr : Stroke} (h : Kept cs s₀ s) :
    Kept cs s₀ (levelOut s n g x on arr) :=
  .sendFlit h

theorem Kept.sendLevel {n : Nat} {g : BitVec 14} {on : Bool} {arr : Stroke} (h : Kept cs s₀ s) :
    Kept cs s₀ (sendLevel s n g on arr) :=
  .levelOut (.setLine (.ite h h))

theorem Kept.deliverLine {n : Nat} {g : BitVec 14} {arr : Stroke} (h : Kept cs s₀ s) :
    Kept cs s₀ (deliverLine s n g arr) :=
  .ite (.treeEnq (.modLine (.modLine h))) (.remoteRaise (.ite (.sendLevel (.modLine h)) (.modLine h)))

theorem Kept.unroute {n : Nat} {arr : Stroke} (h : Kept cs s₀ s) : Kept cs s₀ (unroute s n arr) :=
  .ite h (.occ (.modLine h))

theorem Kept.raiseLine {n : Nat} {arr : Stroke} (h : Kept cs s₀ s) : Kept cs s₀ (raiseLine s n arr) := by
  unfold Machine.raiseLine
  split
  · exact .ite (.deliverLine h) (.unroute h)
  · refine .ite (.deliverLine (.modLine h)) ?_
    dsimp only
    split
    · exact .ite (.deliverLine (.modLine (.modLine h))) (.unroute (.modLine (.modLine h)))
    · exact .unroute (.modLine (.modLine h))

theorem Kept.dropLine {n : Nat} {arr : Stroke} (h : Kept cs s₀ s) : Kept cs s₀ (dropLine s n arr) := by
  unfold Machine.dropLine
  dsimp only
  split
  · exact .modLine h
  · exact .ite (.treeEnq (.modLine h)) (.sendLevel (.modLine h))

theorem Kept.retryLine {n : Nat} (h : Kept cs s₀ s) : Kept cs s₀ (retryLine s n) := by
  unfold Machine.retryLine
  split
  · exact h
  · exact .raiseLine h

theorem Kept.configRead {k : Nat} (h : Kept cs s₀ s) : Kept cs s₀ (configRead s k) := by
  unfold Machine.configRead
  refine .ite h ?_
  split
  · exact h
  · split
    · exact h
    · exact .ite h (.ite (.raiseLine (.modLine h)) (.dropLine (.modLine h)))

theorem Kept.rearm {n : Nat} (h : Kept cs s₀ s) : Kept cs s₀ (rearm s n) :=
  .ite (.ite (.raiseLine (.modLine (.setFld (.setWinLine h)))) (.dropLine (.modLine (.setFld (.setWinLine h)))))
    (.modLine (.setFld (.setWinLine h)))

theorem Kept.winRpr {n : Nat} (h : Kept cs s₀ s) : Kept cs s₀ (winRpr s n) := by
  unfold Machine.winRpr
  split
  · exact .ite (.treeEnq h) h
  · exact h

theorem Kept.winCtlApply {n : Nat} {v : W32} (h : Kept cs s₀ s) : Kept cs s₀ (winCtlApply s n v).1 :=
  .ite (.rearm (.ite (.winRpr (.wr h)) (.wr h)))
    (.ite (.ite (.dropLine (.modLine (.setWinLine (.ite (.winRpr (.wr h)) (.wr h)))))
    (.modLine (.setWinLine (.ite (.winRpr (.wr h)) (.wr h)))))
    (.ite (.rearm (.ite (.winRpr (.wr h)) (.wr h))) (.ite (.winRpr (.wr h)) (.wr h))))

theorem Kept.winFiltApply {n : Nat} {v : W32} (h : Kept cs s₀ s) : Kept cs s₀ (winFiltApply s n v) :=
  .ite (.rearm (.wr h)) (.acceptAtOnce (.wr h))

theorem Kept.winRestart (h : Kept cs s₀ s) : Kept cs s₀ (winRestart s) :=
  .foldl (fun _ _ h1 => .ite (.acceptAtOnce (.modLine h1)) h1) h

theorem Kept.retryAll (h : Kept cs s₀ s) : Kept cs s₀ (retryAll s) := .foldl (fun _ _ h1 => .retryLine h1) h

/-! ### Parks and doorbells (Park) -/

theorem Kept.pnlErr {i v : Nat} (h : Kept cs s₀ s) : Kept cs s₀ (pnlErr s i v) := .logErr (.wr h) h

theorem Kept.dbRaise {v : BitVec 16} {w : W64} (h : Kept cs s₀ s) : Kept cs s₀ (dbRaise s v w) :=
  .ite (.treeEnq (.reads h)) (.remoteRaise h)

theorem Kept.doorbell {v : BitVec 16} {q : Byte} (h : Kept cs s₀ s) : Kept cs s₀ (doorbell s v q) :=
  .ite (.ite (.cnt64 (.dbRaise (.setVword (.reads h)))) (.pnlErr (.reads h))) (.reads h)

theorem Kept.parkMark {v : BitVec 16} {ev : EventId} {q : Byte} {slow bad : Bool} (h : Kept cs s₀ s) :
    Kept cs s₀ (parkMark s v ev q slow bad) :=
  .ite (.markLive h) (.ite (.setVword (.ite (.pnlErr h) (.store32 h)))
    (.doorbell (.setVword (.ite (.pnlErr h) (.store32 h)))))

theorem Kept.parkStart {fail : Bool} (h : Kept cs s₀ s) : Kept cs s₀ (parkStart s fail) := by
  unfold Machine.parkStart
  split
  · exact h
  · exact .ite (.ite (.pnlErr (.cmdFail (.cnt64 h))) (.cnt64 h)) h

theorem Kept.parkDone {n : Nat} {e : SetEnd} (h : Kept cs s₀ s) : Kept cs s₀ (parkDone s n e) := by
  unfold Machine.parkDone
  split
  · exact h
  · refine .ite h ?_
    dsimp only
    split
    · exact .pnlErr (.cmdFail h)
    · exact .vMerge (.readAttr h)
    · exact .parkMark (.putBit h)
    · exact .parkMark (.putBit (.cmdFail h))

/-! ### Message ingress (Ingress) -/

theorem Kept.msgErr {w : MWrite} {i : Nat} (h : Kept cs s₀ s) : Kept cs s₀ (msgErr s w i) :=
  .logErr (.wr (.wr (.wr (.cnt32 h)))) (.cnt32 h)

theorem Kept.dropStage (h : Kept cs s₀ s) : Kept cs s₀ (dropStage s) := h

theorem Kept.admitWrite {w : MWrite} {q : Nat} (h : Kept cs s₀ s) : Kept cs s₀ (admitWrite s w q) := .cnt64 (.ite h h)

theorem Kept.slowWrite {w : MWrite} {q : Nat} (h : Kept cs s₀ s) : Kept cs s₀ (slowWrite s w q) := .cnt64 h

theorem Kept.setHeld {b : Bool} (h : Kept cs s₀ s) : Kept cs s₀ (setHeld s b) := h

theorem Kept.decodeWrite (h : Kept cs s₀ s) : Kept cs s₀ (decodeWrite s) := by
  unfold Machine.decodeWrite
  split
  · exact h
  · refine .ite (.ite (.slowWrite (.setHeld (.dropStage h))) (.cnt64 h)) ?_
    split
    · exact .msgErr (.dropStage h)
    · exact .ite (.admitWrite (.dropStage h)) (.ite (.slowWrite (.dropStage h)) (.cnt64 (.setHeld h)))

theorem Kept.msgWrite {addr : W64} {data : W32} {be : BitVec 4} {src : BitVec 24} (h : Kept cs s₀ s) :
    Kept cs s₀ (msgWrite s addr data be src) :=
  .ite (.abandonPrep (.wake h)) (.wake h)

theorem Kept.openFence (h : Kept cs s₀ s) : Kept cs s₀ (openFence s) := .setBitR h

theorem Kept.fenceDone (h : Kept cs s₀ s) : Kept cs s₀ (fenceDone s) := by
  unfold Machine.fenceDone
  split
  · exact .ite (.setBitR h) h
  · exact h

/-! ### Translation (Xlat) -/

theorem Kept.xltFault {cause src slice data page : Nat} (h : Kept cs s₀ s) :
    Kept cs s₀ (xltFault s cause src slice data page) :=
  .logErr (.wr (.wr (.cnt32 h))) (.cnt32 h)

theorem Kept.setSlow {wid : Nat} {st : SlowStage} (h : Kept cs s₀ s) : Kept cs s₀ (setSlow s wid st) := h

theorem Kept.dispatchQueued {slice q : Nat} {w : MWrite} {r : XRes} (h : Kept cs s₀ s) :
    Kept cs s₀ (dispatchQueued s slice q w r) :=
  .ite (.virtRaise h) (.ite (.treeEnq h) (.remoteRaise h))

theorem Kept.dispatchSlow {q : Nat} {w : MWrite} {r : XRes} (h : Kept cs s₀ s) : Kept cs s₀ (dispatchSlow s q w r) :=
  .ite (.remoteRaise (.setSlow h)) (.setSlow h)

theorem Kept.endLookup {m : Miss} {r : Nat ⊕ XRes} (h : Kept cs s₀ s) : Kept cs s₀ (endLookup s m r) := by
  unfold Machine.endLookup
  split
  · exact .xltFault (.ite (.freeSlow h) h)
  · exact .ite (.dispatchSlow h) (.dispatchQueued h)

theorem Kept.slotNext {slice : Nat} (h : Kept cs s₀ s) : Kept cs s₀ (slotNext s slice) := by
  unfold Machine.slotNext
  split
  · exact h
  · exact .ite h (.cnt64 h)

theorem Kept.dropMiss {m : Miss} (h : Kept cs s₀ s) : Kept cs s₀ (dropMiss s m) := h

theorem Kept.releaseHeld {m : Miss} {k : Nat} (h : Kept cs s₀ s) : Kept cs s₀ (releaseHeld s m k) := by
  induction k generalizing s with
  | zero => exact h
  | succ k ih =>
    unfold Machine.releaseHeld
    split
    · split
      · exact ih (.endLookup (.dropMiss h))
      · exact h
    · exact h

theorem Kept.finishLookup {m : Miss} {r : Nat ⊕ XRes} (h : Kept cs s₀ s) : Kept cs s₀ (finishLookup s m r) :=
  .ite h (.releaseHeld (.endLookup h))

theorem Kept.missOn {m : Miss} {atMap : Bool} {l : Nat} (h : Kept cs s₀ s) : Kept cs s₀ (missOn s m atMap l) :=
  .slotNext (.ite (.setSlow h) h)

theorem Kept.runLookup {m : Miss} {lost : optParam Bool false} (h : Kept cs s₀ s) :
    Kept cs s₀ (runLookup s m lost) := by
  unfold Machine.runLookup
  split
  · exact .finishLookup h
  · refine .ite (.ite (.finishLookup h) (.missOn h)) ?_
    dsimp only
    split
    · exact .finishLookup h
    · refine .ite (.ite (.finishLookup h) (.missOn h)) ?_
      split
      · exact .finishLookup h
      · exact .finishLookup h

theorem Kept.setSlowAge {slice n : Nat} (h : Kept cs s₀ s) : Kept cs s₀ (setSlowAge s slice n) := h

theorem Kept.issueSlow {slice : Nat} {e : Slow} (h : Kept cs s₀ s) : Kept cs s₀ (issueSlow s slice e) :=
  .runLookup (.cnt64 (.setSlowAge h))

theorem Kept.issueQueued {slice q : Nat} {e : QWrite} (h : Kept cs s₀ s) : Kept cs s₀ (issueQueued s slice q e) :=
  .runLookup (.cnt64 h)

theorem Kept.ageMisses {slice : Nat} (h : Kept cs s₀ s) : Kept cs s₀ (ageMisses s slice) := h

theorem Kept.sliceCycles {slice idle : Nat} (h : Kept cs s₀ s) : Kept cs s₀ (sliceCycles s slice idle) :=
  .setSlowAge (.ite h (.ageMisses h))

theorem Kept.lookupIssue {slice idle : Nat} (h : Kept cs s₀ s) : Kept cs s₀ (lookupIssue s slice idle) := by
  unfold Machine.lookupIssue
  refine .ite h ?_
  dsimp only
  split
  · exact .issueSlow (.ageMisses (.sliceCycles h))
  · exact .ite (.issueSlow (.ageMisses (.sliceCycles h))) (.issueQueued (.setSlowAge (.ageMisses (.sliceCycles h))))
  · exact .issueQueued (.setSlowAge (.ageMisses (.sliceCycles h)))
  · exact .sliceCycles h

theorem Kept.missFill {slice n : Nat} (h : Kept cs s₀ s) : Kept cs s₀ (missFill s slice n) := by
  unfold Machine.missFill
  split
  · exact h
  · exact .ite h (.slotNext (.runLookup h))

theorem Kept.slowSetAt {d : Dest} {w : MWrite} {ev : EventId} {a : Attr} {q : Nat} (h : Kept cs s₀ s) :
    Kept cs s₀ (slowSetAt s d w ev a q) := by
  unfold Machine.slowSetAt
  split
  · split
    · exact .vMerge (.freeSlow h)
    · exact .parkMark (.putBit (.freeSlow h))
  · exact .ite (.noteState (.markLive (.putBit (.freeSlow h)))) (.remoteRaise (.setSlow h))

theorem Kept.slowSetDone {n : Nat} {fail : Bool} (h : Kept cs s₀ s) : Kept cs s₀ (slowSetDone s n fail) := by
  unfold Machine.slowSetDone
  split
  · exact h
  · split
    · exact .ite h (.lanesDrain (.ite (.msgErr (.freeSlow h)) (.slowSetAt h)))
    · exact h

/-! ### Strokes (Stroke) -/

theorem Kept.modStk {f : Stk → Stk} (h : Kept cs s₀ s) : Kept cs s₀ (modStk s f) := h

theorem Kept.showPeriod (h : Kept cs s₀ s) : Kept cs s₀ (showPeriod s) := .wr64 h

theorem Kept.setOrigin {r : W64} {n : Stroke} (h : Kept cs s₀ s) : Kept cs s₀ (setOrigin s r n) := .wr64 (.wr64 h)

theorem Kept.showLag {lag : ℤ} (h : Kept cs s₀ s) : Kept cs s₀ (showLag s lag) := .setFld h

theorem Kept.decideLag {lag : ℤ} {r : W64} {n : Stroke} (h : Kept cs s₀ s) : Kept cs s₀ (decideLag s lag r n) :=
  .ite (.cnt64 (.setOrigin (.modStk (.showLag h)))) (.modStk (.showLag h))

theorem Kept.stkErr {i : Nat} (h : Kept cs s₀ s) : Kept cs s₀ (stkErr s i) := .setFlag h

theorem Kept.seeRef {r : W64} (h : Kept cs s₀ s) : Kept cs s₀ (seeRef s r) := .modStk (.ite (.stkErr h) h)

theorem Kept.reanchor {r : W64} {n : Stroke} (h : Kept cs s₀ s) : Kept cs s₀ (reanchor s r n) :=
  .modStk (.showPeriod (.setOrigin h))

theorem Kept.measure {r : W64} (h : Kept cs s₀ s) : Kept cs s₀ (measure s r) :=
  .ite h (.decideLag (.ite h (.reanchor h)))

theorem Kept.wantSnap {u : SnapUse} (h : Kept cs s₀ s) : Kept cs s₀ (wantSnap s u) := .ite h (.modStk h)

theorem Kept.shiftTime {d : Stroke} (h : Kept false s₀ s) : Kept false s₀ (shiftTime s d) := h.moved

theorem Kept.loadCount {common : Stroke} (h : Kept false s₀ s) : Kept false s₀ (loadCount s common) :=
  .modStk (.wantSnap (.shiftTime h))

theorem Kept.alignApply {n : Stroke} {hops : Nat} (h : Kept cs s₀ s) : Kept cs s₀ (alignApply s n hops) :=
  .ite (.wantSnap (.wr64 (.ite (.stkErr (.setFld h)) (.setFld h))))
    (.ite (.modStk (.wr64 (.ite (.stkErr (.setFld h)) (.setFld h)))) (.ite (.stkErr (.setFld h)) (.setFld h)))

theorem Kept.sleepAdvance {r : W64} (h : Kept false s₀ s) : Kept false s₀ (sleepAdvance s r) := by
  unfold Machine.sleepAdvance
  split
  · exact h
  · exact .modStk (.ite (.setOrigin (.seeRef (.wr64 (.shiftTime h)))) (.wr64 (.shiftTime h)))

theorem Kept.epochRefill (h : Kept cs s₀ s) : Kept cs s₀ (epochRefill s) := h

theorem Kept.epochBoundary (h : Kept cs s₀ s) : Kept cs s₀ (epochBoundary s) := .ite (.epochRefill (.modStk h)) h

theorem Kept.snapshot (h : Kept cs s₀ s) : Kept cs s₀ (snapshot s) := by
  unfold Machine.snapshot
  split
  · exact h
  · exact .ite h (.ite (.modStk h) (.modStk h))

theorem Kept.snapTaken {r : W64} (h : Kept cs s₀ s) : Kept cs s₀ (snapTaken s r) := by
  unfold Machine.snapTaken
  refine .modStk (.ite (.ite h h) (.ite (.modStk (.reanchor (.showLag (.stkErr (.ite h h))))) ?_))
  split
  · exact .measure (.ite h h)
  · exact .reanchor (.ite h h)
  · exact .reanchor (.ite h h)
  · exact .ite h h

theorem Kept.refRate {was : Bool} (h : Kept cs s₀ s) : Kept cs s₀ (refRate s was) :=
  .ite (.ite (.showPeriod h) (.modStk (.showPeriod h))) (.modStk (.showPeriod h))

/-! ### Command rings (CmdBase) -/

theorem Kept.completeBad {r k : Nat} (h : Kept cs s₀ s) : Kept cs s₀ (completeBad s r k) := by
  induction k generalizing s with
  | zero => exact h
  | succ k ih =>
    unfold Machine.completeBad
    dsimp only
    split
    · exact h
    · refine .ite h ?_
      split
      · exact h
      · exact ih (.setRing h)

theorem Kept.complete {r : Nat} {d : Desc} {status : Nat} {result : optParam W64 0} (h : Kept cs s₀ s) :
    Kept cs s₀ (complete s r d status result) :=
  .completeBad (.modRing h)

theorem Kept.goOn {r : Nat} {d : Desc} {status : Nat} {k : RunKind} (h : Kept cs s₀ s) :
    Kept cs s₀ (goOn s r d status k) :=
  .modRing h

theorem Kept.completeRun {r status : Nat} {result : optParam W64 0} (h : Kept cs s₀ s) :
    Kept cs s₀ (completeRun s r status result) := by
  unfold Machine.completeRun
  split
  · exact h
  · exact .complete h

theorem Kept.storeWords {a : Nat} {l : List W64} (h : Kept cs s₀ s) : Kept cs s₀ (storeWords s a l) := by
  induction l generalizing s a with
  | nil => exact h
  | cons w r ih => exact ih (.store64 h)

theorem Kept.advanceHead {r : Nat} (h : Kept cs s₀ s) : Kept cs s₀ (advanceHead s r) := .wr h

theorem Kept.endStopping {r : Nat} (h : Kept cs s₀ s) : Kept cs s₀ (endStopping s r) := .ite (.setBitR h) h

theorem Kept.cplEvent {r : Nat} {cev : Bool} (h : Kept cs s₀ s) : Kept cs s₀ (cplEvent s r cev) := .ite (.sendTo h) h

theorem Kept.pollRing {r : Nat} (h : Kept cs s₀ s) : Kept cs s₀ (pollRing s r) := by
  unfold Machine.pollRing
  split
  · exact h
  · exact .ite (.complete h) (.ite h (.modRing h))

theorem Kept.answerReq {inst req status : Nat} {pend : Bool} (h : Kept cs s₀ s) :
    Kept cs s₀ (answerReq s inst req status pend) :=
  .sendFlit h

theorem Kept.pollOwed (h : Kept cs s₀ s) : Kept cs s₀ (pollOwed s) := .foldl (fun _ _ h1 => .answerReq h1) h

theorem Kept.pollAll (h : Kept cs s₀ s) : Kept cs s₀ (pollAll s) := .pollOwed (.foldl (fun _ _ h1 => .pollRing h1) h)

theorem Kept.ringFlag {r i : Nat} (h : Kept cs s₀ s) : Kept cs s₀ (ringFlag s r i) := .setFlag h

theorem Kept.haltAtBad {r : Nat} (h : Kept cs s₀ s) : Kept cs s₀ (haltAtBad s r) :=
  .ite (.pollAll (.ringFlag (.setRing h))) h

theorem Kept.descFetch {r : Nat} {fail : Bool} (h : Kept cs s₀ s) : Kept cs s₀ (descFetch s r fail) := by
  unfold Machine.descFetch
  split
  · exact h
  · exact .ite (.haltAtBad (.setRing h)) (.completeBad (.setRing (.reads h)))

theorem Kept.recordWrite {r : Nat} {fail : Bool} (h : Kept cs s₀ s) : Kept cs s₀ (recordWrite s r fail) := by
  unfold Machine.recordWrite
  dsimp only
  split
  · exact .pollRing h
  · exact .ite (.pollRing h) (.ite (.pollAll (.ringFlag (.pollRing h)))
      (.haltAtBad (.pollAll (.completeBad
      (.cplEvent (.endStopping (.cnt64 (.advanceHead (.modRing (.storeWords (.pollRing h)))))))))))

theorem Kept.startCmd {r op : Nat} {act : State → Nat → Desc → State} {grp : State → Desc → Bool}
    {rd : State → Desc → State}
    (hact : ∀ s r d, Kept cs s₀ s → Kept cs s₀ (act s r d)) (hrd : ∀ s d, Kept cs s₀ s → Kept cs s₀ (rd s d))
    (h : Kept cs s₀ s) : Kept cs s₀ (startCmd s r op act grp rd) := by
  unfold Machine.startCmd
  split
  · exact h
  · have hr : Kept cs s₀ ((Machine.activity s).modRing r fun x => { x with fetched := x.fetched.tail }) := .modRing
      (.activity h)
    refine .ite h (.ite (.complete (hrd _ _ (.ite hr hr))) ?_)
    split
    · exact .complete (hrd _ _ (.ite hr hr))
    · exact hact _ _ _ (hrd _ _ (.ite hr hr))

theorem Kept.forgetCmd {r : Nat} (h : Kept cs s₀ s) : Kept cs s₀ (forgetCmd s r) :=
  .ite h (.forget (.forget (.forget h)))

theorem Kept.cmdServed {op : Nat} (h : Kept cs s₀ s) (ht : Kept cs s₀ t) : Kept cs s₀ (cmdServed s op t) :=
  .ite (.servedRun h ht) (.served h ht)

theorem Kept.startMem {r op : Nat} {c : CmdMem} {act : CmdMem → State → Nat → Desc → State}
    {grp : CmdMem → State → Desc → Bool} {rd : State → Desc → State}
    (hact : ∀ c s r d, Kept cs s₀ s → Kept cs s₀ (act c s r d)) (hrd : ∀ s d, Kept cs s₀ s → Kept cs s₀ (rd s d))
    (h : Kept cs s₀ s) : Kept cs s₀ (startMem s r op c act grp rd) :=
  .cmdServed h (.startCmd (fun _ _ _ h => hact _ _ _ _ (.forgetCmd h)) (fun _ _ h => .ite h (hrd _ _ h)) h)

theorem Kept.startFail {r op : Nat} {fail : Bool} {act : Bool → State → Nat → Desc → State}
    (hact : ∀ f s r d, Kept cs s₀ s → Kept cs s₀ (act f s r d)) (h : Kept cs s₀ s) :
    Kept cs s₀ (startFail s r op fail act) :=
  .cmdServed h (.startCmd (fun _ _ _ h => hact _ _ _ _ (.forgetCmd h)) (fun _ _ h => h) h)

theorem Kept.syncStart {r : Nat} {d : Desc} (h : Kept cs s₀ s) : Kept cs s₀ (syncStart s r d) :=
  .pollRing (.goOn (.ite (.openFence h) h))

theorem Kept.doorbellWrite {r tail : Nat} (h : Kept cs s₀ s) : Kept cs s₀ (doorbellWrite s r tail).1 := by
  unfold Machine.doorbellWrite
  split
  · exact .ringFlag h
  · split
    · exact h
    · exact .wr h

theorem Kept.ringEnable {r : Nat} (h : Kept cs s₀ s) : Kept cs s₀ (ringEnable s r) := .modRing (.wr (.wr h))

theorem Kept.ringDisable {r : Nat} (h : Kept cs s₀ s) : Kept cs s₀ (ringDisable s r) := .pollAll (.setBitR (.modRing h))

theorem Kept.mbxFill {r : Nat} {d : Desc} {w : List W64} (h : Kept cs s₀ s) : Kept cs s₀ (mbxFill s r d w) :=
  .wr64 (.wr64 (.wr64 (.wr64 (.wr64 h))))

theorem Kept.mbxAck (h : Kept cs s₀ s) : Kept cs s₀ (mbxAck s) := .ite (.setBitR (.wr64 (.wr64 (.wr64 (.wr64 h))))) h

/-! ### Table commands and moves (TableCmd) -/

theorem Kept.entReads {p : Nat} {m : MapEntry} (h : Kept cs s₀ s) : Kept cs s₀ (entReads s p m) := .ite (.reads h) h

theorem Kept.keyReads {d : Desc} (h : Kept cs s₀ s) : Kept cs s₀ (keyReads s d) := by
  unfold Machine.keyReads
  dsimp only
  split
  · exact .ite (.reads h) h
  · exact .ite (.entReads (.reads (.ite (.reads h) h))) (.reads (.ite (.reads h) h))

theorem Kept.endTable {r : Nat} {d : Desc} {status : Nat} (h : Kept cs s₀ s) : Kept cs s₀ (endTable s r d status) :=
  .pollRing (.goOn h)

theorem Kept.writeList {l : List (Nat × W64)} (h : Kept cs s₀ s) : Kept cs s₀ (writeList s l) :=
  .foldl (fun _ _ h1 => .store64 h1) h

theorem Kept.tableWrites {r : Nat} {d : Desc} {m : CmdMem} {l : List (Nat × W64)} (h : Kept cs s₀ s) :
    Kept cs s₀ (tableWrites s r d m l) :=
  .ite (.endTable (.writeList h)) (.complete (.writeList h))

theorem Kept.srcMap {m : CmdMem} {r : Nat} {d : Desc} (h : Kept cs s₀ s) : Kept cs s₀ (srcMap m s r d) :=
  .ite (.complete h) (.ite (.complete h) (.ite (.complete h) (.ite (.endTable (.storeWords h)) (.complete h))))

theorem Kept.srcUnmap {m : CmdMem} {r : Nat} {d : Desc} (h : Kept cs s₀ s) : Kept cs s₀ (srcUnmap m s r d) :=
  .ite (.complete h) (.ite (.complete h) (.ite (.complete h) (.ite (.endTable h) (.tableWrites h))))

theorem Kept.rprAt {d : Dest} {virt : Bool} {ev : EventId} {a : Attr} (h : Kept cs s₀ s) :
    Kept cs s₀ (rprAt s d virt ev a) := by
  unfold Machine.rprAt
  split
  · exact .ite (.treeEnq h) h
  · exact .ite (.treeEnq h) h

theorem Kept.unclaim {m : Move} (h : Kept cs s₀ s) : Kept cs s₀ (unclaim s m) := by
  unfold Machine.unclaim
  split
  · exact .ite h (.sendReq h)
  · exact h

theorem Kept.endMove {m : Move} {status : Nat} (h : Kept cs s₀ s) : Kept cs s₀ (endMove s m status) :=
  .completeRun (.unclaim h)

theorem Kept.noEntry {m : Move} (h : Kept cs s₀ s) : Kept cs s₀ (noEntry s m) := h

theorem Kept.moveV1 {m : Move} (h : Kept cs s₀ s) : Kept cs s₀ (moveV1 s m) := by
  unfold Machine.moveV1
  dsimp only
  split
  · exact .ite (.treeEnq h) (.sendReq h)
  · exact .ite (.treeEnq h) (.ite (.endMove (.reads h)) (.noEntry (.reads h)))

theorem Kept.beginMove {d : Desc} {m : Move} {claim : W64} (h : Kept cs s₀ s) : Kept cs s₀ (beginMove s d m claim) := by
  unfold Machine.beginMove
  split
  · exact .ite (.moveV1 (.goOn h)) (.sendReq (.goOn h))
  · exact .moveV1 (.goOn h)

theorem Kept.evMap {c : CmdMem} {r : Nat} {d : Desc} (h : Kept cs s₀ s) : Kept cs s₀ (evMap c s r d) := by
  unfold Machine.evMap
  dsimp only
  split
  · exact .complete h
  · refine .ite (.complete h) ?_
    split
    · exact .complete h
    · exact .ite (.complete h) (.ite (.sendReq (.goOn h))
        (.ite (.complete h) (.ite (.ite (.complete h) (.ite (.complete h) (.beginMove h)))
        (.ite (.complete (.writeList h)) (.endTable (.ite (.rprAt (.writeList h)) (.writeList h)))))))

theorem Kept.evUnmap {c : CmdMem} {r : Nat} {d : Desc} (h : Kept cs s₀ s) : Kept cs s₀ (evUnmap c s r d) := by
  unfold Machine.evUnmap
  dsimp only
  split
  · exact .complete h
  · exact .ite (.complete h) (.ite (.endTable h) (.ite (.ite (.complete h) (.sendReq (.goOn h))) (.tableWrites h)))

theorem Kept.evAttr {c : CmdMem} {r : Nat} {d : Desc} (h : Kept cs s₀ s) : Kept cs s₀ (evAttr c s r d) := by
  unfold Machine.evAttr
  dsimp only
  split
  · exact .complete h
  · exact .ite (.complete h) (.ite (.complete h)
      (.ite (.ite (.complete h) (.sendReq (.goOn h)))
      (.ite (.complete h) (.ite (.endTable (.rprAt (.writeList h))) (.complete (.writeList h))))))

theorem Kept.moveMsg {c : CmdMem} {r : Nat} {d : Desc} (h : Kept cs s₀ s) : Kept cs s₀ (moveMsg c s r d) := by
  unfold Machine.moveMsg
  dsimp only
  split
  · exact .complete h
  · exact .ite (.complete h) (.ite (.complete h)
      (.ite (.complete h) (.ite (.endTable h) (.ite (.complete h) (.ite (.complete h) (.beginMove h))))))

theorem Kept.moveWired {r : Nat} {d : Desc} (h : Kept cs s₀ s) : Kept cs s₀ (moveWired s r d) := by
  unfold Machine.moveWired
  refine .ite (.complete h) ?_
  split
  · exact .complete h
  · exact .ite (.complete h) (.ite (.complete h) (.beginMove h))

theorem Kept.evMove {c : CmdMem} {r : Nat} {d : Desc} (h : Kept cs s₀ s) : Kept cs s₀ (evMove c s r d) :=
  .ite (.moveWired h) (.moveMsg h)

theorem Kept.insertAt {m : Move} {arr : Stroke} (h : Kept cs s₀ s) : Kept cs s₀ (insertAt s m arr) := by
  unfold Machine.insertAt
  split
  · exact .ite (.treeEnq h) (.remoteRaise h)
  · exact .ite (.treeEnq h) (.parkReq h)

theorem Kept.moveCtx {m : Move} {v : BitVec 16} (h : Kept cs s₀ s) : Kept cs s₀ (moveCtx s m v) :=
  .ite (.endMove h) (.ite (.endMove (.forget h))
    (.ite (.ite (.endMove h) (.noEntry h)) (.ite (.endMove (.reads h)) (.noEntry (.reads h)))))

theorem Kept.moveOutHere {t : Nat} {k : Redir} (h : Kept cs s₀ s) : Kept cs s₀ (moveOutHere s t k) := by
  unfold Machine.moveOutHere
  refine .ite (.answerReq h) (.answerReq ?_)
  split
  · exact .forwardOp (.takeOut h)
  · exact h

theorem Kept.redirEnd {k : Redir} (h : Kept cs s₀ s) : Kept cs s₀ (redirEnd s k) := by
  unfold Machine.redirEnd
  extract_lets m drop mine
  split
  · exact h
  · split
    · exact h
    · extract_lets u ops a lane b bit c op d
      have ha : Kept cs s₀ a := .modTgt h
      have hb : Kept cs s₀ b := .ite (.setLane ha) ha
      have hc : Kept cs s₀ c := .ite (.ran (.putBit hb)) hb
      have hd : Kept cs s₀ d := .ite (.forwardOp hc) hc
      have he : ∀ u, Kept cs s₀ u → Kept cs s₀ (drop u) := fun _ h => h
      exact .noteState (he _ (.foldl (fun _ _ h => .forwardOp h) hd))

theorem Kept.mvoDo {t : Nat} {o : TOp} (h : Kept cs s₀ s) : Kept cs s₀ (mvoDo s t o) := by
  unfold Machine.mvoDo
  split
  · exact .moveOutHere h
  · exact h
  · refine .ite h (.ite (.moveCtx h) (.ite (.endMove h) ?_))
    split
    · exact .noEntry h
    · exact .insertAt h

theorem Kept.issueMvo {t : Nat} (h : Kept cs s₀ s) : Kept cs s₀ (issueMvo s t) := by
  unfold Machine.issueMvo
  dsimp only
  split
  · refine .ite ?_ (.issue (fun _ _ h1 => .mvoDo h1) h)
    split
    · exact .moveCtx (.issue (fun _ _ h1 => .mvoDo h1) h)
    · exact .issue (fun _ _ h1 => .mvoDo h1) h
  · exact .issue (fun _ _ h1 => .mvoDo h1) h

theorem Kept.bitHere {m : Move} {u : Nat} (h : Kept cs s₀ s) : Kept cs s₀ (bitHere s m u) :=
  .noteState (.markLive (.putBit h))

theorem Kept.moveV4 {m : Move} {n : Nat} (h : Kept cs s₀ s) : Kept cs s₀ (moveV4 s m n) := by
  unfold Machine.moveV4
  refine .ite h ?_
  split
  · refine .ite (.ite h (.ite (.cmdFail h) (.ite ?_ h))) (.sendReq h)
    dsimp only
    split
    · exact .ite (.ite (.cmdFail (.noteState (.putBit h))) (.bitHere (.noteState (.putBit h))))
        (.remoteRaise (.noteState (.putBit h)))
    · exact .noteState (.putBit h)
  · refine .ite (.cmdFail h) (.ite ?_ h)
    dsimp only
    split
    · exact .ite (.cmdFail (.putBit h)) (.parkMark (.putBit (.ite (.cmdFail (.putBit h)) (.putBit h))))
    · exact .putBit h

theorem Kept.moveHolder {m : Move} (h : Kept cs s₀ s) : Kept cs s₀ (moveHolder s m) := by
  unfold Machine.moveHolder
  split
  · exact .ite (.noteState (.modLine h)) h
  · exact h

theorem Kept.v3Remote {m : Move} (h : Kept cs s₀ s) : Kept cs s₀ (v3Remote s m) := by
  unfold Machine.v3Remote
  split
  · exact .ite (.sendReq (.ite h (.sendReq h))) (.ite h (.sendReq h))
  · exact h

theorem Kept.moveFails {m : Move} (h : Kept cs s₀ s) : Kept cs s₀ (moveFails s m) := by
  unfold Machine.moveFails
  refine .completeRun ?_
  split
  · exact .ite h (.sendReq h)
  · exact h

theorem Kept.moveTables {c : CmdMem} (h : Kept cs s₀ s) : Kept cs s₀ (moveTables s c) := by
  unfold Machine.moveTables
  split
  · exact h
  · exact .ite h (.ite (.moveFails (.writeList h))
      (.ite (.rprAt (.moveHolder (.moveV4 (.v3Remote (.writeList h)))))
      (.moveHolder (.moveV4 (.v3Remote (.writeList h))))))

theorem KeptOut.execMoveTablesVisible {c : CmdMem} (h : Kept cs s₀ s) : KeptOut cs s₀ (execMoveTablesVisible c s) := by
  unfold Machine.execMoveTablesVisible
  refine .next (.ite ?_ h)
  split
  · exact .served h (.moveTables (.forgetCmd h))
  · exact h

theorem Kept.moveRemove (h : Kept cs s₀ s) : Kept cs s₀ (moveRemove s) := by
  unfold Machine.moveRemove
  split
  · exact h
  · refine .ite h (.ite ?_ ?_)
    · split
      · exact .sendReq h
      · exact h
    · split
      · exact h
      · exact .complete h

theorem Kept.mapReads {d : Desc} (h : Kept cs s₀ s) : Kept cs s₀ (mapReads s d) := .entReads (.keyReads h)

theorem Kept.srcReads {d : Desc} (h : Kept cs s₀ s) : Kept cs s₀ (srcReads s d) := .ite (.reads h) h

/-! ### Event-state commands (EvCmd) -/

theorem Kept.evReads {d : Desc} (h : Kept cs s₀ s) : Kept cs s₀ (evReads s d) :=
  .ite (.ite (.reads h) h) (.ite (.ite (.readAttr h) h) (.ite (.reads h) h))

theorem Kept.holdLine {ev : EventId} {t : Nat} (h : Kept cs s₀ s) : Kept cs s₀ (holdLine s ev t) := .ite (.modLine h) h

theorem Kept.setPendAt {t : Nat} {ev : EventId} {a : Attr} {wid : Nat} (h : Kept cs s₀ s) :
    Kept cs s₀ (setPendAt s t ev a wid) :=
  .raiseEnq (.ite (.setLatch h) h)

theorem Kept.clrPendAt {t : Nat} {ev : EventId} {a : Attr} {wid : Nat} (h : Kept cs s₀ s) :
    Kept cs s₀ (clrPendAt s t ev a wid) :=
  .treeEnq h

theorem Kept.waitOps {r : Nat} {d : Desc} (h : Kept cs s₀ s) : Kept cs s₀ (waitOps s r d) := .pollRing (.goOn h)

theorem Kept.tellLevel {ev : EventId} {g : BitVec 14} (h : Kept cs s₀ s) : Kept cs s₀ (tellLevel s ev g) :=
  .ite (.sendLevel (.modLine h)) h

theorem Kept.evSetPend {c : CmdMem} {r : Nat} {d : Desc} (h : Kept cs s₀ s) : Kept cs s₀ (evSetPend c s r d) := by
  unfold Machine.evSetPend
  split
  · exact .complete h
  · exact .pollRing (.setPendAt (.ite (.modLine (.holdLine (.goOn h))) (.holdLine (.goOn h))))
  · exact .sendReq (.goOn (.tellLevel h))
  · exact .pollRing (.virtRaise (.goOn h))
  · exact .complete (.ite (.setBitR (.unroute h)) (.unroute h))

theorem Kept.ctxClear {v : BitVec 16} {ev : EventId} (h : Kept cs s₀ s) : Kept cs s₀ (ctxClear s v ev) :=
  .foldl (fun _ _ h1 => .ite (.store32 h1) h1) (.foldl (fun _ _ h1 => .ite (.store64 h1) h1) h)

theorem Kept.clrVirt {v : BitVec 16} {ev : EventId} {a : Attr} {wid : Nat} (h : Kept cs s₀ s) :
    Kept cs s₀ (clrVirt s v ev a wid) :=
  .ite (.treeEnq h) (.laneClear (.ite (.clearPendPart h) (.ctxClear (.reads h))))

theorem Kept.evClrPend {c : CmdMem} {r : Nat} {d : Desc} (h : Kept cs s₀ s) : Kept cs s₀ (evClrPend c s r d) := by
  unfold Machine.evClrPend
  split
  · exact .complete h
  · exact .ite (.pollRing (.clrPendAt (.goOn h))) (.complete h)
  · exact .sendReq (.goOn h)
  · exact .ite (.pollRing (.clrVirt (.goOn h))) (.complete h)
  · exact .complete (.setBitR (.modLine h))

theorem Kept.queryDone {r : Nat} {d : Desc} {q : Sample} (h : Kept cs s₀ s) : Kept cs s₀ (queryDone s r d q) :=
  .complete (.mbxFill h)

theorem Kept.sampleReads {h' : EvAt} (h : Kept cs s₀ s) : Kept cs s₀ (sampleReads s h') := by
  unfold Machine.sampleReads
  refine .ite h ?_
  split
  · exact .reads h
  · exact .ite (.reads h) (.reads (.reads h))
  · exact h

theorem Kept.evQuery {c : CmdMem} {r : Nat} {d : Desc} (h : Kept cs s₀ s) : Kept cs s₀ (evQuery c s r d) := by
  unfold Machine.evQuery
  dsimp only
  split
  · exact .complete h
  · refine .ite (.complete h) (.ite (.complete h) (.ite (.complete h) ?_))
    split
    · exact .complete (.sampleReads h)
    · exact .queryDone (.sampleReads h)
    · exact .queryDone (.sampleReads h)
    · exact .queryDone (.sampleReads h)
    · exact .sendReq (.goOn (.sampleReads h))

/-! ### Panels and vPEs (Panel) -/

theorem Kept.ctxSave {v : BitVec 16} {c : Ctx} (h : Kept cs s₀ s) : Kept cs s₀ (ctxSave s v c) :=
  .storeWords (.store64 h)

theorem Kept.ctxFailed {v : BitVec 16} (h : Kept cs s₀ s) : Kept cs s₀ (ctxFailed s v) := by
  unfold Machine.ctxFailed
  dsimp only
  split
  · exact .modRing (.pnlErr h)
  · exact .pnlErr h

theorem Kept.mergeChunk {o : BitVec 16} {bad : List Nat} {a : State × Byte} {e : Nat × Sum} (h : Kept cs s₀ a.1) :
    Kept cs s₀ (mergeChunk o bad a e).1 := by
  unfold Machine.mergeChunk
  split
  · exact h
  · split
    · exact .pnlErr h
    · exact .store32 h

theorem Kept.mergeChunks {o : BitVec 16} {bad : List Nat} {a : State × Byte} {l : List (Nat × Sum)}
    (h : Kept cs s₀ a.1) : Kept cs s₀ (l.foldl (Machine.mergeChunk o bad) a).1 := by
  induction l generalizing a with
  | nil => exact h
  | cons e l ih => exact ih (.mergeChunk h)

theorem Kept.switchSave {k : Nat} {ctxFail : Bool} {bad : List Nat} (h : Kept cs s₀ s) :
    Kept cs s₀ (switchSave s k ctxFail bad) := by
  unfold Machine.switchSave
  dsimp only
  split
  · exact h
  · split
    · exact h
    · exact .ite h (.setVword (.doorbell (.modTgt
        (.mergeChunks (.ite (.ctxFailed (.forget h)) (.ctxSave (.forget h)))))))

theorem Kept.sumLoadV {t : Nat} {n : BitVec 16} {bad : List Nat} (h : Kept cs s₀ s) : Kept cs s₀ (sumLoadV s t n bad) :=
  .foldl (fun _ _ h1 => .ite (.modTgt (.pnlErr h1)) (.ite (.modTgt (.store32 h1)) (.store32 h1))) h

theorem Kept.switchLoad {t : Nat} {ctxFail : Bool} {bad : List Nat} (h : Kept cs s₀ s) :
    Kept cs s₀ (switchLoad s t ctxFail bad) := by
  unfold Machine.switchLoad
  split
  · exact h
  · split
    · exact h
    · exact .ite h (.sumLoadV (.modTgt (.ite (.ctxFailed (.setVword (.forget h))) (.reads (.setVword (.forget h))))))

theorem Kept.switchDone {t : Nat} (h : Kept cs s₀ s) : Kept cs s₀ (switchDone s t) := by
  unfold Machine.switchDone
  split
  · exact h
  · refine .ite h ?_
    dsimp only
    split
    · refine .ite (.startSwitch (.cnt64 ?_)) (.cnt64 ?_)
      · split
        · exact .modTgt (.setVword h)
        · exact .modTgt h
      · split
        · exact .modTgt (.setVword h)
        · exact .modTgt h
    · refine .cnt64 ?_
      split
      · exact .modTgt (.setVword h)
      · exact .modTgt h

theorem Kept.pnlFinish {p : Nat} (h : Kept cs s₀ s) : Kept cs s₀ (pnlFinish s p) := by
  unfold Machine.pnlFinish
  split
  · exact h
  · dsimp only
    split
    · exact .complete (.setPanel h)
    · exact .setPanel h

theorem Kept.shareApply {p : Nat} (h : Kept cs s₀ s) : Kept cs s₀ (shareApply s p) := by
  unfold Machine.shareApply
  refine .ite h (.pnlFinish (.setPanel ?_))
  split
  · exact .wr (.wr h)
  · exact h

theorem Kept.sharesApply (h : Kept cs s₀ s) : Kept cs s₀ (sharesApply s) := .foldl (fun _ _ h1 => .shareApply h1) h

theorem Kept.pnlGate {r : Nat} {d : Desc} {inRange : Bool} {busy : State → Bool} {act : State → State}
    (hact : ∀ s, Kept cs s₀ s → Kept cs s₀ (act s)) (h : Kept cs s₀ s) : Kept cs s₀ (pnlGate s r d inRange busy act) :=
  .ite (.complete h) (.ite (.complete (.ite h h)) (.ite (.complete (.ite h h)) (hact _ (.ite h h))))

theorem Kept.pnlCmd {r : Nat} {d : Desc} {act : State → Nat → Desc → Nat → State}
    (hact : ∀ s r d p, Kept cs s₀ s → Kept cs s₀ (act s r d p)) (h : Kept cs s₀ s) : Kept cs s₀ (pnlCmd act s r d) :=
  .pnlGate (fun _ h => hact _ _ _ _ h) h

theorem Kept.pnlRun {r : Nat} {d : Desc} {p : Nat} {x : Panel} (h : Kept cs s₀ s) : Kept cs s₀ (pnlRun s r d p x) :=
  .goOn (.setPanel h)

theorem Kept.panelCreate {r : Nat} {d : Desc} {p : Nat} (h : Kept cs s₀ s) : Kept cs s₀ (panelCreate s r d p) :=
  .ite (.complete h) (.ite (.complete h) (.ite (.complete h) (.pnlRun h)))

theorem Kept.panelVattr {fail : Bool} {r : Nat} {d : Desc} {p : Nat} (h : Kept cs s₀ s) :
    Kept cs s₀ (panelVattr fail s r d p) :=
  .ite (.complete h) (.ite (.complete h) (.complete (.foldl (fun _ _ h1 => .treeEnq h1) (.store64 h))))

theorem Kept.panelShare {r : Nat} {d : Desc} {p : Nat} (h : Kept cs s₀ s) : Kept cs s₀ (panelShare s r d p) := by
  unfold Machine.panelShare
  refine .ite (.complete h) ?_
  split
  · exact .complete h
  · exact .pnlRun h

theorem Kept.markDrain {p : Nat} (h : Kept cs s₀ s) : Kept cs s₀ (markDrain s p) := h

theorem Kept.panelQuiesce {r : Nat} {d : Desc} {p : Nat} (h : Kept cs s₀ s) : Kept cs s₀ (panelQuiesce s r d p) :=
  .ite (.complete h) (.ite (.complete h) (.pnlRun (.markDrain h)))

theorem Kept.panelResume {r : Nat} {d : Desc} {p : Nat} (h : Kept cs s₀ s) : Kept cs s₀ (panelResume s r d p) := by
  unfold Machine.panelResume
  dsimp only
  split
  · exact .complete h
  · exact .pnlRun h
  · split
    · exact .complete h
    · exact .pnlRun h
  · exact .complete h

theorem Kept.switchOut {which : State → Nat → Bool} (h : Kept cs s₀ s) : Kept cs s₀ (switchOut s which) :=
  .foldl (fun _ _ h1 => .startSwitch h1) h

theorem Kept.panelReset {r : Nat} {d : Desc} {p : Nat} (h : Kept cs s₀ s) : Kept cs s₀ (panelReset s r d p) :=
  .ite (.complete h) (.ite (.complete h) (.switchOut (.pnlRun h)))

theorem Kept.panelDestroy {r : Nat} {d : Desc} {p : Nat} (h : Kept cs s₀ s) : Kept cs s₀ (panelDestroy s r d p) :=
  .ite (.complete h) (.ite (.complete h) (.ite (.complete h) (.pnlRun h)))

theorem Kept.quiesceDone {p : Nat} (h : Kept cs s₀ s) : Kept cs s₀ (quiesceDone s p) :=
  .ite (.pnlFinish (.setPanel h)) h

theorem Kept.panelResetDone {p : Nat} (h : Kept cs s₀ s) : Kept cs s₀ (panelResetDone s p) :=
  .ite (.pnlFinish (.setPanel (.setFld h))) h

theorem Kept.pnlBoundary (h : Kept cs s₀ s) : Kept cs s₀ (pnlBoundary s) :=
  .ite h (.foldl (fun _ _ h1 => .ite (.setPanel (.panelResetDone (.quiesceDone h1)))
    (.panelResetDone (.quiesceDone h1))) h)

theorem Kept.destroyDone {p : Nat} (h : Kept cs s₀ s) : Kept cs s₀ (destroyDone s p) :=
  .ite (.pnlFinish (.setPanel (.wr (.wr (.wr (.wr h)))))) h

theorem Kept.vpeCmd {r : Nat} {d : Desc} {act : State → Nat → Desc → BitVec 16 → State}
    (hact : ∀ s r d v, Kept cs s₀ s → Kept cs s₀ (act s r d v)) (h : Kept cs s₀ s) : Kept cs s₀ (vpeCmd act s r d) :=
  .pnlGate (fun _ h => hact _ _ _ _ h) h

theorem Kept.dbRemote {r : Nat} {d : Desc} (h : Kept cs s₀ s) : Kept cs s₀ (dbRemote s r d) := .sendReq (.goOn h)

theorem Kept.dbArm {v : BitVec 16} (h : Kept cs s₀ s) : Kept cs s₀ (dbArm s v) := .ite h (.doorbell (.setVword h))

theorem Kept.writeCtx {v : BitVec 16} {d : Desc} {n : Nat} (h : Kept cs s₀ s) : Kept cs s₀ (writeCtx s v d n) :=
  .foldl (fun _ _ h1 => .storeWords h1) h

theorem Kept.vpeNew {v : BitVec 16} {d : Desc} (h : Kept cs s₀ s) : Kept cs s₀ (vpeNew s v d) := .dbArm (.setVword h)

theorem Kept.vpeCreate {c : CmdMem} {r : Nat} {d : Desc} {v : BitVec 16} (h : Kept cs s₀ s) :
    Kept cs s₀ (vpeCreate c s r d v) := by
  unfold Machine.vpeCreate
  refine .ite (.complete h) (.ite (.complete h) (.ite (.complete h) (.ite (.complete h) ?_)))
  split
  · exact .complete h
  · exact .ite (.dbRemote h) (.ite (.complete (.writeCtx h)) (.complete (.vpeNew (.store64 (.writeCtx h)))))

theorem Kept.vpeDoorbell {c : CmdMem} {r : Nat} {d : Desc} {v : BitVec 16} (h : Kept cs s₀ s) :
    Kept cs s₀ (vpeDoorbell c s r d v) := by
  unfold Machine.vpeDoorbell
  refine .ite (.complete h) (.ite (.complete (.store64 h)) (.ite (.complete h) ?_))
  split
  · exact .complete h
  · exact .ite (.dbRemote h) (.ite (.complete (.ite (.store64 h) h))
      (.complete (.dbArm (.store64 (.ite (.store64 h) h)))))

theorem Kept.dbAnswer {c : CmdMem} {r : Nat} {d : Desc} {status : Nat} (h : Kept cs s₀ s) :
    Kept cs s₀ (dbAnswer c s r d status) :=
  .ite (.complete h) (.ite (.ite (.complete (.vpeNew (.writeCtx h))) (.complete (.writeCtx h)))
    (.ite (.complete (.dbArm (.ite (.store64 h) h))) (.complete (.ite (.store64 h) h))))

theorem Kept.vpeDestroy {fail : Bool} {r : Nat} {d : Desc} {v : BitVec 16} (h : Kept cs s₀ s) :
    Kept cs s₀ (vpeDestroy fail s r d v) :=
  .ite (.complete h) (.ite (.complete h) (.ite (.complete h) (.ite (.complete h) (.complete (.setVword (.store64 h))))))

theorem Kept.pnlSave {badP badV : List Nat} (h : Kept cs s₀ s) : Kept cs s₀ (pnlSave s badP badV) :=
  .foldl (fun _ _ h1 => .ite (.pnlErr h1) (.store64 h1))
    (.foldl (fun _ _ h1 => .ite (.pnlErr h1) (.storeWords h1)) (.forget h))

theorem Kept.restorePanel {badP : List Nat} {p : Nat} (h : Kept cs s₀ s) : Kept cs s₀ (restorePanel badP s p) :=
  .ite (.pnlErr h) (.ite h (.setPanel (.wr (.wr h))))

theorem Kept.restoreVpe {badV : List Nat} {v : Nat} (h : Kept cs s₀ s) : Kept cs s₀ (restoreVpe badV s v) :=
  .ite (.pnlErr h) (.ite (.setVword h) h)

theorem Kept.panelRestore {badP badV : List Nat} (h : Kept cs s₀ s) : Kept cs s₀ (panelRestore s badP badV) :=
  .ite h (.foldl (fun _ _ h1 => .restoreVpe h1) (.foldl (fun _ _ h1 => .restorePanel h1) (.forget h)))

theorem Kept.pnlEnable (h : Kept cs s₀ s) : Kept cs s₀ (pnlEnable s) := .wr h

/-! ### The coherent agent (Coherent) -/

theorem Kept.modCoh {f : Coh → Coh} (h : Kept cs s₀ s) : Kept cs s₀ (modCoh s f) := h

theorem Kept.putLine {l : Nat} {d : BitVec 512} (h : Kept cs s₀ s) : Kept cs s₀ (putLine s l d) :=
  .withMem h fun w => memStore_wf w _ _ _

theorem Kept.putReq {tag : Nat} {q : CReq} (h : Kept cs s₀ s) : Kept cs s₀ (putReq s tag q) := .modCoh h

theorem Kept.cohErr {i cls l : Nat} (h : Kept cs s₀ s) : Kept cs s₀ (cohErr s i cls l) := .logErr (.wr64 h) h

theorem Kept.dropGone (h : Kept cs s₀ s) : Kept cs s₀ (dropGone s) := by
  unfold Machine.dropGone
  refine .foldl (fun _ _ h1 => ?_) (.modCoh h)
  split
  · exact .ite (.complete h1) h1
  · exact h1

theorem Kept.lockMode (h : Kept cs s₀ s) : Kept cs s₀ (lockMode s) := .ite h h

theorem Kept.sendCoh {tag : Nat} {q : CReq} (h : Kept cs s₀ s) : Kept cs s₀ (sendCoh s tag q) :=
  .modCoh (.putReq (.lockMode h))

theorem Kept.evict {l tag : Nat} (h : Kept cs s₀ s) : Kept cs s₀ (evict s l tag) := .cnt64 (.sendCoh (.modCoh h))

theorem Kept.sendAcc {a : CohAcc} {op : CohOp} {tag : Nat} (h : Kept cs s₀ s) : Kept cs s₀ (sendAcc s a op tag) := by
  unfold Machine.sendAcc
  refine .sendCoh ?_
  split
  · exact .modCoh h
  · exact h

theorem Kept.requestIssue {accs : List CohAcc} {tag : Byte} (h : Kept cs s₀ s) :
    Kept cs s₀ (requestIssue s accs tag) := by
  unfold Machine.requestIssue
  refine .ite h ?_
  split
  · split
    · exact h
    · exact .ite (.elim h (fun _ => .evict h)) (.sendAcc h)
  · split
    · exact .evict h
    · exact h

theorem Kept.snpRsp {op : BitVec 4} {tag : Byte} {d : Option (Bool × BitVec 512)} (h : Kept cs s₀ s) :
    Kept cs s₀ (snpRsp s op tag d) :=
  .ite (.cnt64 (.modCoh h)) (.modCoh h)

theorem Kept.invalidate {l : Nat} (h : Kept cs s₀ s) : Kept cs s₀ (invalidate s l) := by
  unfold Machine.invalidate
  exact .dropGone (.modCoh h)

theorem Kept.snoopLine {op : SnpOp} {l : Nat} {tag : Byte} (h : Kept cs s₀ s) : Kept cs s₀ (snoopLine s op l tag) := by
  unfold Machine.snoopLine
  dsimp only
  split
  · exact .snpRsp h
  · exact .snpRsp h
  · exact .snpRsp (.invalidate h)
  · exact .snpRsp (.modCoh h)
  · exact .snpRsp (.invalidate h)
  · exact .snpRsp (.invalidate h)
  · exact .snpRsp (.modCoh h)
  · exact .snpRsp (.invalidate h)

theorem Kept.snoopEvb {e : EvEnt} {tag : Byte} (h : Kept cs s₀ s) : Kept cs s₀ (snoopEvb s e tag) :=
  .ite (.snpRsp (.modCoh h)) (.snpRsp h)

theorem Kept.snoop {op : SnpOp} {l : Nat} {tag : Byte} (h : Kept cs s₀ s) : Kept cs s₀ (snoop s op l tag) := by
  unfold Machine.snoop
  refine .ite (.snpRsp h) (.ite h ?_)
  dsimp only
  split
  · exact .snoopEvb (.cnt64 h)
  · split
    · exact .ite (.ite (.snpRsp (.cohErr (.cnt64 h))) (.putReq (.cnt64 h))) (.snoopLine (.cnt64 h))
    · exact .snoopLine (.cnt64 h)

theorem Kept.endReq {tag : Nat} (h : Kept cs s₀ s) : Kept cs s₀ (endReq s tag) := .modCoh h

theorem Kept.answerHeld {q : CReq} (h : Kept cs s₀ s) : Kept cs s₀ (answerHeld s q) := by
  unfold Machine.answerHeld
  split
  · exact .snoopLine h
  · exact h

theorem Kept.failReq {tag : Nat} {q : CReq} {flag : Nat} (h : Kept cs s₀ s) : Kept cs s₀ (failReq s tag q flag) := by
  unfold Machine.failReq
  refine .answerHeld (.dropGone ?_)
  split
  · exact .modCoh (.cohErr (.endReq h))
  · exact .modCoh (.ite (.foldl (fun _ _ h1 => .cmdFail h1) (.cohErr (.endReq h))) (.cohErr (.endReq h)))

theorem Kept.proto {tag : Nat} (h : Kept cs s₀ s) : Kept cs s₀ (proto s tag) := by
  unfold Machine.proto
  split
  · exact .cohErr (.failReq h)
  · exact .cohErr h

theorem Kept.grantLine {tag : Nat} {q : CReq} {x : Moesi} (h : Kept cs s₀ s) : Kept cs s₀ (grantLine s tag q x) :=
  .answerHeld (.lanesDrain h)

theorem Kept.countRetry {q : CReq} (h : Kept cs s₀ s) : Kept cs s₀ (countRetry s q) :=
  .ite (.cohErr (.setFld (.cnt64 h))) (.setFld (.cnt64 h))

theorem Kept.gnt {tag : Nat} {st : BitVec 3} (h : Kept cs s₀ s) : Kept cs s₀ (gnt s tag st) := by
  unfold Machine.gnt
  split
  · exact .proto h
  · split
    · exact .proto h
    · exact .ite (.sendCoh (.countRetry h)) (.grantLine h)

theorem Kept.gntD {tag : Nat} {st : BitVec 3} {d : BitVec 512} {poison : Bool} (h : Kept cs s₀ s) :
    Kept cs s₀ (gntD s tag st d poison) := by
  unfold Machine.gntD
  split
  · exact .proto h
  · split
    · exact .proto h
    · exact .ite (.failReq (.modCoh h)) (.grantLine (.cnt64 (.putLine h)))

theorem KeptOut.execRetry {tag : Byte} (h : Kept cs s₀ s) : KeptOut cs s₀ (execRetry tag s) := by
  unfold Machine.execRetry
  refine .next (.ite h ?_)
  split
  · exact .proto h
  · exact .modCoh (.putReq (.countRetry h))

theorem KeptOut.execRetryReissue {tag : Byte} (h : Kept cs s₀ s) : KeptOut cs s₀ (execRetryReissue tag s) := by
  unfold Machine.execRetryReissue
  refine .next (.ite h ?_)
  split
  · exact h
  · exact .ite (.sendCoh h) h

theorem Kept.freeEvb {tag : Nat} (h : Kept cs s₀ s) : Kept cs s₀ (freeEvb s tag) := .dropGone (.modCoh (.endReq h))

theorem KeptOut.execWbGo {tag : Byte} (h : Kept cs s₀ s) : KeptOut cs s₀ (execWbGo tag s) := by
  unfold Machine.execWbGo
  refine .next (.ite h ?_)
  split
  · exact .ite (.proto h) (.freeEvb (.modCoh h))
  · exact .proto h

theorem KeptOut.execEvAck {tag : Byte} (h : Kept cs s₀ s) : KeptOut cs s₀ (execEvAck tag s) := by
  unfold Machine.execEvAck
  refine .next (.ite h ?_)
  split
  · exact .ite (.freeEvb h) (.proto h)
  · exact .proto h

theorem Kept.cohBad {tag : Nat} {x : CohBad} (h : Kept cs s₀ s) : Kept cs s₀ (cohBad s tag x) := by
  unfold Machine.cohBad
  split
  · split
    · exact .failReq h
    · exact .proto h
  · exact .ite (.proto h) h
  · exact .ite h (.cohErr h)
  · exact .ite (.cohErr h) h

theorem KeptOut.execWritebackLastBeatAccept (h : Kept cs s₀ s) : KeptOut cs s₀ (execWritebackLastBeatAccept s) := by
  unfold Machine.execWritebackLastBeatAccept
  refine .next (.ite h ?_)
  split
  · exact h
  · exact .modCoh h

theorem Kept.flushStart (h : Kept cs s₀ s) : Kept cs s₀ (flushStart s) := .setBitR (.modCoh h)

theorem Kept.flushDone (h : Kept cs s₀ s) : Kept cs s₀ (flushDone s) := .ite (.setBitR h) h

theorem Kept.cohW3 (h : Kept cs s₀ s) : Kept cs s₀ (cohW3 s) := .dropGone (.modCoh h)

theorem Kept.xltInv {fail : Bool} {r : Nat} {d : Desc} (h : Kept cs s₀ s) : Kept cs s₀ (xltInv fail s r d) :=
  .ite (.complete h) (.ite (.complete h) (.dropGone (.modCoh (.goOn h))))

/-! ### Weft ports (WeftLink) -/

theorem Kept.modWft {f : Wft → Wft} (h : Kept cs s₀ s) : Kept cs s₀ (modWft s f) := h

theorem Kept.setWport {p : Nat} {x : WPort} (h : Kept cs s₀ s) : Kept cs s₀ (setWport s p x) := .modWft h

theorem Kept.modWport {p : Nat} {f : WPort → WPort} (h : Kept cs s₀ s) : Kept cs s₀ (modWport s p f) := .setWport h

theorem Kept.wftErr {i ty src dst port ev : Nat} (h : Kept cs s₀ s) : Kept cs s₀ (wftErr s i ty src dst port ev) :=
  .logErr (.wr64 h) h

theorem Kept.flitErr {i p : Nat} {f : Flit} (h : Kept cs s₀ s) : Kept cs s₀ (flitErr s i p f) := .wftErr h

theorem Kept.dropFlit (h : Kept cs s₀ s) : Kept cs s₀ (dropFlit s) := .cnt32 h

theorem Kept.sendSeq {p : Nat} {f : OutFlit} (h : Kept cs s₀ s) : Kept cs s₀ (sendSeq s p f) := .cnt64 (.setWport h)

theorem Kept.sendPlain {p : Nat} {ty : Byte} {pay : BitVec 160} (h : Kept cs s₀ s) :
    Kept cs s₀ (sendPlain s p ty pay) :=
  .ite h (.cnt64 (.setWport h))

theorem Kept.resendPort {p k : Nat} (h : Kept cs s₀ s) : Kept cs s₀ (resendPort s p k) := by
  induction k generalizing s with
  | zero => exact h
  | succ k ih =>
    unfold Machine.resendPort
    split
    · exact h
    · exact .ite (ih (.sendSeq (.modWport h))) h

theorem Kept.sendOne {f : OutFlit} (h : Kept cs s₀ s) : Kept cs s₀ (sendOne s f) := by
  unfold Machine.sendOne
  refine .ite (.modWft h) ?_
  split
  · exact .ite (.sendSeq h) (.modWft h)
  · split
    · exact .ite (.sendSeq h) (.modWft h)
    · exact .wftErr (.dropFlit h)

theorem Kept.wftPump (h : Kept cs s₀ s) : Kept cs s₀ (wftPump s) :=
  .ite h (.foldl (fun _ _ h1 => .sendOne h1) (.modWft (.ite (.foldl (fun _ _ h1 => .resendPort h1) h) h)))

theorem Kept.queueFlit {f : OutFlit} (h : Kept cs s₀ s) : Kept cs s₀ (queueFlit s f) := .modWft h

theorem Kept.sendPort {p : Nat} {ty : Byte} {dst : BitVec 7} {bc : Bool} {pay : BitVec 160} (h : Kept cs s₀ s) :
    Kept cs s₀ (sendPort s p ty dst bc pay) :=
  .queueFlit h

theorem Kept.resetPort {p : Nat} (h : Kept cs s₀ s) : Kept cs s₀ (resetPort s p) := .modWport h

theorem Kept.countRetrain {p : Nat} (h : Kept cs s₀ s) : Kept cs s₀ (countRetrain s p) := .setFld h

theorem Kept.sendHellos (h : Kept cs s₀ s) : Kept cs s₀ (sendHellos s) :=
  .foldl (fun _ _ h1 => .sendPort h1) (.modWft h)

theorem Kept.portReset {p : Nat} (h : Kept cs s₀ s) : Kept cs s₀ (portReset s p) :=
  .ite (.wftPump (.sendHellos (.countRetrain (.resetPort h)))) (.countRetrain (.resetPort h))

theorem Kept.portFail {p flag : Nat} {ty src dst : optParam Nat 0} (h : Kept cs s₀ s) :
    Kept cs s₀ (portFail s p flag ty src dst) :=
  .portReset (.wftErr h)

/-! ### Joining (WeftNet) -/

theorem Kept.iftAbsent {e : Ift} (h : Kept cs s₀ s) : Kept cs s₀ (iftAbsent s e) :=
  .ite (.unroute h) (.wftErr (.dropFlit h))

theorem Kept.pumpRwait {k : Nat} (h : Kept cs s₀ s) : Kept cs s₀ (pumpRwait s k) := by
  induction k generalizing s with
  | zero => exact h
  | succ k ih =>
    unfold Machine.pumpRwait
    split
    · exact h
    · exact .ite (ih (.iftSend (.modWft h))) h

theorem Kept.runStatus {r status : Nat} (h : Kept cs s₀ s) : Kept cs s₀ (runStatus s r status) := .modRing h

theorem Kept.endRemote {q : Req} {status : Nat} (h : Kept cs s₀ s) : Kept cs s₀ (endRemote s q status) := by
  unfold Machine.endRemote
  split
  · exact .completeRun h
  · split
    · exact .endMove h
    · exact h
  · exact .runStatus h
  · exact .runStatus h
  · exact .runStatus h
  · exact h
  · exact .completeRun h

theorem Kept.instanceAbsent {i : Nat} (h : Kept cs s₀ s) : Kept cs s₀ (instanceAbsent s i) :=
  .foldl (fun _ _ h1 => .endRemote h1) (.foldl (fun _ _ h1 => .redirEnd h1)
    (.foldl (fun _ _ h1 => .iftAbsent h1) (.foldl (fun _ _ h1 => .freeSlow h1) h)))

theorem Kept.instancesAbsent {l : List Nat} (h : Kept cs s₀ s) : Kept cs s₀ (instancesAbsent s l) :=
  .pumpReq (.pumpRwait (.foldl (fun _ _ h1 => .instanceAbsent h1) h))

theorem Kept.isolate {p : Nat} {f : Flit} (h : Kept cs s₀ s) : Kept cs s₀ (isolate s p f) :=
  .instancesAbsent (.modWft (.modStk (.foldl (fun _ _ h1 => .modWport (.resetPort h1)) (.flitErr h))))

theorem Kept.startFlood (h : Kept cs s₀ s) : Kept cs s₀ (startFlood s) := .sendHellos (.modWft h)

theorem Kept.mapChanged (h : Kept cs s₀ s) : Kept cs s₀ (mapChanged s) :=
  .ite (.sendHellos h) (.ite (.ite (.modWft h) (.sendFlit h)) h)

theorem Kept.portIsUp {p : Nat} (h : Kept cs s₀ s) : Kept cs s₀ (portIsUp s p) := by
  unfold Machine.portIsUp
  dsimp only
  split
  · exact .startFlood (.modWft (.modWport h))
  · exact .mapChanged (.modWport h)
  · exact .mapChanged (.sendPort (.modWport h))
  · exact .modWport h

theorem Kept.tryUp {p : Nat} (h : Kept cs s₀ s) : Kept cs s₀ (tryUp s p) := .ite (.portIsUp h) h

theorem Kept.sendRoutes {t : Tbl Hello} {gen : Byte} {i : Nat} (h : Kept cs s₀ s) : Kept cs s₀ (sendRoutes s t gen i) :=
  .foldl (fun _ _ h1 => .sendFlit h1) h

theorem Kept.resendLevels (h : Kept cs s₀ s) : Kept cs s₀ (resendLevels s) := by
  unfold Machine.resendLevels
  refine .foldl (fun _ _ h1 => ?_) h
  split
  · exact .ite (.levelOut h1) h1
  · exact h1

theorem Kept.resendRaises (h : Kept cs s₀ s) : Kept cs s₀ (resendRaises s) :=
  .foldl (fun _ _ h1 => .sendFlit (.ite (.levelOut h1) h1)) h

theorem Kept.adoptGen {gen : Byte} {routes : Tbl Route} {parent : BitVec 2} {child : BitVec 4} (h : Kept cs s₀ s) :
    Kept cs s₀ (adoptGen s gen routes parent child) :=
  .ite (.retryAll (.resendLevels (.resendRaises (.instancesAbsent (.modWft h))))) (.instancesAbsent (.modWft h))

theorem Kept.sendTree {ty : Byte} {src : BitVec 7} {pay : BitVec 160} (h : Kept cs s₀ s) :
    Kept cs s₀ (sendTree s ty src pay) :=
  .foldl (fun _ _ h1 => .queueFlit h1) h

theorem Kept.finishMaps (h : Kept cs s₀ s) : Kept cs s₀ (finishMaps s) :=
  .modWft (.ite (.foldl (fun _ _ h1 => .sendFlit h1) (.sendTree (.foldl (fun _ _ h1 => .sendTree h1) h)))
    (.setFld (.modWft (.sendTree (.sendTree (.foldl (fun _ _ h1 => .sendTree h1) h))))))

theorem Kept.routesComputed (h : Kept cs s₀ s) : Kept cs s₀ (routesComputed s) :=
  .ite h (.ite (.finishMaps (.modWft (.foldl (fun _ _ h1 => .sendRoutes h1)
    (.adoptGen (.ite (.wftErr (.modWft h)) (.modWft h))))))
    (.modWft (.foldl (fun _ _ h1 => .sendRoutes h1) (.adoptGen (.ite (.wftErr (.modWft h)) (.modWft h))))))

theorem Kept.keepBack {p : Nat} {f : Flit} {m : CmdMem} (h : Kept cs s₀ s) : Kept cs s₀ (keepBack s p f m) :=
  .modWport h

theorem Kept.flitWake {ty : Nat} (h : Kept cs s₀ s) : Kept cs s₀ (flitWake s ty) :=
  .ite (.activity (.ite h (.wake h))) (.ite h (.wake h))

theorem Kept.linkAccept {p : Nat} {f : Flit} (h : Kept cs s₀ s) : Kept cs s₀ (linkAccept s p f).1 := by
  unfold Machine.linkAccept
  extract_lets a plain b x
  have hb : Kept cs s₀ b := .ite (.modWport h) (.tryUp (.modWport (.modWport h)))
  split
  · exact .cnt64 hb
  · split
    · exact .cnt64 (.setWport hb)
    · exact hb

theorem Kept.unknownFlit {p : Nat} {f : Flit} (h : Kept cs s₀ s) : Kept cs s₀ (unknownFlit s p f) :=
  .flitErr (.dropFlit h)

theorem Kept.recvFlit {p : Nat} {f : Flit} {act : State → State} (hact : ∀ s, Kept cs s₀ s → Kept cs s₀ (act s))
    (h : Kept cs s₀ s) : Kept cs s₀ (recvFlit s p f act) :=
  have ha : Kept cs s₀ (Machine.flitWake (Machine.linkAccept s p f).1 (flitType f)) := .flitWake (.linkAccept h)
  .ite h (.ite (.portReset (.flitErr h)) (.ite (.portReset (.flitErr h))
    (.ite (.linkAccept h) (.wftPump (.pollAll (.ite (.unknownFlit ha) (hact _ ha)))))))

theorem Kept.forward {f : Flit} {port : Option Nat} (h : Kept cs s₀ s) : Kept cs s₀ (forward s f port) := .queueFlit h

theorem Kept.treeDown {f : Flit} (h : Kept cs s₀ s) : Kept cs s₀ (treeDown s f) := .foldl (fun _ _ h1 => .forward h1) h

theorem Kept.dropLink {i k : Nat} (h : Kept cs s₀ s) : Kept cs s₀ (dropLink s i k) := by
  unfold Machine.dropLink
  split
  · exact h
  · exact .modWft h

theorem Kept.report {src : BitVec 7} {pay : BitVec 160} {hops : BitVec 4} {arrived : Option Nat} (h : Kept cs s₀ s) :
    Kept cs s₀ (report s src pay hops arrived) := by
  unfold Machine.report
  dsimp only
  split
  · refine .ite (.queueFlit h) (.ite (.startFlood h) ?_)
    split
    · exact .queueFlit h
    · refine .ite (.startFlood h) ?_
      split
      · exact .queueFlit h
      · exact .startFlood h
  · refine .ite (.startFlood h) ?_
    split
    · exact .queueFlit h
    · refine .ite (.startFlood h) ?_
      split
      · exact .queueFlit h
      · exact .startFlood h

theorem Kept.passOn {p : Nat} {f : Flit} (h : Kept cs s₀ s) : Kept cs s₀ (passOn s p f) :=
  .ite (.report (.dropLink h)) (.forward h)

theorem Kept.takeFlit {act : State → Nat → Flit → State} {p : Nat} {f : Flit}
    (hact : ∀ s p f, Kept cs s₀ s → Kept cs s₀ (act s p f)) (h : Kept cs s₀ s) : Kept cs s₀ (takeFlit act s p f) :=
  .ite (hact _ _ _ h) (.passOn h)

theorem KeptOut.flitRow {ty : Nat} {act : State → Nat → Flit → State} {p : BitVec 2} {f : Flit} {m : CmdMem}
    (hact : ∀ s p f, Kept cs s₀ s → Kept cs s₀ (act s p f)) (h : Kept cs s₀ s) : KeptOut cs s₀
        (flitRow ty act p f s m) :=
  .next (.ite h (.recvFlit (fun _ h => .ite (.keepBack h) (.ran (.takeFlit hact h))) h))

theorem Kept.idleFlit {p : Nat} {x : Flit} (h : Kept cs s₀ s) : Kept cs s₀ (idleFlit s p x) := .tryUp (.modWport h)

theorem Kept.trainFlit {p : Nat} {f : Flit} (h : Kept cs s₀ s) : Kept cs s₀ (trainFlit s p f) :=
  .ite (.ite (.resetPort (.modWport (.flitErr h))) (.isolate h))
    (.ite (.modWport h) (.tryUp (.sendPlain (.modWport h))))

theorem Kept.refusedOn {q id : Nat} {src dst : BitVec 7} (h : Kept cs s₀ s) : Kept cs s₀ (refusedOn s q id src dst) :=
  .portFail (.wftPump (.sendPort h))

theorem Kept.refuse {p : Nat} {nbr : BitVec 7} {id : Nat} {port : BitVec 2} (h : Kept cs s₀ s) :
    Kept cs s₀ (refuse s p nbr id port) :=
  .ite (.refusedOn h) (.sendFlit h)

theorem Kept.anchorJoin {p : Nat} {f : Flit} {nbr : BitVec 7} {id : Nat} {port : BitVec 2} {h' : Hello}
    (h : Kept cs s₀ s) : Kept cs s₀ (anchorJoin s p f nbr id port h') :=
  .ite (.isolate (.wftPump (.refuse (.ite (.routesComputed h) h))))
    (.ite (.modWft (.sendFlit (.refuse (.ite (.routesComputed h) h)))) (.modWft (.ite (.routesComputed h) h)))

theorem Kept.joinFor {id : Nat} {port : BitVec 2} {h' : Hello} (h : Kept cs s₀ s) : Kept cs s₀ (joinFor s id port h') :=
  .sendFlit h

theorem Kept.helloFlit {p : Nat} {f : Flit} (h : Kept cs s₀ s) : Kept cs s₀ (helloFlit s p f) := by
  unfold Machine.helloFlit
  refine .ite (.ite h (.isolate h)) ?_
  split
  · exact h
  · exact h
  · exact .ite (.ite (.ite (.foldl (fun _ _ h1 => .forward h1) (.modWft h)) (.modWft h)) h)
      (.ite (.ite (.anchorJoin h) (.joinFor h))
      (.ite (.ite (.ite (.ite (.foldl (fun _ _ h1 => .forward h1) (.modWft (.startFlood h)))
      (.modWft (.startFlood h))) (.startFlood h)) (.ite (.modWft h) h)) (.ite h (.ite (.anchorJoin h) (.joinFor h)))))
  · exact .ite (.modWft h) (.ite (.ite (.modWft h) h)
      (.ite (.ite (.foldl (fun _ _ h1 => .forward h1) (.modWft h)) (.modWft h)) h))

theorem Kept.joinFlit {p : Nat} {f : Flit} (h : Kept cs s₀ s) : Kept cs s₀ (joinFlit s p f) :=
  .ite (.ite h (.isolate h)) (.ite (.anchorJoin h) h)

theorem Kept.floodSettled (h : Kept cs s₀ s) : Kept cs s₀ (floodSettled s) := .modWft (.ite (.wftErr h) h)

theorem Kept.leaveSystem (h : Kept cs s₀ s) : Kept cs s₀ (leaveSystem s) := .modWft (.instancesAbsent h)

theorem Kept.routeFlit {x : Nat} {f : Flit} (h : Kept cs s₀ s) : Kept cs s₀ (routeFlit s x f) :=
  .ite (.ite (.floodSettled h) h) (.ite (.modWft (.ite (.floodSettled h) h))
    (.sendFlit (.adoptGen (.modWft (.ite (.ite (.floodSettled h) h) (.leaveSystem (.ite (.floodSettled h) h)))))))

theorem Kept.tmapFlit {x : Nat} {f : Flit} (h : Kept cs s₀ s) : Kept cs s₀ (tmapFlit s x f) :=
  .ite (.ite (.treeDown h) h) (.ite (.ite (.finishMaps (.modWft (.modWft (.ite (.treeDown h) h))))
    (.modWft (.modWft (.ite (.treeDown h) h)))) (.modWft (.ite (.treeDown h) h)))

theorem Kept.commitFlit {x : Nat} {f : Flit} (h : Kept cs s₀ s) : Kept cs s₀ (commitFlit s x f) :=
  .ite (.modWft (.setFld (.ite (.ite (.treeDown h) h) (.modStk (.ite (.treeDown h) h))))) (.ite (.treeDown h) h)

theorem Kept.callOutsiders (h : Kept cs s₀ s) : Kept cs s₀ (callOutsiders s) := by
  unfold Machine.callOutsiders
  refine .ite (.modWft (.foldl (fun _ _ h1 => .ite ?_ h1) h)) (.foldl (fun _ _ h1 => .ite ?_ h1) h)
  · dsimp only
    split
    · exact .ite (.sendPort h1) (.joinFor (.sendPort h1))
    · exact .sendPort h1
  · dsimp only
    split
    · exact .ite (.sendPort h1) (.joinFor (.sendPort h1))
    · exact .sendPort h1

theorem Kept.tellMap (h : Kept cs s₀ s) : Kept cs s₀ (tellMap s) := .ite (.mapChanged h) h

theorem KeptOut.execJoinAtReached {us : BitVec 16} (h : Kept cs s₀ s) : KeptOut cs s₀ (execJoinAtReached us s) := by
  unfold Machine.execJoinAtReached
  refine .next ?_
  split
  · exact h
  · exact .ite h (.wftPump (.callOutsiders (.tellMap (.retryAll (.wr (.modWft h))))))

theorem Kept.alignFlit {x : Nat} {f : Flit} (h : Kept cs s₀ s) : Kept cs s₀ (alignFlit s x f) :=
  .ite (.modStk (.ite (.treeDown h) h)) (.ite (.treeDown h) h)

theorem Kept.linkLost {i k : Nat} (h : Kept cs s₀ s) : Kept cs s₀ (linkLost s i k) := .modWft (.dropLink h)

theorem Kept.reportLoss {p : Nat} {n : BitVec 7} (h : Kept cs s₀ s) : Kept cs s₀ (reportLoss s p n) :=
  .ite (.modWft (.modWport h)) (.ite (.linkLost (.modWft (.modWport h))) (.report (.modWft (.modWft (.modWport h)))))

theorem Kept.linkdnFlit {p : Nat} {f : Flit} (h : Kept cs s₀ s) : Kept cs s₀ (linkdnFlit s p f) := by
  unfold Machine.linkdnFlit
  refine .ite (.reportLoss (.portFail h)) (.ite (.isolate h) (.ite (.linkLost h) ?_))
  split
  · exact .refusedOn h
  · exact .ite (.portFail h) h

theorem KeptOut.execPortDownTimeout {p : BitVec 2} (h : Kept cs s₀ s) : KeptOut cs s₀ (execPortDownTimeout p s) := by
  unfold Machine.execPortDownTimeout
  refine .next ?_
  dsimp only
  split
  · exact h
  · exact .ite h (.wftPump (.reportLoss h))

theorem Kept.linksDown (h : Kept cs s₀ s) : Kept cs s₀ (linksDown s) := .modWft h

theorem Kept.rediscover (h : Kept cs s₀ s) : Kept cs s₀ (rediscover s) := .ite (.wftPump (.startFlood h)) h

theorem Kept.penApply (h : Kept cs s₀ s) : Kept cs s₀ (penApply s) :=
  .foldl (fun _ _ h1 => .ite (.ite (.portFail h1) (.setWport h1)) (.ite (.setWport h1) h1)) h

theorem Kept.portResets {v : W32} (h : Kept cs s₀ s) : Kept cs s₀ (portResets s v) :=
  .foldl (fun _ _ h1 => .portReset h1) h

/-! ### Delivery between instances (WeftFlits) -/

theorem Kept.dack {f : Flit} {fault : Bool} (h : Kept cs s₀ s) : Kept cs s₀ (dack s f fault) := .sendFlit h

theorem Kept.raiseApply {f : Flit} (h : Kept cs s₀ s) : Kept cs s₀ (raiseApply s f) := by
  unfold Machine.raiseApply
  dsimp only
  split
  · exact .ite (.treeEnq h) (.ite (.foldl (fun _ _ h1 => .sendTo h1) h) (.sendTo h))
  · exact .raiseEnq (.ite (.setLatch h) h)
  · exact .ite (.raiseEnq (.modWft h)) (.treeEnq h)

theorem Kept.raiseFlit {x : Nat} {f : Flit} (h : Kept cs s₀ s) : Kept cs s₀ (raiseFlit s x f) :=
  .ite (.dack (.raiseApply h)) (.dack (.xltFault h))

theorem Kept.dackFlit {x : Nat} {f : Flit} (h : Kept cs s₀ s) : Kept cs s₀ (dackFlit s x f) := by
  unfold Machine.dackFlit
  dsimp only
  split
  · exact .ite (.pumpRwait (.modWft h)) h
  · exact h

theorem Kept.levelFlit {x : Nat} {f : Flit} (h : Kept cs s₀ s) : Kept cs s₀ (levelFlit s x f) := by
  unfold Machine.levelFlit
  refine .ite (.ite (.modWft h) (.treeEnq (.modWft h))) ?_
  split
  · exact .ite (.modWft h) h
  · exact h

theorem Kept.hstateFlit {x : Nat} {f : Flit} (h : Kept cs s₀ s) : Kept cs s₀ (hstateFlit s x f) :=
  .ite h (.ite (.modLine (.setFld h)) (.setFld h))

theorem Kept.answerCmd {f : Flit} {status : Nat} {pend : optParam Bool false} {data : optParam W64 0}
    (h : Kept cs s₀ s) : Kept cs s₀ (answerCmd s f status pend data) :=
  .sendFlit h

theorem KeptOut.cmdRow {code : Nat} {act : State → Flit → State} {p : BitVec 2} {f : Flit} {m : CmdMem}
    (hact : ∀ s f, Kept cs s₀ s → Kept cs s₀ (act s f)) (h : Kept cs s₀ s) : KeptOut cs s₀ (cmdRow code act p f s m) :=
  .ite (.flitRow (fun _ _ _ h => hact _ _ h) h) (.next h)

theorem Kept.owe {f : Flit} (h : Kept cs s₀ s) : Kept cs s₀ (owe s f).1 := .modWft h

theorem Kept.wftSetPend {f : Flit} (h : Kept cs s₀ s) : Kept cs s₀ (wftSetPend s f) :=
  .ite (.answerCmd h) (.setPendAt (.owe h))

theorem Kept.wftClrPend {f : Flit} (h : Kept cs s₀ s) : Kept cs s₀ (wftClrPend s f) :=
  .ite (.answerCmd h) (.clrPendAt (.owe h))

theorem Kept.wftAttWrite {fail : Bool} {f : Flit} (h : Kept cs s₀ s) : Kept cs s₀ (wftAttWrite fail s f) := by
  unfold Machine.wftAttWrite
  refine .ite (.answerCmd h) (.ite (.answerCmd h) ?_)
  split
  · exact .ite (.answerCmd (.rprAt (.modWft (.store64 h))))
      (.ite (.answerCmd h) (.ite (.answerCmd h)
      (.ite (.answerCmd (.modWft (.store64 h))) (.answerCmd (.ite (.rprAt (.store64 h)) (.store64 h))))))
  · exact .ite (.answerCmd h) (.answerCmd (.ite h (.store64 h)))
  · exact .ite (.answerCmd h) (.answerCmd (.rprAt (.store64 h)))
  · exact .ite (.answerCmd h) (.ite (.answerCmd h) (.answerCmd (.store64 h)))

theorem Kept.wftAttClaim {fail : Bool} {f : Flit} (h : Kept cs s₀ s) : Kept cs s₀ (wftAttClaim fail s f) :=
  .ite (.answerCmd h) (.ite (.answerCmd h)
    (.ite (.answerCmd h) (.ite (.answerCmd h) (.answerCmd (.store64 (.modWft h))))))

theorem Kept.wftAttRelease {fail : Bool} {f : Flit} (h : Kept cs s₀ s) : Kept cs s₀ (wftAttRelease fail s f) :=
  .ite (.answerCmd h) (.ite (.answerCmd h) (.answerCmd (.store64 (.modWft h))))

theorem Kept.wftMoveOut {f : Flit} (h : Kept cs s₀ s) : Kept cs s₀ (wftMoveOut s f) :=
  .ite (.answerCmd h) (.ite (.answerCmd h) (.treeEnq (.modWft h)))

theorem Kept.wftPendTest {fail : Bool} {f : Flit} (h : Kept cs s₀ s) : Kept cs s₀ (wftPendTest fail s f) :=
  .ite (.answerCmd h) (.ite (.answerCmd h)
    (.ite (.wftMoveOut h) (.ite (.answerCmd (.foldl (fun _ _ h1 => .redirEnd h1) h))
    (.ite (.answerCmd h) (.answerCmd (.noteState (.ite (.putBit h) h)))))))

theorem Kept.answerQuery {f : Flit} {status : Nat} {q : Sample} (h : Kept cs s₀ s) :
    Kept cs s₀ (answerQuery s f status q) :=
  .sendFlit (.sendFlit h)

theorem Kept.wftQuery {fail : Bool} {f : Flit} (h : Kept cs s₀ s) : Kept cs s₀ (wftQuery fail s f) :=
  .ite (.answerQuery h) (.ite (.answerQuery h) (.answerQuery h))

theorem Kept.setReq {i : Nat} {q : Option Req} (h : Kept cs s₀ s) : Kept cs s₀ (setReq s i q) := by
  unfold Machine.setReq
  split
  · exact .modWft h
  · exact .pumpReq (.modWft h)

theorem Kept.crspQuery {i : Nat} {q : Req} (h : Kept cs s₀ s) : Kept cs s₀ (crspQuery s i q) := by
  unfold Machine.crspQuery
  split
  · dsimp only
    split
    · exact .queryDone (.setReq h)
    · exact .setReq h
  · exact .setReq h

theorem Kept.mapMove {r : Nat} {u : Run} {aw : W64} (h : Kept cs s₀ s) : Kept cs s₀ (mapMove s r u aw) :=
  .ite (.endMove (.goOn h)) (.moveV1 (.goOn h))

theorem Kept.crspMap {m : CmdMem} {r : Nat} {u : Run} {status : Nat} {pend : Bool} {aw : W64} (h : Kept cs s₀ s) :
    Kept cs s₀ (crspMap m s r u status pend aw) :=
  .ite (.complete h) (.ite (.mapMove h) (.tableWrites h))

theorem Kept.crspAttr {m : CmdMem} {r : Nat} {u : Run} {status : Nat} (h : Kept cs s₀ s) :
    Kept cs s₀ (crspAttr m s r u status) := by
  unfold Machine.crspAttr
  split
  · exact .ite (.complete h) (.tableWrites h)
  · exact .complete h

theorem Kept.crspUnmapCheck {m : CmdMem} {r : Nat} {u : Run} {status : Nat} (h : Kept cs s₀ s) :
    Kept cs s₀ (crspUnmapCheck m s r u status) := by
  unfold Machine.crspUnmapCheck
  split
  · exact .ite (.complete h) (.ite (.sendReq (.store64 h)) (.complete h))
  · exact .complete h

theorem Kept.crspUnmap {m : CmdMem} {r : Nat} {u : Run} {status : Nat} (h : Kept cs s₀ s) :
    Kept cs s₀ (crspUnmap m s r u status) :=
  .ite (.complete h) (.tableWrites h)

theorem Kept.crspClaim {q : Req} {status : Nat} (h : Kept cs s₀ s) : Kept cs s₀ (crspClaim s q status) := by
  unfold Machine.crspClaim
  split
  · exact h
  · exact .ite (.moveV1 h) (.completeRun h)

theorem Kept.crspOut {status : Nat} {pend : Bool} (h : Kept cs s₀ s) : Kept cs s₀ (crspOut s status pend) := by
  unfold Machine.crspOut
  split
  · exact h
  · exact .ite (.endMove h) (.ite h (.noEntry h))

theorem Kept.crspPend {pend : Bool} (h : Kept cs s₀ s) : Kept cs s₀ (crspPend s pend) := by
  unfold Machine.crspPend
  split
  · exact h
  · refine .ite h ?_
    split
    · exact .ite (.bitHere h) (.remoteRaise h)
    · exact h

theorem Kept.crspLate {q : Req} {status : Nat} (h : Kept cs s₀ s) : Kept cs s₀ (crspLate s q status) :=
  .ite (.runStatus h) h

theorem Kept.crspFlit {m : CmdMem} {x : Nat} {f : Flit} (h : Kept cs s₀ s) : Kept cs s₀ (crspFlit m s x f) := by
  unfold Machine.crspFlit
  dsimp only
  split
  · exact h
  · refine .ite h ?_
    split
    · exact .ite (.completeRun (.ite (.setReq h) (.setReq h))) (.ite (.crspQuery h) (.crspQuery h))
    · exact .setReq h
    · exact .crspClaim (.setReq h)
    · exact .crspOut (.setReq h)
    · exact .crspLate (.setReq h)
    · exact .crspPend (.crspLate (.setReq h))
    · exact .crspLate (.setReq h)
    · split
      · exact .setReq h
      · split
        · exact .crspMap (.setReq h)
        · exact .crspAttr (.setReq h)
        · exact .crspUnmap (.setReq h)
        · exact .crspUnmapCheck (.setReq h)
        · exact .dbAnswer (.setReq h)
        · exact .complete (.setReq h)

theorem Kept.flitAct {m : CmdMem} {p : Nat} {f : Flit} (h : Kept cs s₀ s) : Kept cs s₀ (flitAct m s p f) := by
  unfold Machine.flitAct
  dsimp only
  split
  · exact .helloFlit h
  · exact .routeFlit h
  · exact .tmapFlit h
  · exact .commitFlit h
  · exact .alignFlit h
  · exact .joinFlit h
  · exact .linkdnFlit h
  · exact .raiseFlit h
  · exact .levelFlit h
  · exact .hstateFlit h
  · exact .dackFlit h
  · split
    · exact .wftSetPend h
    · exact .wftClrPend h
    · exact .wftAttWrite h
    · exact .wftAttClaim h
    · exact .wftAttRelease h
    · exact .wftPendTest h
    · exact .wftQuery h
    · exact h
  · exact .crspFlit h
  · exact h

theorem Kept.rxPump {p k : Nat} (h : Kept cs s₀ s) : Kept cs s₀ (rxPump s p k) := by
  induction k generalizing s with
  | zero => exact h
  | succ k ih =>
    unfold Machine.rxPump
    split
    · exact h
    · exact .ite h (ih (.ran (.takeFlit (fun _ _ _ h => .flitAct h) (.modWport h))))

theorem Kept.rxPumpAll (h : Kept cs s₀ s) : Kept cs s₀ (rxPumpAll s) :=
  .ite h (.wftPump (.pollAll (.foldl (fun _ _ h1 => .rxPump h1) h)))

/-! ### Burins as the block meets them (BurBase) -/

theorem Kept.setCore {u : Bur} {c : BurCore} (h : Kept cs s₀ s) : Kept cs s₀ (s.setCore u c) := by
  unfold State.setCore
  split
  · exact h
  · exact h

theorem Kept.modCore {u : Bur} {f : BurCore → BurCore} (h : Kept cs s₀ s) : Kept cs s₀ (s.modCore u f) := .setCore h

theorem Kept.setPrimary {u : Bur} (h : Kept cs s₀ s) : Kept cs s₀ (setPrimary s u) := h

theorem Kept.burReset {u : Bur} (h : Kept cs s₀ s) : Kept cs s₀ (burReset s u) := .modCore h

theorem Kept.burInt {u : Bur} {i : Nat} (h : Kept cs s₀ s) : Kept cs s₀ (burInt s u i) := .burWake (.modCore h)

theorem Kept.burErr {i : Nat} (h : Kept cs s₀ s) : Kept cs s₀ (burErr s i) := .setFlag h

theorem Kept.holdApply {a b : Bool} (h : Kept cs s₀ s) : Kept cs s₀ (holdApply s a b) :=
  .ite (.modCore (.ite (.modCore (.ite (.setPrimary (.setFld h)) (.setFld h)))
    (.ite (.setPrimary (.setFld h)) (.setFld h))))
    (.ite (.modCore (.ite (.setPrimary (.setFld h)) (.setFld h))) (.ite (.setPrimary (.setFld h)) (.setFld h)))

theorem Kept.rstApply {v : W32} (h : Kept cs s₀ s) : Kept cs s₀ (rstApply s v) :=
  .ite (.burReset (.ite (.burReset h) h)) (.ite (.burReset h) h)

theorem Kept.codePut {sel word : Nat} {v : W32} (h : Kept cs s₀ s) : Kept cs s₀ (codePut s sel word v) :=
  .foldl (fun _ _ h1 => .modCore h1) h

theorem Kept.loadData {v : W32} (h : Kept cs s₀ s) : Kept cs s₀ (loadData s v) :=
  .ite (.setFld (.codePut h)) (.burErr h)

theorem Kept.hostMsg {w : W32} (h : Kept cs s₀ s) : Kept cs s₀ (hostMsg s w) :=
  .ite (.setBitR h) (.burInt (.modCore (.setBitR (.wr h))))

theorem Kept.hostOut {w : W32} (h : Kept cs s₀ s) : Kept cs s₀ (hostOut s w) := .wr h

theorem Kept.peerOut {u : Bur} {w : W32} (h : Kept cs s₀ s) : Kept cs s₀ (peerOut s u w) := .burInt (.modCore h)

/-! ### Error log and SAFE (Errors) -/

theorem Kept.logWrite (h : Kept cs s₀ s) : Kept cs s₀ (logWrite s) := by
  unfold Machine.logWrite
  split
  · exact h
  · exact .errEvent (.ipendBit (.ite (.setBitR (.setFld h)) (.setFld h)))

theorem Kept.logAll (h : Kept cs s₀ s) : Kept cs s₀ (logAll s) := .foldl (fun _ _ h1 => .logWrite h1) h

theorem Kept.setSafe {x : SafeState} (h : Kept cs s₀ s) : Kept cs s₀ (setSafe s x) := h

theorem Kept.recordCause {cause : BitVec 2} (h : Kept cs s₀ s) : Kept cs s₀ (recordCause s cause) :=
  .occ (.setFld (.setFld h))

theorem Kept.safeCause {cause : BitVec 2} (h : Kept cs s₀ s) : Kept cs s₀ (safeCause s cause) := by
  unfold Machine.safeCause
  split
  · exact .recordCause (.setFld (.setSafe h))
  · exact .recordCause h
  · exact .setSafe h

theorem Kept.safeLeaving {ring : Option Nat} (h : Kept cs s₀ s) : Kept cs s₀ (safeLeaving s ring) :=
  .setFld (.setSafe h)

theorem Kept.safeExit {r : Nat} {d : Desc} (h : Kept cs s₀ s) : Kept cs s₀ (safeExit s r d) := by
  unfold Machine.safeExit
  split
  · exact .complete h
  · exact .goOn (.setSafe h)
  · exact .ite (.goOn (.safeLeaving h)) (.complete h)

theorem Kept.safeLeave (h : Kept cs s₀ s) : Kept cs s₀ (safeLeave s) := by
  unfold Machine.safeLeave
  split
  · dsimp only
    split
    · refine .safeCause ?_
      split
      · exact .ite (.completeRun (.setFld (.setSafe h))) (.setFld (.setSafe h))
      · exact .setFld (.setSafe h)
    · split
      · exact .ite (.completeRun (.setFld (.setSafe h))) (.setFld (.setSafe h))
      · exact .setFld (.setSafe h)
  · exact h

/-! ### Power states (PwrBase) -/

theorem Kept.modPwr {f : Pwr → Pwr} (h : Kept cs s₀ s) : Kept cs s₀ (modPwr s f) := h

theorem Kept.showDvfs (h : Kept cs s₀ s) : Kept cs s₀ (showDvfs s) := .setFld h

theorem Kept.issueDvfs (h : Kept cs s₀ s) : Kept cs s₀ (issueDvfs s) := by
  unfold Machine.issueDvfs
  refine .showDvfs ?_
  split
  · refine .ite (.modPwr ?_) ?_
    · split
      · exact .ite (.modStk (.modPwr h)) h
      · exact h
    · split
      · exact .ite (.modStk (.modPwr h)) h
      · exact h
  · split
    · exact .ite (.modStk (.modPwr h)) h
    · exact h

theorem Kept.issueAll (h : Kept cs s₀ s) : Kept cs s₀ (issueAll s) := .issueDvfs (.issueDvfs h)

theorem Kept.dvfsWrite {v : W32} (h : Kept cs s₀ s) : Kept cs s₀ (dvfsWrite s v) := .issueAll (.modPwr (.wr h))

theorem Kept.holdRelease (h : Kept cs s₀ s) : Kept cs s₀ (holdRelease s) := .ite h (.ite (.setBitR h) (.modPwr h))

theorem Kept.toMain (h : Kept cs s₀ s) : Kept cs s₀ (toMain s) := .setBitR h

theorem Kept.wakeInputs (h : Kept cs s₀ s) : Kept cs s₀ (wakeInputs s) := by
  unfold Machine.wakeInputs
  split
  · exact .wake h
  · exact h

theorem Kept.closeSession (h : Kept cs s₀ s) : Kept cs s₀ (closeSession s) := .ite h (.ite h h)

theorem Kept.discardPhys (h : Kept cs s₀ s) : Kept cs s₀ (discardPhys s) := .ite h (.foldl (fun _ _ h1 => .msgErr h1) h)

theorem Kept.warmStart {cause : Nat} {pin : Bool} (h : Kept cs s₀ s) : Kept cs s₀ (warmStart s cause pin) :=
  .ite (.cohW3 (.wftPump (.setFld (.pollAll (.abandonPrep h)))))
    (.switchOut (.discardPhys (.wftPump (.setFld (.pollAll (.abandonPrep h))))))

theorem Kept.trigOver (h : Kept cs s₀ s) : Kept cs s₀ (trigOver s) := h

theorem Kept.warmTrigger {cause : Nat} (h : Kept cs s₀ s) : Kept cs s₀ (warmTrigger s cause) := by
  unfold Machine.warmTrigger
  dsimp only
  split
  · exact .ite (.warmStart h) h
  · exact .ite h h
  · exact .ite (.trigOver (.setFld h)) h
  · exact h

/-! ### Side-band sessions (SbdBase) -/

theorem Kept.modSbd {f : Sbd → Sbd} (h : Kept cs s₀ s) : Kept cs s₀ (modSbd s f) := h

theorem Kept.putReply {r : List Byte} (h : Kept cs s₀ s) : Kept cs s₀ (putReply s r) := .modSbd h

theorem Kept.sbAnswered {seq : Byte} {reply : List Byte} {onBus : Bool} (h : Kept cs s₀ s) :
    Kept cs s₀ (sbAnswered s seq reply onBus) :=
  .ite (.closeSession (.ite (.putReply (.modSbd (.cnt32 h))) (.modSbd (.cnt32 h))))
    (.ite (.putReply (.modSbd (.cnt32 h))) (.modSbd (.cnt32 h)))

theorem Kept.mirrorClaim (h : Kept cs s₀ s) : Kept cs s₀ (mirrorClaim s) := .modSbd h

theorem Kept.ansOk (h : Kept cs s₀ s) : Kept cs s₀ (ansOk s).s := h

theorem Kept.ansNo {status : Nat} (h : Kept cs s₀ s) : Kept cs s₀ (ansNo s status).s := h

theorem Kept.setHold {sel : Nat} {on : Bool} (h : Kept cs s₀ s) : Kept cs s₀ (setHold s sel on) := .holdApply h

theorem Kept.fwBeginDo {q : SbReq} (h : Kept cs s₀ s) : Kept cs s₀ (fwBeginDo s q).s := by
  unfold Machine.fwBeginDo
  dsimp only
  split
  · exact h
  · split
    · exact h
    · exact .modSbd (.setHold h)

theorem Kept.fwDataDo {q : SbReq} (h : Kept cs s₀ s) : Kept cs s₀ (fwDataDo s q).s := by
  unfold Machine.fwDataDo
  dsimp only
  split
  · exact h
  · exact .foldl (fun _ _ h1 => .loadData h1) (.setFld h)

theorem Kept.fwEndDo {q : SbReq} (h : Kept cs s₀ s) : Kept cs s₀ (fwEndDo s q).s := by
  unfold Machine.fwEndDo
  dsimp only
  split
  · exact h
  · exact .setHold h

theorem Kept.sealClearDo (h : Kept cs s₀ s) : Kept cs s₀ (sealClearDo s).s := by
  unfold Machine.sealClearDo
  split
  · exact .setBitR h
  · exact h

theorem Kept.lockClearDo (h : Kept cs s₀ s) : Kept cs s₀ (lockClearDo s).s := .wr h

theorem Kept.windowDo {q : SbReq} (h : Kept cs s₀ s) : Kept cs s₀ (windowDo s q).s := by
  unfold Machine.windowDo
  split
  · exact .fwBeginDo h
  · exact .fwDataDo h
  · exact .fwEndDo h
  · exact .safeCause h
  · exact .sealClearDo h
  · exact .wr h
  · exact h
  · exact h

theorem Kept.afterReply {q : SbReq} (h : Kept cs s₀ s) : Kept cs s₀ (afterReply s q) := .ite (.warmTrigger h) h

theorem Kept.mirrorDone (h : Kept cs s₀ s) : Kept cs s₀ (mirrorDone s) := by
  unfold Machine.mirrorDone
  split
  · exact h
  · exact .ite (.afterReply (.sbAnswered (.modSbd (.ite (.windowDo h) h))))
      (.sbAnswered (.modSbd (.ite (.windowDo h) h)))

/-! ### The register interface (Regs) -/

theorem Kept.flagPlans {src : Src} {ps : List WPlan} (h : Kept cs s₀ s) : Kept cs s₀ (flagPlans src s ps) :=
  .ite (.setFlag (.ite (.setFlag (.foldl (fun _ _ h1 => .foldl (fun _ _ h2 => .glbCapture h2) h1) h))
    (.foldl (fun _ _ h1 => .foldl (fun _ _ h2 => .glbCapture h2) h1) h)))
    (.ite (.setFlag (.foldl (fun _ _ h1 => .foldl (fun _ _ h2 => .glbCapture h2) h1) h))
    (.foldl (fun _ _ h1 => .foldl (fun _ _ h2 => .glbCapture h2) h1) h))

theorem Kept.applyWin {p : WPlan} (h : Kept cs s₀ s) : Kept cs s₀ (applyWin s p) :=
  .ite (.winCtlApply h) (.ite (.winFiltApply h) (.retryLine (.wr h)))

theorem Kept.applyIcfg {p : WPlan} (h : Kept cs s₀ s) : Kept cs s₀ (applyIcfg s p) :=
  .ite (.ite (.localRaise (.treeEnq (.wr h))) (.treeEnq (.wr h)))
    (.ite (.localDrop (.treeEnq (.wr h))) (.treeEnq (.wr h)))

theorem Kept.applyFrame {p : WPlan} {d : W32} {sec : Bool} {src : Src} (h : Kept cs s₀ s) :
    Kept cs s₀ (applyFrame s p d sec src) :=
  .ite (.completeDo h) (.ite (.deactDo h)
    (.ite (.sendDo h) (.ite (.setPmaskDo h) (.ite (.setSplitDo h) (.ite (.setVpeDo h) (.wr h))))))

theorem Kept.applyRing {p : WPlan} (h : Kept cs s₀ s) : Kept cs s₀ (applyRing s p) :=
  .ite (.ite (.ringEnable (.wr h)) (.ite (.ringDisable (.wr h)) (.wr h)))
    (.ite (.doorbellWrite (.ite (.modPwr h) h)) (.wr h))

theorem Kept.applyRnkCtrl {nv : W32} (h : Kept cs s₀ s) : Kept cs s₀ (applyRnkCtrl s nv) :=
  .ite (.setBitR (.wr h)) (.wr h)

theorem Kept.applyPnlCtrl {nv : W32} (h : Kept cs s₀ s) : Kept cs s₀ (applyPnlCtrl s nv) :=
  .ite (.pnlEnable (.wr h)) (.wr h)

theorem Kept.applyPrfCtrl {nv cmd : W32} (h : Kept cs s₀ s) : Kept cs s₀ (applyPrfCtrl s nv cmd) :=
  .ite (.ite (.wr h) (.wr h)) (.ite (.wr h) (.wr h))

theorem Kept.applyPrfRef {nv : W32} (h : Kept cs s₀ s) : Kept cs s₀ (applyPrfRef s nv) := .wr h

theorem Kept.applyFlat {p : WPlan} {src : Src} (h : Kept cs s₀ s) : Kept cs s₀ (applyFlat s p src) :=
  .ite (.ite (.warmTrigger h) h) (.ite (.refRate (.wr h))
    (.ite (.showPeriod (.wr h)) (.ite (.wr h)
    (.ite (.applyRnkCtrl h) (.ite (.wr h)
    (.ite (.wr h) (.ite (.ite (.flushStart h) h)
    (.ite (.ite (.rediscover (.wftPump (.penApply (.wr h)))) (.wftPump (.penApply (.wr h))))
    (.ite (.portResets h) (.ite (.applyPnlCtrl h)
    (.ite (.ite (.openFence h) h) (.ite (.ite (.mbxAck h) h)
    (.ite (.applyPrfCtrl h) (.ite (.applyPrfRef h)
    (.ite (.ite (.toMain (.wr h)) (.wr h))
    (.ite (.wakeInputs (.wr h)) (.ite (.ite (.holdRelease h) h)
    (.ite (.dvfsWrite h) (.ite (.rstApply (.holdApply h))
    (.ite (.loadData h) (.ite (.hostMsg h)
    (.ite (.ite (.closeSession h) h) (.ite (.ite (.mirrorDone (.ite (.mirrorClaim h) h)) (.ite (.mirrorClaim h) h))
    (.wr h))))))))))))))))))))))))

theorem Kept.applyWord {p : WPlan} {d : W32} {sec : Bool} {src : Src} (h : Kept cs s₀ s) :
    Kept cs s₀ (applyWord s p d sec src) :=
  .ite h (.ite (.applyWin h) (.ite (.ite (.applyIcfg h) (.applyFrame h))
    (.ite (.applyRing h) (.ite (.wr h) (.applyFlat h)))))

theorem Kept.writeWords {ws : List (Nat × W32)} {data : W64} {priv sec : Bool} {src : Src} (h : Kept cs s₀ s) :
    Kept cs s₀ (writeWords s ws data priv sec src) :=
  .foldl (fun _ _ h1 => .applyWord h1) (.flagPlans h)

theorem Kept.busWrite {off size : Nat} {data : W64} {priv sec : Bool} {src : Src} (h : Kept cs s₀ s) :
    Kept cs s₀ (busWrite s off size data priv sec src).1 := by
  unfold Machine.busWrite
  split
  · exact h
  · exact .writeWords h

theorem Kept.readWord {off : Nat} {priv sec : Bool} {src : Src} (h : Kept cs s₀ s) :
    Kept cs s₀ (readWord s off priv sec src).1 := by
  unfold Machine.readWord
  split
  · dsimp only
    split
    · exact .peekDo h
    · exact .claimDo h
  · exact h

theorem Kept.busRead {off size : Nat} {priv sec : Bool} {src : Src} {r : State × W64} (h : Kept cs s₀ s)
    (e : busRead s off size priv sec src = some r) : Kept cs s₀ r.1 := by
  unfold Machine.busRead at e
  split at e <;> cases e
  · exact .readWord h
  · exact .readWord (.readWord h)

theorem Kept.portSeen {off : Nat} (h : Kept cs s₀ s) : Kept cs s₀ (portSeen s off) := .ite h (.wake (.activity h))

theorem Kept.portRead {k : Nat} {a : BusAcc} (h : Kept cs s₀ s) : Kept cs s₀ (portRead s k a) := by
  unfold Machine.portRead
  refine .ite (.claimDo h) ?_
  split
  · exact .portAnswer (.busRead h ‹_›)
  · exact .portAnswer h

theorem Kept.portServe {n : Nat} {a : BusAcc} (h : Kept cs s₀ s) : Kept cs s₀ (portServe s n a) :=
  .ite (.portRead h) (.portAnswer (.busWrite h))

theorem Kept.portWrite {a : BusAcc} (h : Kept cs s₀ s) : Kept cs s₀ (portWrite s a) :=
  .ite (.portTaken h) (.ite (.ite (.portTaken h) (.ite (.portServe (.portAccept (.portTaken h))) (.portTaken h)))
    (.ite (.portServe (.portAccept (.portSeen (.portTaken h)))) (.portTaken h)))

theorem Kept.srcWrite {a : BusAcc} (h : Kept cs s₀ s) : Kept cs s₀ (srcWrite s a) :=
  .ite (.portWrite h) (.ite (.ite h (.trigOver h))
    (.ite (.wake (.ite h (.trigOver h))) (.ite (.busWrite (.wake (.ite h (.trigOver h)))) (.ite h (.trigOver h)))))

theorem Kept.regWrite {off : Nat} {acc : RegAcc} (h : Kept cs s₀ s) : Kept cs s₀ (regWrite s off acc) := .srcWrite h

/-! ### What a Burin reaches (Operands) -/

theorem Kept.locTake {u : Bur} {o : Nat} {v : W32} (h : Kept cs s₀ s) : Kept cs s₀ (locTake s u o v) :=
  .ite (.modCore h) h

theorem Kept.beatHeart {u : Bur} (h : Kept cs s₀ s) : Kept cs s₀ (beatHeart s u) := .modCore h

theorem Kept.locStore {u : Bur} {o : Nat} {v : W32} (h : Kept cs s₀ s) (e : locStore s u o v = some t) :
    Kept cs s₀ t := by
  unfold Machine.locStore at e
  dsimp only at e
  split at e <;> cases e
  case h_1 | h_4 | h_5 | h_12 | h_15 | h_18 => exact h
  case h_8 => exact .burWake (.modCore h)
  case h_11 => exact .beatHeart h
  case h_14 => exact .peerOut h
  case h_19 => exact .hostOut h
  all_goals exact .modCore h

theorem Kept.burWaits (h : Kept cs s₀ s) : Kept cs s₀ (burWaits s) := .ite (.wake h) h

/-! ### A Burin's instructions (BurExec) -/

theorem Kept.burTrap {u : Bur} {cause : Nat} {addr : W32} (h : Kept cs s₀ s) : Kept cs s₀ (burTrap s u cause addr) := by
  unfold Machine.burTrap
  refine .ite (.burErr (.setCore h)) ?_
  split
  · exact .setCore h
  · exact .setCore h

/-- A load keeps what a command keeps, whether it is answered or waits. -/
def KeptLd (cs : Bool) (s₀ : State) : LdRes → Prop
  | .ok s _ => Kept cs s₀ s
  | .trap _ _ => True
  | .hold s => Kept cs s₀ s

/-- A store that goes on keeps it from every state, and one that waits keeps it. -/
def KeptSt (cs : Bool) (s₀ : State) : StRes → Prop
  | .ok g => ∀ s, Kept cs s₀ s → Kept cs s₀ (g s)
  | .trap _ _ => True
  | .hold s => Kept cs s₀ s

/-- The effect of an instruction keeps it, with what it stores. -/
def KeptEff (cs : Bool) (s₀ : State) : BEff → Prop
  | .go s o => Kept cs s₀ s ∧ ∀ u, Kept cs s₀ u → Kept cs s₀ (o.store u)
  | .trap _ _ => True
  | .hold s => Kept cs s₀ s

theorem KeptLd.burLoad {u : Bur} {a : W32} {size : Nat} {fail : Bool} (h : Kept cs s₀ s) :
    KeptLd cs s₀ (burLoad s u a size fail) := by
  unfold Machine.burLoad
  dsimp only
  split
  · trivial
  · split
    case h_1 | h_2 | h_3 => exact h
    case h_4 =>
      split
      · exact .locTake h
      · trivial
    case h_5 =>
      generalize a.toNat - 0x1000000 = off
      split
      · exact .burWaits h
      · split
        · next r v hr => exact .busRead (r := (r, v)) (.wake h) hr
        · trivial
    case h_6 =>
      split
      · exact .burWaits h
      · split
        · trivial
        · exact .reads (.wake h)
    case h_7 => trivial

theorem KeptSt.burStore {u : Bur} {a : W32} {size : Nat} {v : W64} {fail : Bool} (h : Kept cs s₀ s) :
    KeptSt cs s₀ (burStore s u a size v fail) := by
  unfold Machine.burStore
  dsimp only
  split
  · trivial
  · split
    case h_1 =>
      split
      · exact fun _ h => .modCore h
      · trivial
    case h_2 | h_7 => trivial
    case h_3 => exact fun _ h => .modCore h
    case h_4 =>
      generalize a.toNat - 0x200000 = o
      split
      · exact fun _ h => .getD h fun _ => h.locStore
      · trivial
    case h_5 =>
      generalize a.toNat - 0x1000000 = off
      split
      · exact .burWaits h
      · split
        · trivial
        · exact fun _ h => .busWrite (.wake (.trigOver h))
    case h_6 =>
      split
      · exact .burWaits h
      · split
        · trivial
        · exact fun _ h => .storeBytes (.wake h)

theorem KeptLd.burLoads {u : Bur} {fail : Bool} {l : List W32} (h : Kept cs s₀ s) :
    KeptLd cs s₀ (burLoads s u fail l).1 := by
  induction l generalizing s with
  | nil => exact h
  | cons a l ih =>
    have hl : KeptLd cs s₀ (Machine.burLoad s u a 2 fail) := .burLoad h
    unfold Machine.burLoads
    split
    · next hs => exact ih (by rwa [hs] at hl)
    · exact hl

theorem KeptLd.of_fst {p : LdRes × List W32} {r : LdRes} {l : List W32} (hp : KeptLd cs s₀ p.1) (e : p = (r, l)) :
    KeptLd cs s₀ r := by
  subst e
  exact hp

theorem KeptSt.burStores {u : Bur} {fail : Bool} {l : List (W32 × W32)} (h : Kept cs s₀ s) :
    KeptSt cs s₀ (burStores s u fail l) := by
  induction l with
  | nil => exact fun _ h => h
  | cons e l ih =>
    have hs : KeptSt cs s₀ (Machine.burStore s u e.1 2 (e.2.zeroExtend 64) fail) := .burStore h
    unfold Machine.burStores
    split
    · next hf hg =>
      rw [hf] at hs
      rw [hg] at ih
      exact fun _ h => ih _ (hs _ h)
    · exact ih
    · exact hs

theorem KeptEff.loadEff {u : Bur} {r : LdRes} {f : BurCore → W64 → BOut → BOut} (hr : KeptLd cs s₀ r)
    (hf : ∀ c v o, (f c v o).store = o.store) : KeptEff cs s₀ (loadEff u r f) := by
  cases r with
  | ok s v => exact ⟨hr, fun _ h => by rw [hf]; exact h⟩
  | trap c a => trivial
  | hold s => exact hr

theorem KeptEff.storeEff {u : Bur} {r : StRes} {f : BurCore → BOut → BOut} (h : Kept cs s₀ s) (hr : KeptSt cs s₀ r)
    (hf : ∀ c o, (f c o).store = o.store) : KeptEff cs s₀ (storeEff s u r f) := by
  cases r with
  | ok g => exact ⟨h, fun _ h => by rw [hf]; exact hr _ h⟩
  | trap c a => trivial
  | hold s => exact hr

theorem KeptEff.regEff {u : Bur} {f : BurCore → BOut → BOut} (h : Kept cs s₀ s)
    (hf : ∀ c o, (f c o).store = o.store) : KeptEff cs s₀ (regEff s u f) := ⟨h, fun _ h => by rw [hf]; exact h⟩

theorem KeptEff.atomEff {u : Bur} {rd : RegNo} {a : W32} {f : W32 → W32} {fail : Bool} (h : Kept cs s₀ s) :
    KeptEff cs s₀ (burEff.atomEff s u rd a f fail) := by
  have hl : KeptLd cs s₀ (Machine.burLoad s u a 2 fail) := .burLoad h
  unfold burEff.atomEff burAtomic
  split_ifs with h1 h2
  · trivial
  · cases hr : Machine.burLoad s u a 2 fail with
    | ok t v =>
      rw [hr] at hl
      have hs : KeptSt cs s₀ (Machine.burStore t u a 2 ((f (v.truncate 32)).zeroExtend 64) fail) := .burStore hl
      dsimp only
      cases hw : Machine.burStore t u a 2 ((f (v.truncate 32)).zeroExtend 64) fail with
      | ok g => rw [hw] at hs; exact ⟨hl, hs⟩
      | trap c b => trivial
      | hold w => rw [hw] at hs; exact hs
    | trap c b => trivial
    | hold t => rw [hr] at hl; exact hl
  · trivial

theorem KeptEff.callEff {u : Bur} {m : Byte} {target : W32} {fail : Bool} (h : Kept cs s₀ s) :
    KeptEff cs s₀ (callEff s u m target fail) := by
  unfold Machine.callEff
  dsimp only
  split
  · trivial
  · exact .storeEff h (.burStores h) fun _ _ => rfl

theorem KeptEff.retEff {u : Bur} {fail : Bool} (h : Kept cs s₀ s) : KeptEff cs s₀ (retEff s u fail) := by
  unfold Machine.retEff
  dsimp only
  split
  · next t _ _ _ hs =>
    have ht : Kept cs s₀ t := KeptLd.of_fst (.burLoads h) hs
    split
    · trivial
    · split
      · next hr => exact .loadEff (.of_fst (.burLoads ht) hr) fun _ _ _ => rfl
      · next hr => exact .loadEff (.of_fst (.burLoads ht) hr) fun _ _ _ => rfl
  · next hs => exact .loadEff (.of_fst (.burLoads h) hs) fun _ _ _ => rfl

theorem KeptEff.repEff {u : Bur} {rc : RegNo} (h : Kept cs s₀ s) : KeptEff cs s₀ (repEff s u rc) := by
  unfold Machine.repEff
  dsimp only
  split_ifs
  · trivial
  · trivial
  · exact .regEff h fun _ _ => rfl
  · exact .regEff h fun _ _ => rfl

theorem KeptEff.rettEff {u : Bur} (h : Kept cs s₀ s) : KeptEff cs s₀ (rettEff s u) := by
  unfold Machine.rettEff
  dsimp only
  split_ifs
  · trivial
  · exact .regEff h fun _ _ => rfl
  · trivial
  · exact .regEff h fun _ _ => rfl

theorem KeptEff.burEff {u : Bur} {i : BInstr} {fail : Bool} (h : Kept cs s₀ s) : KeptEff cs s₀ (burEff s u i fail) := by
  unfold Machine.burEff
  cases i with
  | load | ldd | ldwp =>
    refine .loadEff (.burLoad h) ?_
    exact fun _ _ _ => rfl
  | store | std | stwp =>
    refine .storeEff h (.burStore h) ?_
    exact fun _ _ => rfl
  | ator | atclr => exact .atomEff h
  | call | callr => exact .callEff h
  | ret => exact .retEff h
  | rep => exact .repEff h
  | rett => exact .rettEff h
  | sys | undef => trivial
  | b =>
    refine .regEff h fun _ _ => ?_
    split
    · rfl
    · rfl
  | _ =>
    refine .regEff h ?_
    exact fun _ _ => rfl

theorem Kept.burGo {u : Bur} {i : BInstr} {fail : Bool} (h : Kept cs s₀ s) : Kept cs s₀ (burGo s u i fail) := by
  have he : KeptEff cs s₀ (burEff s u i fail) := .burEff h
  unfold Machine.burGo
  cases hb : burEff s u i fail with
  | go t o =>
    rw [hb] at he
    obtain ⟨ht, ho⟩ := he
    exact ho _ (.modCore ht)
  | trap c a => exact .burTrap h
  | hold t => rwa [hb] at he

theorem Kept.burStep {u : Bur} {i : BInstr} {fail : Bool} (h : Kept cs s₀ s) : Kept cs s₀ (burStep s u i fail) :=
  .ite (.served h (.burGo h)) (.forget (.served h (.burGo h)))

theorem Kept.burRow {u : Bur} {i : BInstr} {fail : Bool} (h : Kept cs s₀ s) : Kept cs s₀ (burRow s u i fail) := by
  unfold Machine.burRow
  refine .ite h ?_
  split
  · exact .ite (.burStep h) h
  · exact .ite (.burStep h) (.burTrap h)

theorem Kept.interruptTake {u : Bur} (h : Kept cs s₀ s) : Kept cs s₀ (interruptTake s u) := by
  unfold Machine.interruptTake
  refine .ite h ?_
  split
  · exact h
  · split
    · exact .setCore h
    · exact .setCore h

/-! ### Rows of a Burin (BurRows) -/

theorem Kept.timerExpire {u : Bur} (h : Kept cs s₀ s) : Kept cs s₀ (timerExpire s u) := .ite (.burInt (.modCore h)) h

/-! ### Side-band requests (Sideband) -/

theorem Kept.sbErr {i : Nat} (h : Kept cs s₀ s) : Kept cs s₀ (sbErr s i) := .setFlag h

theorem Kept.replyNow {cmd : Byte} {status : Nat} (h : Kept cs s₀ s) : Kept cs s₀ (replyNow s cmd status) :=
  .putReply (.cnt32 h)

theorem Kept.sbAnswer {q : SbReq} {status : Nat} {data : List Byte} (h : Kept cs s₀ s) :
    Kept cs s₀ (sbAnswer s q status data) :=
  .sbAnswered (.modSbd h)

theorem Kept.sbStatusDo (h : Kept cs s₀ s) : Kept cs s₀ (sbStatusDo s).s := h

theorem Kept.regReadDo {q : SbReq} (h : Kept cs s₀ s) : Kept cs s₀ (regReadDo s q).s := by
  unfold Machine.regReadDo
  split
  · exact .ansNo h
  · dsimp only
    split
    · exact .ansNo h
    · next r v hr => exact .busRead (r := (r, v)) (.ite h (.wake h)) hr

theorem Kept.regWriteDo {q : SbReq} (h : Kept cs s₀ s) : Kept cs s₀ (regWriteDo s q).s := by
  unfold Machine.regWriteDo
  split
  · exact h
  · dsimp only
    split
    · exact h
    · split
      · exact h
      · exact .busWrite (.ite h (.wake h))

theorem Kept.logReadDo {q : SbReq} (h : Kept cs s₀ s) : Kept cs s₀ (logReadDo s q).s := by
  unfold Machine.logReadDo
  dsimp only
  split
  · exact h
  · exact h

theorem Kept.sbDo {q : SbReq} (h : Kept cs s₀ s) : Kept cs s₀ (sbDo s q).s := by
  unfold Machine.sbDo
  split
  · exact h
  · exact .regReadDo h
  · exact .regWriteDo h
  · exact .logReadDo h
  · exact .windowDo h

theorem Kept.safeWait {q : SbReq} (h : Kept cs s₀ s) : Kept cs s₀ (safeWait s q) := .modSbd h

theorem Kept.serve {q : SbReq} (h : Kept cs s₀ s) : Kept cs s₀ (serve s q) := by
  unfold Machine.serve
  refine .ite (.safeWait (.safeCause h)) (.ite ?_ (.afterReply (.sbAnswer (.sbDo h))))
  dsimp only
  split
  · exact .sbAnswer h
  · exact .safeWait h
  · exact .ite (.safeWait (.safeLeaving h)) (.sbAnswer h)

theorem Kept.toServer {cmd seq : Byte} {d : List Byte} {later : Bool} (h : Kept cs s₀ s) :
    Kept cs s₀ (toServer s cmd seq d later) :=
  .ite (.sbAnswer h) (.ite (.sbAnswer h) (.ite (.sbAnswer h)
    (.ite (.modSbd (.ite (.burInt h) h)) (.serve (.ite (.burInt h) h)))))

theorem Kept.inSession {cmd : Byte} {d : List Byte} {busy go : State → Byte → State}
    (hbusy : ∀ s q, Kept cs s₀ s → Kept cs s₀ (busy s q)) (hgo : ∀ s q, Kept cs s₀ s → Kept cs s₀ (go s q))
    (h : Kept cs s₀ s) : Kept cs s₀ (inSession s cmd d busy go) := by
  unfold Machine.inSession
  dsimp only
  split
  · exact .replyNow h
  · refine .ite (.replyNow h) ?_
    split
    · exact .putReply (.cnt32 h)
    · split
      · exact .ite (.modSbd h) (hbusy _ _ h)
      · exact hgo _ _ h

theorem Kept.replyBeside {cmd seq : Byte} {status : Nat} (h : Kept cs s₀ s) :
    Kept cs s₀ (replyBeside s cmd seq status) :=
  .modSbd (.replyNow h)

theorem Kept.sbFrame {cmd : Byte} {d : List Byte} {go : State → State} (hgo : ∀ s, Kept cs s₀ s → Kept cs s₀ (go s))
    (h : Kept cs s₀ s) : Kept cs s₀ (sbFrame s cmd d go) := by
  unfold Machine.sbFrame
  refine .ite h ?_
  split
  · exact .sbErr h
  · exact hgo _ (.wake (.activity h))

theorem Kept.sbRequest {cmd : Byte} {d : List Byte} {later : Bool} (h : Kept cs s₀ s) :
    Kept cs s₀ (sbRequest s cmd d later) :=
  .sbFrame (fun _ h1 => .inSession (fun _ _ h2 => .replyBeside h2) (fun _ _ h2 => .toServer h2) h1) h

theorem Kept.sbOpen {d : List Byte} (h : Kept cs s₀ s) : Kept cs s₀ (sbOpen s d) :=
  .sbFrame (fun _ h1 => .ite (.replyNow h1) (.sbAnswer (.modSbd h1))) h

theorem Kept.sbClose {d : List Byte} (h : Kept cs s₀ s) : Kept cs s₀ (sbClose s d) :=
  .sbFrame (fun _ h1 => .inSession (fun _ _ h2 => .closeSession (.replyBeside h2))
    (fun _ _ h2 => .closeSession (.sbAnswer h2)) h1) h

theorem Kept.ident (h : Kept cs s₀ s) : Kept cs s₀ (ident s) := .ite h (.modSbd h)

theorem Kept.claimBy (h : Kept cs s₀ s) : Kept cs s₀ (claimBy s) := .ite h (.mirrorClaim h)

theorem Kept.doneBy (h : Kept cs s₀ s) : Kept cs s₀ (doneBy s) := by
  unfold Machine.doneBy
  split
  · exact h
  · exact .ite h (.ite (.mirrorDone h) (.ite h (.serve h)))

theorem Kept.busyTimeout (h : Kept cs s₀ s) : Kept cs s₀ (busyTimeout s) := by
  unfold Machine.busyTimeout
  split
  · exact .ite (.sbAnswer h) h
  · exact h

theorem Kept.stretchLimit (h : Kept cs s₀ s) : Kept cs s₀ (stretchLimit s) := by
  unfold Machine.stretchLimit
  split
  · exact .ite (.sbErr (.modSbd h)) h
  · exact h

theorem Kept.smbusTimeout (h : Kept cs s₀ s) : Kept cs s₀ (smbusTimeout s) := .ite (.sbErr (.modSbd h)) h

theorem Kept.safeLeft (h : Kept cs s₀ s) : Kept cs s₀ (safeLeft s) := by
  unfold Machine.safeLeft
  split
  · exact .ite (.sbAnswer (.safeLeave h)) (.safeLeave h)
  · exact .safeLeave h

theorem Kept.sbMalformed {cmd : Option Byte} {d : List Byte} (h : Kept cs s₀ s) : Kept cs s₀ (sbMalformed s cmd d) := by
  unfold Machine.sbMalformed
  refine .ite h ?_
  split
  · exact .sbErr (.modSbd h)
  · exact .sbErr h

theorem Kept.countWindow (h : Kept cs s₀ s) : Kept cs s₀ (countWindow s) := .setFld h

theorem Kept.windowOpen (h : Kept cs s₀ s) : Kept cs s₀ (windowOpen s) :=
  .ite h (.countWindow (.modSbd (.setBitR (.setBitR h))))

theorem Kept.buttonRelease (h : Kept cs s₀ s) : Kept cs s₀ (buttonRelease s) := .setBitR h

theorem Kept.windowExpire (h : Kept cs s₀ s) : Kept cs s₀ (windowExpire s) := .setBitR h

theorem Kept.sealBreak (h : Kept cs s₀ s) : Kept cs s₀ (sealBreak s) :=
  .ite h (.sbErr (.setFld (.setBitR (.setBitR h))))

/-! ### Boot and messages of a Burin (BurBoot) -/

theorem Kept.settleRole (h : Kept cs s₀ s) : Kept cs s₀ (settleRole s) := .ite (.setPrimary h) h

theorem Kept.afterCopy {u : Bur} (h : Kept cs s₀ s) : Kept cs s₀ (afterCopy s u) :=
  .ite (.modCore h) (.settleRole (.modCore h))

theorem Kept.bootReady {u : Bur} (h : Kept cs s₀ s) : Kept cs s₀ (bootReady s u) :=
  .ite h (.ite (.modCore h) (.afterCopy h))

theorem Kept.copyImage {u : Bur} (h : Kept cs s₀ s) : Kept cs s₀ (copyImage s u) := .modCore h

theorem Kept.imageCopyDone {u : Bur} {fail : Bool} (h : Kept cs s₀ s) : Kept cs s₀ (imageCopyDone s u fail) :=
  .ite h (.withFail (fun _ _ h1 => .afterCopy (.ite (.modCore h1) (.copyImage h1))) h)

theorem Kept.enterRun {u : Bur} (h : Kept cs s₀ s) : Kept cs s₀ (enterRun s u) := .modCore h

theorem Kept.bootAuth {u : Bur} (h : Kept cs s₀ s) : Kept cs s₀ (bootAuth s u) :=
  .ite h (.settleRole (.ite (.enterRun h) (.safeCause (.burErr (.modCore h)))))

theorem Kept.takeLog {failedB both : Bool} (h : Kept cs s₀ s) : Kept cs s₀ (takeLog s failedB both) :=
  .burErr (.cnt32 (.wr64 h))

theorem Kept.missOut {x : Bur} (h : Kept cs s₀ s) : Kept cs s₀ (missOut s x) :=
  .ite (.takeLog (.burInt (.ite (.setPrimary (.modCore (.burReset h))) (.modCore (.burReset h)))))
    (.modCore (.burReset h))

theorem Kept.bothOut (h : Kept cs s₀ s) : Kept cs s₀ (bothOut s) :=
  .safeCause (.takeLog (.modCore (.modCore (.setPrimary (.burReset (.burReset h))))))

theorem Kept.heartbeatEnd (h : Kept cs s₀ s) : Kept cs s₀ (heartbeatEnd s) := by
  unfold Machine.heartbeatEnd
  extract_lets ma mb a bur b c
  have ha : Kept cs s₀ a := .modCore (.modCore h)
  have hb : Kept cs s₀ b := ha
  have hc : Kept cs s₀ c :=
    .ite (.ite (.safeCause hb) hb) (.ite (.bothOut hb) (.ite (.missOut hb) (.ite (.missOut hb) hb)))
  exact .ite h (.ipendBit hc)

theorem Kept.hostAnswer {code : Nat} {f : State → State × W32} (hf : Kept cs s₀ (f s).1) (h : Kept cs s₀ s) :
    Kept cs s₀ (hostAnswer s code f) := .ite (.hostOut hf) h

theorem Kept.ping (h : Kept cs s₀ s) : Kept cs s₀ (ping s) := .ite (.hostAnswer h h) (.ite h (.hostAnswer h h))

theorem Kept.handover (h : Kept cs s₀ s) : Kept cs s₀ (handover s) := by
  unfold Machine.handover
  refine .hostAnswer ?_ h
  dsimp only
  split
  · exact .setPrimary h
  · exact h

/-! ### The proof sweep (Proof) -/

theorem Kept.proofSample (h : Kept cs s₀ s) : Kept cs s₀ (proofSample s) := h

theorem Kept.proofCompare {e : SweepEnd} (h : Kept cs s₀ s) : Kept cs s₀ (proofCompare s e) :=
  .ite (.cnt32 (.setFlag h)) h

theorem Kept.proofAdopt {e : SweepEnd} (h : Kept cs s₀ s) : Kept cs s₀ (proofAdopt s e) := .ite (.wr h) h

theorem Kept.sweepComplete (h : Kept cs s₀ s) : Kept cs s₀ (sweepComplete s) := by
  unfold Machine.sweepComplete
  split
  · exact h
  · exact .cnt64 (.proofAdopt (.proofCompare (.foldl (fun _ _ h1 => .wr h1) (.wr h))))

theorem Kept.proofReset (h : Kept cs s₀ s) : Kept cs s₀ (proofReset s) := h

/-! ### Power transitions (Power) -/

theorem Kept.pwrErr {i t : Nat} (h : Kept cs s₀ s) : Kept cs s₀ (pwrErr s i t) := .logErr (.wr h) h

theorem Kept.stop {target : Nat} (h : Kept cs s₀ s) : Kept cs s₀ (stop s target) := .modPwr (.setPwrPhase (.ipendBit h))

theorem Kept.flushFor (h : Kept cs s₀ s) : Kept cs s₀ (flushFor s) :=
  .ite (.eachTgt (fun _ _ h1 => .queueFls h1) h) (.flushAll h)

theorem Kept.prepWork (h : Kept cs s₀ s) : Kept cs s₀ (prepWork s) :=
  .ite (.ite (.switchOut h) h) (.flushFor (.ite (.switchOut h) h))

theorem Kept.beginPrep (h : Kept cs s₀ s) : Kept cs s₀ (beginPrep s) := .prepWork (.modPwr (.setPwrPhase h))

theorem Kept.idleThreshold (h : Kept cs s₀ s) : Kept cs s₀ (idleThreshold s) := by
  unfold Machine.idleThreshold
  refine .ite h (.ite (.modPwr h) ?_)
  split
  · exact .modPwr h
  · exact .beginPrep (.modPwr h)
  · exact .stop (.modPwr h)

theorem Kept.treesFlushed (h : Kept cs s₀ s) : Kept cs s₀ (treesFlushed s) := .ite (.setBitR (.ite (.writeSums h) h)) h

theorem Kept.deepPrepDone {badP badV : List Nat} (h : Kept cs s₀ s) : Kept cs s₀ (deepPrepDone s badP badV) :=
  .ite h (.ite (.prepWork (.modPwr (.pnlSave h))) (.ite (.modPwr h) h))

theorem Kept.endRound (h : Kept cs s₀ s) : Kept cs s₀ (endRound s) := .localRestart (.modPwr (.setPwrPhase (.modStk h)))

theorem Kept.pendingStart (h : Kept cs s₀ s) : Kept cs s₀ (pendingStart s) := by
  unfold Machine.pendingStart
  split
  · exact .warmStart h
  · exact h

theorem Kept.abortEntry {l : List Nat} (h : Kept cs s₀ s) : Kept cs s₀ (abortEntry s l) :=
  .pendingStart (.ite (.setPwrState (.lastWake (.endRound (.wr (.cnt32 (.wr64 h))))))
    (.endRound (.wr (.cnt32 (.wr64 h)))))

theorem Kept.saveTarget {bad : List Nat} {t : Nat} (h : Kept cs s₀ s) : Kept cs s₀ (saveTarget bad s t) :=
  .ite (.pwrErr h) (.ran (.storeWords h))

theorem Kept.saveTime {ref : W64} (h : Kept cs s₀ s) : Kept cs s₀ (saveTime s ref) := .modPwr (.ite (.seeRef h) h)

theorem Kept.commitEntry {ref : W64} {bad : List Nat} (h : Kept cs s₀ s) : Kept cs s₀ (commitEntry s ref bad) := by
  unfold Machine.commitEntry
  dsimp only
  split
  · exact .modPwr (.setPwrPhase (.setPwrState (.modPwr h)))
  · exact .modPwr (.setPwrPhase (.saveTime (.modPwr h)))
  · exact .modCoh (.setPwrPhase (.foldl (fun _ _ h1 => .saveTarget h1) (.modPwr (.forget (.modPwr h)))))

theorem Kept.consentPoint {ref : W64} {bad : List Nat} (h : Kept cs s₀ s) : Kept cs s₀ (consentPoint s ref bad) := by
  unfold Machine.consentPoint
  refine .ite h ?_
  split
  · exact .ite (.modPwr h) (.commitEntry (.modPwr h))
  · exact .abortEntry h

theorem Kept.deepStop {ref : W64} (h : Kept cs s₀ s) : Kept cs s₀ (deepStop s ref) :=
  .modPwr (.setBitR (.setBitR (.logAll (.modPwr (.ite (.seeRef h) h)))))

theorem Kept.asleep {st : Nat} (h : Kept cs s₀ s) : Kept cs s₀ (asleep s st) := by
  unfold Machine.asleep
  dsimp only
  split
  · exact .wake (.modPwr (.setPwrPhase (.setPwrState h)))
  · exact .burWake (.wakeInputs (.modPwr (.setPwrPhase (.setPwrState h))))

theorem Kept.wokeRaise (h : Kept cs s₀ s) : Kept cs s₀ (wokeRaise s) := by
  unfold Machine.wokeRaise
  dsimp only
  split
  · exact .ite (.detect (.setWinLine (.modPwr h))) (.modPwr h)
  · exact .modPwr h

theorem Kept.startFast (h : Kept cs s₀ s) : Kept cs s₀ (startFast s) :=
  .issueAll (.localRestart (.winRestart (.wokeRaise
    (.ite (.toMain (.modStk (.showPeriod (.modStk (.modStk (.setBitR (.modPwr (.setPwrPhase h))))))))
    (.modStk (.showPeriod (.modStk (.modStk (.setBitR (.modPwr (.setPwrPhase h)))))))))))

theorem Kept.retAck {lvl : Bool} {ref : W64} (h : Kept false s₀ s) : Kept false s₀ (retAck s lvl ref) :=
  .ite (.asleep (.modPwr h)) (.ite (.startFast (.sleepAdvance (.modPwr h))) h)

theorem Kept.mainAck {lvl : Bool} {ref : W64} (h : Kept cs s₀ s) : Kept cs s₀ (mainAck s lvl ref) :=
  .ite (.ite h (.ite (.ite (.deepStop h) h) (.ite (.modPwr h) h))) (.ite (.modPwr h) h)

theorem Kept.fastAck {lvl : Bool} (h : Kept cs s₀ s) : Kept cs s₀ (fastAck s lvl) :=
  .ite (.modPwr h) (.ite (.modPwr h) h)

theorem Kept.offAck {lvl : Bool} (h : Kept cs s₀ s) : Kept cs s₀ (offAck s lvl) :=
  .ite (.asleep (.modCore (.modCore (.modPwr h)))) (.ite (.modPwr h) h)

theorem Kept.deepCountdown (h : Kept cs s₀ s) : Kept cs s₀ (deepCountdown s) := .ite (.wake (.modPwr (.wr h))) h

theorem Kept.wakeInput {w : WakeSrc} (h : Kept cs s₀ s) : Kept cs s₀ (wakeInput s w) := by
  unfold Machine.wakeInput
  split
  · exact .ite (.wake (.modPwr h)) (.modPwr h)
  · exact .ite (.ite (.wake (.modLine h)) (.modLine h)) h

theorem Kept.portWaits {t : Option (BitVec 7)} (h : Kept cs s₀ s) : Kept cs s₀ (portWaits s t) := by
  unfold Machine.portWaits
  refine .wake (.ite h ?_)
  split
  · exact .ite (.modPwr h) h
  · exact .ite (.modPwr h) h

theorem Kept.freqAck {lvl : Bool} (h : Kept cs s₀ s) : Kept cs s₀ (freqAck s lvl) :=
  .ite (.issueAll (.showPeriod (.modStk (.modPwr (.setFld h))))) (.ite (.issueAll (.modPwr h)) h)

theorem Kept.voltAck {lvl : Bool} (h : Kept cs s₀ s) : Kept cs s₀ (voltAck s lvl) :=
  .ite (.issueAll (.modPwr (.setFld h))) (.ite (.issueAll (.modPwr h)) h)

/-! ### Resets and restore (Reset) -/

theorem Kept.dropDomain {win : Tbl Line} (h : Kept false s₀ s) : Kept false s₀ (dropDomain s win) :=
  .proofReset h.moved

theorem Kept.burinsBoot {keepCode : Bool} (h : Kept cs s₀ s) : Kept cs s₀ (burinsBoot s keepCode) := h

theorem Kept.queueApply (h : Kept cs s₀ s) : Kept cs s₀ (queueApply s) := h

theorem Kept.portsStart (h : Kept cs s₀ s) : Kept cs s₀ (portsStart s) :=
  .ite (.modWft (.foldl (fun _ _ h1 => .modWport h1) h))
    (.ite (.foldl (fun _ _ h1 => .modWport h1) h) (.modWft (.foldl (fun _ _ h1 => .modWport h1) h)))

theorem Kept.coldHeld (h : Kept false s₀ s) : Kept false s₀ (coldHeld s) := h.moved

theorem Kept.coldReset {inst smb : BitVec 7} {winBase : BitVec 41} {intact : Bool} (h : Kept false s₀ s) :
    Kept false s₀ (coldReset s inst smb winBase intact) :=
  .ite h (.setBitR (.wr64 (.wr (.coldHeld h))))

theorem Kept.strokeStart (h : Kept cs s₀ s) : Kept cs s₀ (strokeStart s) :=
  .ipendBit (.treesBoundary (.queueApply (.sharesApply (.showPeriod (.modStk (.modStk (.modCoh h)))))))

theorem Kept.pinMarks (h : Kept cs s₀ s) : Kept cs s₀ (pinMarks s) := .ite (.setBitR h) h

theorem Kept.releaseStalled (h : Kept cs s₀ s) : Kept cs s₀ (releaseStalled s) := .foldl (fun _ _ h1 => .portServe h1) h

theorem Kept.sramInitDone (h : Kept cs s₀ s) : Kept cs s₀ (sramInitDone s) :=
  .ite h (.ite (.warmStart (.issueAll (.releaseStalled
    (.localRestart (.portsStart (.strokeStart (.pinMarks (.setBitR h))))))))
    (.pendingStart (.issueAll (.releaseStalled (.localRestart (.portsStart (.strokeStart (.pinMarks (.setBitR h)))))))))

theorem Kept.pinTakes (h : Kept cs s₀ s) : Kept cs s₀ (pinTakes s) := .ite (.cohW3 (.setFld h)) (.setFld h)

theorem Kept.dropRound (h : Kept cs s₀ s) : Kept cs s₀ (dropRound s) := .ite (.endRound h) h

theorem Kept.warmFall (h : Kept cs s₀ s) : Kept cs s₀ (warmFall s) := by
  unfold Machine.warmFall
  dsimp only
  split
  · exact h
  · exact .ite (.pinTakes h) h
  · exact .ite (.wake h) (.warmStart (.dropRound h))
  · exact .pinTakes h

theorem Kept.warmRise (h : Kept cs s₀ s) : Kept cs s₀ (warmRise s) := h

theorem Kept.warmFlushDone {badP badV : List Nat} (h : Kept cs s₀ s) : Kept cs s₀ (warmFlushDone s badP badV) :=
  .ite h (.ite h (.cohW3 (.ite (.pnlSave (.treesFlushed (.discardPhys h))) (.treesFlushed (.discardPhys h)))))

theorem Kept.pwrWarm (h : Kept cs s₀ s) : Kept cs s₀ (pwrWarm s) := .modPwr h

theorem Kept.domainReset (h : Kept false s₀ s) : Kept false s₀ (domainReset s) := .burinsBoot (.dropDomain (.pwrWarm h))

theorem Kept.warmQuiet (h : Kept false s₀ s) : Kept false s₀ (warmQuiet s) := .ite (.domainReset (.logAll h)) h

theorem Kept.domainRelease (h : Kept cs s₀ s) : Kept cs s₀ (domainRelease s) := .ite h h

theorem Kept.saveGood {v : Save} (h : Kept false s₀ s) : Kept false s₀ (saveGood s v) := .modStk h.moved

theorem Kept.saveBad (h : Kept cs s₀ s) : Kept cs s₀ (saveBad s) := by
  unfold Machine.saveBad
  extract_lets a b
  have ha : Kept cs s₀ a := .modPwr (.wr h)
  exact .pwrErr ha

theorem Kept.stkLoad (h : Kept cs s₀ s) : Kept cs s₀ (stkLoad s) := .modStk (.modStk h)

theorem Kept.saveWordErr {index : Nat} (h : Kept cs s₀ s) : Kept cs s₀ (saveWordErr s index) := .logErr (.wr h) h

theorem Kept.domainRestore {ref : W64} {bad : Option (BitVec 16)} {flips : List (BitVec 13 × Byte)}
    (h : Kept false s₀ s) : Kept false s₀ (domainRestore s ref bad flips) := by
  unfold Machine.domainRestore
  refine .ite h (.startFast (.ipendBit (.burinsBoot (.proofReset (.sleepAdvance (.queueApply (.stkLoad ?_)))))))
  split
  · exact .saveGood (.modWft (.setBitR (.dropDomain h)))
  · exact .saveWordErr (.saveBad (.modWft (.setBitR (.dropDomain h))))
  · exact .saveBad (.modWft (.setBitR (.dropDomain h)))

theorem Kept.switchBack (h : Kept cs s₀ s) : Kept cs s₀ (switchBack s) :=
  .ite h (.ite (.warmStart (.wantSnap (.showPeriod (.modPwr (.setPwrPhase (.setPwrState (.setBitR (.setBitR h))))))))
    (.pendingStart (.wantSnap (.showPeriod (.modPwr (.setPwrPhase (.setPwrState (.setBitR (.setBitR h)))))))))

theorem Kept.restoreIcfg {t i : Nat} (h : Kept cs s₀ s) : Kept cs s₀ (restoreIcfg t s i) :=
  .ite (.localRaise (.wr h)) (.wr h)

theorem Kept.restoreTarget {failed bad : List Nat} {t : Nat} (h : Kept cs s₀ s) :
    Kept cs s₀ (restoreTarget failed bad s t) :=
  .ite (.pwrErr h) (.ite h (.foldl (fun _ _ h1 => .restoreIcfg h1) (.modTgt h)))

theorem Kept.trestDone (h : Kept cs s₀ s) : Kept cs s₀ (trestDone s) :=
  .modPwr (.ite (.setBitR (.setBitR h)) (.setBitR h))

theorem Kept.targetRestore {bad : List Nat} (h : Kept cs s₀ s) : Kept cs s₀ (targetRestore s bad) :=
  .ite h (.ite (.trestDone (.modPwr h)) (.portsStart
    (.modPwr (.ite (.applyPnlCtrl (.ite (.applyRnkCtrl
    (.trestDone (.foldl (fun _ _ h1 => .restoreTarget h1) (.forget h))))
    (.trestDone (.foldl (fun _ _ h1 => .restoreTarget h1) (.forget h)))))
    (.ite (.applyRnkCtrl (.trestDone (.foldl (fun _ _ h1 => .restoreTarget h1) (.forget h))))
    (.trestDone (.foldl (fun _ _ h1 => .restoreTarget h1) (.forget h))))))))

/-! ### Errors of SRAMs and parity paths (Upset) -/

theorem Kept.zeroWords {l : Nat} {words : Byte} (h : Kept cs s₀ s) : Kept cs s₀ (zeroWords s l words) :=
  .foldl (fun _ _ h => .ite (.withMem h fun w => memStore_wf w _ _ _) h) h

theorem Kept.lineUpset {l : Nat} {words : Byte} {unc : Bool} (h : Kept cs s₀ s) :
    Kept cs s₀ (lineUpset s l words unc) := by
  unfold Machine.lineUpset
  split
  · exact h
  · exact .ite (.cohErr h) (.ite (.modCoh (.zeroWords (.cohErr h))) (.invalidate h))

theorem Kept.entryUpset {t : Nat} {virt : Bool} {ev : EventId} {unc idOk : Bool} (h : Kept cs s₀ s) :
    Kept cs s₀ (entryUpset s t virt ev unc idOk) :=
  .ite h (.ite (.rnkErr h) (.noteState (.ite (.rnkErr (.takeOut h)) (.setFlag (.takeOut h)))))

theorem Kept.burinUpset {u : Bur} {addr : W32} {unc : Bool} (h : Kept cs s₀ s) : Kept cs s₀ (burinUpset s u addr unc) :=
  .ite (.burErr h) (.ite (.burTrap (.burErr h)) h)

theorem Kept.dparErr {path unit : Nat} {ev : EventId} {id : Option EventId} (h : Kept cs s₀ s) :
    Kept cs s₀ (dparErr s path unit ev id) :=
  .logErr (.wr64 h) h

theorem Kept.opUpset {t k : Nat} {id : Option EventId} (h : Kept cs s₀ s) : Kept cs s₀ (opUpset s t k id) := by
  unfold Machine.opUpset
  split
  · exact h
  · exact .noteState (.dparErr (.modTgt h))

theorem Kept.ageUpset {t k : Nat} {id : Option EventId} (h : Kept cs s₀ s) : Kept cs s₀ (ageUpset s t k id) :=
  .ite h (.dparErr (.modTgt h))

theorem Kept.spillUpset {l k : Nat} {id : Option EventId} (h : Kept cs s₀ s) : Kept cs s₀ (spillUpset s l k id) := by
  unfold Machine.spillUpset
  split
  · exact h
  · exact .ite h (.directLane (.laneDrain (.noteState (.dparErr (.setLane h)))))

theorem Kept.parkUpset {k : Nat} {id : Option EventId} (h : Kept cs s₀ s) : Kept cs s₀ (parkUpset s k id) := by
  unfold Machine.parkUpset
  split
  · exact h
  · exact .dparErr h

theorem Kept.wftUpset {w : WftAt} {id : Option EventId} (h : Kept cs s₀ s) : Kept cs s₀ (wftUpset s w id) := by
  unfold Machine.wftUpset
  split
  · split
    · exact h
    · exact .dparErr (.modWport h)
  · split
    · exact h
    · exact .dparErr (.modWport h)
  · split
    · exact h
    · exact .dparErr (.modWport h)
  · split
    · exact h
    · exact .pumpRwait (.dparErr (.modWft h))

theorem Kept.descUpset {r k : Nat} {id : Option EventId} (h : Kept cs s₀ s) : Kept cs s₀ (descUpset s r k id) := by
  unfold Machine.descUpset
  split
  · exact h
  · exact .dparErr (.haltAtBad (.modRing h))

theorem Kept.activeUpset {t : Nat} {virt split : Bool} {k : Nat} {id : Option EventId} (h : Kept cs s₀ s) :
    Kept cs s₀ (activeUpset s t virt split k id) := by
  unfold Machine.activeUpset
  dsimp only
  split
  · exact h
  · exact .noteState (.dparErr (.modTgt h))

theorem Kept.parityUpset {a : ParityAt} {id : Option EventId} (h : Kept cs s₀ s) : Kept cs s₀ (parityUpset s a id) := by
  unfold Machine.parityUpset
  split
  · exact .opUpset h
  · exact .ageUpset h
  · exact .spillUpset h
  · exact .parkUpset h
  · exact .wftUpset h
  · exact .descUpset h
  · exact .activeUpset h

theorem Kept.eccErr {a : ArrayAt} {unc : Bool} (h : Kept cs s₀ s) : Kept cs s₀ (eccErr s a unc) := .logErr (.wr h) h

theorem Kept.loseSlow {wid : Nat} (h : Kept cs s₀ s) : Kept cs s₀ (loseSlow s wid) := .modWft (.freeSlow h)

theorem Kept.panelUpset {p : Nat} {share : Bool} (h : Kept cs s₀ s) : Kept cs s₀ (panelUpset s p share) :=
  .pnlFinish (.ite (.wr (.wr (.setPanel h))) (.setPanel h))

theorem Kept.arrayLose {a : ArrayAt} (h : Kept cs s₀ s) : Kept cs s₀ (arrayLose s a) := by
  unfold Machine.arrayLose
  split
  · exact h
  · exact .elim h (fun _ => .loseSlow h)
  · exact .ite h (.modTgt h)
  · exact .ite (.setVword h) h
  · exact .ite (.panelUpset h) h
  · exact .wftUpset h
  · exact h

theorem Kept.arrayUpset {a : ArrayAt} {unc : Bool} (h : Kept cs s₀ s) : Kept cs s₀ (arrayUpset s a unc) :=
  .ite (.arrayLose (.eccErr h)) (.eccErr h)

theorem Kept.upset {x : Upset} (h : Kept cs s₀ s) : Kept cs s₀ (upset s x) := by
  unfold Machine.upset
  split
  · exact .lineUpset h
  · exact .entryUpset h
  · exact .arrayUpset h
  · exact .burinUpset h
  · exact .parityUpset h

theorem Kept.upsets {l : List Upset} (h : Kept cs s₀ s) : Kept cs s₀ (upsets s l) :=
  .ite h (.pollAll (.foldl (fun _ _ h1 => .upset h1) h))

/-! ### The stroke boundary (Boundary) -/

theorem Kept.settle (h : Kept cs s₀ s) : Kept cs s₀ (settle s) :=
  .switchBack (.idleThreshold (.sweepComplete (.heartbeatEnd (.snapshot (.epochBoundary h)))))

theorem Kept.countAdvance (h : Kept false s₀ s) : Kept false s₀ (countAdvance s).1 := by
  unfold Machine.countAdvance
  split
  · exact h.moved
  · dsimp only
    split
    · exact h.moved
    · exact .cnt64 h.moved

theorem Kept.nextStroke {fast : Bool} (h : Kept cs s₀ s) : Kept cs s₀ (nextStroke s fast) :=
  .ite (.modStk (.ite (.modStk h) h)) (.ite (.modStk (.ite (.modStk h) h))
    (.ite (.cnt64 (.modStk (.ite (.modStk h) h))) (.modStk (.ite (.modStk h) h))))

theorem Kept.snapCauses {late newLen : Bool} (h : Kept cs s₀ s) : Kept cs s₀ (snapCauses s late newLen) :=
  .ite (.modStk (.wantSnap h)) (.modStk (.ite (.wantSnap h) h))

theorem Kept.epochOrder {jump : Bool} (h : Kept cs s₀ s) : Kept cs s₀ (epochOrder s jump) := .modStk h

theorem Kept.idleOrder (h : Kept cs s₀ s) : Kept cs s₀ (idleOrder s) :=
  .ite (.stop (.modPwr (.ite (.wr (.ite (.abandonPrep h) h)) (.cnt32 (.ite (.abandonPrep h) h)))))
    (.ite (.beginPrep (.modPwr (.ite (.wr (.ite (.abandonPrep h) h)) (.cnt32 (.ite (.abandonPrep h) h)))))
    (.ite (.modPwr (.modPwr (.ite (.wr (.ite (.abandonPrep h) h)) (.cnt32 (.ite (.abandonPrep h) h)))))
    (.modPwr (.ite (.wr (.ite (.abandonPrep h) h)) (.cnt32 (.ite (.abandonPrep h) h))))))

theorem Kept.windowOrder (h : Kept cs s₀ s) : Kept cs s₀ (windowOrder s) := h

theorem Kept.alignOrder (h : Kept false s₀ s) : Kept false s₀ (alignOrder s) := by
  unfold Machine.alignOrder
  refine .modStk ?_
  split
  · refine .loadCount (.modStk ?_)
    split
    · exact .alignApply (.modStk h)
    · exact h
  · split
    · exact .alignApply (.modStk h)
    · exact h

theorem Kept.boundaryTime {held : Bool} (h : Kept false s₀ s) : Kept false s₀ (boundaryTime s held) :=
  .epochOrder (.queueApply (.ite (.snapCauses
    (.showPeriod (.nextStroke (.modStk (.modPwr (.countAdvance (.ite (.cnt64 h) h)))))))
    (.sharesApply (.snapCauses (.showPeriod (.nextStroke (.modStk (.modPwr (.countAdvance (.ite (.cnt64 h) h))))))))))

theorem Kept.flushGoesOn (h : Kept cs s₀ s) : Kept cs s₀ (flushGoesOn s) := .ite (.prepWork h) h

theorem Kept.boundaryOrders {held : Bool} (h : Kept false s₀ s) : Kept false s₀ (boundaryOrders s held) :=
  .wftPump (.pollAll (.flushGoesOn (.alignOrder
    (.proofSample (.windowOrder (.idleOrder
    (.pnlBoundary (.rxPumpAll (.treesBoundary (.boundaryTime (.pollAll h)))))))))))

theorem Kept.strokeBoundary {held : Bool} {ups : List Upset} (h : Kept false s₀ s) :
    Kept false s₀ (strokeBoundary s held ups) :=
  .ite h (.boundaryOrders (.upsets (.settle (.trigOver (.secondsPass h)))))

theorem Kept.refSnapAck {r : W64} (h : Kept cs s₀ s) : Kept cs s₀ (refSnapAck s r) := .ite (.modStk (.snapTaken h)) h

end

/-! ### Every command -/

/-- The command leaves STK_COUNT as it is: it ends no stroke, resets no count and advances no time across sleep (R178, R189,
R41). -/
def countStands : Instr → Bool
  | .strokeBoundary .. => false
  | .coldReset .. => false
  | .pwrRetAck .. => false
  | .deepDomainRestore .. => false
  | .rstColdFall => false
  | .warmQuiet => false
  | _ => true

theorem exec_kept (c : Instr) (s : State) : KeptOut (countStands c) s (exec c s) := by
  cases c with
  | coldReset => exact .next (.coldReset .refl)
  | sramInitDone => exact .next (.sramInitDone .refl)
  | rstWarmFall => exact .next (.warmFall .refl)
  | rstWarmRise => exact .next (.warmRise .refl)
  | glbRstCtrlWarm | winCtlWrite | winRouteWrite | winXstatWrite | tgtIcfgWrite | msgFenceReq | msgPqCfgWrite |
    rnkCtrlWrite | pnlCtrlWrite | cmdDbWrite | cmdRctrlWrite | cmdRstatClear | mbxAck | wftRedisc | wftPrst |
    cohFlushReq | burHold | burRst | burLoadData | sbdCtrlClose | glbLockWrite | prfRefWrite | prfAdopt |
    pwrToMain | pwrHoldRelease | pwrDvfsReqWrite =>
    exact .next (.regWrite .refl)
  | warmFlushDone => exact .next (.servedRun .refl (.warmFlushDone .refl))
  | warmQuiet => exact .next (.warmQuiet .refl)
  | warmDomainRelease => exact .next (.domainRelease .refl)
  | strokeBoundary => exact .next (.strokeBoundary .refl)
  | epochBoundary => exact .next (.epochBoundary .refl)
  | refcntSnapshot => exact .next (.snapshot .refl)
  | refSnapAck => exact .next (.refSnapAck .refl)
  | alignStroke => exact .next (.ite (.wftPump (.sendTree (.modStk .refl))) .refl)
  | heartbeatWindowEnd => exact .next (.heartbeatEnd .refl)
  | proofSweepComplete => exact .next (.sweepComplete .refl)
  | idleThreshold => exact .next (.idleThreshold .refl)
  | wiredLineChange => exact .next (.lineChange .refl)
  | wiredFilterAccept => exact .next (.filterSamples .refl)
  | wiredConfigRead => exact .next (.configRead .refl)
  | localInputChange => exact .next (.localChange .refl)
  | msgWrite => exact .next (.msgWrite .refl)
  | msgDecode => exact .next (.ite (.decodeWrite .refl) .refl)
  | slowSetDone => exact .next (.ite (.served .refl (.withFail (fun _ _ h1 => .slowSetDone h1) .refl)) .refl)
  | msgFenceDone => exact .next (.pollAll (.fenceDone .refl))
  | lookupIssue => exact .next (.ite (.lookupIssue .refl) .refl)
  | missFill => exact .next (.ite (.pollAll (.missFill .refl)) .refl)
  | ins => exact .next (.pollAll (.issueIns .refl))
  | ext => exact .execExt .refl
  | rem => exact .next (.pollAll (.issueRem .refl))
  | rpr => exact .next (.issue (fun _ _ h1 => .rprDo h1) .refl)
  | age => exact .next (.issue (fun _ _ h1 => .ageDo h1) .refl)
  | mvo => exact .next (.served .refl (.issueMvo .refl))
  | fls => exact .next (.issueFls .refl)
  | claimResponse => exact .next (.ite (.claimResponse .refl) .refl)
  | leadArrive => exact .next (.ite (.served .refl (.withFail (fun _ _ h1 => .leadArrive h1) .refl)) .refl)
  | sweepStart => exact .next (.ite (.sweepStart .refl) .refl)
  | sweepLinesArrive => exact .next (.ite (.served .refl (.withFail (fun _ _ h1 => .sweepLines h1) .refl)) .refl)
  | sweepAttrArrive => exact .next (.ite (.served .refl (.withFail (fun _ _ h1 => .sweepAttr h1) .refl)) .refl)
  | backgroundSweep => exact .next (.ite (.backgroundSweep .refl) .refl)
  | spillSetDone =>
    exact .next (.ite (.served .refl (.pollAll (.withFail (fun _ _ h1 => .spillSetDone h1) .refl))) .refl)
  | flushDone => exact .next (.servedRun .refl (.treesFlushed .refl))
  | loadDone => exact .next (.ite (.loadDone .refl) .refl)
  | claim => exact .next (.ite (.offered .refl) (.chanOp (fun _ h1 => .claimDo h1) .refl))
  | complete => exact .next (.chanOp (fun _ h1 => .completeDo h1) .refl)
  | deactivate => exact .next (.chanOp (fun _ h1 => .deactDo h1) .refl)
  | send => exact .next (.chanOp (fun _ h1 => .sendDo h1) .refl)
  | setPmask => exact .next (.chanOp (fun _ h1 => .setPmaskDo h1) .refl)
  | setSplit => exact .next (.chanOp (fun _ h1 => .setSplitDo h1) .refl)
  | setVpe => exact .next (.ite (.offered .refl) (.chanOp (fun _ h1 => .setVpeDo h1) .refl))
  | peek => exact .next (.chanOp (fun _ h1 => .peekDo h1) .refl)
  | undefinedOp => exact .next (.ite (.offered .refl) (.chanOp (fun _ h1 => .undefinedOpDo h1) .refl))
  | park => exact .next (.ite (.served .refl (.pollAll (.parkStart .refl))) .refl)
  | parkSetDone => exact .next (.ite (.served .refl (.pollAll (.withFail (fun _ _ h1 => .parkDone h1) .refl))) .refl)
  | switchSave => exact .next (.ite (.servedRun .refl (.switchSave .refl)) .refl)
  | switchLoad => exact .next (.ite (.servedRun .refl (.switchLoad .refl)) .refl)
  | switchDone => exact .next (.ite (.switchDone .refl) .refl)
  | quiesceDone => exact .next (.ite (.quiesceDone .refl) .refl)
  | panelResetDone => exact .next (.ite (.panelResetDone .refl) .refl)
  | panelDestroyDone => exact .next (.ite (.destroyDone .refl) .refl)
  | panelRestoreDone => exact .next (.ite (.panelRestore .refl) .refl)
  | descriptorFetch => exact .next (.ite (.served .refl (.withFail (fun _ _ h1 => .descFetch h1) .refl)) .refl)
  | completionRecordWrite => exact .next (.ite (.served .refl (.withFail (fun _ _ h1 => .recordWrite h1) .refl)) .refl)
  | cmdNop => exact .next (.startCmd (fun _ _ _ h1 => .complete h1) (fun _ _ h1 => h1) .refl)
  | sync => exact .next (.startCmd (fun _ _ _ h1 => .syncStart h1) (fun _ _ h1 => h1) .refl)
  | srcMap => exact .next (.startMem (fun _ _ _ _ h1 => .srcMap h1) (fun _ _ h1 => .srcReads h1) .refl)
  | srcUnmap => exact .next (.startMem (fun _ _ _ _ h1 => .srcUnmap h1) (fun _ _ h1 => .srcReads h1) .refl)
  | evMap => exact .next (.startMem (fun _ _ _ _ h1 => .evMap h1) (fun _ _ h1 => .mapReads h1) .refl)
  | evUnmap => exact .next (.startMem (fun _ _ _ _ h1 => .evUnmap h1) (fun _ _ h1 => .keyReads h1) .refl)
  | evAttr => exact .next (.startMem (fun _ _ _ _ h1 => .evAttr h1) (fun _ _ h1 => .keyReads h1) .refl)
  | evMove => exact .next (.startMem (fun _ _ _ _ h1 => .evMove h1) (fun _ _ h1 => .ite h1 (.keyReads h1)) .refl)
  | moveTablesVisible => exact .execMoveTablesVisible .refl
  | moveRedirectRemove => exact .next (.ite (.moveRemove .refl) .refl)
  | xltInv => exact .next (.startFail (fun _ _ _ _ h1 => .xltInv h1) .refl)
  | evSetPend => exact .next (.startMem (fun _ _ _ _ h1 => .evSetPend h1) (fun _ _ h1 => .evReads h1) .refl)
  | evClrPend => exact .next (.startMem (fun _ _ _ _ h1 => .evClrPend h1) (fun _ _ h1 => .evReads h1) .refl)
  | evQuery => exact .next (.startMem (fun _ _ _ _ h1 => .evQuery h1) (fun _ _ h1 => .evReads h1) .refl)
  | panelCreate =>
    exact .next (.startCmd (fun _ _ _ h1 => .pnlCmd (fun _ _ _ _ h2 => .panelCreate h2) h1) (fun _ _ h1 => h1) .refl)
  | panelVattr => exact .next (.startFail (fun _ _ _ _ h1 => .pnlCmd (fun _ _ _ _ h2 => .panelVattr h2) h1) .refl)
  | panelShare =>
    exact .next (.startCmd (fun _ _ _ h1 => .pnlCmd (fun _ _ _ _ h2 => .panelShare h2) h1) (fun _ _ h1 => h1) .refl)
  | panelQuiesce =>
    exact .next (.startCmd (fun _ _ _ h1 => .pnlCmd (fun _ _ _ _ h2 => .panelQuiesce h2) h1) (fun _ _ h1 => h1) .refl)
  | panelResume =>
    exact .next (.startCmd (fun _ _ _ h1 => .pnlCmd (fun _ _ _ _ h2 => .panelResume h2) h1) (fun _ _ h1 => h1) .refl)
  | panelReset =>
    exact .next (.startCmd (fun _ _ _ h1 => .pnlCmd (fun _ _ _ _ h2 => .panelReset h2) h1) (fun _ _ h1 => h1) .refl)
  | panelDestroy =>
    exact .next (.startCmd (fun _ _ _ h1 => .pnlCmd (fun _ _ _ _ h2 => .panelDestroy h2) h1) (fun _ _ h1 => h1) .refl)
  | vpeCreate =>
    exact .next (.startMem (fun _ _ _ _ h1 => .vpeCmd (fun _ _ _ _ h2 => .vpeCreate h2) h1) (fun _ _ h1 => h1) .refl)
  | vpeDoorbell =>
    exact .next (.startMem (fun _ _ _ _ h1 => .vpeCmd (fun _ _ _ _ h2 => .vpeDoorbell h2) h1) (fun _ _ h1 => h1) .refl)
  | vpeDestroy => exact .next (.startFail (fun _ _ _ _ h1 => .vpeCmd (fun _ _ _ _ h2 => .vpeDestroy h2) h1) .refl)
  | safeExit => exact .next (.startCmd (fun _ _ _ h1 => .safeExit h1) (fun _ _ h1 => h1) .refl)
  | safeLeave => exact .next (.safeLeft .refl)
  | wftPhyUp => exact .next (.ite .refl (.modWport .refl))
  | wftPhyDown => exact .next (.ite .refl (.ite (.portFail (.setWport .refl)) (.setWport .refl)))
  | wftCredit => exact .next (.ite .refl (.wftPump (.modWport .refl)))
  | trainTimer | idleTimer => exact .next (.ite (.sendPlain .refl) .refl)
  | replayTimeout => exact .next (.ite (.portFail .refl) .refl)
  | portDownTimeout => exact .execPortDownTimeout .refl
  | idle => exact .flitRow (fun _ _ _ h1 => .idleFlit h1) .refl
  | train => exact .flitRow (fun _ _ _ h1 => .trainFlit h1) .refl
  | hello => exact .flitRow (fun _ _ _ h1 => .helloFlit h1) .refl
  | floodSettled => exact .next (.ite (.floodSettled .refl) .refl)
  | routesComputed => exact .next (.ite (.wftPump (.routesComputed .refl)) .refl)
  | route => exact .flitRow (fun _ _ _ h1 => .routeFlit h1) .refl
  | tmap => exact .flitRow (fun _ _ _ h1 => .tmapFlit h1) .refl
  | commit => exact .flitRow (fun _ _ _ h1 => .commitFlit h1) .refl
  | joinAtReached => exact .execJoinAtReached .refl
  | align => exact .flitRow (fun _ _ _ h1 => .alignFlit h1) .refl
  | join => exact .flitRow (fun _ _ _ h1 => .joinFlit h1) .refl
  | linkdn => exact .flitRow (fun _ _ _ h1 => .linkdnFlit h1) .refl
  | raise => exact .flitRow (fun _ _ _ h1 => .raiseFlit h1) .refl
  | level => exact .flitRow (fun _ _ _ h1 => .levelFlit h1) .refl
  | hstate => exact .flitRow (fun _ _ _ h1 => .hstateFlit h1) .refl
  | dack => exact .flitRow (fun _ _ _ h1 => .dackFlit h1) .refl
  | crsp => exact .flitRow (fun _ _ _ h1 => .crspFlit h1) .refl
  | unknownFlit => exact .next (.ite (.recvFlit (fun _ h1 => h1) .refl) .refl)
  | wftSetPend => exact .cmdRow (fun _ _ h1 => .wftSetPend h1) .refl
  | wftClrPend => exact .cmdRow (fun _ _ h1 => .wftClrPend h1) .refl
  | wftAttWrite => exact .cmdRow (fun _ _ h1 => .wftAttWrite h1) .refl
  | wftAttClaim => exact .cmdRow (fun _ _ h1 => .wftAttClaim h1) .refl
  | wftAttRelease => exact .cmdRow (fun _ _ h1 => .wftAttRelease h1) .refl
  | wftPendTest => exact .cmdRow (fun _ _ h1 => .wftPendTest h1) .refl
  | wftQuery => exact .cmdRow (fun _ _ h1 => .wftQuery h1) .refl
  | cohRequestIssue => exact .next (.ite (.requestIssue .refl) .refl)
  | gnt => exact .next (.ite (.gnt .refl) .refl)
  | gntD => exact .next (.ite (.gntD .refl) .refl)
  | retry => exact .execRetry .refl
  | retryReissue => exact .execRetryReissue .refl
  | wbGo => exact .execWbGo .refl
  | evAck => exact .execEvAck .refl
  | err => exact .next (.ite (.cohBad .refl) .refl)
  | snS | snU | snI => exact .next (.snoop .refl)
  | cohFlushDone => exact .next (.ite (.flushDone .refl) .refl)
  | nop | add | sub | and | or | xor | shl | shr | sar | mul | cmp | crc | addi | andi | ori | xori | shiLeft |
    shiRight | shiArith | lui | cmpi | ldb | ldh | ldw | ldd | ldwp | stb | sth | stw | std | stwp | ator | atclr |
    b | call | callr | ret | rep | sys | rett | flgRead | flgWrite | flgIeSet | flgIeClear | wait =>
    exact .next (.burRow .refl)
  | emul => exact .next (.ite (.burRow .refl) .refl)
  | interruptTake => exact .next (.interruptTake .refl)
  | timerExpire => exact .next (.timerExpire .refl)
  | hbWrite => exact .next (.ite (.beatHeart .refl) .refl)
  | peerOutWrite => exact .next (.ite (.peerOut .refl) .refl)
  | hostOutWrite => exact .next (.ite (.hostOut .refl) .refl)
  | bootReady => exact .next (.bootReady .refl)
  | imageCopyDone => exact .next (.imageCopyDone .refl)
  | bootAuth => exact .next (.bootAuth .refl)
  | ping => exact .next (.ping .refl)
  | handover => exact .next (.handover .refl)
  | ident => exact .next (.ident .refl)
  | sbOpen => exact .next (.sbOpen .refl)
  | sbClose => exact .next (.sbClose .refl)
  | sbStatus | regRead | regWrite | logRead | fwBegin | fwData | fwEnd | safeEnter | sbSafeExit | lockClear |
    warmReset | fwCall =>
    exact .next (.sbRequest .refl)
  | sealClear => exact .next (.sbRequest (.ite .refl (.setBitR .refl)))
  | sbUndefinedCode => exact .next (.ite (.sbErr .refl) .refl)
  | sbQuickCommand => exact .next .refl
  | sessionIdleTimeout => exact .next (.ite .refl (.closeSession .refl))
  | smbusTimeout => exact .next (.smbusTimeout .refl)
  | replyBusyTimeout => exact .next (.busyTimeout .refl)
  | stretchLimit => exact .next (.stretchLimit .refl)
  | mirrorClaim => exact .next (.claimBy .refl)
  | mirrorDone => exact .next (.doneBy .refl)
  | presenceWindowOpen => exact .next (.windowOpen .refl)
  | presenceWindowExpire => exact .next (.windowExpire .refl)
  | sealBreak => exact .next (.sealBreak .refl)
  | registerWrite => exact .next (.srcWrite .refl)
  | errorLogWrite => exact .next (.ite (.logWrite .refl) .refl)
  | deepPrepDone => exact .next (.servedRun .refl (.deepPrepDone .refl))
  | consentPoint => exact .next (.consentPoint .refl)
  | clkMainStopAck => exact .next (.mainAck .refl)
  | clkFastStopAck => exact .next (.fastAck .refl)
  | pwrRetAck => exact .next (.retAck .refl)
  | pwrOffAck => exact .next (.offAck .refl)
  | deepDomainRestore => exact .next (.domainRestore .refl)
  | wakeInput => exact .next (.wakeInput .refl)
  | deepCountdown => exact .next (.deepCountdown .refl)
  | switchBack => exact .next (.switchBack .refl)
  | targetRestoreDone => exact .next (.targetRestore .refl)
  | dvfsFreqAck => exact .next (.freqAck .refl)
  | dvfsVoltAck => exact .next (.voltAck .refl)
  | rstColdFall => exact .next (.coldHeld .refl)
  | refSnapAckFall => exact .next (.ite .refl (.modStk .refl))
  | presenceButtonRelease => exact .next (.buttonRelease .refl)
  | portValidWithoutReady => exact .next (.portWaits .refl)
  | checkErrorFlit => exact .next (.ite (.portReset (.flitErr .refl)) .refl)
  | sbMalformedTransaction => exact .next (.sbMalformed .refl)
  | writebackLastBeatAccept => exact .execWritebackLastBeatAccept .refl

theorem step_of_pending {c : Instr} {rest : List Instr} (s : State) (h : s.pending = c :: rest) :
    step s = exec c { s with pending := rest } := by
  unfold step
  rw [h]

theorem step_of_pending_nil (s : State) (h : s.pending = []) : step s = .next s := by
  unfold step
  rw [h]

/-- Settles O1: both cases of the step's own definition. -/
theorem stepRunsFrontCommand : Obligations.StepRunsFrontCommand := by
  unfold Obligations.StepRunsFrontCommand
  exact ⟨fun _ _ s => step_of_pending { s with pending := _ } rfl, step_of_pending_nil⟩

/-- Settles O6, by the rule of each command. -/
theorem queueAndParametersStand : Obligations.QueueAndParametersStand := by
  unfold Obligations.QueueAndParametersStand
  intro c s t h
  have hk : Kept (countStands c) s t := exec_kept c s t h
  exact ⟨hk.par_eq, hk.pending_eq⟩

/-- Settles O4: a step idles, or runs a command, which keeps the canonical form. -/
theorem memoryStaysCanonical : Obligations.MemoryStaysCanonical := by
  unfold Obligations.MemoryStaysCanonical
  intro s t hw h
  cases hp : s.pending with
  | nil =>
    rw [step_of_pending_nil s hp] at h
    cases h
    exact hw
  | cons c rest =>
    rw [step_of_pending s hp] at h
    exact (exec_kept c _ t h).mem_wf hw

end Sys2Proof.Machine
end

section
namespace Sys2Proof.Machine

/-! ### The queue hypothesis that the reserved response lacks (O41)

A response with a reserved encoding sets RSP_ERR and then PROTO. With one entry of the error queue free the first flag
takes it, and the second is dropped and counted in GLB_ELOG_STAT (18 R427, R429): a register outside the three that O41 lets change. -/

/-- Line 8 as Burin A reads it, outstanding. -/
def lineEightReq : CReq := newReq .rdS 8 (some (.burin .a)) 7 false

/-- The block out of reset, with `lineEightReq` outstanding under tag 0x21 and one entry of the error queue free. -/
def oneLogEntryLeft : State :=
  { State.reset with
    rst := { State.reset.rst with phase := .run }
    coh := { State.reset.coh with reqs := [(0x21, lineEightReq)] }
    err := { State.reset.err with
      queue := List.replicate 15 { src := 9, flag := 3, unit := 0, stroke := 0, fresh := false } } }

theorem running_oneLogEntryLeft : running oneLogEntryLeft = true := by decide +kernel

theorem ring_run_oneLogEntryLeft (j : Nat) : (oneLogEntryLeft.ring j).run = none := rfl

theorem cohOn_of_running {s : State} (h : running s = true) : cohOn s = true := by
  obtain ⟨hr, -, hp, -⟩ := (running_iff s).mp h
  simp [cohOn, grpOn, hr, hp]

/-- What the meaning of a reserved response is while the block runs. -/
theorem exec_err_rsp {s : State} (h : running s = true) (tag : Byte) {op : BitVec 4} (ho : op = 0 ∨ 6 < op.toNat) :
    exec (.err tag (.rsp op)) s = .next (proto s tag.toNat) := by
  have hc : cohOn s = true := cohOn_of_running h
  have hb : (decide (op = 0) || decide (6 < op.toNat)) = true := by simpa using ho
  show execErr tag (.rsp op) s = _
  simp only [execErr, cohBad, hc, hb, if_true]

/-- The dropped occurrence is counted. -/
theorem proto_counts_drop :
    (proto oneLogEntryLeft 0x21).rd Reg.GLB_ELOG_STAT ≠ oneLogEntryLeft.rd Reg.GLB_ELOG_STAT := by decide +kernel

/-- Refutes O41: its clause on a reserved response asks for no room in the error queue. With one entry left the second of the
two flags is dropped, and GLB_ELOG_STAT counts it, a register that the clause says stands. -/
theorem not_coherentRequests : ¬ Obligations.CoherentRequests := by
  unfold Obligations.CoherentRequests
  intro h
  obtain ⟨-, -, responses⟩ := h
  obtain ⟨outstanding, -⟩ := responses oneLogEntryLeft 0x21 running_oneLogEntryLeft rfl fun j _ => ring_run_oneLogEntryLeft j
  obtain ⟨-, -, -, -, -, reserved, -⟩ :=
    outstanding lineEightReq rfl rfl rfl (by decide) (by decide) (by decide)
  obtain ⟨t, ht, -, -, -, -, -, -, -, apart⟩ := reserved (.burin .a) 7 rfl (.inr (by decide))
  rw [exec_err_rsp running_oneLogEntryLeft _ (.inr (by decide))] at ht
  cases ht
  exact proto_counts_drop (apart Reg.GLB_ELOG_STAT (by decide))

end Sys2Proof.Machine
end

section
namespace Sys2Proof.Machine

/-! ### The state and the memory after reset (O2, O3) -/

/-- Settles O3: both sides compute. -/
theorem resetMemoryCanonical : Obligations.ResetMemoryCanonical := by
  unfold Obligations.ResetMemoryCanonical
  exact ⟨rfl, fun _ => rfl⟩

/-- Settles O2: every field of the reset state is its value by definition, in either Burin. -/
theorem resetLeaves : Obligations.ResetLeaves := by
  unfold Obligations.ResetLeaves
  have core : ∀ u, State.reset.core u = burReset0 := fun u => by cases u <;> rfl
  have hold : ∀ r, burReset0.gr r = 0 := fun _ => rfl
  refine ⟨rfl, by decide +kernel, by decide +kernel, rfl, rfl, rfl, rfl, rfl, rfl, fun u => ?_, rfl, rfl, rfl, rfl, rfl, fun _ => rfl⟩
  rw [core u]
  exact ⟨rfl, rfl, hold⟩

end Sys2Proof.Machine
end

section
namespace Sys2Proof.Machine

/-! ### What the end of an initialisation stirs -/

/-- The parts of the state that C5 fixes before the trees, the Panels, the ports and the lines of the targets start. -/
def calmView (s : State) : Rst × Err × BurSt × Port × Nat × Nat × Bool × Option Byte :=
  (s.rst, s.err, s.bur, s.port, s.stk.cur, s.stk.len, s.stk.epochDue, s.sbd.token)

/-- From `s₀` to `s` those parts stand, and so does every register word below GLB_RST_CTRL. -/
def Calm (s₀ s : State) : Prop := calmView s = calmView s₀ ∧ ∀ j, j < Reg.GLB_RST_CTRL → s.rd j = s₀.rd j

/-! The replicated regions lie above GLB_RST_CTRL (16 R390). -/

theorem rstCtrl_le_winOff (n r : Nat) : Reg.GLB_RST_CTRL ≤ winOff n r := by unfold winOff Reg.GLB_RST_CTRL; omega
theorem rstCtrl_le_tgtOff (k r : Nat) : Reg.GLB_RST_CTRL ≤ tgtOff k r := by unfold tgtOff Reg.GLB_RST_CTRL; omega
theorem rstCtrl_le_icfgOff (k i : Nat) : Reg.GLB_RST_CTRL ≤ icfgOff k i := by unfold icfgOff Reg.GLB_RST_CTRL; omega
theorem rstCtrl_le_shareOff (p r : Nat) : Reg.GLB_RST_CTRL ≤ shareOff p r := by unfold shareOff Reg.GLB_RST_CTRL; omega

namespace Calm

variable {s₀ s t : State}

theorem refl : Calm s s := ⟨rfl, fun _ _ => rfl⟩

theorem ite {p : Prop} [Decidable p] (hs : Calm s₀ s) (ht : Calm s₀ t) : Calm s₀ (if p then s else t) := by
  split
  · exact hs
  · exact ht

theorem foldl {α : Type} {f : State → α → State} {l : List α} (hf : ∀ s a, Calm s₀ s → Calm s₀ (f s a)) (h : Calm s₀ s) :
    Calm s₀ (l.foldl f s) := by
  induction l generalizing s with
  | nil => exact h
  | cons a l ih => exact ih (hf s a h)

theorem wr {off : Nat} {v : W32} (ho : Reg.GLB_RST_CTRL ≤ off) (h : Calm s₀ s) : Calm s₀ (s.wr off v) := by
  obtain ⟨hv, hl⟩ := h
  refine ⟨?_, fun j hj => ?_⟩
  · simpa [calmView] using hv
  · rw [rd_wr_other _ _ (by omega), hl j hj]

theorem wr64 {off : Nat} {v : W64} (ho : Reg.GLB_RST_CTRL ≤ off) (h : Calm s₀ s) : Calm s₀ (s.wr64 off v) :=
  .wr (by omega) (.wr ho h)

theorem setFld {off hi lo v : Nat} (ho : Reg.GLB_RST_CTRL ≤ off) (h : Calm s₀ s) : Calm s₀ (s.setFld off hi lo v) := .wr ho h

theorem setBitR {off i : Nat} {b : Bool} (ho : Reg.GLB_RST_CTRL ≤ off) (h : Calm s₀ s) : Calm s₀ (s.setBitR off i b) := .wr ho h

theorem cnt64 {off : Nat} {n : optParam Nat 1} (ho : Reg.GLB_RST_CTRL ≤ off) (h : Calm s₀ s) : Calm s₀ (s.cnt64 off n) :=
  .wr64 ho h

/-! #### Wake causes (17 R417) -/

theorem abandonPrep (h : Calm s₀ s) : Calm s₀ (abandonPrep s) := .ite (.wr (by decide) (.setFld (by decide) h)) h

theorem beginWake {code idx : Nat} (h : Calm s₀ s) : Calm s₀ (beginWake s code idx) :=
  .ite (.wr (s := Machine.secondsPass s) (by decide) h) (.wr (s := Machine.secondsPass s) (by decide) h)

theorem wake {code idx : Nat} (h : Calm s₀ s) : Calm s₀ (wake s code idx) := by
  have ha : Calm s₀ (Machine.abandonPrep s) := .abandonPrep h
  unfold Machine.wake
  dsimp only
  split
  · exact ha
  · exact .ite ha ha
  · exact .ite (.beginWake ha) ha
  · exact ha
  · exact .ite (.setFld (by decide) (.wr (by decide) ha)) ha

/-! #### Operations on their way to a tree, a lane or another block (07, 12) -/

theorem meetsAt {k : Nat} {o : TOp} {arr : Stroke} (h : Calm s₀ s) (e : meetsAt s k o arr = some t) : Calm s₀ t := by
  rw [meetsAt_frame s e]
  exact h

theorem vMerge {u : BitVec 16} {ev : EventId} {a : Attr} {arr : Stroke} (h : Calm s₀ s) : Calm s₀ (vMerge s u ev a arr) := by
  unfold Machine.vMerge
  refine .ite h ?_
  split
  · exact h
  · exact h

theorem insMeets {k : Nat} {o : TOp} {arr : Stroke} (h : Calm s₀ s) (e : insMeets s k o arr = some t) : Calm s₀ t := by
  unfold Machine.insMeets at e
  split at e
  · exact .meetsAt h (by rw [← e]; assumption)
  · split at e
    · obtain ⟨u, -, rfl⟩ := Option.map_eq_some_iff.1 e
      exact .vMerge h
    · obtain ⟨u, -, rfl⟩ := Option.map_eq_some_iff.1 e
      cases hu : Machine.meetsAt s u o arr with
      | none => exact h
      | some v => exact .meetsAt h hu

theorem treePut {k : Nat} {o : TOp} (h : Calm s₀ s) : Calm s₀ (treePut s k o) := by
  have hd : Calm s₀ (s.cnt64 Reg.RNK_DIRECT_CNT) := .cnt64 (by decide) h
  unfold Machine.treePut
  refine .ite h (.ite ?_ h)
  split
  · exact .insMeets h ‹_›
  · exact .ite hd hd

theorem noteState {k : Nat} {virt : Bool} {ev : EventId} (h : Calm s₀ s) : Calm s₀ (noteState s k virt ev) := by
  unfold Machine.noteState
  refine .ite h (.ite (.ite h h) ?_)
  split
  · exact h
  · exact .ite h h

theorem setLatch {k : Nat} {virt : Bool} {ev : EventId} {b : Bool} (h : Calm s₀ s) : Calm s₀ (setLatch s k virt ev b) := by
  unfold Machine.setLatch
  refine .ite (.ite h h) (.ite h (.ite (.setBitR (rstCtrl_le_icfgOff _ _) h) (.ite (.setBitR (rstCtrl_le_winOff _ _) h) ?_)))
  split
  · exact h
  · exact h

theorem clearBit {k : Nat} {vpe : Option (BitVec 16)} {ev : EventId} (h : Calm s₀ s) : Calm s₀ (clearBit s k vpe ev) :=
  .ite h h

theorem laneHand {w : LaneW} (h : Calm s₀ s) : Calm s₀ (laneHand s w) :=
  .ite h (.ite (.clearBit h) (.ite (.ite h (.noteState (.clearBit h))) (.noteState (.setLatch (.ite h (.clearBit h))))))

theorem offTree {k : Nat} {o : TOp} (h : Calm s₀ s) : Calm s₀ (offTree s k o) := by
  unfold Machine.offTree
  split
  · exact h
  · split
    · exact h
    · exact h
  · exact .laneHand h
  · exact .laneHand h
  · exact h
  · exact h

theorem remoteRaise {g : BitVec 14} {ev : EventId} {a : Attr} {kind ctx : Nat} {w : Bool} {arr : Stroke}
    {lineNo src q : Nat} {wid slice : optParam (Option Nat) none} (h : Calm s₀ s) :
    Calm s₀ (remoteRaise s g ev a kind ctx w arr lineNo src q wid slice) := by
  unfold Machine.remoteRaise iftSend
  split
  · cases wid with
    | none => exact h
    | some _ => exact h
  · exact h

theorem forwardClear {g : BitVec 14} {o : TOp} (h : Calm s₀ s) : Calm s₀ (forwardClear s g o) := by
  unfold Machine.forwardClear
  dsimp only
  split
  · exact .ite h h
  · exact .ite h h

theorem forwardOp {m : Move} {o : TOp} (h : Calm s₀ s) : Calm s₀ (forwardOp s m o) := by
  unfold Machine.forwardOp
  split
  · exact .ite (.treePut h) (.ite (.remoteRaise h) (.ite (.forwardClear h) h))
  · split
    · exact .ite (.treePut h) h
    · exact .ite (.treePut h) h
    · exact .ite (.treePut h) (.laneHand h)
    · exact .ite (.treePut h) (.laneHand h)
    · exact h

theorem treeEnq {k : Nat} {o : TOp} (h : Calm s₀ s) : Calm s₀ (treeEnq s k o) := by
  unfold Machine.treeEnq
  refine .ite ?_ (.treePut h)
  split
  · exact .forwardOp h
  · exact .treePut h

/-! #### The orders of the boundary that opens stroke 0 (R17, R41) -/

theorem admitQ {k n : Nat} {l : List TOp} (h : Calm s₀ s) : Calm s₀ (admitQ s k l n).1 := by
  induction l generalizing s n with
  | nil => exact h
  | cons o r ih =>
    unfold Machine.admitQ
    split
    · exact ih (.forwardOp h)
    · split
      · exact ih (.offTree h)
      · cases n with
        | zero => exact h
        | succ n => exact ih h

theorem compareSum {k : Nat} {virt : Bool} (h : Calm s₀ s) : Calm s₀ (compareSum s k virt) := by
  unfold Machine.compareSum
  refine .ite h ?_
  dsimp only
  split
  · exact h
  · exact .ite h (.ite (.ite h (.cnt64 (by decide) h)) h)

theorem admitSpills {l k n : Nat} (h : Calm s₀ s) : Calm s₀ (admitSpills s l k n) :=
  .admitQ (.admitQ (.admitQ (s := s.setTgt _ _) h))

theorem treesBoundary {l : Nat} (h : Calm s₀ s) : Calm s₀ (treesBoundary s l) :=
  .foldl (fun _ _ h1 => .admitSpills h1)
    (.foldl (s := classesLoad s) (fun _ _ h1 => .compareSum (.compareSum (s := State.modTgt _ _ _) h1)) h)

theorem completeBad {r k : Nat} (h : Calm s₀ s) : Calm s₀ (completeBad s r k) := by
  induction k generalizing s with
  | zero => exact h
  | succ k ih =>
    unfold Machine.completeBad
    dsimp only
    split
    · exact h
    · refine .ite h ?_
      split
      · exact h
      · exact ih h

theorem complete {r : Nat} {d : Desc} {status : Nat} {result : optParam W64 0} (h : Calm s₀ s) :
    Calm s₀ (complete s r d status result) := .completeBad (s := s.modRing r _) h

theorem shareApply {p : Nat} (h : Calm s₀ s) : Calm s₀ (shareApply s p) := by
  have finish : ∀ {u : State}, Calm s₀ u → Calm s₀ (pnlFinish u p) := fun {u} hu => by
    unfold pnlFinish
    split
    · exact hu
    · dsimp only
      split
      · exact .complete (s := u.setPanel _ _) hu
      · exact hu
  unfold Machine.shareApply
  refine .ite h (finish ?_)
  cases (s.panel p).pend with
  | none => exact h
  | some w => exact .wr (rstCtrl_le_shareOff _ _) (.wr (rstCtrl_le_shareOff _ _) h)

theorem sharesApply (h : Calm s₀ s) : Calm s₀ (sharesApply s) := .foldl (fun _ _ h1 => .shareApply h1) h

theorem showPeriod (h : Calm s₀ s) : Calm s₀ (showPeriod s) := .wr64 (by decide) h

/-! #### The ports, the local lines, the DVFS requests that waited -/

theorem portsStart (h : Calm s₀ s) : Calm s₀ (portsStart s) := by
  have hp : Calm s₀ ((portList s).foldl (fun s p => modWport s p fun x => startPort s p x) s) := .foldl (fun _ _ h1 => h1) h
  exact .ite hp (.ite hp hp)

theorem localInput {k : Nat} {n : BitVec 4} {lvl : Bool} (h : Calm s₀ s) : Calm s₀ (localInput s k n lvl) := by
  have hs : Calm s₀ (s.setBitR (icfgOff k (16 + n.toNat)) 13 lvl) := .setBitR (rstCtrl_le_icfgOff _ _) h
  have hw : Calm s₀ (Machine.wake (activity (s.setBitR (icfgOff k (16 + n.toNat)) 13 lvl)) 5 0) :=
    .wake (s := activity _) (.abandonPrep hs)
  exact .ite h (.ite hs (.ite (.treeEnq hw) (.treeEnq hw)))

theorem localRestart (h : Calm s₀ s) : Calm s₀ (localRestart s) :=
  .foldl (fun _ _ h1 => .foldl (fun _ _ h2 => .localInput h2) h1) h

theorem issueDvfs (h : Calm s₀ s) : Calm s₀ (issueDvfs s) := by
  unfold Machine.issueDvfs
  have volt : ∀ {u : State}, Calm s₀ u → Calm s₀ (match u.pwr.vHeld with
      | some v => if dvfsOn u && u.pwr.volt.free && voltAllowed u v.toNat then
          modPwr u fun p => { p with volt := { req := true, ack := false }, voltPt := v, vHeld := none } else u
      | none => u) := fun {u} hu => by
    split
    · exact .ite hu hu
    · exact hu
  refine .setFld (by decide) (volt ?_)
  split
  · exact .ite h h
  · exact h

theorem issueAll (h : Calm s₀ s) : Calm s₀ (issueAll s) := .issueDvfs (.issueDvfs h)

end Calm

/-! ### Cold reset (O8) -/

theorem rd64_congr {s t : State} {off : Nat} (hl : t.rd off = s.rd off) (hh : t.rd (off + 4) = s.rd (off + 4)) :
    t.rd64 off = s.rd64 off := by
  unfold State.rd64
  rw [hl, hh]

/-- rst_cold_n_i low: what O8 says of the state, its memory and its parameters. -/
theorem gives_rstColdFall (s : State) : Gives .rstColdFall s fun t =>
    t.rst.phase = .cold ∧ (∀ off, t.rd off = regReset s.par off) ∧ t.count = 0 ∧ t.tg = [] ∧ t.lanes = [] ∧ t.rings = [] ∧
    t.coh.lines = [] ∧ t.err = errReset ∧ t.mem = s.mem ∧ t.par = s.par ∧ t.pending = s.pending :=
  gives_intro rfl ⟨rfl, fun _ => rfl, rfl, rfl, rfl, rfl, rfl, rfl, rfl, rfl, rfl⟩

/-- COLD_RESET writes the straps and the level of seal_i into the registers of the state held in cold reset. -/
def strapped (s : State) (inst smb : BitVec 7) (win : BitVec 41) (intact : Bool) : State :=
  (((coldHeld s).wr Reg.GLB_ID (w32 (inst.toNat + smb.toNat * 2 ^ 8))).wr64 Reg.GLB_WIN_BASE
    (BitVec.ofNat 64 (win.toNat * 2 ^ 23))).setBitR Reg.SBD_PRES 9 intact

theorem exec_coldReset {s : State} (h : s.rst.phase = .cold) (inst smb : BitVec 7) (win : BitVec 41) (intact : Bool) :
    exec (.coldReset inst smb win intact) s =
      .next { strapped s inst smb win intact with
        rst := { (strapped s inst smb win intact).rst with phase := .init } } := by
  show execColdReset inst smb win intact s = _
  simp only [execColdReset, coldReset, h, ne_eq, not_true_eq_false, if_false]
  rfl

theorem rd_coldHeld (s : State) (off : Nat) : (coldHeld s).rd off = regReset s.par off := rfl

/-- Every register after the straps are taken (R37, 15 R376). -/
theorem rd_strapped (s : State) (inst smb : BitVec 7) (win : BitVec 41) (intact : Bool) (off : Nat) :
    (strapped s inst smb win intact).rd off =
      if off = Reg.SBD_PRES then setBit (regReset s.par Reg.SBD_PRES) 9 intact
      else if off = Reg.GLB_WIN_BASE + 4 then ((BitVec.ofNat 64 (win.toNat * 2 ^ 23)) >>> 32).truncate 32
      else if off = Reg.GLB_WIN_BASE then (BitVec.ofNat 64 (win.toNat * 2 ^ 23)).truncate 32
      else if off = Reg.GLB_ID then w32 (inst.toNat + smb.toNat * 2 ^ 8)
      else regReset s.par off := by
  simp only [strapped, rd_setBitR, rd_wr64, rd_wr, rd_coldHeld]
  rfl

theorem gives_coldReset (s : State) (inst smb : BitVec 7) (win : BitVec 41) (intact : Bool) (h : s.rst.phase = .cold) :
    Gives (.coldReset inst smb win intact) s fun t =>
      t.rst.phase = .init ∧ t.rd Reg.GLB_ID = BitVec.ofNat 32 (inst.toNat + 256 * smb.toNat) ∧
      (t.rd64 Reg.GLB_WIN_BASE).toNat = win.toNat * 2 ^ 23 ∧
      t.rd Reg.SBD_PRES = setBit (regReset s.par Reg.SBD_PRES) 9 intact ∧
      (∀ off, off ∉ [Reg.GLB_ID, Reg.GLB_WIN_BASE, Reg.GLB_WIN_BASE + 4, Reg.SBD_PRES] → t.rd off = regReset s.par off) ∧
      t.count = 0 ∧ t.tg = [] ∧ t.mem = s.mem ∧ t.par = s.par ∧ t.pending = s.pending := by
  have rd := rd_strapped s inst smb win intact
  have id : (strapped s inst smb win intact).rd Reg.GLB_ID = BitVec.ofNat 32 (inst.toNat + 256 * smb.toNat) := by
    rw [rd, Nat.mul_comm 256]
    rfl
  have base : (strapped s inst smb win intact).rd64 Reg.GLB_WIN_BASE = BitVec.ofNat 64 (win.toNat * 2 ^ 23) :=
    (rd64_congr (rd_setBitR _ _ _ _ _) (rd_setBitR _ _ _ _ _)).trans (rd64_wr64_same _ _ _)
  refine gives_intro (exec_coldReset h inst smb win intact) ⟨rfl, id, ?_, rd _, fun off ho => ?_, ?_, ?_, ?_, ?_, ?_⟩
  · refine (congrArg BitVec.toNat base).trans ?_
    have := win.isLt
    rw [BitVec.toNat_ofNat, Nat.mod_eq_of_lt (by omega)]
  · simp only [List.mem_cons, List.not_mem_nil, or_false, not_or] at ho
    obtain ⟨h1, h2, h3, h4⟩ := ho
    refine (rd off).trans ?_
    rw [if_neg h4, if_neg h3, if_neg h2, if_neg h1]
  · simp [strapped]; rfl
  · simp [strapped]; rfl
  · simp [strapped]; rfl
  · simp [strapped]; rfl
  · simp [strapped]; rfl

/-! #### SRAM_INIT_DONE -/

/-- Both Burins with bit i of IPEND set. -/
def withIpend (s : State) (i : Nat) : State :=
  { s with bur := { s.bur with a := { s.bur.a with ipend := s.bur.a.ipend ||| BitVec.ofNat 32 (1 <<< i) },
                               b := { s.bur.b with ipend := s.bur.b.ipend ||| BitVec.ofNat 32 (1 <<< i) } } }

/-- Beside IPEND an interrupt of the Burins is a wake cause at most. -/
theorem Calm.ipendBit (s : State) (i : Nat) : Calm (withIpend s i) (ipendBit s i) := .ite (.wake .refl) .refl

/-- The block as READY is set, before C5. -/
def readyState (s : State) : State :=
  let s := pinMarks (s.setBitR Reg.GLB_STATUS 0 true)
  { s with rst := { s.rst with phase := .run, warmInit := false, byPin := false, quiet := false } }

/-- What C5 fixes of the strokes: their length in force, and that an epoch begins. -/
def strokesSet (s : State) : State :=
  let s := modCoh s fun c => { c with draws := 0 }
  let len := s.fld Reg.STK_LEN 6 0
  let s := modStk s fun k => { k with kind := .normal, len := len, cur := len, shift := s.fld Reg.STK_EPOCH 3 0, epochDue := true,
                                      anchorNext := refLegal s, snapDue := some .tag, freqOut := s.pwr.freq.req }
  modStk s fun k => { k with per := periodNow s }

/-- C5 sets the strokes and HBEAT; the rest of it is calm. -/
theorem strokeStart_calm (s : State) : ∃ u, Calm (strokesSet s) u ∧ Calm (withIpend u 0) (strokeStart s) := by
  let u := treesBoundary (queueApply (sharesApply (showPeriod (strokesSet s)))) (s.fld Reg.STK_LEN 6 0)
  have hu : Calm (strokesSet s) u := .treesBoundary (s := queueApply (sharesApply _)) (.sharesApply (.showPeriod .refl))
  have e : strokeStart s = Machine.ipendBit u 0 := rfl
  exact ⟨u, hu, e ▸ .ipendBit u 0⟩

theorem pinMarks_calm (s : State) : Calm s (pinMarks s) := .ite (.setBitR (by decide) .refl) .refl

theorem rd_pinMarks {off : Nat} (s : State) (h : off ≠ Reg.RNK_STAT) : (pinMarks s).rd off = s.rd off := by
  unfold pinMarks
  split
  · exact (rd_setBitR s _ _ _ _).trans (if_neg h)
  · rfl

theorem rst_pinMarks (s : State) : (pinMarks s).rst = s.rst := by
  have h := (pinMarks_calm s).1
  exact congrArg Prod.fst h

theorem releaseStalled_none {s : State} (h : s.port.stalled = []) : releaseStalled s = s := by
  have hp : { s.port with stalled := [] } = s.port := by rw [← h]
  unfold releaseStalled
  simp only [h, List.foldl_nil, hp]

theorem calm_view {s t : State} (h : Calm s t) :
    t.rst = s.rst ∧ t.err = s.err ∧ t.bur = s.bur ∧ t.port = s.port ∧ t.stk.cur = s.stk.cur ∧ t.stk.len = s.stk.len ∧
    t.stk.epochDue = s.stk.epochDue ∧ t.sbd.token = s.sbd.token := by
  simpa [calmView] using h.1

/-- What C5 has set when its boundary's orders are done (08 R188, 14 R350). -/
theorem strokeStart_view (s : State) :
    let t := strokeStart s
    t.rst = s.rst ∧ t.err = s.err ∧ t.port = s.port ∧ t.stk.cur = s.fld Reg.STK_LEN 6 0 ∧ t.stk.len = s.fld Reg.STK_LEN 6 0 ∧
    t.stk.epochDue = true ∧ t.bur.a.ipend = s.bur.a.ipend ||| 1 ∧ t.bur.b.ipend = s.bur.b.ipend ||| 1 ∧
    t.rd Reg.GLB_STATUS = s.rd Reg.GLB_STATUS := by
  obtain ⟨u, hu, ht⟩ := strokeStart_calm s
  obtain ⟨rst, err, bur, port, cur, len, due, -⟩ := calm_view hu
  obtain ⟨rst', err', bur', port', cur', len', due', -⟩ := calm_view ht
  refine ⟨rst'.trans rst, err'.trans err, port'.trans port, cur'.trans cur, len'.trans len, due'.trans due, ?_, ?_,
    (ht.2 _ (by decide)).trans (hu.2 _ (by decide))⟩
  · rw [bur']
    exact congrArg (fun b : BurSt => b.a.ipend ||| 1) bur
  · rw [bur']
    exact congrArg (fun b : BurSt => b.b.ipend ||| 1) bur

/-- SRAM_INIT_DONE where no reset waits and no access is stalled: what follows C5 is calm. -/
theorem sramInitDone_calm {s : State} (hp : s.rst.phase = .init) (ht : s.rst.pendingTrig = none)
    (hw : s.rst.pinAfterWake = false) (hq : s.port.stalled = []) :
    Calm (strokeStart (readyState s)) (sramInitDone s) := by
  obtain ⟨rst, -, port, -⟩ := strokeStart_view (readyState s)
  have hl : Calm (strokeStart (readyState s)) (localRestart (portsStart (strokeStart (readyState s)))) :=
    .localRestart (.portsStart .refl)
  have hs : (localRestart (portsStart (strokeStart (readyState s)))).port.stalled = [] := by
    obtain ⟨-, -, -, hport, -⟩ := calm_view hl
    obtain ⟨-, -, -, hpin, -⟩ := calm_view (pinMarks_calm (s.setBitR Reg.GLB_STATUS 0 true))
    rw [hport, port]
    exact (congrArg Port.stalled hpin).trans (by simpa using hq)
  have hi : Calm (strokeStart (readyState s)) (issueAll (localRestart (portsStart (strokeStart (readyState s))))) := .issueAll hl
  obtain ⟨hrst, -⟩ := calm_view hi
  have hr : (readyState s).rst = { s.rst with phase := .run, warmInit := false, byPin := false, quiet := false } := by
    simp [readyState, rst_pinMarks]
  have h : sramInitDone s = issueAll (localRestart (portsStart (strokeStart (readyState s)))) := by
    have e : sramInitDone s =
        let t := issueAll (releaseStalled (localRestart (portsStart (strokeStart (readyState s)))))
        if t.rst.pinAfterWake then warmStart { t with rst := { t.rst with pinAfterWake := false } } 2 true
        else pendingStart t := if_neg (by simp [hp])
    rw [e, releaseStalled_none hs]
    simp only [hrst, rst, hr, hw, Bool.false_eq_true, if_false, pendingStart, ht]
  rw [h]
  exact hi

theorem gives_sramInitDone (s : State) (hp : s.rst.phase = .init) (ht : s.rst.pendingTrig = none)
    (hw : s.rst.pinAfterWake = false) (hq : s.port.stalled = []) :
    Gives .sramInitDone s fun t =>
      t.rst.phase = .run ∧ t.bit Reg.GLB_STATUS 0 = true ∧ t.count = s.count ∧ t.stk.epochDue = true ∧
      t.stk.cur = s.fld Reg.STK_LEN 6 0 ∧ t.stk.len = s.fld Reg.STK_LEN 6 0 ∧ t.err = s.err ∧
      t.bur.a.ipend = s.bur.a.ipend ||| 1 ∧ t.bur.b.ipend = s.bur.b.ipend ||| 1 := by
  have h := sramInitDone_calm hp ht hw hq
  obtain ⟨rst, err, bur, -, cur, len, due, -⟩ := calm_view h
  obtain ⟨rst', err', -, cur', len', due', ha, hb, hrd⟩ := strokeStart_view (readyState s)
  have rdy := pinMarks_calm (s.setBitR Reg.GLB_STATUS 0 true)
  obtain ⟨-, perr, pbur, -⟩ := calm_view rdy
  have hlen : (readyState s).fld Reg.STK_LEN 6 0 = s.fld Reg.STK_LEN 6 0 :=
    congrArg (field · 6 0) ((rd_pinMarks _ (by decide)).trans ((rd_setBitR _ _ _ _ _).trans (if_neg (by decide))))
  have hbur : (readyState s).bur = s.bur := pbur.trans (by simp)
  have hready : (sramInitDone s).rd Reg.GLB_STATUS = setBit (s.rd Reg.GLB_STATUS) 0 true :=
    (h.2 _ (by decide)).trans (hrd.trans ((rdy.2 _ (by decide)).trans (rd_setBitR _ _ _ _ _)))
  refine gives_intro rfl ⟨?_, ?_, ?_, due.trans due', (cur.trans cur').trans hlen, (len.trans len').trans hlen,
    err.trans (err'.trans (perr.trans (by simp))), ?_, ?_⟩
  · rw [rst, rst']
    rfl
  · show bitAt ((sramInitDone s).rd Reg.GLB_STATUS) 0 = true
    rw [hready, bitAt, getLsbD_setBit _ _ _ _ (by decide)]
    rfl
  · exact (exec_kept .sramInitDone s _ rfl).count_eq
  · rw [bur, ha, hbur]
  · rw [bur, hb, hbur]

namespace Settled

/-- Settles O8: the state held in reset, the straps over it, and C5, whose other orders leave the strokes, the log and the
Burins alone. -/
theorem coldReset : Obligations.ColdReset := by
  unfold Obligations.ColdReset
  exact ⟨⟨gives_rstColdFall, gives_coldReset⟩, fun s hp ht hw hq _ => gives_sramInitDone s hp ht hw hq⟩

end Settled

end Sys2Proof.Machine
end

section
namespace Sys2Proof.Machine

/-! ### A register access while the block runs (02 R32, 16 R378) -/

/-- s as an access of register `off` takes effect: accepted at the register port, where it is activity outside the PWR region;
from elsewhere at the end of the cycle of a trigger before it. -/
def accessed (s : State) (acc : RegAcc) (off : Nat) : State :=
  if acc.src = .port then
    let s := portTaken s acc.taken
    { portAccept s with pwr := { s.pwr with act := s.pwr.act || !isPwrOff off } }
  else if acc.same then s else trigOver s

/-- t once the access that s was offered has its answer. -/
def replied (s : State) (acc : RegAcc) (t : State) (err : Bool) (data : W64) : State :=
  if acc.src = .port then portAnswer t (portTaken s acc.taken).port.next err data else t

theorem accessed_frame (s : State) (acc : RegAcc) (off : Nat) : accessed s acc off =
    { s with rst := (accessed s acc off).rst, port := (accessed s acc off).port, pwr := (accessed s acc off).pwr } := by
  unfold accessed
  split
  · rw [portTaken_frame]
    rfl
  · split <;> rfl

@[simp] theorem rd_accessed (s : State) (acc : RegAcc) (off j : Nat) : (accessed s acc off).rd j = s.rd j := by
  rw [accessed_frame]
  rfl
@[simp] theorem bit_accessed (s : State) (acc : RegAcc) (off j i : Nat) : (accessed s acc off).bit j i = s.bit j i :=
  congrArg (bitAt · i) (rd_accessed s acc off j)
@[simp] theorem accessed_par (s : State) (acc : RegAcc) (off : Nat) : (accessed s acc off).par = s.par := by rw [accessed_frame]
@[simp] theorem accessed_err (s : State) (acc : RegAcc) (off : Nat) : (accessed s acc off).err = s.err := by rw [accessed_frame]
@[simp] theorem accessed_prf (s : State) (acc : RegAcc) (off : Nat) : (accessed s acc off).prf = s.prf := by rw [accessed_frame]
@[simp] theorem accessed_count (s : State) (acc : RegAcc) (off : Nat) : (accessed s acc off).count = s.count := by rw [accessed_frame]

theorem running_accessed {s : State} (h : running s = true) (acc : RegAcc) (off : Nat) : running (accessed s acc off) = true := by
  unfold accessed
  split
  · rw [portTaken_frame]
    exact h
  · split <;> exact h

/-- A register read sees neither the port nor the mark of activity. -/
theorem regRead_accessed (s : State) (acc : RegAcc) (hp : acc.src = .port) (off j : Nat) (priv sec : Bool) :
    regRead (accessed s acc off) j priv sec = regRead s j priv sec := by
  unfold accessed
  rw [if_pos hp, portTaken_frame]
  rfl

/-- An answer changes the port alone. -/
theorem replied_frame (s : State) (acc : RegAcc) (t : State) (err : Bool) (data : W64) :
    replied s acc t err data = { t with port := (replied s acc t err data).port } := by
  unfold replied
  split
  · exact portShow_frame _
  · rfl

theorem replied_accessed (s : State) (acc : RegAcc) (off : Nat) (err : Bool) (data : W64) :
    replied s acc (accessed s acc off) err data = served s acc off err data := by
  unfold replied served accessed
  split
  · dsimp only [portAnswer, portShow]
    rw [portTaken_frame]
    dsimp only [portAccept]
    split <;> rfl
  · rfl

/-- An access whose effect is on registers, proof and error queue, as the answer leaves it. -/
theorem replied_eq {s t : State} {acc : RegAcc} {off : Nat} (err : Bool) (data : W64)
    (ht : t = { accessed s acc off with regs := t.regs, prf := t.prf, err := t.err }) :
    replied s acc t err data = { served s acc off err data with regs := t.regs, prf := t.prf, err := t.err } := by
  rw [← replied_accessed]
  generalize t.regs = regs, t.prf = prf, t.err = e at ht ⊢
  subst ht
  unfold replied
  split
  · dsimp only [portAnswer, portShow]
    split <;> rfl
  · rfl

theorem portSeen_running {s : State} (h : running s = true) (off : Nat) :
    portSeen s off = { s with pwr := { s.pwr with act := s.pwr.act || !isPwrOff off } } := by
  unfold portSeen
  cases hp : isPwrOff off
  · rw [activity_running h, if_neg (by decide), wake_running (by exact h)]
    simp [begun]
  · simp

theorem portHeld_portTaken (s : State) (n : Nat) (a : BusAcc) : portHeld (portTaken s n) a = portHeld s a := by
  rw [portTaken_frame]
  rfl

theorem accessed_port {s : State} (h : running s = true) {acc : RegAcc} (hp : acc.src = .port) (off : Nat) :
    accessed s acc off = portAccept (portSeen (portTaken s acc.taken) off) := by
  have hk : running (portTaken s acc.taken) = true := by rw [portTaken_frame]; exact h
  rw [accessed, if_pos hp, portSeen_running hk]
  rfl

/-- An access of the register port that has room and is not held back is served. -/
theorem srcWrite_port {s : State} {a : BusAcc} (h : running s = true) (hp : a.src = .port) (ha : Admits s (attrsOf a))
    (hh : portHeld s a = false) :
    srcWrite s a = portServe (accessed s (attrsOf a) a.off.toNat) (portTaken s a.taken).port.next a := by
  have hk : running (portTaken s a.taken) = true := by rw [portTaken_frame]; exact h
  have hroom : portRoom (portTaken s a.taken) = true := ha hp
  have hport : (portSeen (portTaken s a.taken) a.off.toNat).port = (portTaken s a.taken).port := by rw [portSeen_running hk]
  rw [srcWrite_running h, accessed_port h (acc := attrsOf a) hp]
  simp only [hp, if_true, hroom, portHeld_portTaken, hh, Bool.not_false, Bool.and_self, portAccept, hport, attrsOf]

/-- A write that the register port admits, or that comes from elsewhere: its effect, and then its answer. -/
theorem srcWrite_admitted {s t : State} {a : BusAcc} {err : Bool} (h : running s = true) (ha : Admits s (attrsOf a))
    (hh : a.src = .port → portHeld s a = false) (hr : a.read = false)
    (hw : busWrite (accessed s (attrsOf a) a.off.toNat) a.off.toNat a.size.toNat a.data a.priv a.sec a.src = (t, err)) :
    srcWrite s a = replied s (attrsOf a) t err 0 := by
  have hsrc : (attrsOf a).src = a.src := rfl
  by_cases hp : a.src = .port
  · rw [hp] at hw
    rw [srcWrite_port h hp ha (hh hp), replied, hsrc, if_pos hp, portServe, if_neg (by simp [hr]), hw]
    rfl
  · rw [srcWrite_running h, if_neg hp, replied, hsrc, if_neg hp]
    simp only [hr, Bool.false_eq_true, if_false]
    rw [accessed, hsrc, if_neg hp] at hw
    exact congrArg Prod.fst hw

/-! #### One word of 32 bits -/

/-- The plan of a 32-bit write of a word. -/
def wordPlan (s : State) (off : Nat) (row : RegRow) (d : W32) (priv sec : Bool) : WPlan :=
  planWord s off row d 0xFFFFFFFF priv sec

theorem busWrite_word {s : State} {off : Nat} {row : RegRow} (ha : off % 4 = 0) (hr : regRow s.par off = some row)
    (hb : off < 0x38100 ∨ 0x38200 ≤ off) (data : W64) (priv sec : Bool) (src : Src) :
    busWrite s off 2 data priv sec src =
      (let p := wordPlan s off row (laneOf data off) priv sec
       applyWord (flagPlans src s [p]) p (laneOf data off) sec src, false) := by
  have hw : busWords s off 2 src = [(off, 0xFFFFFFFF)] := by
    rcases hb with hb | hb <;> simp [busWords, builtFor, ha, hr, hb]
  simp only [busWrite, hw, writeWords, List.filterMap_cons, List.filterMap_nil, hr, Option.map_some, List.reverse_singleton, ite_self,
    List.foldl_cons, List.foldl_nil]
  rfl

/-- The word that the rows naming one register write is on its lane of the bus. -/
theorem laneOf_regWrite (d : W32) (off : Nat) :
    laneOf (if off % 8 = 4 then d.zeroExtend 64 <<< 32 else d.zeroExtend 64) off = d := by
  unfold laneOf
  split
  · ext i hi
    simp [hi, show 32 + i < 64 by omega]
  · ext i hi
    simp

/-- A 32-bit write of a word outside the frames of the targets. -/
theorem srcWrite_word {s : State} {a : BusAcc} {off : Nat} {row : RegRow} (h : running s = true) (ha : Admits s (attrsOf a))
    (hs : a.size = 2) (hr : a.read = false) (hn : a.off.toNat = off) (ho : off < 0x38100 ∨ 0x38200 ≤ off)
    (hl : off < 0x100000) (h4 : off % 4 = 0) (hw : regRow s.par off = some row) :
    srcWrite s a = replied s (attrsOf a)
      (let p := wordPlan (accessed s (attrsOf a) off) off row (laneOf a.data off) a.priv a.sec
       applyWord (flagPlans a.src (accessed s (attrsOf a) off) [p]) p (laneOf a.data off) a.sec a.src) false 0 := by
  subst hn
  have ht : isTgtOff a.off.toNat = false := by
    simp only [isTgtOff, Bool.and_eq_false_iff, decide_eq_false_iff_not]
    omega
  refine srcWrite_admitted h ha (fun _ => by simp [portHeld, vpeWaits, hr, ht]) hr ?_
  rw [hs]
  exact busWrite_word h4 ((congrArg (regRow · _) (accessed_par ..)).trans hw) ho ..

/-- The access that a row naming one register makes. -/
def wordAccess (off : Nat) (acc : RegAcc) : BusAcc where
  off := BitVec.ofNat 24 off
  size := 2
  data := if off % 8 = 4 then acc.data.zeroExtend 64 <<< 32 else acc.data.zeroExtend 64
  priv := acc.priv
  sec := acc.sec
  src := acc.src
  taken := acc.taken
  same := acc.same

theorem regWrite_eq (s : State) (off : Nat) (acc : RegAcc) : regWrite s off acc = srcWrite s (wordAccess off acc) := rfl

theorem regWrite_admitted {s : State} {acc : RegAcc} {off : Nat} {row : RegRow} (h : running s = true) (ha : Admits s acc)
    (ho : off < 0x38100 ∨ 0x38200 ≤ off) (hl : off < 0x100000) (h4 : off % 4 = 0) (hw : regRow s.par off = some row) :
    regWrite s off acc = replied s acc
      (let p := wordPlan (accessed s acc off) off row acc.data acc.priv acc.sec
       applyWord (flagPlans acc.src (accessed s acc off) [p]) p acc.data acc.sec acc.src) false 0 := by
  have hn : (wordAccess off acc).off.toNat = off := by
    rw [wordAccess, BitVec.toNat_ofNat]
    omega
  have hd : laneOf (wordAccess off acc).data off = acc.data := laneOf_regWrite acc.data off
  have e := srcWrite_word (a := wordAccess off acc) h ha rfl rfl hn ho hl h4 hw
  rw [hd] at e
  exact e

/-- A plan without a guarded field raises no flag. -/
theorem flagPlans_none (src : Src) (s : State) {p : WPlan} (h : p.kinds = []) : flagPlans src s [p] = s := by
  simp [flagPlans, h]

/-! #### Words of the regions that are not replicated -/

/-- `off` lies in no replicated region, nor among the mailbox words that ring 1 may hold. -/
def plainOff (off : Nat) : Bool :=
  !isWinOff off && !isTgtOff off && !isRingOff off && !isShareOff off && !(decide (0x21000 ≤ off) && decide (off < 0x21030))

theorem plainOff_iff {off : Nat} : plainOff off = true ↔ isWinOff off = false ∧ isTgtOff off = false ∧ isRingOff off = false ∧
    isShareOff off = false ∧ (off < 0x21000 ∨ 0x21030 ≤ off) := by
  simp [plainOff, and_assoc]

/-- The bits of a row that a write with these attributes reaches (16 R382). -/
def reachable (row : RegRow) (priv sec : Bool) : W32 :=
  (row.rw ||| row.w1c ||| row.w1s ||| row.wo) &&& ((if priv then 0xFFFFFFFF else ~~~row.priv) &&& (if sec then 0xFFFFFFFF else ~~~row.sec))

theorem and_ones (d : W32) : d &&& 0xFFFFFFFF = d := BitVec.and_allOnes

theorem wordPlan_plain {off : Nat} (ho : plainOff off = true) (s : State) (row : RegRow) (d : W32) (priv sec : Bool) :
    wordPlan s off row d priv sec =
      { off := off, row := row, v := d, m := (runChecks (reachable row priv sec) (flatChecks s off d)).1,
        kinds := (runChecks (reachable row priv sec) (flatChecks s off d)).2 } := by
  obtain ⟨hw, ht, hr, hs, hm⟩ := plainOff_iff.1 ho
  have hi : isIcfgOff off = false := by simp [isIcfgOff, ht]
  have h1 : isRing1 off = false := by
    simp only [isRing1, isRingOff, Bool.and_eq_false_iff, decide_eq_false_iff_not] at hr ⊢
    omega
  have hx : isMbxSec s off = false := by
    simp only [isMbxSec, Bool.and_eq_false_iff, decide_eq_false_iff_not]
    omega
  have hv : (s.rd off &&& ~~~0xFFFFFFFF) ||| (d &&& 0xFFFFFFFF) = d := by
    rw [and_ones]
    simp
  have hmask : (row.rw ||| row.w1c ||| row.w1s ||| row.wo) &&& accMask s off row priv sec &&& 0xFFFFFFFF &&& ~~~fixedBits off
      = reachable row priv sec := by
    simp only [and_ones, accMask, privMask, secMask, fixedBits, hw, hi, h1, hx, Bool.or_self, Bool.false_and, Bool.false_eq_true,
      if_false, reachable]
    exact and_ones _
  simp only [wordPlan, planWord, hv, hmask, fieldChecks, hw, ht, hr, hs, Bool.false_eq_true, if_false]

/-- The effect of a planned write of such a word. -/
theorem applyWord_plain {s : State} {p : WPlan} (ho : plainOff p.off = true) (d : W32) (sec : Bool) (src : Src) :
    applyWord s p d sec src = if p.m = 0 then s else applyFlat s p src := by
  obtain ⟨hw, ht, hr, hs, -⟩ := plainOff_iff.1 ho
  simp only [applyWord, hw, ht, hr, hs, Bool.false_eq_true, if_false]

/-! ### The guarded fields of a write (16 R386, R387) -/

theorem runChecks_cons (m : W32) (c : FChk) (l : List FChk) : runChecks m (c :: l) =
    if m &&& c.mask = 0 then runChecks m l
    else if c.lk then ((runChecks m l).1 &&& ~~~c.mask, 0 :: (runChecks m l).2)
    else if c.rsv then ((runChecks m l).1 &&& ~~~c.mask, 1 :: (runChecks m l).2)
    else runChecks m l := rfl

/-- A bit that no check takes out stays in the mask. -/
theorem runChecks_keeps {m : W32} {j : Nat} {l : List FChk}
    (h : ∀ c ∈ l, c.lk = true ∨ c.rsv = true → c.mask.getLsbD j = false) : (runChecks m l).1.getLsbD j = m.getLsbD j := by
  induction l with
  | nil => rfl
  | cons c l ih =>
    have rest := ih fun c hc => h c (List.mem_cons_of_mem _ hc)
    have guarded := h c List.mem_cons_self
    have cleared : c.mask.getLsbD j = false → ((runChecks m l).1 &&& ~~~c.mask).getLsbD j = m.getLsbD j := fun hm => by
      by_cases hj : j < 32
      · rw [BitVec.getLsbD_and, BitVec.getLsbD_not, hm, rest]
        simp [hj]
      · rw [BitVec.getLsbD_of_ge _ _ (by omega), BitVec.getLsbD_of_ge _ _ (by omega)]
    rw [runChecks_cons]
    split
    · exact rest
    · split
      · exact cleared (guarded (.inl ‹_›))
      · split
        · exact cleared (guarded (.inr ‹_›))
        · exact rest

/-- A write flags something exactly where it reaches a field that a lock or a reserved value guards. -/
theorem runChecks_quiet_iff {m : W32} {l : List FChk} :
    (runChecks m l).2 = [] ↔ ∀ c ∈ l, m &&& c.mask = 0 ∨ c.lk = false ∧ c.rsv = false := by
  induction l with
  | nil => simp [runChecks]
  | cons c l ih =>
    rw [List.forall_mem_cons, ← ih, runChecks_cons]
    by_cases hm : m &&& c.mask = 0
    · simp only [hm, if_true, true_or, true_and]
    · rw [if_neg hm]
      simp only [hm, false_or]
      cases c.lk <;> cases c.rsv <;> simp

/-- Locks alone raise LOCK_WRITE alone. -/
theorem runChecks_locks {m : W32} {l : List FChk} (h : ∀ c ∈ l, c.rsv = false) : ∀ k ∈ (runChecks m l).2, k = 0 := by
  induction l with
  | nil => simp [runChecks]
  | cons c l ih =>
    obtain ⟨hc, hl⟩ := List.forall_mem_cons.1 h
    rw [runChecks_cons]
    split
    · exact ih hl
    · split
      · simpa using ih hl
      · rw [if_neg (by simp [hc])]
        exact ih hl

/-! ### The flags of a write (16 R386, 18 R427) -/

/-- From s to t GLB_ERR_ADDR has captured the access of `off`. -/
def Captured (s t : State) (off kind : Nat) : Prop :=
  t = { s with regs := t.regs } ∧ t.fld Reg.GLB_ERR_ADDR 23 0 = off ∧ t.bit Reg.GLB_ERR_ADDR 26 = decide (kind = 1) ∧
  RegsApart s t [Reg.GLB_ERR_ADDR, Reg.GLB_ERR_ADDR + 4]

/-- From s to t a write of `off` has raised one flag of GLB_ERR. -/
def WriteFlagged (s t : State) (off kind : Nat) : Prop :=
  t = { s with regs := t.regs, err := t.err } ∧ Flagged s t 0 Reg.GLB_ERR kind 0 true ∧
  t.fld Reg.GLB_ERR_ADDR 23 0 = off ∧ t.bit Reg.GLB_ERR_ADDR 26 = decide (kind = 1) ∧
  RegsApart s t [Reg.GLB_ERR, Reg.GLB_ERR_ADDR, Reg.GLB_ERR_ADDR + 4]

theorem captured_glbCapture (s : State) {off kind : Nat} (ho : off < 2 ^ 24) (hk : kind < 2) (src : Src) :
    Captured s (glbCapture s off src kind) off kind := by
  have rd : ∀ j, (glbCapture s off src kind).rd j = if j = Reg.GLB_ERR_ADDR + 4 then s.count.truncate 32
      else if j = Reg.GLB_ERR_ADDR then BitVec.ofNat 32 (off + srcCode src * 2 ^ 24 + kind * 2 ^ 26) else s.rd j := fun j => by
    unfold glbCapture
    rw [rd_wr, rd_wr]
  have hs : srcCode src < 4 := by cases src <;> decide
  have low := rd Reg.GLB_ERR_ADDR
  rw [if_neg (by decide), if_pos rfl] at low
  have size : off + srcCode src * 2 ^ 24 + kind * 2 ^ 26 < 2 ^ 32 := by omega
  refine ⟨?_, ?_, ?_, fun j hj => ?_⟩
  · unfold glbCapture
    apply State.ext <;> simp
    exact (wr_prf_unproofed _ _ (by decide)).trans (wr_prf_unproofed _ _ (by decide))
  · rw [State.fld, low, field, BitVec.toNat_ofNat, Nat.mod_eq_of_lt size, Nat.shiftRight_zero]
    omega
  · rw [State.bit, low, bitAt, ← BitVec.testBit_toNat, BitVec.toNat_ofNat, Nat.mod_eq_of_lt size, Nat.testBit_eq_decide_div_mod_eq]
    congr 1
    apply propext
    omega
  · simp only [List.mem_cons, List.not_mem_nil, or_false, not_or] at hj
    rw [rd, if_neg hj.2, if_neg hj.1]

theorem Captured.trans {s t u : State} {off kind : Nat} (h : Captured s t off kind) (h' : Captured t u off kind) :
    Captured s u off kind := by
  obtain ⟨ht, -, -, ha⟩ := h
  obtain ⟨hu, hf, hb, ha'⟩ := h'
  refine ⟨?_, hf, hb, fun j hj => (ha' j hj).trans (ha j hj)⟩
  rw [hu, ht]

/-- Each guarded field is captured anew, the last like the first. -/
theorem captured_foldl {kinds : List Nat} {off kind : Nat} (hn : kinds ≠ []) (hk : ∀ k ∈ kinds, k = kind) (ho : off < 2 ^ 24)
    (h2 : kind < 2) (src : Src) (s : State) : Captured s (kinds.foldl (fun s k => glbCapture s off src k) s) off kind := by
  induction kinds generalizing s with
  | nil => exact absurd rfl hn
  | cons k l ih =>
    obtain ⟨rfl, hl⟩ := List.forall_mem_cons.1 hk
    have first := captured_glbCapture s ho h2 src
    cases l with
    | nil => exact first
    | cons k' l => exact first.trans (ih (by simp) hl _)

theorem flagPlans_one {p : WPlan} {kind : Nat} (hn : p.kinds ≠ []) (hk : ∀ k ∈ p.kinds, k = kind) (h2 : kind < 2) (src : Src)
    (s : State) : flagPlans src s [p] =
      setFlag (p.kinds.foldl (fun s k => glbCapture s (flagOff p.off) src k) s) 0 Reg.GLB_ERR kind 0 true := by
  have has : ∀ k, p.kinds.contains k = decide (k = kind) := fun k => by
    obtain ⟨j, hj⟩ := List.exists_mem_of_ne_nil _ hn
    have := hk j hj
    subst this
    by_cases e : k = j
    · subst e
      simpa using hj
    · simpa [e] using fun h => e (hk k h)
  unfold flagPlans
  simp only [List.foldl_cons, List.foldl_nil, List.any_cons, List.any_nil, Bool.or_false, has]
  rcases (by omega : kind = 0 ∨ kind = 1) with rfl | rfl <;> simp

/-- What a write with guarded fields of one kind flags. -/
theorem writeFlagged_flagPlans {s : State} {p : WPlan} {kind : Nat} (hq : s.err.queue.length < 16) (hn : p.kinds ≠ [])
    (hk : ∀ k ∈ p.kinds, k = kind) (h2 : kind < 2) (ho : p.off < 2 ^ 24) (hf : flagOff p.off = p.off) (src : Src) :
    WriteFlagged s (flagPlans src s [p]) p.off kind := by
  rw [flagPlans_one hn hk h2, hf]
  obtain ⟨hu, hoff, hbit, hapart⟩ := captured_foldl hn hk ho h2 src s
  generalize p.kinds.foldl (fun s k => glbCapture s p.off src k) s = u at hu hoff hbit hapart
  have herr : u.err = s.err := by rw [hu]
  have hcount : u.count = s.count := by rw [hu]
  obtain ⟨⟨hset, hqueue⟩, ht, hrest⟩ := setFlag_spec (s := u) (off := Reg.GLB_ERR) (i := kind) 0 0 true (by rw [herr]; exact hq)
    (by decide) (by omega)
  generalize setFlag u 0 Reg.GLB_ERR kind 0 true = t at hset hqueue ht hrest
  have haddr : t.rd Reg.GLB_ERR_ADDR = u.rd Reg.GLB_ERR_ADDR := hrest _ (by decide)
  have hold : u.bit Reg.GLB_ERR kind = s.bit Reg.GLB_ERR kind := congrArg (bitAt · kind) (hapart _ (by decide))
  refine ⟨?_, ⟨hset, ?_⟩, ?_, ?_, fun j hj => ?_⟩
  · rw [ht, hu]
  · rw [hqueue, herr, hcount, hold]
  · rw [State.fld, haddr]
    exact hoff
  · rw [State.bit, haddr]
    exact hbit
  · simp only [List.mem_cons, List.not_mem_nil, or_false, not_or] at hj
    obtain ⟨h1, h3, h4⟩ := hj
    rw [hrest j (by simpa using h1), hapart j (by simp [h3, h4])]

end Sys2Proof.Machine
end

section
namespace Sys2Proof.Machine

/-! ### What the start of a warm reset stirs (02 R43) -/

/-- The parts of the state that W1 fixes before the ports, the summaries and the switches are told. -/
def warmView (s : State) : Rst × Option Move × Tbl Ring × Option Byte := (s.rst, s.move, s.rings, s.sbd.token)

/-- From `s₀` to `s` those parts stand, and so does every register word below GLB_RST_CTRL. -/
def Steady (s₀ s : State) : Prop := warmView s = warmView s₀ ∧ ∀ j, j < Reg.GLB_RST_CTRL → s.rd j = s₀.rd j

namespace Steady

variable {s₀ s t : State}

theorem refl : Steady s₀ s₀ := ⟨rfl, fun _ _ => rfl⟩

theorem of_calm (h : Steady s₀ s) (c : Calm s t) (hm : t.move = s.move) (hr : t.rings = s.rings) : Steady s₀ t := by
  obtain ⟨hv, hl⟩ := h
  obtain ⟨rst, -, -, -, -, -, -, token⟩ := calm_view c
  refine ⟨?_, fun j hj => (c.2 j hj).trans (hl j hj)⟩
  rw [← hv, warmView, warmView, rst, hm, hr, token]

theorem ite {p : Prop} [Decidable p] (hs : Steady s₀ s) (ht : Steady s₀ t) : Steady s₀ (if p then s else t) := by
  split
  · exact hs
  · exact ht

theorem foldl {α : Type} {f : State → α → State} {l : List α} (hf : ∀ s a, Steady s₀ s → Steady s₀ (f s a)) (h : Steady s₀ s) :
    Steady s₀ (l.foldl f s) := by
  induction l generalizing s with
  | nil => exact h
  | cons a l ih => exact ih (hf s a h)

theorem wr {off : Nat} {v : W32} (ho : Reg.GLB_RST_CTRL ≤ off) (h : Steady s₀ s) : Steady s₀ (s.wr off v) :=
  h.of_calm (.wr ho .refl) (by simp) (by simp)

theorem wr64 {off : Nat} {v : W64} (ho : Reg.GLB_RST_CTRL ≤ off) (h : Steady s₀ s) : Steady s₀ (s.wr64 off v) :=
  h.of_calm (.wr64 ho .refl) (by simp) (by simp)

theorem setFld {off hi lo v : Nat} (ho : Reg.GLB_RST_CTRL ≤ off) (h : Steady s₀ s) : Steady s₀ (s.setFld off hi lo v) := h.wr ho

theorem setBitR {off i : Nat} {b : Bool} (ho : Reg.GLB_RST_CTRL ≤ off) (h : Steady s₀ s) : Steady s₀ (s.setBitR off i b) := h.wr ho

theorem cnt32 {off : Nat} (ho : Reg.GLB_RST_CTRL ≤ off) (h : Steady s₀ s) : Steady s₀ (s.cnt32 off) := h.wr ho

theorem cnt64 {off : Nat} {n : optParam Nat 1} (ho : Reg.GLB_RST_CTRL ≤ off) (h : Steady s₀ s) : Steady s₀ (s.cnt64 off n) :=
  h.wr64 ho

/-! #### The error path (18 R427) -/

theorem ipendBit {i : Nat} (h : Steady s₀ s) : Steady s₀ (ipendBit s i) :=
  of_calm (s := withIpend s i) h (Calm.ipendBit s i) (by simp [withIpend]) (by simp [withIpend])

theorem occQuiet {src flag unit : Nat} {fresh : Bool} (h : Steady s₀ s) : Steady s₀ (occQuiet s src flag unit fresh) :=
  .ite h (.ipendBit (.setFld (by decide) h))

theorem flagQuiet {src off i unit : Nat} {fresh : Bool} (ho : Reg.GLB_RST_CTRL ≤ off) (h : Steady s₀ s) :
    Steady s₀ (flagQuiet s src off i unit fresh) :=
  .ite h (.occQuiet (.setBitR ho h))

theorem errEvent {src : Nat} (h : Steady s₀ s) : Steady s₀ (errEvent s src) :=
  .ite (.ite (.flagQuiet (rstCtrl_le_tgtOff _ _) h)
    (h.of_calm (.treePut .refl) (treePut_move s _ _ rfl) (treePut_rings s _ _ rfl))) h

theorem occ {src flag unit : Nat} {fresh : Bool} (h : Steady s₀ s) : Steady s₀ (occ s src flag unit fresh) :=
  .ite (.occQuiet h) (.errEvent (.occQuiet h))

theorem setFlag {src off i unit : Nat} {fresh : Bool} (ho : Reg.GLB_RST_CTRL ≤ off) (h : Steady s₀ s) :
    Steady s₀ (setFlag s src off i unit fresh) :=
  .ite h (.occ (.setBitR ho h))

theorem logErr {src off i unit voff vbit : Nat} {put : State → State} (ho : Reg.GLB_RST_CTRL ≤ off)
    (hv : Reg.GLB_RST_CTRL ≤ voff) (hp : ∀ s, Steady s₀ s → Steady s₀ (put s)) (h : Steady s₀ s) :
    Steady s₀ (logErr s src off i unit voff vbit put) := by
  refine .setFlag ho ?_
  unfold Machine.capture
  split
  · exact h
  · exact .setBitR hv (hp s h)

/-! #### The ports (12 R285, R302) -/

theorem sendSeq {p : Nat} {f : OutFlit} (h : Steady s₀ s) : Steady s₀ (sendSeq s p f) :=
  .cnt64 (s := setWport s p _) (by decide) h

theorem resendPort {p n : Nat} (h : Steady s₀ s) : Steady s₀ (resendPort s p n) := by
  induction n generalizing s with
  | zero => exact h
  | succ n ih =>
    unfold Machine.resendPort
    split
    · exact h
    · exact .ite (ih (.sendSeq (s := modWport s p _) h)) h

theorem wftErr {i ty src dst port ev : Nat} (h : Steady s₀ s) : Steady s₀ (wftErr s i ty src dst port ev) :=
  .logErr (by decide) (by decide) (fun _ hs => .wr64 (by decide) hs) h

theorem sendOne {f : OutFlit} (h : Steady s₀ s) : Steady s₀ (sendOne s f) := by
  have keep : Steady s₀ (modWft s fun w => { w with outq := w.outq ++ [f] }) := h
  unfold Machine.sendOne
  refine .ite keep ?_
  split
  · exact .ite (.sendSeq h) keep
  · split
    · exact .ite (.sendSeq h) keep
    · exact .wftErr (.cnt32 (by decide) h)

theorem wftPump (h : Steady s₀ s) : Steady s₀ (wftPump s) := by
  have hq : Steady s₀ (if sendsAll s then (portList s).foldl (fun s p => Machine.resendPort s p 64) s else s) :=
    .ite (.foldl (fun _ _ h1 => .resendPort h1) h) h
  unfold Machine.wftPump
  exact .ite h (.foldl (s := modWft _ _) (fun _ _ h1 => .sendOne h1) hq)

/-! #### The sets that are lost, and the switches (07 R175, 09 R230) -/

theorem msgErr {w : MWrite} {i : Nat} (h : Steady s₀ s) : Steady s₀ (msgErr s w i) :=
  .logErr (by decide) (by decide) (fun _ hs => .wr (by decide) (.wr (by decide) (.wr (by decide) hs))) (.cnt32 (by decide) h)

theorem discardPhys (h : Steady s₀ s) : Steady s₀ (discardPhys s) := by
  unfold Machine.discardPhys
  exact .ite h (.foldl (fun _ _ h1 => .msgErr h1) h)

theorem startSwitch {t : Nat} {new : Option (BitVec 16)} (h : Steady s₀ s) : Steady s₀ (startSwitch s t new) := by
  have old : Steady s₀ (match (if (s.tgt t).vpeV then some (s.tgt t).vpe else none) with
      | some o => s.setVword o { s.vword o with switching := true, dbarm := true }
      | none => s) := by
    split
    · exact h
    · exact h
  unfold Machine.startSwitch
  dsimp only
  refine Steady.foldl (s := State.setTgt _ _ _) (fun _ _ h1 => h1) ?_
  split
  · exact old
  · exact old

theorem switchOut {which : State → Nat → Bool} (h : Steady s₀ s) : Steady s₀ (switchOut s which) :=
  .foldl (fun _ _ h1 => .startSwitch h1) h

end Steady

/-! ### The start of a warm reset -/

theorem Calm.pollRing {s₀ s : State} {r : Nat} (h : Calm s₀ s) : Calm s₀ (pollRing s r) := by
  unfold Machine.pollRing
  split
  · exact h
  · exact .ite (.complete h) (.ite h h)

theorem Calm.answerReq {s₀ s : State} {inst req status : Nat} {pend : Bool} (h : Calm s₀ s) :
    Calm s₀ (answerReq s inst req status pend) := h

theorem Calm.pollOwed {s₀ s : State} (h : Calm s₀ s) : Calm s₀ (pollOwed s) := by
  unfold Machine.pollOwed
  dsimp only
  exact .foldl (fun _ _ h1 => .answerReq h1) h

theorem Calm.pollAll {s₀ s : State} (h : Calm s₀ s) : Calm s₀ (pollAll s) :=
  .pollOwed (.foldl (fun _ _ h1 => .pollRing h1) h)

/-- The cause in its register, and the LINKDN flits of W1 ready to go. -/
def linksTold (s : State) (cause : Nat) : State :=
  let u := (pollAll (abandonPrep s)).setFld Reg.GLB_RST_CAUSE 3 0 cause
  { linksDown u with rst := { u.rst with phase := .w2 } }

/-- No command or move under way, the side-band session closed, and the step that the reset begins with. -/
def warmStopped (s : State) (cause : Nat) (pin : Bool) : State :=
  { s with
    rings := s.rings.map fun (e : Nat × Ring) => (e.1, { e.2 with run := none, fetched := [], bad := false })
    move := none
    sbd := { s.sbd with token := none, last := none, closing := false, mirror := none }
    rst := { s.rst with phase := if pin then .w3 else .w2, byPin := pin, earlyRise := false,
                        pendingTrig := none, trig := decide (cause = 3) } }

theorem warmStart_eq (s : State) (cause : Nat) (pin : Bool) :
    warmStart s cause pin =
      if pin then cohW3 (warmStopped (wftPump (linksTold s cause)) cause pin)
      else switchOut (discardPhys (warmStopped (wftPump (linksTold s cause)) cause pin)) fun _ _ => true := rfl

theorem rst_linksTold (s : State) (cause : Nat) : (linksTold s cause).rst = { s.rst with phase := .w2 } := by
  have rst : (pollAll (abandonPrep s)).rst = s.rst := (calm_view (.pollAll (.abandonPrep .refl))).1
  simp [linksTold, rst]

theorem cause_linksTold (s : State) {cause : Nat} (hc : cause < 16) : (linksTold s cause).fld Reg.GLB_RST_CAUSE 3 0 = cause := by
  have rd : (linksTold s cause).rd Reg.GLB_RST_CAUSE = setField ((pollAll (abandonPrep s)).rd Reg.GLB_RST_CAUSE) 3 0 cause :=
    (rd_setFld _ _ _ _ _ _).trans (if_pos rfl)
  rw [State.fld, rd, field_setField_same _ _ _ _ (by omega) (by omega)]
  omega

/-- No ring runs a command or holds one that it fetched. -/
def RingsIdle (s : State) : Prop := ∀ r, (s.ring r).run = none ∧ (s.ring r).fetched = []

theorem ringsIdle_warmStopped (s : State) (cause : Nat) (pin : Bool) : RingsIdle (warmStopped s cause pin) := by
  intro r
  refine Tbl.get_of_all (fun x : Ring => x.run = none ∧ x.fetched = []) _ _ r ⟨rfl, rfl⟩ fun e he => ?_
  obtain ⟨x, -, rfl⟩ := List.mem_map.1 he
  exact ⟨rfl, rfl⟩

/-- With no command in a ring, the lines that left the cache end none. -/
theorem steady_dropGone {s : State} (h : RingsIdle s) : Steady s (dropGone s) := by
  have e : dropGone s = modCoh s fun c => { c with drop := c.drop.filter fun d => (lineState s d.1).isSome || inEvb s d.1 } := by
    refine List.foldl_fixed' (fun r => ?_) _
    split
    next u hu => cases (h r).1.symm.trans hu
    next => rfl
  rw [e]
  exact .refl

theorem steady_cohW3 {s : State} (h : RingsIdle s) : Steady s (cohW3 s) := steady_dropGone (s := modCoh s _) h

/-- What stands once a warm reset has begun, whatever its cause (02 R42, R43, 10 R278). -/
theorem warmStart_spec {s t : State} {cause : Nat} (hc : cause < 16) {pin : Bool} (ht : t = warmStart s cause pin) :
    t.rst = { s.rst with phase := if pin then .w3 else .w2, byPin := pin, earlyRise := false, pendingTrig := none,
                         trig := decide (cause = 3) } ∧
    t.fld Reg.GLB_RST_CAUSE 3 0 = cause ∧ t.move = none ∧ t.sbd.token = none ∧ RingsIdle t := by
  let u := warmStopped (wftPump (linksTold s cause)) cause pin
  have idle : RingsIdle u := ringsIdle_warmStopped _ cause pin
  have pumped : Steady (linksTold s cause) (wftPump (linksTold s cause)) := .wftPump .refl
  have rst : (wftPump (linksTold s cause)).rst = { s.rst with phase := .w2 } :=
    (congrArg Prod.fst pumped.1).trans (rst_linksTold s cause)
  have stopped : Steady u t := by
    rw [ht, warmStart_eq]
    exact .ite (steady_cohW3 idle) (.switchOut (.discardPhys .refl))
  obtain ⟨view, low⟩ := stopped
  obtain ⟨hrst, hmove, hrings, htoken⟩ : _ ∧ _ ∧ _ ∧ _ := by simpa [warmView] using view
  refine ⟨?_, ?_, hmove, htoken, fun r => ?_⟩
  · rw [hrst]
    simp only [u, warmStopped, rst]
  · rw [State.fld, low _ (by decide)]
    exact (congrArg (field · 3 0) (pumped.2 _ (by decide))).trans (cause_linksTold s hc)
  · rw [State.ring, hrings]
    exact idle r

/-! ### Warm reset (O9) -/

theorem warmTrigger_running {s : State} (h : running s = true) (cause : Nat) : warmTrigger s cause = warmStart s cause false := by
  obtain ⟨hr, -, hp, -⟩ := (running_iff s).mp h
  simp [warmTrigger, hr, hp]

theorem warmFall_running {s : State} (h : running s = true) :
    warmFall s = warmStart { s with rst := { s.rst with warmLow := true } } 2 true := by
  obtain ⟨hr, -, hp, -⟩ := (running_iff s).mp h
  let u : State := { s with rst := { s.rst with warmLow := true } }
  have hu : pwrPhase u = 0 := hp
  have awake : ¬ sleeping u = true := by simp [sleeping, hu]
  have steps : dropRound u = u := if_neg (by simp [hu])
  have e : warmFall s = if sleeping u then wake { u with rst := { u.rst with pinAfterWake := true } } 7 0
      else warmStart (dropRound u) 2 true := by
    unfold warmFall
    dsimp only
    split
    next e => cases hr.symm.trans e
    next e => cases hr.symm.trans e
    next => rfl
    next hcold hinit hrun => exact absurd hr hrun
  rw [e, if_neg awake, steps]

theorem exec_rstWarmFall (s : State) : exec .rstWarmFall s = .next (warmFall s) := rfl

theorem gives_rstWarmFall (s : State) (h : running s = true) : Gives .rstWarmFall s fun t =>
    t.rst.phase = .w3 ∧ t.rst.byPin = true ∧ t.rst.warmLow = true ∧ t.fld Reg.GLB_RST_CAUSE 3 0 = 2 ∧
    t.move = none ∧ t.sbd.token = none ∧ (∀ r, (t.ring r).run = none ∧ (t.ring r).fetched = []) ∧ t.count = s.count := by
  have count : (warmFall s).count = s.count := (exec_kept .rstWarmFall s _ (exec_rstWarmFall s)).count_eq
  obtain ⟨rst, cause, move, token, idle⟩ := warmStart_spec (by decide) (warmFall_running h)
  exact gives_intro (exec_rstWarmFall s)
    ⟨congrArg Rst.phase rst, congrArg Rst.byPin rst, congrArg Rst.warmLow rst, cause, move, token, idle, count⟩

theorem applyFlat_rstCtrl (s : State) {p : WPlan} (ho : p.off = Reg.GLB_RST_CTRL) (src : Src) :
    applyFlat s p src = if bitAt p.cmd 0 then warmTrigger s (warmCause src) else s := if_pos ho

/-- A privileged 1 in WARM reaches the trigger (02 R42). -/
theorem applyWord_warm {s : State} (h : running s = true) {d : W32} (hd : d.getLsbD 0 = true) (sec : Bool) (src : Src) :
    let p := wordPlan s Reg.GLB_RST_CTRL { off := 0x28, rd := 0x1, w1s := 0x1, priv := 0x1 } d true sec
    applyWord (flagPlans src s [p]) p d sec src = warmStart s (warmCause src) false := by
  have mask : reachable { off := 0x28, rd := 0x1, w1s := 0x1, priv := 0x1 } true sec = 1 := by cases sec <;> decide
  have free : flatChecks s Reg.GLB_RST_CTRL d = [] := rfl
  rw [wordPlan_plain rfl, mask, free]
  dsimp only [runChecks]
  rw [flagPlans_none _ _ rfl, applyWord_plain rfl, if_neg (by show ¬ (1 : W32) = 0; decide), applyFlat_rstCtrl _ rfl, ← warmTrigger_running h]
  exact if_pos (by simp [WPlan.cmd, bitAt, hd])

theorem exec_glbRstCtrlWarm (s : State) (acc : RegAcc) :
    exec (.glbRstCtrlWarm acc) s = .next (regWrite s Reg.GLB_RST_CTRL acc) := rfl

theorem regWrite_warm {s : State} {acc : RegAcc} (h : running s = true) (ha : Admits s acc) (hp : acc.priv = true)
    (hd : acc.data.getLsbD 0 = true) : regWrite s Reg.GLB_RST_CTRL acc =
      replied s acc (warmStart (accessed s acc Reg.GLB_RST_CTRL) (warmCause acc.src) false) false 0 := by
  have e := applyWord_warm (running_accessed h acc Reg.GLB_RST_CTRL) hd acc.sec acc.src
  rw [← hp] at e
  exact (regWrite_admitted h ha (.inl (by decide)) (by decide) (by decide) rfl).trans (congrArg (replied s acc · false 0) e)

theorem gives_glbRstCtrlWarm (s : State) (acc : RegAcc) (h : running s = true) (ha : Admits s acc) (hp : acc.priv = true)
    (hd : acc.data.getLsbD 0 = true) : Gives (.glbRstCtrlWarm acc) s fun t =>
      t.rst.phase = .w2 ∧ t.rst.byPin = false ∧ t.fld Reg.GLB_RST_CAUSE 3 0 = (if acc.src = .port then 3 else 4) ∧
      t.move = none ∧ t.sbd.token = none ∧ (∀ r, (t.ring r).run = none ∧ (t.ring r).fetched = []) ∧ t.count = s.count := by
  have code : warmCause acc.src = if acc.src = .port then 3 else 4 := by cases acc.src <;> rfl
  have small : warmCause acc.src < 16 := by rw [code]; split <;> decide
  have count : (regWrite s Reg.GLB_RST_CTRL acc).count = s.count :=
    (exec_kept (.glbRstCtrlWarm acc) s _ (exec_glbRstCtrlWarm s acc)).count_eq
  have spec := warmStart_spec (s := accessed s acc Reg.GLB_RST_CTRL) small (pin := false) rfl
  have written := (regWrite_warm h ha hp hd).trans (replied_frame _ _ _ _ _)
  generalize warmStart (accessed s acc Reg.GLB_RST_CTRL) (warmCause acc.src) false = u at spec written
  obtain ⟨rst, cause, move, token, idle⟩ := spec
  refine gives_intro (exec_glbRstCtrlWarm s acc) ?_
  rw [written] at count ⊢
  exact ⟨congrArg Rst.phase rst, congrArg Rst.byPin rst, cause.trans code, move, token, idle, count⟩

/-! #### The steps after W1 -/

theorem Calm.cohW3 {s₀ s : State} (h : Calm s₀ s) : Calm s₀ (cohW3 s) := by
  unfold Machine.cohW3 dropGone
  refine .foldl (s := modCoh (modCoh s _) _) (fun u r hu => ?_) h
  split
  · exact .ite (.complete hu) hu
  · exact hu

theorem rst_cohW3 (s : State) : (cohW3 s).rst = s.rst := (calm_view (.cohW3 .refl)).1

theorem phase_warmFlushDone {s : State} (hw : s.rst.phase = .w2) (hf : warmFlushed (discardPhys s) = true) (badP badV : List Nat) :
    (warmFlushDone s badP badV).rst.phase = .w3 := by
  unfold warmFlushDone
  rw [if_neg (by simpa using hw)]
  dsimp only
  rw [if_neg (by simp [hf]), rst_cohW3]

theorem gives_warmFlushDone (s : State) (hw : s.rst.phase = .w2) (hf : warmFlushed (discardPhys s) = true) (he : s.coh.evb = []) :
    Gives (.warmFlushDone [] []) s fun t => t.rst.phase = .w3 := by
  have run : s.servedRun (warmFlushDone s [] []) = s.ran (warmFlushDone s [] []) := by simp [State.servedRun, he]
  refine gives_intro (t := s.servedRun (warmFlushDone s [] [])) rfl ?_
  rw [run]
  exact phase_warmFlushDone hw hf [] []

theorem keepWarm_key (p : Par) (e : Nat × W32) : (keepWarm p e).1 = e.1 := by
  unfold keepWarm
  split <;> rfl

theorem find_keepWarm (p : Par) (regs : Tbl W32) {off : Nat} {row : RegRow} (hr : regRow p off = some row) :
    Tbl.find (regs.map (keepWarm p)) off = (Tbl.find regs off).map fun v => (row.rst &&& ~~~row.keep) ||| (v &&& row.keep) := by
  induction regs with
  | nil => rfl
  | cons e l ih =>
    by_cases hk : off = e.1
    · have he : keepWarm p e = (off, (row.rst &&& ~~~row.keep) ||| (e.2 &&& row.keep)) := by simp [keepWarm, ← hk, hr]
      rw [List.map_cons, he, Tbl.find_cons, Tbl.find_cons, if_pos rfl, if_pos hk]
      rfl
    · rw [List.map_cons, Tbl.find_cons, Tbl.find_cons, keepWarm_key, if_neg hk, if_neg hk]
      exact ih

/-- Of the registers a warm reset keeps the fields that the table marks (02 R44). -/
theorem rd_keepWarm (s : State) {off : Nat} {row : RegRow} (hr : regRow s.par off = some row) :
    ({ s with regs := s.regs.map (keepWarm s.par) } : State).rd off = (row.rst &&& ~~~row.keep) ||| (s.rd off &&& row.keep) := by
  unfold State.rd
  dsimp only
  rw [find_keepWarm s.par s.regs hr]
  cases Tbl.find s.regs off with
  | some v => rfl
  | none =>
    have all : ~~~row.keep ||| row.keep = 0xFFFFFFFF := by simp
    have reset : regReset s.par off = row.rst := by rw [regReset, hr]; rfl
    rw [Option.map_none, Option.getD_none, reset, ← BitVec.and_or_distrib_left, all, and_ones]

/-- A line keeps its holder across the domain reset. -/
theorem holder_linesKept (s : State) (n : Nat) : (Tbl.get Line.empty (linesKept s) n).holder = (s.line n).holder := by
  unfold linesKept State.line
  induction s.win with
  | nil => rfl
  | cons e l ih =>
    rw [List.map_cons]
    simp only [Tbl.get]
    split
    · rfl
    · exact ih

/-- With nothing queued the log takes nothing more. -/
theorem logAll_empty {s : State} (h : s.err.queue = []) : logAll s = s := by
  refine List.foldl_fixed' (fun _ => ?_) _
  unfold logWrite
  split
  next => rfl
  next o rest e => cases h.symm.trans e

theorem gives_warmQuiet (s : State) (hp : s.rst.phase = .w3) (hc : cohClean s = true) (hr : recsOut s = true) (hq : s.err.queue = []) :
    Gives .warmQuiet s fun t =>
      t.rst.phase = .w5 ∧ t.rst.quiet = true ∧ t.count = 0 ∧ t.tg = [] ∧ t.lanes = [] ∧ t.rings = [] ∧ t.mem = s.mem ∧
      t.err = s.err ∧ (∀ n, (t.line n).holder = (s.line n).holder) ∧
      (∀ u, (t.core u).code = (s.core u).code) ∧
      ∀ off row, regRow s.par off = some row → t.rd off = (row.rst &&& ~~~row.keep) ||| (s.rd off &&& row.keep) := by
  have e : warmQuiet s = { domainReset s with rst := { (domainReset s).rst with phase := .w5, quiet := true } } := by
    unfold warmQuiet
    rw [if_pos ⟨hp, hc, hr⟩, logAll_empty hq]
  refine gives_intro (t := warmQuiet s) rfl ?_
  rw [e]
  refine ⟨rfl, rfl, rfl, rfl, rfl, rfl, rfl, rfl, holder_linesKept s, fun u => ?_, fun off row ho => rd_keepWarm s ho⟩
  cases u <;> rfl

theorem gives_warmDomainRelease (s : State) (hp : s.rst.phase = .w5)
    (hl : s.rst.byPin = false ∨ s.rst.earlyRise = true ∨ s.rst.warmLow = false) :
    Gives .warmDomainRelease s (· = { s with rst := { s.rst with phase := .init, warmInit := true, earlyRise := false } }) :=
  gives_intro rfl (if_pos ⟨hp, hl⟩)

theorem gives_rstWarmRise (s : State) : Gives .rstWarmRise s fun t =>
    t = { s with rst := t.rst } ∧ t.rst.warmLow = false ∧ t.rst.phase = s.rst.phase ∧
    t.rst.earlyRise = (s.rst.earlyRise || (s.rst.byPin && (decide (s.rst.phase = .w2) || decide (s.rst.phase = .w3)))) :=
  gives_intro rfl ⟨rfl, rfl, rfl, rfl⟩

/-- Settles O9: W1 from either trigger, and then step by step. -/
theorem warmReset : Obligations.WarmReset := by
  unfold Obligations.WarmReset
  exact ⟨⟨gives_rstWarmFall, gives_glbRstCtrlWarm⟩, gives_warmFlushDone, gives_warmQuiet, gives_warmDomainRelease, gives_rstWarmRise⟩

end Sys2Proof.Machine
end

section
namespace Sys2Proof.Machine

/-! ### What the answered access shows (16 R378) -/

section
variable {s t : State} {acc : RegAcc} {off : Nat} {err : Bool} {data : W64}

theorem rd_replied (j : Nat) : (replied s acc t err data).rd j = t.rd j := by
  rw [replied_frame]
  rfl
theorem bit_replied (j i : Nat) : (replied s acc t err data).bit j i = t.bit j i := congrArg (bitAt · i) (rd_replied j)
theorem fld_replied (j hi lo : Nat) : (replied s acc t err data).fld j hi lo = t.fld j hi lo := congrArg (field · hi lo) (rd_replied j)
theorem replied_regs : (replied s acc t err data).regs = t.regs := by rw [replied_frame]
theorem replied_err : (replied s acc t err data).err = t.err := by rw [replied_frame]
theorem replied_prf : (replied s acc t err data).prf = t.prf := by rw [replied_frame]

theorem served_prf : (served s acc off err data).prf = s.prf := by rw [← replied_accessed, replied_prf, accessed_prf]
theorem served_err : (served s acc off err data).err = s.err := by rw [← replied_accessed, replied_err, accessed_err]

theorem regsApart_replied {l : List Nat} (h : RegsApart (accessed s acc off) t l) : RegsApart s (replied s acc t err data) l :=
  fun j hj => (rd_replied j).trans ((h j hj).trans (rd_accessed s acc off j))

theorem flagged_replied {src o i unit : Nat} {fresh : Bool} (h : Flagged (accessed s acc off) t src o i unit fresh) :
    Flagged s (replied s acc t err data) src o i unit fresh := by
  obtain ⟨hb, he⟩ := h
  refine ⟨(bit_replied o i).trans hb, ?_⟩
  rw [replied_err, he, accessed_err, bit_accessed, accessed_count]

theorem served_port (hp : acc.src = .port) :
    served s acc off err data = portAnswer (accessed s acc off) (portTaken s acc.taken).port.next err data := by
  rw [← replied_accessed, replied, if_pos hp]

/-- A write that reached registers and proof alone. -/
theorem replied_written (ht : t = { accessed s acc off with regs := t.regs, prf := t.prf }) :
    replied s acc t false 0 = { seen s acc off with regs := t.regs, prf := t.prf } := by
  have err : t.err = (seen s acc off).err := by rw [ht, seen, served_err, accessed_err]
  rw [replied_eq (off := off) false 0 (by rw [ht]), err]
  rfl

/-- A write that was refused, as the state before it sees it. -/
theorem writeFlagged_replied {o kind : Nat} (h : WriteFlagged (accessed s acc off) t o kind) :
    let t := replied s acc t false 0
    t = { seen s acc off with regs := t.regs, err := t.err } ∧ Flagged s t 0 Reg.GLB_ERR kind 0 true ∧
    t.fld Reg.GLB_ERR_ADDR 23 0 = o ∧ t.bit Reg.GLB_ERR_ADDR 26 = decide (kind = 1) ∧
    RegsApart s t [Reg.GLB_ERR, Reg.GLB_ERR_ADDR, Reg.GLB_ERR_ADDR + 4] := by
  obtain ⟨ht, hf, ho, hb, ha⟩ := h
  have prf : t.prf = (seen s acc off).prf := by rw [ht, seen, served_prf, accessed_prf]
  refine ⟨?_, flagged_replied hf, (fld_replied ..).trans ho, (bit_replied ..).trans hb, regsApart_replied ha⟩
  rw [replied_regs, replied_err, replied_eq (off := off) false 0 (by rw [ht]), prf]
  rfl

end

/-! ### Planned writes of a plain word -/

section
variable {s : State} {off : Nat} {row : RegRow} {d : W32} {priv sec : Bool}

/-- The state that a 32-bit write of a word leaves. -/
def wordWritten (s : State) (off : Nat) (row : RegRow) (d : W32) (priv sec : Bool) (src : Src) : State :=
  let p := wordPlan s off row d priv sec
  applyWord (flagPlans src s [p]) p d sec src

theorem wordWritten_refused {kind : Nat} (ho : plainOff off = true)
    (hc : runChecks (reachable row priv sec) (flatChecks s off d) = (0, [kind])) (hq : s.err.queue.length < 16) (h2 : kind < 2)
    (hs : off < 2 ^ 24) (hf : flagOff off = off) (src : Src) : WriteFlagged s (wordWritten s off row d priv sec src) off kind := by
  rw [wordWritten, wordPlan_plain ho, hc]
  dsimp only
  rw [applyWord_plain (p := ⟨off, row, d, 0, [kind]⟩) ho, if_pos rfl]
  exact writeFlagged_flagPlans hq (by simp) (by simp) h2 hs hf src

theorem wordWritten_ignored (ho : plainOff off = true)
    (hc : runChecks (reachable row priv sec) (flatChecks s off d) = (0, [])) (src : Src) :
    wordWritten s off row d priv sec src = s := by
  rw [wordWritten, wordPlan_plain ho, hc]
  dsimp only
  rw [applyWord_plain (p := ⟨off, row, d, 0, []⟩) ho, if_pos rfl, flagPlans_none _ _ rfl]

theorem wordWritten_taken {m : W32} (ho : plainOff off = true)
    (hc : runChecks (reachable row priv sec) (flatChecks s off d) = (m, [])) (hm : m ≠ 0) (src : Src) :
    wordWritten s off row d priv sec src = applyFlat s { off := off, row := row, v := d, m := m, kinds := [] } src := by
  rw [wordWritten, wordPlan_plain ho, hc]
  dsimp only
  rw [applyWord_plain (p := ⟨off, row, d, m, []⟩) ho, if_neg hm, flagPlans_none _ _ rfl]

end

/-! A word with one check. -/

theorem runChecks_free (m : W32) (hi lo : Nat) : runChecks m [fchk hi lo false false] = (m, []) := by simp [runChecks, fchk]

theorem runChecks_locked {m : W32} {hi lo : Nat} (hm : m &&& w32 (maskOf hi lo) ≠ 0) (rsv : Bool) :
    runChecks m [fchk hi lo true rsv] = (m &&& ~~~w32 (maskOf hi lo), [0]) := if_neg hm

theorem runChecks_reserved {m : W32} {hi lo : Nat} (hm : m &&& w32 (maskOf hi lo) ≠ 0) :
    runChecks m [fchk hi lo false true] = (m &&& ~~~w32 (maskOf hi lo), [1]) := if_neg hm

/-! The word that a write of RW fields stores. -/

theorem value_rw {off : Nat} {row : RegRow} {d m n : W32} {kinds : List Nat} (hc : row.w1c = 0) (hm : row.rw &&& m = n) (cur : W32) :
    (⟨off, row, d, m, kinds⟩ : WPlan).value cur = (cur &&& ~~~n) ||| (d &&& n) := by
  rw [WPlan.value, hc, BitVec.and_assoc d, hm]
  simpa using and_ones _

theorem getLsbD_merge (cur d m : W32) (j : Nat) :
    ((cur &&& ~~~m) ||| (d &&& m)).getLsbD j = if m.getLsbD j then d.getLsbD j else cur.getLsbD j := by
  by_cases hj : j < 32
  · cases hm : m.getLsbD j <;> simp only [BitVec.getLsbD_or, BitVec.getLsbD_and, BitVec.getLsbD_not, hm, hj] <;> simp
  · have hj := Nat.le_of_not_lt hj
    simp [BitVec.getLsbD_of_ge _ _ hj]

theorem field_congr {w v : W32} {hi lo : Nat} (h : ∀ j, lo ≤ j → j ≤ hi → w.getLsbD j = v.getLsbD j) : field w hi lo = field v hi lo := by
  unfold field
  apply Nat.eq_of_testBit_eq
  intro k
  rw [Nat.testBit_mod_two_pow, Nat.testBit_mod_two_pow, Nat.testBit_shiftRight, Nat.testBit_shiftRight]
  by_cases hk : k < hi + 1 - lo
  · have := h (lo + k) (by omega) (by omega)
    rw [BitVec.testBit_toNat, BitVec.testBit_toNat, this]
  · simp [hk]

/-! ### STK_LEN (08 R179) -/

/-- The row of STK_LEN. -/
def stkLenRow : RegRow := { off := 0x32000, rst := 0x20, rd := 0x7F, rw := 0x7F, priv := 0x7F, keep := 0x7F }

theorem regRow_stkLen (p : Par) : regRow p Reg.STK_LEN = some stkLenRow := rfl

theorem checks_stkLen (s : State) (d : W32) :
    flatChecks s Reg.STK_LEN d = [fchk 6 0 false (outside 24 64 (field d 6 0))] := rfl

theorem mask_stkLen (sec : Bool) : reachable stkLenRow true sec = 0x7F := by cases sec <;> decide

theorem unprivileged_stkLen (sec : Bool) : reachable stkLenRow false sec = 0 := by cases sec <;> decide

theorem stkLen_refused {s : State} {d : W32} (hq : s.err.queue.length < 16) (hd : field d 6 0 < 24 ∨ 64 < field d 6 0)
    (sec : Bool) (src : Src) : WriteFlagged s (wordWritten s Reg.STK_LEN stkLenRow d true sec src) Reg.STK_LEN 1 := by
  refine wordWritten_refused rfl ?_ hq (by decide) (by decide) rfl src
  have bad : outside 24 64 (field d 6 0) = true := by simpa [outside] using hd
  rw [checks_stkLen, mask_stkLen, bad, runChecks_reserved (by decide)]
  decide

theorem stkLen_unprivileged (s : State) (d : W32) (sec : Bool) (src : Src) :
    wordWritten s Reg.STK_LEN stkLenRow d false sec src = s := by
  refine wordWritten_ignored rfl ?_ src
  rw [checks_stkLen, unprivileged_stkLen]
  simp [runChecks]

theorem stkLen_taken {s : State} {d : W32} (hl : 24 ≤ field d 6 0) (hh : field d 6 0 ≤ 64) (sec : Bool) (src : Src) :
    wordWritten s Reg.STK_LEN stkLenRow d true sec src =
      s.wr Reg.STK_LEN ((s.rd Reg.STK_LEN &&& ~~~0x7F) ||| (d &&& 0x7F)) := by
  have good : outside 24 64 (field d 6 0) = false := by
    simp [outside]
    omega
  have checks : runChecks (reachable stkLenRow true sec) (flatChecks s Reg.STK_LEN d) = (0x7F, []) := by
    rw [checks_stkLen, mask_stkLen, good, runChecks_free]
  rw [wordWritten_taken rfl checks (by decide)]
  exact congrArg (s.wr Reg.STK_LEN) (value_rw rfl (by decide) _)

/-! ### PRF_REF and PRF_CTRL (16 R398, R399) -/

/-- The row of PRF_REF. -/
def prfRefRow : RegRow :=
  { off := 0x3A008, rd := 0xFFFFFFFF, rw := 0xFFFFFFFF, priv := 0xFFFFFFFF, sec := 0xFFFFFFFF, keep := 0xFFFFFFFF }

/-- The row of PRF_CTRL. -/
def prfCtrlRow : RegRow := { off := 0x3A000, rst := 0x1, rd := 0x3, rw := 0x1, w1s := 0x2, priv := 0x3, sec := 0x3, keep := 0x1 }

theorem regRow_prfRef (p : Par) : regRow p Reg.PRF_REF = some prfRefRow := rfl
theorem regRow_prfCtrl (p : Par) : regRow p Reg.PRF_CTRL = some prfCtrlRow := rfl

theorem checks_prfRef (s : State) (d : W32) : flatChecks s Reg.PRF_REF d = [fchk 31 0 (s.bit Reg.GLB_LOCK 1) false] := rfl
theorem checks_prfCtrl (s : State) (d : W32) : flatChecks s Reg.PRF_CTRL d = [fchk 31 0 (s.bit Reg.GLB_LOCK 1) false] := rfl

theorem prfRef_taken {s : State} (hk : s.bit Reg.GLB_LOCK 1 = false) (d : W32) (src : Src) :
    wordWritten s Reg.PRF_REF prfRefRow d true true src = applyPrfRef s d := by
  have checks : runChecks (reachable prfRefRow true true) (flatChecks s Reg.PRF_REF d) = (0xFFFFFFFF, []) := by
    rw [checks_prfRef, hk, runChecks_free]
    decide
  have value : (⟨Reg.PRF_REF, prfRefRow, d, 0xFFFFFFFF, []⟩ : WPlan).value (s.rd Reg.PRF_REF) = d := by
    rw [value_rw (n := 0xFFFFFFFF) rfl (by decide), and_ones]
    simp
  rw [wordWritten_taken rfl checks (by decide)]
  exact congrArg (applyPrfRef s) value

/-- PRF_CTRL.EN takes bit 0, and ADOPT is bit 1. -/
theorem prfCtrl_taken {s : State} (hk : s.bit Reg.GLB_LOCK 1 = false) (d : W32) (src : Src) :
    wordWritten s Reg.PRF_CTRL prfCtrlRow d true true src =
      applyPrfCtrl s ((s.rd Reg.PRF_CTRL &&& ~~~1) ||| (d &&& 1)) (d &&& (2 ||| 0) &&& 3) := by
  have checks : runChecks (reachable prfCtrlRow true true) (flatChecks s Reg.PRF_CTRL d) = (3, []) := by
    rw [checks_prfCtrl, hk, runChecks_free]
    decide
  have value : (⟨Reg.PRF_CTRL, prfCtrlRow, d, 3, []⟩ : WPlan).value (s.rd Reg.PRF_CTRL) = (s.rd Reg.PRF_CTRL &&& ~~~1) ||| (d &&& 1) :=
    value_rw rfl (by decide) _
  rw [wordWritten_taken rfl checks (by decide), ← value]
  rfl

theorem prfRef_locked {s : State} (hk : s.bit Reg.GLB_LOCK 1 = true) (hq : s.err.queue.length < 16) (d : W32) (src : Src) :
    WriteFlagged s (wordWritten s Reg.PRF_REF prfRefRow d true true src) Reg.PRF_REF 0 := by
  refine wordWritten_refused rfl ?_ hq (by decide) (by decide) rfl src
  rw [checks_prfRef, hk, runChecks_locked (by decide)]
  decide

theorem prfCtrl_locked {s : State} (hk : s.bit Reg.GLB_LOCK 1 = true) (hq : s.err.queue.length < 16) {d : W32} (src : Src) :
    WriteFlagged s (wordWritten s Reg.PRF_CTRL prfCtrlRow d true true src) Reg.PRF_CTRL 0 := by
  refine wordWritten_refused rfl ?_ hq (by decide) (by decide) rfl src
  rw [checks_prfCtrl, hk, runChecks_locked (by decide)]
  decide

/-! ### GLB_LOCK (16 R387) -/

/-- The row of GLB_LOCK. -/
def lockRow : RegRow := { off := 0x38, rd := 0x1F, w1s := 0x1F, priv := 0x1F, sec := 0x1F, keep := 0x1F }

theorem regRow_lock (p : Par) : regRow p Reg.GLB_LOCK = some lockRow := rfl

theorem mask_lock : reachable lockRow true true = 0x1F := by decide

theorem checks_lock (s : State) (d : W32) :
    flatChecks s Reg.GLB_LOCK d = (List.range 5).map fun i => stickyOne s Reg.GLB_LOCK i d := rfl

/-- The locks that a write of d asks to clear. -/
def lostLocks (s : State) (d : W32) : W32 := s.rd Reg.GLB_LOCK &&& ~~~d &&& 0x1F

theorem lockBit_eq : ∀ i < 5, ∀ j < 32, (w32 (maskOf i i)).getLsbD j = decide (j = i) := by decide

theorem lockMask_ne : ∀ i < 5, (0x1F : W32) &&& w32 (maskOf i i) ≠ 0 := by decide

theorem lowFive_eq : ∀ j < 32, (0x1F : W32).getLsbD j = decide (j < 5) := by decide

theorem getLsbD_lostLocks (s : State) (d : W32) {j : Nat} (hj : j < 32) :
    (lostLocks s d).getLsbD j = (s.bit Reg.GLB_LOCK j && !bitAt d j && decide (j < 5)) := by
  rw [lostLocks, BitVec.getLsbD_and, BitVec.getLsbD_and, BitVec.getLsbD_not, lowFive_eq j hj, decide_eq_true hj]
  rfl

/-- A set lock that the write holds at 0 is lost, and only such. -/
theorem lostLocks_eq_zero_iff (s : State) (d : W32) :
    lostLocks s d = 0 ↔ ∀ i < 5, (s.bit Reg.GLB_LOCK i && !bitAt d i) = false := by
  constructor
  · intro h i hi
    have bit := getLsbD_lostLocks s d (show i < 32 by omega)
    rw [h] at bit
    simpa [hi] using bit.symm
  · intro h
    apply BitVec.eq_of_getLsbD_eq
    intro j hj
    rw [getLsbD_lostLocks s d hj]
    by_cases h5 : j < 5
    · rw [h j h5]
      simp
    · simp [h5]

theorem lock_quiet_iff (s : State) (d : W32) :
    (runChecks 0x1F (flatChecks s Reg.GLB_LOCK d)).2 = [] ↔ lostLocks s d = 0 := by
  rw [runChecks_quiet_iff, checks_lock, lostLocks_eq_zero_iff]
  constructor
  · intro h i hi
    rcases h _ (List.mem_map.2 ⟨i, List.mem_range.2 hi, rfl⟩) with hm | ⟨hl, -⟩
    · exact absurd hm (lockMask_ne i hi)
    · exact hl
  · intro h c hc
    obtain ⟨i, hi, rfl⟩ := List.mem_map.1 hc
    exact .inr ⟨h i (List.mem_range.1 hi), rfl⟩

/-- A lock written 1 is set, whatever the write asks of the others. -/
theorem lock_word (s : State) (d : W32) :
    s.rd Reg.GLB_LOCK ||| (d &&& (0x1F ||| 0) &&& (runChecks 0x1F (flatChecks s Reg.GLB_LOCK d)).1) =
      s.rd Reg.GLB_LOCK ||| (d &&& 0x1F) := by
  apply BitVec.eq_of_getLsbD_eq
  intro j hj
  cases hd : d.getLsbD j with
  | false => simp [hd]
  | true =>
    have kept : (runChecks 0x1F (flatChecks s Reg.GLB_LOCK d)).1.getLsbD j = (0x1F : W32).getLsbD j := by
      refine runChecks_keeps fun c hc hg => ?_
      rw [checks_lock] at hc
      obtain ⟨i, hi, rfl⟩ := List.mem_map.1 hc
      have locks : (s.bit Reg.GLB_LOCK i && !bitAt d i) = true := by simpa [stickyOne, fchk] using hg
      refine (lockBit_eq i (List.mem_range.1 hi) j hj).trans (decide_eq_false fun e => ?_)
      simp [bitAt, ← e, hd] at locks
    simp only [BitVec.getLsbD_or, BitVec.getLsbD_and, kept, hd]
    simp

theorem applyFlat_lock (s : State) {p : WPlan} (ho : p.off = Reg.GLB_LOCK) (src : Src) :
    applyFlat s p src = s.wr Reg.GLB_LOCK (s.rd Reg.GLB_LOCK ||| p.cmd) := by
  obtain ⟨off, row, v, m, kinds⟩ := p
  cases ho
  rfl

/-- The locks that a planned write sets, in the state that its flags leave. -/
theorem lock_applied (u : State) {p : WPlan} (ho : p.off = Reg.GLB_LOCK) (d : W32) (sec : Bool) (src : Src) :
    let t := applyWord u p d sec src
    t = { u with regs := t.regs, prf := t.prf } ∧ t.rd Reg.GLB_LOCK = u.rd Reg.GLB_LOCK ||| p.cmd ∧ RegsApart u t [Reg.GLB_LOCK] := by
  rw [applyWord_plain (by rw [ho]; rfl), applyFlat_lock u ho]
  by_cases hm : p.m = 0
  · rw [if_pos hm]
    exact ⟨rfl, by simp [WPlan.cmd, hm], fun _ _ => rfl⟩
  · rw [if_neg hm]
    refine ⟨?_, rd_wr_same .., fun j hj => rd_wr_other _ _ (by simpa using hj)⟩
    apply State.ext <;> simp

/-- What a privileged and secure write of GLB_LOCK does, and what it flags. -/
theorem lock_written {s : State} (hq : s.err.queue.length < 16) (d : W32) (src : Src) :
    let t := wordWritten s Reg.GLB_LOCK lockRow d true true src
    t = { s with regs := t.regs, prf := t.prf, err := t.err } ∧
    t.rd Reg.GLB_LOCK = s.rd Reg.GLB_LOCK ||| (d &&& 0x1F) ∧
    (lostLocks s d = 0 → t.err = s.err ∧ RegsApart s t [Reg.GLB_LOCK]) ∧
    (lostLocks s d ≠ 0 → Flagged s t 0 Reg.GLB_ERR 0 0 true ∧ t.fld Reg.GLB_ERR_ADDR 23 0 = Reg.GLB_LOCK ∧
      t.bit Reg.GLB_ERR_ADDR 26 = false ∧
      RegsApart s t [Reg.GLB_LOCK, Reg.GLB_ERR, Reg.GLB_ERR_ADDR, Reg.GLB_ERR_ADDR + 4]) := by
  have quiet := lock_quiet_iff s d
  have word := lock_word s d
  have kinds : ∀ k ∈ (runChecks 0x1F (flatChecks s Reg.GLB_LOCK d)).2, k = 0 := runChecks_locks fun c hc => by
    rw [checks_lock] at hc
    obtain ⟨i, -, rfl⟩ := List.mem_map.1 hc
    rfl
  rw [wordWritten, wordPlan_plain rfl, mask_lock]
  dsimp only
  generalize runChecks 0x1F (flatChecks s Reg.GLB_LOCK d) = c at quiet word kinds ⊢
  obtain ⟨ht, hlock, hapart⟩ := lock_applied (flagPlans src s [⟨Reg.GLB_LOCK, lockRow, d, c.1, c.2⟩])
    (p := ⟨Reg.GLB_LOCK, lockRow, d, c.1, c.2⟩) rfl d true src
  have cmd : (⟨Reg.GLB_LOCK, lockRow, d, c.1, c.2⟩ : WPlan).cmd = d &&& (0x1F ||| 0) &&& c.1 := rfl
  rw [cmd] at hlock
  generalize applyWord (flagPlans src s [⟨Reg.GLB_LOCK, lockRow, d, c.1, c.2⟩]) ⟨Reg.GLB_LOCK, lockRow, d, c.1, c.2⟩ d true src = t
    at ht hlock hapart ⊢
  by_cases hl : lostLocks s d = 0
  · rw [flagPlans_none _ _ (quiet.2 hl)] at ht hlock hapart
    refine ⟨by rw [ht], hlock.trans word, fun _ => ⟨by rw [ht], hapart⟩, fun h => absurd hl h⟩
  · have flagged : WriteFlagged s (flagPlans src s [⟨Reg.GLB_LOCK, lockRow, d, c.1, c.2⟩]) Reg.GLB_LOCK 0 :=
      writeFlagged_flagPlans hq (fun h => hl (quiet.1 h)) kinds (by decide) (show Reg.GLB_LOCK < 2 ^ 24 by decide) rfl src
    generalize flagPlans src s [⟨Reg.GLB_LOCK, lockRow, d, c.1, c.2⟩] = u at ht hlock hapart flagged
    obtain ⟨hu, ⟨hset, hqueue⟩, hoff, hkind, hrest⟩ := flagged
    have other : ∀ j, j ≠ Reg.GLB_LOCK → t.rd j = u.rd j := fun j hj => hapart j (by simpa using hj)
    have terr : t.err = u.err := by rw [ht]
    refine ⟨by rw [ht, hu], ?_, fun h => absurd h hl, fun _ => ⟨⟨?_, terr.trans hqueue⟩, ?_, ?_, fun j hj => ?_⟩⟩
    · rw [hlock, hrest _ (by decide)]
      exact word
    · exact (congrArg (bitAt · 0) (other _ (by decide))).trans hset
    · exact (congrArg (field · 23 0) (other _ (by decide))).trans hoff
    · exact (congrArg (bitAt · 26) (other _ (by decide))).trans hkind
    · simp only [List.mem_cons, not_or] at hj
      obtain ⟨h1, h2⟩ := hj
      rw [other j h1, hrest j (by simpa using h2)]

/-! ### Register writes (O46) -/

/-! #### Errors, reads and a full port (16 R377 to R379, 02 R32) -/

theorem exec_registerWrite (a : BusAcc) (s : State) : exec (.registerWrite a) s = .next (srcWrite s a) := rfl

theorem busWords_none {s : State} {off : Nat} (h : off % 4 ≠ 0 ∨ regRow s.par off = none) (src : Src) : busWords s off 2 src = [] := by
  rcases h with h | h <;> simp [busWords, builtFor, h]

theorem portServe_error {s : State} {n : Nat} {a : BusAcc} (hs : a.size = 2)
    (h : a.off.toNat % 4 ≠ 0 ∨ regRow s.par a.off.toNat = none) : portServe s n a = portAnswer s n true 0 := by
  have empty : busWords s a.off.toNat 2 .port = [] := busWords_none h .port
  have read : busRead s a.off.toNat 2 a.priv a.sec .port = none := by rw [busRead, empty]
  have write := busWrite_error s a.data a.priv a.sec .port h
  have size : a.size.toNat = 2 := by rw [hs]; rfl
  unfold portServe portRead
  dsimp only
  rw [size, empty, read, write]
  simp

theorem gives_busError {s : State} {a : BusAcc} (h : running s = true) (hp : a.src = .port) (ha : Admits s (attrsOf a))
    (hs : a.size = 2) (ho : a.off.toNat % 4 ≠ 0 ∨ regRow s.par a.off.toNat = none) (hh : portHeld s a = false) :
    Gives (.registerWrite a) s (· = served s (attrsOf a) a.off.toNat true 0) := by
  refine gives_intro (exec_registerWrite a s) ?_
  rw [srcWrite_port h hp ha hh, portServe_error hs (by rwa [accessed_par])]
  exact (served_port (acc := attrsOf a) hp).symm

theorem busRead_word {s : State} {off : Nat} (h4 : off % 4 = 0) (hr : (regRow s.par off).isSome = true)
    (hb : off < 0x38100 ∨ 0x38200 ≤ off) (ht : isTgtOff off = false) (priv sec : Bool) (src : Src) :
    busRead s off 2 priv sec src = some (s, (regRead s off priv sec).zeroExtend 64 <<< (if off % 8 = 4 then 32 else 0)) := by
  have hw : busWords s off 2 src = [(off, 0xFFFFFFFF)] := by
    rcases hb with hb | hb <;> simp [busWords, builtFor, h4, hr, hb]
  have word : readWord s off priv sec src = (s, regRead s off priv sec) := by simp [readWord, ht]
  rw [busRead, hw]
  dsimp only
  rw [word, and_ones]
  split <;> simp

theorem gives_registerRead {s : State} {a : BusAcc} (h : running s = true) (hp : a.src = .port) (ha : Admits s (attrsOf a))
    (hs : a.size = 2) (h4 : a.off.toNat % 4 = 0) (hr : (regRow s.par a.off.toNat).isSome = true)
    (hb : a.off.toNat < 0x38100 ∨ 0x38200 ≤ a.off.toNat) (ht : isTgtOff a.off.toNat = false) (hread : a.read = true) :
    Gives (.registerWrite a) s (· = served s (attrsOf a) a.off.toNat false
      ((regRead s a.off.toNat a.priv a.sec).zeroExtend 64 <<< (if a.off.toNat % 8 = 4 then 32 else 0))) := by
  have size : a.size.toNat = 2 := by rw [hs]; rfl
  have free : portHeld s a = false := by simp [portHeld, hread, frameWaits, ht]
  have read := busRead_word (s := accessed s (attrsOf a) a.off.toNat) h4 (by rwa [accessed_par]) hb ht a.priv a.sec .port
  rw [regRead_accessed _ _ hp] at read
  refine gives_intro (exec_registerWrite a s) ?_
  rw [srcWrite_port h hp ha free, portServe, if_pos hread, portRead]
  simp only [ht, Bool.false_and, Bool.false_eq_true, if_false, size, read]
  exact (served_port (acc := attrsOf a) hp).symm

theorem gives_portFull {s : State} {a : BusAcc} (h : running s = true) (hp : a.src = .port)
    (hr : portRoom (portTaken s a.taken) = false) : Gives (.registerWrite a) s (· = portTaken s a.taken) := by
  refine gives_intro (exec_registerWrite a s) ?_
  rw [srcWrite_running h, if_pos hp]
  simp [hr]

/-! #### STK_LEN -/

theorem srcWrite_stkLen {s : State} {a : BusAcc} (h : running s = true) (hs : a.size = 2) (ho : a.off.toNat = Reg.STK_LEN)
    (hr : a.read = false) (ha : Admits s (attrsOf a)) : srcWrite s a = replied s (attrsOf a)
      (wordWritten (accessed s (attrsOf a) Reg.STK_LEN) Reg.STK_LEN stkLenRow (a.data.truncate 32) a.priv a.sec a.src) false 0 :=
  srcWrite_word h ha hs hr ho (.inl (by decide)) (by decide) (by decide) rfl

theorem field_stkLen (d : W64) : field (d.truncate 32 : W32) 6 0 = d.toNat % 128 := by
  rw [field, BitVec.truncate_eq_setWidth, BitVec.toNat_setWidth, Nat.shiftRight_zero]
  omega

theorem gives_stkLen_refused {s : State} {a : BusAcc} (h : running s = true) (hs : a.size = 2) (ho : a.off.toNat = Reg.STK_LEN)
    (hr : a.read = false) (ha : Admits s (attrsOf a)) (hp : a.priv = true) (hl : a.data.toNat % 128 < 24 ∨ 64 < a.data.toNat % 128)
    (hq : s.err.queue.length < 16) : Gives (.registerWrite a) s fun t =>
      t = { seen s (attrsOf a) Reg.STK_LEN with regs := t.regs, err := t.err } ∧ Flagged s t 0 Reg.GLB_ERR 1 0 true ∧
      t.fld Reg.GLB_ERR_ADDR 23 0 = Reg.STK_LEN ∧ t.bit Reg.GLB_ERR_ADDR 26 = true ∧
      RegsApart s t [Reg.GLB_ERR, Reg.GLB_ERR_ADDR, Reg.GLB_ERR_ADDR + 4] := by
  refine gives_intro (exec_registerWrite a s) ?_
  rw [← field_stkLen] at hl
  rw [srcWrite_stkLen h hs ho hr ha, hp]
  exact writeFlagged_replied (stkLen_refused (by rwa [accessed_err]) hl a.sec a.src)

theorem gives_stkLen_taken {s : State} {a : BusAcc} (h : running s = true) (hs : a.size = 2) (ho : a.off.toNat = Reg.STK_LEN)
    (hr : a.read = false) (ha : Admits s (attrsOf a)) (hp : a.priv = true) (hl : 24 ≤ a.data.toNat % 128)
    (hh : a.data.toNat % 128 ≤ 64) : Gives (.registerWrite a) s fun t =>
      t = { seen s (attrsOf a) Reg.STK_LEN with regs := t.regs, prf := t.prf } ∧ t.fld Reg.STK_LEN 6 0 = a.data.toNat % 128 ∧
      t.fld Reg.STK_LEN 31 7 = s.fld Reg.STK_LEN 31 7 ∧ RegsApart s t [Reg.STK_LEN] := by
  refine gives_intro (exec_registerWrite a s) ?_
  rw [← field_stkLen] at hl hh
  rw [srcWrite_stkLen h hs ho hr ha, hp, stkLen_taken hl hh, rd_accessed, ← field_stkLen]
  generalize hd : (a.data.truncate 32 : W32) = d
  have low : ∀ j ≤ 6, (0x7F : W32).getLsbD j = true := by decide
  have high : ∀ j ≤ 31, 7 ≤ j → (0x7F : W32).getLsbD j = false := by decide
  refine ⟨?_, ?_, ?_, regsApart_replied fun j hj => rd_wr_other _ _ (by simpa using hj)⟩
  · rw [replied_regs, replied_prf]
    exact replied_written (by apply State.ext <;> simp)
  · rw [fld_replied, State.fld, rd_wr_same]
    exact field_congr fun j _ hj => by rw [getLsbD_merge, low j hj, if_pos rfl]
  · rw [fld_replied, State.fld, rd_wr_same]
    exact field_congr fun j hj hj' => by rw [getLsbD_merge, high j hj' hj, if_neg (by decide)]

theorem gives_stkLen_unprivileged {s : State} {a : BusAcc} (h : running s = true) (hs : a.size = 2)
    (ho : a.off.toNat = Reg.STK_LEN) (hr : a.read = false) (ha : Admits s (attrsOf a)) (hp : a.priv = false) :
    Gives (.registerWrite a) s (· = seen s (attrsOf a) Reg.STK_LEN) := by
  refine gives_intro (exec_registerWrite a s) ?_
  rw [srcWrite_stkLen h hs ho hr ha, hp, stkLen_unprivileged]
  exact replied_accessed ..

/-! #### GLB_LOCK, PRF_REF and ADOPT -/

theorem exec_glbLockWrite (acc : RegAcc) (s : State) : exec (.glbLockWrite acc) s = .next (regWrite s Reg.GLB_LOCK acc) := rfl
theorem exec_prfRefWrite (acc : RegAcc) (s : State) : exec (.prfRefWrite acc) s = .next (regWrite s Reg.PRF_REF acc) := rfl
theorem exec_prfAdopt (acc : RegAcc) (s : State) : exec (.prfAdopt acc) s = .next (regWrite s Reg.PRF_CTRL acc) := rfl

/-- A privileged and secure write that the block takes while it runs. -/
theorem regWrite_secure {s : State} {acc : RegAcc} {off : Nat} {row : RegRow} (h : running s = true) (ha : Admits s acc)
    (hp : acc.priv = true) (hs : acc.sec = true) (ho : off < 0x38100 ∨ 0x38200 ≤ off)
    (hl : off < 0x100000) (h4 : off % 4 = 0) (hw : regRow s.par off = some row) :
    regWrite s off acc = replied s acc (wordWritten (accessed s acc off) off row acc.data true true acc.src) false 0 := by
  have e := regWrite_admitted h ha ho hl h4 hw
  rw [hp, hs] at e
  exact e

theorem gives_glbLockWrite {s : State} {acc : RegAcc} (h : running s = true) (ha : Admits s acc) (hp : acc.priv = true)
    (hs : acc.sec = true) (hq : s.err.queue.length < 16) :
    let lost := s.rd Reg.GLB_LOCK &&& ~~~acc.data &&& 0x1F
    Gives (.glbLockWrite acc) s fun t =>
      t = { seen s acc Reg.GLB_LOCK with regs := t.regs, prf := t.prf, err := t.err } ∧
      t.rd Reg.GLB_LOCK = s.rd Reg.GLB_LOCK ||| (acc.data &&& 0x1F) ∧
      (lost = 0 → t.err = s.err ∧ RegsApart s t [Reg.GLB_LOCK]) ∧
      (lost ≠ 0 → Flagged s t 0 Reg.GLB_ERR 0 0 true ∧ t.fld Reg.GLB_ERR_ADDR 23 0 = Reg.GLB_LOCK ∧
        t.bit Reg.GLB_ERR_ADDR 26 = false ∧
        RegsApart s t [Reg.GLB_LOCK, Reg.GLB_ERR, Reg.GLB_ERR_ADDR, Reg.GLB_ERR_ADDR + 4]) := by
  obtain ⟨ht, hlock, hkept, hlost⟩ :=
    lock_written (s := accessed s acc Reg.GLB_LOCK) (by rwa [accessed_err]) acc.data acc.src
  have lost : lostLocks (accessed s acc Reg.GLB_LOCK) acc.data = s.rd Reg.GLB_LOCK &&& ~~~acc.data &&& 0x1F := by
    rw [lostLocks, rd_accessed]
  rw [lost] at hkept hlost
  refine gives_intro (exec_glbLockWrite acc s) ?_
  rw [regWrite_secure h ha hp hs (.inl (by decide)) (by decide) (by decide) (regRow_lock _)]
  generalize wordWritten (accessed s acc Reg.GLB_LOCK) Reg.GLB_LOCK lockRow acc.data true true acc.src = t at ht hlock hkept hlost ⊢
  refine ⟨?_, ?_, fun hl => ?_, fun hl => ?_⟩
  · rw [replied_regs, replied_prf, replied_err]
    exact replied_eq false 0 ht
  · rw [rd_replied, hlock, rd_accessed]
  · obtain ⟨he, hr⟩ := hkept hl
    exact ⟨replied_err.trans (he.trans (accessed_err ..)), regsApart_replied hr⟩
  · obtain ⟨hf, ho, hb, hr⟩ := hlost hl
    exact ⟨flagged_replied hf, (fld_replied ..).trans ho, (bit_replied ..).trans hb, regsApart_replied hr⟩

theorem gives_prfRefWrite {s : State} {acc : RegAcc} (h : running s = true) (ha : Admits s acc) (hp : acc.priv = true)
    (hs : acc.sec = true) (hk : s.bit Reg.GLB_LOCK 1 = false) : Gives (.prfRefWrite acc) s fun t =>
      t = { seen s acc Reg.PRF_REF with regs := t.regs, prf := { s.prf with hold := false, adopting := false } } ∧
      t.rd Reg.PRF_REF = acc.data ∧ RegsApart s t [Reg.PRF_REF] := by
  refine gives_intro (exec_prfRefWrite acc s) ?_
  rw [regWrite_secure h ha hp hs (.inr (by decide)) (by decide) (by decide) (regRow_prfRef _), prfRef_taken (by rwa [bit_accessed])]
  have prf : (applyPrfRef (accessed s acc Reg.PRF_REF) acc.data).prf = { s.prf with hold := false, adopting := false } := by
    simp only [applyPrfRef, wr_prf_unproofed _ _ (show proofMask Reg.PRF_REF = 0 by decide), accessed_prf]
  refine ⟨?_, ?_, regsApart_replied (off := Reg.PRF_REF) fun j hj => ?_⟩
  · rw [replied_regs, ← prf]
    exact replied_written (by apply State.ext <;> simp [applyPrfRef])
  · exact (rd_replied _).trans (rd_wr_same ..)
  · exact rd_wr_other _ _ (by simpa using hj)

/-- What ADOPT does to the proof, and EN 0 to the comparison (16 R398, R399). -/
theorem prf_applyPrfCtrl (s : State) (nv : W32) {cmd : W32} (hc : bitAt cmd 1 = true) : (applyPrfCtrl s nv cmd).prf =
    { s.prf with adopting := true, adoptOk := false, cmp := s.prf.cmp && bitAt nv 0 } := by
  have prf := wr_prf_unproofed s nv (show proofMask Reg.PRF_CTRL = 0 by decide)
  unfold applyPrfCtrl
  dsimp only
  rw [if_pos hc]
  cases hn : bitAt nv 0 <;> simp [prf]

theorem applyPrfCtrl_frame (s : State) (nv cmd : W32) :
    applyPrfCtrl s nv cmd = { s.wr Reg.PRF_CTRL nv with prf := (applyPrfCtrl s nv cmd).prf } := by
  unfold applyPrfCtrl
  dsimp only
  split <;> split <;> rfl

theorem rd_applyPrfCtrl (s : State) (nv cmd : W32) (j : Nat) :
    (applyPrfCtrl s nv cmd).rd j = if j = Reg.PRF_CTRL then nv else s.rd j := by
  rw [applyPrfCtrl_frame]
  exact rd_wr ..

theorem gives_prfAdopt {s : State} {acc : RegAcc} (h : running s = true) (ha : Admits s acc) (hp : acc.priv = true)
    (hs : acc.sec = true) (hk : s.bit Reg.GLB_LOCK 1 = false) (hd : acc.data.getLsbD 1 = true) : Gives (.prfAdopt acc) s fun t =>
      t = { seen s acc Reg.PRF_CTRL with
            regs := t.regs
            prf := { s.prf with adopting := true, adoptOk := false, cmp := s.prf.cmp && acc.data.getLsbD 0 } } ∧
      t.bit Reg.PRF_CTRL 0 = acc.data.getLsbD 0 ∧ RegsApart s t [Reg.PRF_CTRL] := by
  have adopt : bitAt (acc.data &&& (2 ||| 0) &&& 3) 1 = true := by simp [bitAt, hd]
  have enable : ∀ cur : W32, bitAt ((cur &&& ~~~1) ||| (acc.data &&& 1)) 0 = acc.data.getLsbD 0 := fun cur =>
    (getLsbD_merge cur acc.data 1 0).trans (if_pos (by decide))
  refine gives_intro (exec_prfAdopt acc s) ?_
  rw [regWrite_secure h ha hp hs (.inr (by decide)) (by decide) (by decide) (regRow_prfCtrl _), prfCtrl_taken (by rwa [bit_accessed])]
  generalize hv : ((accessed s acc Reg.PRF_CTRL).rd Reg.PRF_CTRL &&& ~~~1) ||| (acc.data &&& 1) = nv
  have en : bitAt nv 0 = acc.data.getLsbD 0 := by rw [← hv, enable]
  have prf := prf_applyPrfCtrl (accessed s acc Reg.PRF_CTRL) nv adopt
  rw [en, accessed_prf] at prf
  refine ⟨?_, ?_, regsApart_replied (off := Reg.PRF_CTRL) fun j hj => ?_⟩
  · rw [replied_regs, ← prf]
    refine replied_written ?_
    rw [applyPrfCtrl_frame]
    apply State.ext <;> simp
  · rw [bit_replied, State.bit, rd_applyPrfCtrl, if_pos rfl]
    exact en
  · rw [rd_applyPrfCtrl, if_neg (by simpa using hj)]

theorem gives_prfLocked {s : State} {acc : RegAcc} (h : running s = true) (ha : Admits s acc) (hp : acc.priv = true)
    (hs : acc.sec = true) (hk : s.bit Reg.GLB_LOCK 1 = true) (hq : s.err.queue.length < 16) {i : Instr} {off : Nat}
    (hi : i = .prfRefWrite acc ∧ off = Reg.PRF_REF ∨ i = .prfAdopt acc ∧ off = Reg.PRF_CTRL) : Gives i s fun t =>
      t = { seen s acc off with regs := t.regs, err := t.err } ∧ Flagged s t 0 Reg.GLB_ERR 0 0 true ∧
      t.fld Reg.GLB_ERR_ADDR 23 0 = off ∧ t.bit Reg.GLB_ERR_ADDR 26 = false ∧
      RegsApart s t [Reg.GLB_ERR, Reg.GLB_ERR_ADDR, Reg.GLB_ERR_ADDR + 4] := by
  rcases hi with ⟨rfl, rfl⟩ | ⟨rfl, rfl⟩
  · refine gives_intro (exec_prfRefWrite acc s) ?_
    rw [regWrite_secure h ha hp hs (.inr (by decide)) (by decide) (by decide) (regRow_prfRef _)]
    exact writeFlagged_replied (prfRef_locked (by rwa [bit_accessed]) (by rwa [accessed_err]) _ _)
  · refine gives_intro (exec_prfAdopt acc s) ?_
    rw [regWrite_secure h ha hp hs (.inr (by decide)) (by decide) (by decide) (regRow_prfCtrl _)]
    exact writeFlagged_replied (prfCtrl_locked (by rwa [bit_accessed]) (by rwa [accessed_err]) _)

/-! #### ERROR_LOG_WRITE (18 R427 to R430) -/

theorem mainRuns_running {s : State} (h : running s = true) : mainRuns s = true := by
  obtain ⟨hr, -, hp, -⟩ := (running_iff s).mp h
  simp [mainRuns, hr, hp]

theorem ipendBit_running {s : State} (h : running s = true) (i : Nat) : ipendBit s i = withIpend s i :=
  burWake_running (s := withIpend s i) h s

/-- The log once its next slot is written. -/
def logTaken (s : State) (o : Occ) (rest : List Occ) : State :=
  let next := s.fld Reg.GLB_ELOG_STAT 5 0
  { s with err := { s.err with queue := rest, seq := nextSeq s.err.seq,
                               slots := Tbl.put s.err.slots next (slotOf s o (nextSeq s.err.seq)) } }

/-- NEXT goes on, and WRAP is set with the last slot. -/
def logAdvance (s : State) (next : Nat) : State :=
  let s := s.setFld Reg.GLB_ELOG_STAT 5 0 ((next + 1) % 64)
  if next = 63 then s.setBitR Reg.GLB_ELOG_STAT 6 true else s

theorem logWrite_cons {s : State} {o : Occ} {rest : List Occ} (hq : s.err.queue = o :: rest) :
    logWrite s = errEvent (ipendBit (logAdvance (logTaken s o rest) (s.fld Reg.GLB_ELOG_STAT 5 0)) 5) o.src := by
  unfold logWrite
  rw [hq]
  rfl

theorem setFld_elogStat (s : State) (hi lo v : Nat) :
    s.setFld Reg.GLB_ELOG_STAT hi lo v = { s with regs := (s.setFld Reg.GLB_ELOG_STAT hi lo v).regs } := by
  apply State.ext <;> simp
  exact wr_prf_unproofed _ _ (by decide)

theorem setBitR_elogStat (s : State) (i : Nat) (b : Bool) :
    s.setBitR Reg.GLB_ELOG_STAT i b = { s with regs := (s.setBitR Reg.GLB_ELOG_STAT i b).regs } := by
  apply State.ext <;> simp
  exact wr_prf_unproofed _ _ (by decide)

theorem logAdvance_frame (s : State) (next : Nat) : logAdvance s next = { s with regs := (logAdvance s next).regs } := by
  unfold logAdvance
  dsimp only
  split
  · rw [setBitR_elogStat, setFld_elogStat]
  · exact setFld_elogStat ..

/-- GLB_ELOG_STAT after a slot is written. -/
def nextWord (w : W32) (next : Nat) : W32 :=
  if next = 63 then setBit (setField w 5 0 ((next + 1) % 64)) 6 true else setField w 5 0 ((next + 1) % 64)

theorem rd_logAdvance (s : State) (next j : Nat) :
    (logAdvance s next).rd j = if j = Reg.GLB_ELOG_STAT then nextWord (s.rd Reg.GLB_ELOG_STAT) next else s.rd j := by
  unfold logAdvance nextWord
  dsimp only
  split
  · rw [rd_setBitR, rd_setFld, rd_setFld]
    split <;> simp
  · rw [rd_setFld]

theorem getLsbD_nextWord_other (w : W32) (next : Nat) {j : Nat} (h6 : j ≠ 6) :
    (nextWord w next).getLsbD j = (setField w 5 0 ((next + 1) % 64)).getLsbD j := by
  unfold nextWord
  split
  · rw [getLsbD_setBit _ _ _ _ (by decide), if_neg h6]
  · rfl

theorem field_nextWord_next (w : W32) (next : Nat) : field (nextWord w next) 5 0 = (next + 1) % 64 := by
  have e : field (nextWord w next) 5 0 = field (setField w 5 0 ((next + 1) % 64)) 5 0 :=
    field_congr fun j _ hj => getLsbD_nextWord_other w next (by omega)
  rw [e, field_setField_same _ _ _ _ (by decide) (by decide)]
  exact Nat.mod_mod ..

theorem field_nextWord_rest (w : W32) (next : Nat) : field (nextWord w next) 31 7 = field w 31 7 :=
  field_congr fun j hl _ => by
    rw [getLsbD_nextWord_other w next (by omega), getLsbD_setField _ _ _ _ _ (by omega), if_neg (by omega)]

theorem bit_nextWord_wrap (w : W32) (next : Nat) : bitAt (nextWord w next) 6 = (bitAt w 6 || decide (next = 63)) := by
  unfold nextWord bitAt
  split
  next h => rw [getLsbD_setBit _ _ _ _ (by decide), if_pos rfl, decide_eq_true h, Bool.or_true]
  next h => rw [getLsbD_setField _ _ _ _ _ (by decide), if_neg (by decide), decide_eq_false h, Bool.or_false]

/-- Whether the block runs is told by its reset step, its power step and PWR_STAT. -/
theorem running_congr {s t : State} (hr : t.rst = s.rst) (hp : t.pwr = s.pwr) (hs : t.rd Reg.PWR_STAT = s.rd Reg.PWR_STAT) :
    running t = running s := by
  unfold running pwrState pwrPhase State.fld
  rw [hr, hp, hs]

theorem errEvent_off {s : State} (h : s.bit Reg.GLB_EIRQ 0 = false) (src : Nat) : errEvent s src = s := by
  unfold errEvent
  rw [h]
  rfl

/-- With the error event off a log write is the slot, the next place and the interrupt. -/
theorem logWrite_running {s : State} {o : Occ} {rest : List Occ} (h : running s = true) (hq : s.err.queue = o :: rest)
    (he : s.bit Reg.GLB_EIRQ 0 = false) :
    logWrite s = withIpend (logAdvance (logTaken s o rest) (s.fld Reg.GLB_ELOG_STAT 5 0)) 5 := by
  rw [logWrite_cons hq]
  have frame := logAdvance_frame (logTaken s o rest) (s.fld Reg.GLB_ELOG_STAT 5 0)
  have rd := rd_logAdvance (logTaken s o rest) (s.fld Reg.GLB_ELOG_STAT 5 0)
  generalize logAdvance (logTaken s o rest) (s.fld Reg.GLB_ELOG_STAT 5 0) = v at frame rd ⊢
  have run : running v = true := by
    rw [running_congr (s := s) (by rw [frame]; rfl) (by rw [frame]; rfl) ((rd _).trans (if_neg (by decide)))]
    exact h
  have off : (withIpend v 5).bit Reg.GLB_EIRQ 0 = false := (congrArg (bitAt · 0) ((rd _).trans (if_neg (by decide)))).trans he
  rw [ipendBit_running run, errEvent_off off]

theorem gives_errorLogWrite {s : State} {o : Occ} {rest : List Occ} (h : running s = true) (hq : s.err.queue = o :: rest)
    (he : s.bit Reg.GLB_EIRQ 0 = false) : Gives .errorLogWrite s fun t =>
      let next := s.fld Reg.GLB_ELOG_STAT 5 0
      t = { s with regs := t.regs, err := t.err, bur := t.bur } ∧
      t.err = { s.err with queue := rest, seq := nextSeq s.err.seq,
                           slots := Tbl.put s.err.slots next (slotOf s o (nextSeq s.err.seq)) } ∧
      t.fld Reg.GLB_ELOG_STAT 5 0 = (next + 1) % 64 ∧
      t.bit Reg.GLB_ELOG_STAT 6 = (s.bit Reg.GLB_ELOG_STAT 6 || decide (next = 63)) ∧
      t.fld Reg.GLB_ELOG_STAT 31 7 = s.fld Reg.GLB_ELOG_STAT 31 7 ∧ RegsApart s t [Reg.GLB_ELOG_STAT] ∧
      ∀ u, (t.core u).ipend = (s.core u).ipend ||| 0x20 := by
  have next : exec .errorLogWrite s = .next (logWrite s) := by
    show Host.Outcome.next (if mainRuns s then logWrite s else s) = _
    rw [if_pos (mainRuns_running h)]
  refine gives_intro next ?_
  rw [logWrite_running h hq he]
  have frame := logAdvance_frame (logTaken s o rest) (s.fld Reg.GLB_ELOG_STAT 5 0)
  have rd := rd_logAdvance (logTaken s o rest) (s.fld Reg.GLB_ELOG_STAT 5 0)
  generalize logAdvance (logTaken s o rest) (s.fld Reg.GLB_ELOG_STAT 5 0) = v at frame rd ⊢
  have stat : v.rd Reg.GLB_ELOG_STAT = nextWord (s.rd Reg.GLB_ELOG_STAT) (s.fld Reg.GLB_ELOG_STAT 5 0) := (rd _).trans (if_pos rfl)
  have bur : v.bur = s.bur := by rw [frame]; rfl
  refine ⟨?_, ?_, ?_, ?_, ?_, fun j hj => (rd j).trans (if_neg (by simpa using hj)), fun u => ?_⟩
  · rw [frame]
    rfl
  · rw [frame]
    rfl
  · exact (congrArg (field · 5 0) stat).trans (field_nextWord_next ..)
  · exact (congrArg (bitAt · 6) stat).trans (bit_nextWord_wrap ..)
  · exact (congrArg (field · 31 7) stat).trans (field_nextWord_rest ..)
  · cases u
    · exact congrArg (fun b : BurSt => b.a.ipend ||| 0x20) bur
    · exact congrArg (fun b : BurSt => b.b.ipend ||| 0x20) bur

/-- Settles O46: each access as it is served, word by word, and the log's write. -/
theorem registerWrites : Obligations.RegisterWrites := by
  unfold Obligations.RegisterWrites
  refine ⟨fun s a h hp ha hs => ⟨fun ho hh => gives_busError h hp ha hs ho hh, fun h4 hr hb ht hread =>
      gives_registerRead h hp ha hs h4 hr hb ht hread⟩, fun s a h hp hr => gives_portFull h hp hr,
    fun s a h hs ho hr ha => ⟨fun hp hl hq => gives_stkLen_refused h hs ho hr ha hp hl hq,
      fun hp hl hh => gives_stkLen_taken h hs ho hr ha hp hl hh, fun hp => gives_stkLen_unprivileged h hs ho hr ha hp⟩,
    fun s acc h ha hp hs hq => gives_glbLockWrite h ha hp hs hq,
    fun s acc h ha hp hs hk => ⟨gives_prfRefWrite h ha hp hs hk, fun hd => gives_prfAdopt h ha hp hs hk hd⟩,
    fun s acc h ha hp hs hk hq i off hi => gives_prfLocked h ha hp hs hk hq hi,
    fun s o rest h hq he => gives_errorLogWrite h hq he⟩

end Sys2Proof.Machine
end

section
namespace Sys2Proof.Machine

/-! ### The bound on the ports that WFT_PRST lacks (O36)

WFT_PRST holds four bits, one per port that an implementation can have (12 R287), but the last clause of O36 takes the data of the write
for every port below `par.weftPorts`, and no hypothesis keeps that parameter at 4 or below. -/

/-- The block out of reset with five ports as its parameter. -/
def fivePorts : State :=
  { State.reset with
    rst := { State.reset.rst with phase := .run }
    par := { State.reset.par with weftPorts := 5 } }

/-- Burin A writes bit 4 of WFT_PRST with privilege. -/
def resetPortFour : RegAcc := { data := 0x10, priv := true, sec := true, src := .burA }

theorem running_fivePorts : running fivePorts = true := by decide +kernel

/-- The bit reaches no port. -/
theorem prst_leaves_portFour :
    (wport (regWrite fivePorts Reg.WFT_PRST resetPortFour) 4).st = .down := by decide +kernel

/-- A reset of port 4 would have left it disabled. -/
theorem portFour_afterReset (phy : Bool) : (portAfterReset fivePorts 4 phy).st = .disabled := by
  cases phy <;> rfl

/-- Refutes O36: bit 4 written to WFT_PRST falls outside the four bits of the register, so port 4 of a block with
five ports keeps its state, but the clause on WFT_PRST says it takes the port reset. -/
theorem not_weftPorts : ¬ Obligations.WeftPorts := by
  unfold Obligations.WeftPorts
  intro h
  obtain ⟨-, -, -, -, -, -, -, -, -, -, -, prst⟩ := h fivePorts 0 (by decide)
  obtain ⟨t, ht, -, hport, -⟩ := prst resetPortFour running_fivePorts rfl (fun e => by cases e) rfl
  cases ht
  have reset := (hport 4).trans (if_pos ⟨by decide, by decide⟩)
  exact absurd (prst_leaves_portFour.symm.trans ((congrArg WPort.st reset).trans (portFour_afterReset _))) (by decide)

end Sys2Proof.Machine
end

section
namespace Sys2Proof.Machine

/-! ### The ranking order (O22) -/

/-- What R78 compares, as a key of the lexicographic order: effective priority, then age (the greater first), then event ID. -/
def rankKey (n : Stroke) (e : Entry) : Nat ×ₗ (Natᵒᵈ ×ₗ Nat) :=
  toLex (e.eff.toNat, toLex (OrderDual.toDual (ageAt e.arr n), e.ev.toNat))

theorem rankKey_lt_iff (n : Stroke) (a b : Entry) : rankKey n a < rankKey n b ↔
    a.eff < b.eff ∨ a.eff = b.eff ∧
      (ageAt b.arr n < ageAt a.arr n ∨ ageAt a.arr n = ageAt b.arr n ∧ a.ev < b.ev) := by
  simp [rankKey, Prod.Lex.toLex_lt_toLex, BitVec.lt_def, BitVec.toNat_inj]

/-- To rank above is to have the lesser key. -/
theorem ranksAbove_iff (n : Stroke) (a b : Entry) : ranksAbove n a b = true ↔ rankKey n a < rankKey n b := by
  rw [rankKey_lt_iff]
  unfold ranksAbove
  by_cases he : a.eff = b.eff
  · by_cases ha : ageAt a.arr n = ageAt b.arr n <;> simp [he, ha]
  · simp [he]

theorem ranksAbove_of_key_lt {n : Stroke} {a b : Entry} (h : rankKey n a < rankKey n b) :
    ranksAbove n a b = true ∧ ranksAbove n b a = false :=
  ⟨(ranksAbove_iff n a b).2 h, Bool.eq_false_iff.2 fun e => lt_asymm h ((ranksAbove_iff n b a).1 e)⟩

/-- Entries of distinct IDs never tie. -/
theorem rankKey_ne {n : Stroke} {a b : Entry} (h : a.ev ≠ b.ev) : rankKey n a ≠ rankKey n b := fun e =>
  h (BitVec.eq_of_toNat_eq (congrArg (fun k => (ofLex (ofLex k).2).2) e))

theorem ranksAbove_total {n : Stroke} {a b : Entry} (h : a.ev ≠ b.ev) : ranksAbove n a b = !ranksAbove n b a := by
  rcases lt_or_gt_of_ne (rankKey_ne (n := n) h) with lt | gt
  · obtain ⟨ab, ba⟩ := ranksAbove_of_key_lt lt
    rw [ab, ba]
    rfl
  · obtain ⟨ba, ab⟩ := ranksAbove_of_key_lt gt
    rw [ab, ba]
    rfl

theorem ranksAbove_trans {n : Stroke} {a b c : Entry} (hab : ranksAbove n a b = true) (hbc : ranksAbove n b c = true) :
    ranksAbove n a c = true :=
  (ranksAbove_iff n a c).2 (((ranksAbove_iff n a b).1 hab).trans ((ranksAbove_iff n b c).1 hbc))

theorem ranksAbove_congr {n : Stroke} {a b a' b' : Entry} (ha : rankKey n a = rankKey n a') (hb : rankKey n b = rankKey n b') :
    ranksAbove n a b = ranksAbove n a' b' := by
  rw [Bool.eq_iff_iff, ranksAbove_iff, ranksAbove_iff, ha, hb]

theorem rankKey_congr {n : Stroke} {a b : Entry} (he : a.eff = b.eff) (ha : a.arr = b.arr) (hi : a.ev = b.ev) :
    rankKey n a = rankKey n b := by
  unfold rankKey
  rw [he, ha, hi]

theorem bestOf_cons_ne_none (n : Stroke) (e : Entry) (r : List Entry) : bestOf n (e :: r) ≠ none := by
  unfold bestOf
  split
  · nofun
  · split <;> nofun

/-- The highest-ranked entry is one of the list, and none has a lesser key. -/
theorem bestOf_least {n : Stroke} {l : List Entry} {h : Entry} (hb : bestOf n l = some h) :
    h ∈ l ∧ ∀ e ∈ l, rankKey n h ≤ rankKey n e := by
  induction l generalizing h with
  | nil => cases hb
  | cons e r ih =>
    cases hr : bestOf n r with
    | none =>
      cases r with
      | nil =>
        cases hb
        simp
      | cons f r => exact absurd hr (bestOf_cons_ne_none n f r)
    | some f =>
      obtain ⟨hf, least⟩ := ih hr
      simp only [bestOf, hr] at hb
      split at hb <;> cases hb
      next above =>
        have lt := (ranksAbove_iff n e f).1 above
        exact ⟨List.mem_cons_self, List.forall_mem_cons.2 ⟨le_rfl, fun g hg => lt.le.trans (least g hg)⟩⟩
      next above =>
        have le := not_lt.1 (mt (ranksAbove_iff n e h).2 above)
        exact ⟨List.mem_cons_of_mem _ hf, List.forall_mem_cons.2 ⟨le, least⟩⟩

/-- The head entry of a kind is resident, and ranks above every other of its kind. -/
theorem headOf_ranksAbove {s : State} {k : Nat} {virt : Bool} {h : Entry} (hh : headOf s k virt = some h) :
    h ∈ (s.tgt k).entries ∧ h.virt = virt ∧
      ∀ e ∈ (s.tgt k).entries, e.virt = virt → e.ev ≠ h.ev → ranksAbove s.count h e = true := by
  obtain ⟨hm, least⟩ := bestOf_least hh
  obtain ⟨hm, hv⟩ := List.mem_filter.1 hm
  refine ⟨hm, of_decide_eq_true hv, fun e he ev hne => ?_⟩
  have le := least e (List.mem_filter.2 ⟨he, decide_eq_true ev⟩)
  exact (ranksAbove_iff ..).2 (lt_of_le_of_ne le (rankKey_ne hne.symm))

/-- Settles O22: the order is that of a key, and the head has the least key. -/
theorem rankingOrder : Obligations.RankingOrder := by
  unfold Obligations.RankingOrder
  refine ⟨fun n a b => ⟨fun he => ?_, fun he ha => ?_, fun he ha hi => ?_, ranksAbove_total⟩,
    fun n a b c => ranksAbove_trans,
    fun n a b a' b' ha hb hc ha' hb' hc' => ranksAbove_congr (rankKey_congr ha hb hc) (rankKey_congr ha' hb' hc'),
    fun s k virt h => headOf_ranksAbove⟩
  · exact ranksAbove_of_key_lt ((rankKey_lt_iff ..).2 (.inl he))
  · exact ranksAbove_of_key_lt ((rankKey_lt_iff ..).2 (.inr ⟨he, .inl ha⟩))
  · exact ranksAbove_of_key_lt ((rankKey_lt_iff ..).2 (.inr ⟨he, .inr ⟨ha, hi⟩⟩))

end Sys2Proof.Machine
end

section
namespace Sys2Proof.Machine

/-! ### The bound on the lines that an insert's latch lacks (O23)

WIRED is at most 4,096 (01 R20), so that the WIN entries end where the rings' registers begin (16 R390). No hypothesis of O23
keeps `par.wired` there. With one line more its WIN_XSTAT falls on a word of ring 0, which is in the proofed set (16 R395):
a set-pending command's insert sets the line's latch there, and HOLD with it (16 R398). O23 says that the proof stands. -/

/-- An EV_SET_PEND's insert of line 4096's event. -/
def setLineBeyondWin : TOp := { mkOp .ins false 4128 { prio := 0x40, group := true, cls := 0 } 0 with setp := true }

/-- The block out of reset with 4,097 lines as its parameter, the proof not held: the word that stands as WIN_CTL of line 4096
has level sense, the event is a remote line's as well, and its insert is the next operation of tree 0. -/
def linesBeyondWin : State :=
  { State.reset with
    rst := { State.reset.rst with phase := .run }
    par := { State.reset.par with wired := 4097 }
    regs := [(winOff 4096 Reg.WIN_CTL, 0x200)]
    prf := { State.reset.prf with hold := false }
    wft := { State.reset.wft with
      rl := [(4128, { origin := 0, lineNo := 0, level := true, state := false, fresh := false, latch := false, code := none })] }
    tg := [(0, { Tg.empty with adm := [setLineBeyondWin], slots := 1 })] }

theorem issues_linesBeyondWin : Issues linesBeyondWin 0 setLineBeyondWin := by
  unfold Issues
  decide +kernel

theorem insMeets_linesBeyondWin :
    insMeets linesBeyondWin 0 setLineBeyondWin linesBeyondWin.count = none := by decide +kernel

/-- The insert sets HOLD. -/
theorem insert_holds_proof : (issueIns linesBeyondWin 0).prf.hold = true := by decide +kernel

theorem completeBad_prf (s : State) (r n : Nat) : (completeBad s r n).prf = s.prf := by
  induction n generalizing s with
  | zero => rfl
  | succ n ih =>
    unfold completeBad
    dsimp only
    split
    · rfl
    · split
      · rfl
      · split
        · rfl
        · exact ih _

theorem pollRing_prf (s : State) (r : Nat) : (pollRing s r).prf = s.prf := by
  unfold pollRing
  split
  · rfl
  · dsimp only
    split
    · exact completeBad_prf ..
    · split <;> rfl

theorem foldl_prf {α : Type} {f : State → α → State} (hf : ∀ s a, (f s a).prf = s.prf) (l : List α) (s : State) :
    (l.foldl f s).prf = s.prf := by
  induction l generalizing s with
  | nil => rfl
  | cons a l ih => exact (ih (f s a)).trans (hf s a)

theorem pollOwed_prf (s : State) : (pollOwed s).prf = s.prf := by
  unfold pollOwed
  exact foldl_prf (f := fun s (o : Owed) => answerReq s o.inst o.req o.status false) (fun _ _ => rfl) _ _

/-- The completion of commands leaves the proof alone. -/
theorem pollAll_prf (s : State) : (pollAll s).prf = s.prf := by
  unfold pollAll
  exact (pollOwed_prf _).trans (foldl_prf pollRing_prf _ _)

/-- Refutes O23: with more lines than the WIN region has entries, an insert that sets a line's latch writes a word of the
proofed set and sets HOLD, but the clause on an insert that takes a free leaf says that the proof stands. -/
theorem not_treeOperations : ¬ Obligations.TreeOperations := by
  unfold Obligations.TreeOperations
  intro h
  obtain ⟨ops, -⟩ := h
  obtain ⟨insert, -⟩ := ops linesBeyondWin 0 setLineBeyondWin issues_linesBeyondWin
  obtain ⟨u, hu, frame, -⟩ := insert rfl rfl insMeets_linesBeyondWin rfl rfl
  have same : pollAll (issueIns linesBeyondWin 0) = pollAll u := Host.Outcome.next.inj hu
  have stands : (issueIns linesBeyondWin 0).prf = linesBeyondWin.prf := by
    rw [← pollAll_prf, same, pollAll_prf, frame]
  exact absurd (insert_holds_proof.symm.trans (congrArg Prf.hold stands)) (by decide)

end Sys2Proof.Machine
end

section
namespace Sys2Proof.Machine

/-! ### The counters and the error log of the ingress (05 R98, R115) -/

/-- From s to t the 64-bit counter at `off` has counted one, and nothing else has changed. -/
def Counted (s t : State) (off : Nat) : Prop :=
  t = { s with regs := t.regs } ∧ t.rd64 off = s.rd64 off + 1 ∧ RegsApart s t [off, off + 4]

theorem counted_cnt64 (s : State) {off : Nat} (hl : proofMask off = 0) (hh : proofMask (off + 4) = 0) :
    Counted s (s.cnt64 off) off := by
  refine ⟨?_, rd64_wr64_same .., fun j hj => ?_⟩
  · apply State.ext <;> simp
    exact (wr_prf_unproofed _ _ hh).trans (wr_prf_unproofed _ _ hl)
  · obtain ⟨h0, h4⟩ : j ≠ off ∧ j ≠ off + 4 := by simpa using hj
    rw [State.cnt64, rd_wr64, if_neg h4, if_neg h0]

theorem logErr_of_valid {s : State} {voff vbit : Nat} (h : s.bit voff vbit = true) (src off i unit : Nat) (put : State → State) :
    logErr s src off i unit voff vbit put = setFlag s src off i unit false := by
  rw [logErr, capture, if_pos h]

theorem logErr_of_free {s : State} {voff vbit : Nat} (h : s.bit voff vbit = false) (src off i unit : Nat) (put : State → State) :
    logErr s src off i unit voff vbit put = setFlag ((put s).setBitR voff vbit true) src off i unit true := by
  rw [logErr, capture, if_neg (by simp [h])]

/-- Setting the top bit of a word that lies below it adds it. -/
theorem setBit_top {n : Nat} (h : n < 2 ^ 31) : setBit (BitVec.ofNat 32 n) 31 true = BitVec.ofNat 32 (n + 2 ^ 31) := by
  apply BitVec.eq_of_getLsbD_eq
  intro j hj
  rw [getLsbD_setBit _ _ _ _ (by decide), BitVec.getLsbD_ofNat, BitVec.getLsbD_ofNat, decide_eq_true hj, Bool.true_and,
    Bool.true_and, Nat.add_comm]
  split
  next h31 => rw [h31, Nat.testBit_two_pow_add_eq, Nat.testBit_lt_two_pow h, Bool.not_false]
  next h31 => rw [Nat.testBit_two_pow_add_gt (by omega)]

/-- The log words of an ingress error (05 R115): its flag and the write's place in the window, its source, its data. -/
def MsgLogged (t : State) (w : MWrite) (i : Nat) : Prop :=
  t.rd Reg.MSG_ERR_LOG0 = BitVec.ofNat 32 (winOffset w + i * 2 ^ 23 + 2 ^ 31) ∧
  t.rd Reg.MSG_ERR_LOG1 = w.src.zeroExtend 32 ∧ t.rd Reg.MSG_ERR_LOG2 = w.data

/-- From s to t the write w is dropped with flag i of MSG_ERR: counted, flagged, and logged where the log is free. -/
def MsgDropped (s t : State) (w : MWrite) (i : Nat) : Prop :=
  t = { s with regs := t.regs, err := t.err } ∧
  Flagged s t 1 Reg.MSG_ERR i 0 (!s.bit Reg.MSG_ERR_LOG0 31) ∧
  t.rd Reg.MSG_ERR_CNT = satInc (s.rd Reg.MSG_ERR_CNT) ∧
  (if s.bit Reg.MSG_ERR_LOG0 31 then RegsApart s t [Reg.MSG_ERR, Reg.MSG_ERR_CNT] else
    RegsApart s t [Reg.MSG_ERR, Reg.MSG_ERR_CNT, Reg.MSG_ERR_LOG0, Reg.MSG_ERR_LOG1, Reg.MSG_ERR_LOG2] ∧ MsgLogged t w i)

/-- A flag of MSG_ERR raised on a state u that s has become with its registers alone. -/
theorem flagged_msgErr {s u : State} {i : Nat} (fresh : Bool) (hq : s.err.queue.length < 16) (hi : i < 7)
    (hu : u = { s with regs := u.regs }) (hm : u.rd Reg.MSG_ERR = s.rd Reg.MSG_ERR) :
    let t := setFlag u 1 Reg.MSG_ERR i 0 fresh
    t = { s with regs := t.regs, err := t.err } ∧ Flagged s t 1 Reg.MSG_ERR i 0 fresh ∧ RegsApart u t [Reg.MSG_ERR] := by
  have herr : u.err = s.err := by rw [hu]
  have hcount : u.count = s.count := by rw [hu]
  have hbit : u.bit Reg.MSG_ERR i = s.bit Reg.MSG_ERR i := congrArg (bitAt · i) hm
  obtain ⟨⟨hset, hqueue⟩, ht, hrest⟩ := setFlag_spec (s := u) (off := Reg.MSG_ERR) (i := i) 1 0 fresh
    (by rw [herr]; exact hq) (by decide) (by omega)
  generalize setFlag u 1 Reg.MSG_ERR i 0 fresh = t at hset hqueue ht hrest ⊢
  refine ⟨?_, ⟨hset, ?_⟩, hrest⟩
  · rw [ht, hu]
  · rw [hqueue, herr, hcount, hbit]

/-- What the log captures of an error of the ingress. -/
def msgCapture (s : State) (w : MWrite) (i : Nat) : State :=
  (((s.wr Reg.MSG_ERR_LOG0 (BitVec.ofNat 32 (winOffset w + i * 2 ^ 23))).wr Reg.MSG_ERR_LOG1 (w.src.zeroExtend 32)).wr
    Reg.MSG_ERR_LOG2 w.data).setBitR Reg.MSG_ERR_LOG0 31 true

theorem msgCapture_frame (s : State) (w : MWrite) (i : Nat) : msgCapture s w i = { s with regs := (msgCapture s w i).regs } := by
  unfold msgCapture State.setBitR
  apply State.ext <;> simp [wr_prf_unproofed _ _ (show proofMask Reg.MSG_ERR_LOG0 = 0 by decide),
    wr_prf_unproofed _ _ (show proofMask Reg.MSG_ERR_LOG1 = 0 by decide),
    wr_prf_unproofed _ _ (show proofMask Reg.MSG_ERR_LOG2 = 0 by decide)]

theorem msgLogged_msgCapture (s : State) (w : MWrite) {i : Nat} (hi : i < 7) : MsgLogged (msgCapture s w i) w i := by
  have low : winOffset w < 2 ^ 23 := Nat.mod_lt _ (by decide)
  refine ⟨?_, ?_, ?_⟩
  · rw [msgCapture, rd_setBitR, if_pos rfl, rd_wr_other _ _ (by decide), rd_wr_other _ _ (by decide), rd_wr_same]
    exact setBit_top (by omega)
  · rw [msgCapture, rd_setBitR, if_neg (by decide), rd_wr_other _ _ (by decide), rd_wr_same]
  · rw [msgCapture, rd_setBitR, if_neg (by decide), rd_wr_same]

theorem regsApart_msgCapture (s : State) (w : MWrite) (i : Nat) :
    RegsApart s (msgCapture s w i) [Reg.MSG_ERR_LOG0, Reg.MSG_ERR_LOG1, Reg.MSG_ERR_LOG2] := by
  intro j hj
  simp only [List.mem_cons, List.not_mem_nil, or_false, not_or] at hj
  obtain ⟨h0, h1, h2⟩ := hj
  rw [msgCapture, rd_setBitR, if_neg h0, rd_wr_other _ _ h2, rd_wr_other _ _ h1, rd_wr_other _ _ h0]

theorem msgDropped_msgErr {s : State} (w : MWrite) {i : Nat} (hq : s.err.queue.length < 16) (hi : i < 7) :
    MsgDropped s (msgErr s w i) w i := by
  have counted : s.cnt32 Reg.MSG_ERR_CNT = { s with regs := (s.cnt32 Reg.MSG_ERR_CNT).regs } := by
    apply State.ext <;> simp
    exact wr_prf_unproofed _ _ (by decide)
  have rd := rd_cnt32 s Reg.MSG_ERR_CNT
  have valid : (s.cnt32 Reg.MSG_ERR_CNT).bit Reg.MSG_ERR_LOG0 31 = s.bit Reg.MSG_ERR_LOG0 31 :=
    congrArg (bitAt · 31) ((rd _).trans (if_neg (by decide)))
  unfold msgErr
  generalize s.cnt32 Reg.MSG_ERR_CNT = u at counted rd valid
  have count := (rd Reg.MSG_ERR_CNT).trans (if_pos rfl)
  have flags := (rd Reg.MSG_ERR).trans (if_neg (by decide))
  unfold MsgDropped
  cases hv : s.bit Reg.MSG_ERR_LOG0 31 with
  | true =>
    rw [logErr_of_valid (valid.trans hv)]
    obtain ⟨ht, hf, ha⟩ := flagged_msgErr false hq hi counted flags
    refine ⟨ht, hf, (ha _ (by decide)).trans count, fun j hj => ?_⟩
    obtain ⟨he, hc⟩ : j ≠ Reg.MSG_ERR ∧ j ≠ Reg.MSG_ERR_CNT := by simpa using hj
    rw [ha j (by simpa using he), rd, if_neg hc]
  | false =>
    rw [logErr_of_free (valid.trans hv)]
    have frame : msgCapture u w i = { s with regs := (msgCapture u w i).regs } := by rw [msgCapture_frame, counted]
    have apart := regsApart_msgCapture u w i
    obtain ⟨ht, hf, ha⟩ := flagged_msgErr true hq hi frame ((apart _ (by decide)).trans flags)
    obtain ⟨h0, h1, h2⟩ := msgLogged_msgCapture u w hi
    refine ⟨ht, hf, (ha _ (by decide)).trans ((apart _ (by decide)).trans count), fun j hj => ?_,
      (ha _ (by decide)).trans h0, (ha _ (by decide)).trans h1, (ha _ (by decide)).trans h2⟩
    simp only [List.mem_cons, List.not_mem_nil, or_false, not_or] at hj
    obtain ⟨he, hc, hl⟩ := hj
    exact (ha j (by simpa using he)).trans ((apart j (by simpa using hl)).trans ((rd j).trans (if_neg hc)))

/-! ### The input port (05 R96, R107) -/

theorem exec_msgWrite {s : State} (h : running s = true) (addr : W64) (data : W32) (be : BitVec 4) (src : BitVec 24) :
    exec (.msgWrite addr data be src) s = .next (if msgReady s then
      { s with
        msg := { s.msg with
          stage := s.msg.stage ++ [{ addr := addr, data := data, be := be, src := src, arr := s.count, wid := s.msg.nextW }],
          nextW := s.msg.nextW + 1 },
        pwr := { s.pwr with act := true } } else s) := by
  show Host.Outcome.next (msgWrite s addr data be src) = _
  rw [msgWrite, wake_running h, activity_running h]
  rfl

theorem msgReady_running {s : State} (h : running s = true) :
    msgReady s = (decide (s.msg.stage.length < 4) && !slowHeld s) := by
  rw [msgReady, portsOpen_running h, Bool.true_and]

/-! ### One decode cycle (05 R98, R101, R103, R107) -/

section
variable {s : State} {w : MWrite} {rest : List MWrite}

theorem exec_msgDecode (h : running s = true) : exec .msgDecode s = .next (decodeWrite s) := by
  show Host.Outcome.next (if engOn s 1 then decodeWrite s else s) = _
  rw [if_pos (engOn_running h 1)]

theorem decodeFault_lt {i : Nat} (h : decodeFault s w = some i) : i < 6 := by
  unfold decodeFault at h
  dsimp only at h
  repeat' split at h
  all_goals cases h <;> decide

theorem dropStage_cons (hs : s.msg.stage = w :: rest) : dropStage s = { s with msg := { s.msg with stage := rest } } := by
  rw [dropStage, hs]
  rfl

/-- A write that decode holds takes the first tracker entry that is free. -/
theorem decodeWrite_held (hs : s.msg.stage = w :: rest) (hh : s.msg.held = true) : decodeWrite s =
    if s.msg.slow.length < 64 then slowWrite (setHeld (dropStage s) false) w (pageOf w) else s.cnt64 Reg.MSG_BP_CNT := by
  rw [decodeWrite, hs]
  exact if_pos hh

theorem decodeWrite_fault {i : Nat} (hs : s.msg.stage = w :: rest) (hh : s.msg.held = false) (hf : decodeFault s w = some i) :
    decodeWrite s = msgErr (dropStage s) w i := by
  simp [decodeWrite, hs, hh, hf]

/-- A write that passes the checks goes to its queue, to the tracker, or is held. -/
theorem decodeWrite_passed (hs : s.msg.stage = w :: rest) (hh : s.msg.held = false) (hf : decodeFault s w = none) :
    decodeWrite s = if admits s (pageOf w) then admitWrite (dropStage s) w (pageOf w)
      else if s.msg.slow.length < 64 then slowWrite (dropStage s) w (pageOf w) else (setHeld s true).cnt64 Reg.MSG_BP_CNT := by
  simp [decodeWrite, hs, hh, hf]

theorem counted_slowWrite (s : State) (w : MWrite) (q : Nat) : Counted
    { s with msg := { s.msg with slow := s.msg.slow ++ [{ q := q, slice := sliceOf s w, w := w, stage := .lookup }] } }
    (slowWrite s w q) Reg.MSG_SLOW_CNT :=
  counted_cnt64 _ (by decide) (by decide)

/-- What is left of the budgets once queue q has admitted a write, where it has a budget (05 R101). -/
def spentBudget (s : State) (q : Nat) : Tbl Nat :=
  if qBudget s q = 0 then s.msg.left else Tbl.put s.msg.left q (budgetLeft s q - 1)

theorem get_spentBudget (s : State) (q p : Nat) : Tbl.get 0 (spentBudget s q) p =
    if p = q ∧ qBudget s q ≠ 0 then budgetLeft s q - 1 else budgetLeft s p := by
  unfold spentBudget
  by_cases hb : qBudget s q = 0
  · simp [hb, budgetLeft]
  · simp only [hb, if_false, not_false_eq_true, and_true, ne_eq, Tbl.get_put]
    rfl

theorem counted_admitWrite (s : State) (w : MWrite) (q : Nat) : Counted
    { s with msg := { s.msg with q := s.msg.q ++ [{ q := q, slice := sliceOf s w, w := w }], left := spentBudget s q } }
    (admitWrite s w q) Reg.MSG_ADMIT_CNT := by
  have spent : admitWrite s w q = State.cnt64
      { s with msg := { s.msg with q := s.msg.q ++ [{ q := q, slice := sliceOf s w, w := w }], left := spentBudget s q } }
      Reg.MSG_ADMIT_CNT := by
    unfold admitWrite spentBudget
    by_cases hb : qBudget s q = 0
    · have hb' : qBudget { s with msg := { s.msg with q := s.msg.q ++ [{ q := q, slice := sliceOf s w, w := w }] } } q = 0 := hb
      simp only [hb, hb', if_true]
    · have hb' : qBudget { s with msg := { s.msg with q := s.msg.q ++ [{ q := q, slice := sliceOf s w, w := w }] } } q ≠ 0 := hb
      simp only [hb, hb', if_false]
  rw [spent]
  exact counted_cnt64 _ (by decide) (by decide)

end

/-! ### MSG_WRITE and MSG_DECODE (O19) -/

theorem gives_msgWrite_taken {s : State} (h : running s = true) (hl : s.msg.stage.length < 4) (hh : slowHeld s = false)
    (addr : W64) (data : W32) (be : BitVec 4) (src : BitVec 24) : Gives (.msgWrite addr data be src) s
      (· = { s with
        msg := { s.msg with
          stage := s.msg.stage ++ [{ addr := addr, data := data, be := be, src := src, arr := s.count, wid := s.msg.nextW }],
          nextW := s.msg.nextW + 1 },
        pwr := { s.pwr with act := true } }) :=
  gives_intro (exec_msgWrite h ..) (if_pos (by simp [msgReady_running h, hl, hh]))

theorem gives_msgWrite_refused {s : State} (h : running s = true) (hw : 4 ≤ s.msg.stage.length ∨ slowHeld s = true)
    (addr : W64) (data : W32) (be : BitVec 4) (src : BitVec 24) : Gives (.msgWrite addr data be src) s (· = s) := by
  refine gives_intro (exec_msgWrite h ..) (if_neg ?_)
  rw [msgReady_running h]
  rcases hw with hw | hw
  · simp [Nat.not_lt.2 hw]
  · simp [hw]

/-- A cycle of decode that counts at `off` and leaves the ingress as m. -/
theorem gives_msgDecode_counted {s : State} {m : Msg} {off : Nat} (h : running s = true)
    (hc : Counted { s with msg := m } (decodeWrite s) off) : Gives .msgDecode s fun t =>
      t = { s with regs := t.regs, msg := m } ∧ t.rd64 off = s.rd64 off + 1 ∧ RegsApart s t [off, off + 4] :=
  gives_intro (exec_msgDecode h) hc

section
variable {s : State} {w : MWrite} {rest : List MWrite}

theorem gives_msgDecode_held (h : running s = true) (hs : s.msg.stage = w :: rest) (hh : s.msg.held = true) :
    Gives .msgDecode s fun t =>
    if s.msg.slow.length < 64 then
      t = { s with regs := t.regs,
                   msg := { s.msg with
                     stage := rest, held := false,
                     slow := s.msg.slow ++ [{ q := pageOf w, slice := sliceOf s w, w := w, stage := .lookup }] } } ∧
      t.rd64 Reg.MSG_SLOW_CNT = s.rd64 Reg.MSG_SLOW_CNT + 1 ∧ RegsApart s t [Reg.MSG_SLOW_CNT, Reg.MSG_SLOW_CNT + 4]
    else
      t = { s with regs := t.regs } ∧ t.rd64 Reg.MSG_BP_CNT = s.rd64 Reg.MSG_BP_CNT + 1 ∧
      RegsApart s t [Reg.MSG_BP_CNT, Reg.MSG_BP_CNT + 4] := by
  have decoded := decodeWrite_held hs hh
  split
  next hf =>
    refine gives_msgDecode_counted h ?_
    rw [decoded, if_pos hf, dropStage_cons hs]
    exact counted_slowWrite ..
  next hf =>
    refine gives_msgDecode_counted (m := s.msg) h ?_
    rw [decoded, if_neg hf]
    exact counted_cnt64 s (by decide) (by decide)

theorem gives_msgDecode_fault {i : Nat} (h : running s = true) (hs : s.msg.stage = w :: rest) (hh : s.msg.held = false)
    (hf : decodeFault s w = some i) (hq : s.err.queue.length < 16) : Gives .msgDecode s fun t =>
      MsgDropped { s with msg := { s.msg with stage := rest } } t w i := by
  refine gives_intro (exec_msgDecode h) ?_
  rw [decodeWrite_fault hs hh hf, dropStage_cons hs]
  exact msgDropped_msgErr w hq (Nat.lt_succ_of_lt (decodeFault_lt hf))

theorem gives_msgDecode_admitted (h : running s = true) (hs : s.msg.stage = w :: rest) (hh : s.msg.held = false)
    (hf : decodeFault s w = none) (ha : admits s (pageOf w) = true) : Gives .msgDecode s fun t =>
      t = { s with regs := t.regs, msg := { s.msg with stage := rest, left := spentBudget s (pageOf w),
                                                       q := s.msg.q ++ [{ q := pageOf w, slice := sliceOf s w, w := w }] } } ∧
      t.rd64 Reg.MSG_ADMIT_CNT = s.rd64 Reg.MSG_ADMIT_CNT + 1 ∧ RegsApart s t [Reg.MSG_ADMIT_CNT, Reg.MSG_ADMIT_CNT + 4] := by
  refine gives_msgDecode_counted h ?_
  rw [decodeWrite_passed hs hh hf, if_pos ha, dropStage_cons hs]
  exact counted_admitWrite ..

theorem gives_msgDecode_slow (h : running s = true) (hs : s.msg.stage = w :: rest) (hh : s.msg.held = false)
    (hf : decodeFault s w = none) (ha : admits s (pageOf w) = false) (hl : s.msg.slow.length < 64) : Gives .msgDecode s fun t =>
      t = { s with regs := t.regs,
                   msg := { s.msg with
                     stage := rest
                     slow := s.msg.slow ++ [{ q := pageOf w, slice := sliceOf s w, w := w, stage := .lookup }] } } ∧
      t.rd64 Reg.MSG_SLOW_CNT = s.rd64 Reg.MSG_SLOW_CNT + 1 ∧ RegsApart s t [Reg.MSG_SLOW_CNT, Reg.MSG_SLOW_CNT + 4] := by
  refine gives_msgDecode_counted h ?_
  rw [decodeWrite_passed hs hh hf, if_neg (by simp [ha]), if_pos hl, dropStage_cons hs]
  exact counted_slowWrite ..

theorem gives_msgDecode_waits (h : running s = true) (hs : s.msg.stage = w :: rest) (hh : s.msg.held = false)
    (hf : decodeFault s w = none) (ha : admits s (pageOf w) = false) (hl : 64 ≤ s.msg.slow.length) : Gives .msgDecode s fun t =>
      t = { s with regs := t.regs, msg := { s.msg with held := true } } ∧
      t.rd64 Reg.MSG_BP_CNT = s.rd64 Reg.MSG_BP_CNT + 1 ∧ RegsApart s t [Reg.MSG_BP_CNT, Reg.MSG_BP_CNT + 4] := by
  refine gives_msgDecode_counted h ?_
  rw [decodeWrite_passed hs hh hf, if_neg (by simp [ha]), if_neg (by omega)]
  exact counted_cnt64 (setHeld s true) (by decide) (by decide)

end

/-- Settles O19: the port's transfer, and decode by what becomes of its oldest write. -/
theorem messageWrites : Obligations.MessageWrites := by
  unfold Obligations.MessageWrites
  refine ⟨fun s addr data be src h =>
      ⟨fun hl hh => gives_msgWrite_taken h hl hh .., fun hw => gives_msgWrite_refused h hw ..⟩,
    fun s w rest h hs => ⟨fun hh => gives_msgDecode_held h hs hh, fun hh => ⟨fun i hf hq => gives_msgDecode_fault h hs hh hf hq,
      fun hf ha => gives_mono (gives_msgDecode_admitted h hs hh hf ha) fun t => ?_,
      fun hf ha hl => gives_msgDecode_slow h hs hh hf ha hl, fun hf ha hl => gives_msgDecode_waits h hs hh hf ha hl⟩⟩⟩
  rintro ⟨ht, hcount, hapart⟩
  have left : t.msg.left = spentBudget s (pageOf w) := by rw [ht]
  refine ⟨?_, fun p => ?_, hcount, hapart⟩
  · rw [left]
    exact ht
  · rw [budgetLeft, left]
    exact get_spentBudget ..

end Sys2Proof.Machine
end

section
namespace Sys2Proof.Machine

/-! ### The set of a pending bit (05 R103, 07 R164, R165) -/

theorem haddr_haddr (a : Nat) : haddr (haddr a) = haddr a := Nat.mod_mod ..

/-- The lines of an access are those of its address in host memory. -/
theorem linesAt_haddr (a n : Nat) : linesAt (haddr a) n = linesAt a n := by
  simp only [linesAt, haddr_haddr]

theorem touched_haddr {s t : State} {a n : Nat} (h : Touched s t [(haddr a, n)]) : Touched s t [(a, n)] := by
  obtain ⟨hcoh, hline⟩ := h
  refine ⟨hcoh, fun l => (hline l).trans ?_⟩
  have same : linesAt (haddr a, n).1 (haddr a, n).2 = linesAt (a, n).1 (a, n).2 := linesAt_haddr a n
  rw [List.any_cons, same, List.any_cons]

/-- A set or clear of a bit whose line is held E or M (13 R313). -/
theorem bitPut_putBit {s : State} {k : Nat} {vpe : Option (BitVec 16)} {ev : EventId} (b : Bool) (hm : Memory.wf s.mem = true)
    (ho : Owned s (bitAddr s k vpe ev) 1) : BitPut s (putBit s k vpe ev b) k vpe ev b := by
  have owned : Owned s (haddr (bitAddr s k vpe ev)) 1 := by
    rw [Owned, State.owns, linesAt_haddr]
    exact ho
  refine ⟨touched_haddr (touched_store owned), fun x => ?_⟩
  show Memory.read (Memory.write s.mem (haddr (haddr (bitAddr s k vpe ev) + 0)) (BitVec.ofNat 8 (_ >>> 0))) x = _
  rw [Memory.read_write _ _ _ _ hm, Nat.add_zero, haddr_haddr, Nat.shiftRight_zero, BitVec.ofNat_toNat, BitVec.setWidth_eq]
  split
  next hx => rw [hx]
  next => rfl

/-- The live summaries of the other kind and the sweeps apart, a mark changes its chunk's summary. -/
theorem sumP_markLive (s : State) (k : Nat) (ev : EventId) (p : Byte) : ((markLive s k false ev p).tgt k).sumP =
    Tbl.put (s.tgt k).sumP (chunkOf ev) ((Tbl.get Sum.empty (s.tgt k).sumP (chunkOf ev)).mark p (leadOff ev)) := by
  unfold markLive
  rw [tgt_modTgt, if_pos rfl]
  dsimp only
  split
  · split <;> rfl
  · rfl

theorem tgt_markLive_other {s : State} {k j : Nat} (h : j ≠ k) (virt : Bool) (ev : EventId) (p : Byte) :
    (markLive s k virt ev p).tgt j = s.tgt j := by
  rw [markLive, tgt_modTgt, if_neg h]

/-- A change of an event's state is seen at its line and on the Weft link. -/
theorem noteState_frame (s : State) (k : Nat) (virt : Bool) (ev : EventId) :
    noteState s k virt ev = { s with win := (noteState s k virt ev).win, wft := (noteState s k virt ev).wft } := by
  unfold noteState
  dsimp only
  split
  · rfl
  · split
    · split <;> rfl
    · split
      · rfl
      · split <;> rfl

/-- From s to t the bit of a physical event of target k is set, and its chunk's summary has the mark of priority p. -/
def BitRaised (s t : State) (k : Nat) (ev : EventId) (p : Byte) : Prop :=
  t = { s with mem := t.mem, coh := t.coh, tg := t.tg, win := t.win, wft := t.wft } ∧
  BitPut s t k none ev true ∧ (∀ j, j ≠ k → t.tgt j = s.tgt j) ∧
  Tbl.get Sum.empty (t.tgt k).sumP (chunkOf ev) = (Tbl.get Sum.empty (s.tgt k).sumP (chunkOf ev)).mark p (leadOff ev)

theorem bitRaised_noteState {s : State} {k : Nat} {ev : EventId} (p : Byte) (hm : Memory.wf s.mem = true)
    (ho : Owned s (bitAddr s k none ev) 1) :
    BitRaised s (noteState (markLive (putBit s k none ev true) k false ev p) k false ev) k ev p := by
  obtain ⟨⟨hcoh, hline⟩, hbyte⟩ := bitPut_putBit (vpe := none) true hm ho
  have sums := sumP_markLive (putBit s k none ev true) k ev p
  have noted := noteState_frame (markLive (putBit s k none ev true) k false ev p) k false ev
  generalize noteState (markLive (putBit s k none ev true) k false ev p) k false ev = t at noted ⊢
  have mem : t.mem = (putBit s k none ev true).mem := by
    rw [noted]
    rfl
  have coh : t.coh = (putBit s k none ev true).coh := by
    rw [noted]
    rfl
  have tgt : ∀ j, t.tgt j = (markLive (putBit s k none ev true) k false ev p).tgt j := fun j => by
    rw [noted]
    rfl
  refine ⟨?_, ⟨⟨?_, fun l => ?_⟩, fun x => ?_⟩, fun j hj => ?_, ?_⟩
  · rw [noted]
    rfl
  · rw [coh]
    exact hcoh
  · rw [lineState, coh]
    exact hline l
  · rw [mem]
    exact hbyte x
  · rw [tgt, tgt_markLive_other hj]
    rfl
  · rw [tgt, sums, Tbl.get_put_same]
    rfl

/-- Without a clear in a lane the lanes have nothing to apply. -/
theorem lanesDrain_noClears {s : State} (h : NoClears s) : lanesDrain s = s := by
  have idle : (s.lanes.filter fun p => p.2.any fun w => !w.set) = [] := by
    rw [List.filter_eq_nil_iff]
    intro p hp
    have sets := h p hp
    simpa using sets
  rw [lanesDrain, idle]
  rfl

/-! ### SLOW_SET_DONE -/

theorem exec_slowSetDone {s : State} {n : BitVec 6} (h : running s = true) (hf : s.failures (.slowSet n) = 0) (fail : Bool) :
    exec (.slowSetDone n fail) s = .next (s.served (slowSetDone s n.toNat fail)) := by
  show Host.Outcome.next (if engOn s 1 then
    s.served (s.withFail (.slowSet n) 4 fail fun s fail => slowSetDone s n.toNat fail) else s) = _
  rw [if_pos (engOn_running h 1), State.withFail, if_pos hf]

/-- A set that nothing holds back is made, or has failed for good. -/
theorem slowSetDone_set {s : State} {n : Nat} {e : Slow} {r : XRes} (he : s.msg.slow[n]? = some e) (hr : e.stage = .set r)
    (hen : r.virt = true ∨ s.rnkEn = true) (hw : setWaits s (redirDest s (destOf r) r.ev) r.ev e.w.wid = false) (fail : Bool) :
    slowSetDone s n fail = lanesDrain (if fail then msgErr (freeSlow s e.w.wid) e.w 6
      else slowSetAt s (redirDest s (destOf r) r.ev) e.w r.ev r.attr e.q) := by
  have off : (!r.virt && !s.rnkEn) = false := by rcases hen with h | h <;> simp [h]
  simp [slowSetDone, he, hr, off, hw]

/-- The set of a physical event on the local target k that holds it. -/
theorem slowSetAt_local {s : State} {g : BitVec 14} {ev : EventId} (hl : isLocal s g = true)
    (hh : slowHolder s (g.toNat % 128) ev = g.toNat % 128) (w : MWrite) (a : Attr) (q : Nat) :
    slowSetAt s (.tgt g) w ev a q = noteState (markLive (putBit (freeSlow s w.wid) (g.toNat % 128) none ev true)
      (g.toNat % 128) false ev a.prio) (g.toNat % 128) false ev := by
  simp only [slowSetAt, hl, if_true, hh]

theorem gives_slowSetDone_failed {s : State} {n : BitVec 6} {e : Slow} {r : XRes} (h : running s = true)
    (he : s.msg.slow[n.toNat]? = some e) (hr : e.stage = .set r) (hf : s.failures (.slowSet n) = 0) (hc : NoClears s)
    (hw : setWaits s (redirDest s (destOf r) r.ev) r.ev e.w.wid = false) (hq : s.err.queue.length < 16)
    (hen : r.virt = true ∨ s.rnkEn = true) : Gives (.slowSetDone n true) s fun t =>
      t = { s with msg := { s.msg with slow := s.msg.slow.filter fun x => decide (x.w.wid ≠ e.w.wid) }, regs := t.regs,
                   err := t.err } ∧
      Flagged s t 1 Reg.MSG_ERR 6 0 (!s.bit Reg.MSG_ERR_LOG0 31) := by
  refine gives_intro (exec_slowSetDone h hf true) ?_
  rw [slowSetDone_set he hr hen hw, if_pos rfl]
  obtain ⟨ht, hflag, -, -⟩ := msgDropped_msgErr (s := freeSlow s e.w.wid) (i := 6) e.w hq (by decide)
  generalize msgErr (freeSlow s e.w.wid) e.w 6 = t at ht hflag ⊢
  have lanes : t.lanes = s.lanes := by
    rw [ht]
    rfl
  have coh : t.coh = s.coh := by
    rw [ht]
    rfl
  rw [lanesDrain_noClears (by rwa [NoClears, lanes]), served_eq (by rw [Serves, coh])]
  exact ⟨ht, hflag⟩

theorem gives_slowSetDone_made {s : State} {n : BitVec 6} {e : Slow} {r : XRes} {g : BitVec 14} (h : running s = true)
    (he : s.msg.slow[n.toNat]? = some e) (hr : e.stage = .set r) (hf : s.failures (.slowSet n) = 0) (hc : NoClears s)
    (hw : setWaits s (redirDest s (destOf r) r.ev) r.ev e.w.wid = false) (hen : s.rnkEn = true) (hm : Memory.wf s.mem = true)
    (hd : redirDest s (destOf r) r.ev = .tgt g) (hl : isLocal s g = true)
    (hh : slowHolder s (g.toNat % 128) r.ev = g.toNat % 128) (ho : Owned s (bitAddr s (g.toNat % 128) none r.ev) 1) :
    Gives (.slowSetDone n false) s fun t =>
      let k := g.toNat % 128
      t = { s with msg := { s.msg with slow := s.msg.slow.filter fun x => decide (x.w.wid ≠ e.w.wid) }, mem := t.mem,
                   coh := t.coh, tg := t.tg, win := t.win, wft := t.wft } ∧
      BitPut s t k none r.ev true ∧ (∀ j, j ≠ k → t.tgt j = s.tgt j) ∧
      Tbl.get Sum.empty (t.tgt k).sumP (chunkOf r.ev) =
        (Tbl.get Sum.empty (s.tgt k).sumP (chunkOf r.ev)).mark r.attr.prio (leadOff r.ev) := by
  refine gives_intro (exec_slowSetDone h hf false) ?_
  rw [slowSetDone_set he hr (.inr hen) hw, if_neg (by decide), hd, slowSetAt_local hl hh]
  have raised : BitRaised (freeSlow s e.w.wid) _ (g.toNat % 128) r.ev r.attr.prio :=
    bitRaised_noteState r.attr.prio hm ho
  generalize noteState _ (g.toNat % 128) false r.ev = t at raised ⊢
  obtain ⟨ht, hbit, hothers, hsum⟩ := raised
  have lanes : t.lanes = s.lanes := by
    rw [ht]
    rfl
  have serves : Serves s t := hbit.1.serves
  rw [lanesDrain_noClears (by rwa [NoClears, lanes]), served_eq serves]
  exact ⟨ht, hbit, hothers, hsum⟩

/-! ### The fence (05 R110) -/

theorem accessed_msg (s : State) (acc : RegAcc) (off : Nat) : (accessed s acc off).msg = s.msg := by rw [accessed_frame]

/-- A write that reached registers and the ingress, as the answer leaves it. -/
theorem replied_ingress {s t : State} {acc : RegAcc} {off : Nat}
    (ht : t = { accessed s acc off with msg := t.msg, regs := t.regs }) :
    replied s acc t false 0 = { seen s acc off with msg := t.msg, regs := t.regs } := by
  rw [seen, ← replied_accessed]
  generalize t.msg = msg, t.regs = regs at ht ⊢
  subst ht
  unfold replied
  split
  · dsimp only [portAnswer, portShow]
    split <;> rfl
  · rfl

theorem setBitR_fence (s : State) (b : Bool) :
    s.setBitR Reg.MSG_FENCE 1 b = { s with regs := (s.setBitR Reg.MSG_FENCE 1 b).regs } := by
  unfold State.setBitR
  apply State.ext <;> simp
  exact wr_prf_unproofed _ _ (by decide)

theorem bit_setBitR_fence (s : State) (b : Bool) : (s.setBitR Reg.MSG_FENCE 1 b).bit Reg.MSG_FENCE 1 = b := by
  rw [State.bit, rd_setBitR, if_pos rfl, bitAt, getLsbD_setBit _ _ _ _ (by decide), if_pos rfl]

theorem regsApart_setBitR (s : State) (off i : Nat) (b : Bool) : RegsApart s (s.setBitR off i b) [off] := by
  intro j hj
  rw [rd_setBitR, if_neg (by simpa using hj)]

/-- The row of MSG_FENCE. -/
def fenceRow : RegRow := { off := 0x3902C, rst := 0x2, rd := 0x3, w1s := 0x1 }

theorem regRow_fence (p : Par) : regRow p Reg.MSG_FENCE = some fenceRow := rfl

theorem fence_written (s : State) {d : W32} (hd : d.getLsbD 0 = true) (src : Src) :
    wordWritten s Reg.MSG_FENCE fenceRow d true true src = openFence s := by
  have checks : runChecks (reachable fenceRow true true) (flatChecks s Reg.MSG_FENCE d) = (1, []) := rfl
  have request : bitAt (d &&& (1 ||| 0) &&& 1) 0 = true := by simp [bitAt, hd]
  rw [wordWritten_taken rfl checks (by decide)]
  exact if_pos request

theorem exec_msgFenceReq (acc : RegAcc) (s : State) : exec (.msgFenceReq acc) s = .next (regWrite s Reg.MSG_FENCE acc) := rfl

theorem gives_msgFenceReq {s : State} {acc : RegAcc} (h : running s = true) (ha : Admits s acc) (hp : acc.priv = true)
    (hs : acc.sec = true) (hd : acc.data.getLsbD 0 = true) : Gives (.msgFenceReq acc) s fun t =>
      t = { seen s acc Reg.MSG_FENCE with msg := { s.msg with fence := some s.msg.nextW }, regs := t.regs } ∧
      t.bit Reg.MSG_FENCE 1 = false ∧ RegsApart s t [Reg.MSG_FENCE] := by
  refine gives_intro (exec_msgFenceReq acc s) ?_
  rw [regWrite_secure h ha hp hs (.inr (by decide)) (by decide) (by decide) (regRow_fence _), fence_written _ hd]
  refine ⟨?_, ?_, regsApart_replied (off := Reg.MSG_FENCE) (regsApart_setBitR _ _ _ _)⟩
  · have fenced : (openFence (accessed s acc Reg.MSG_FENCE)).msg = { s.msg with fence := some s.msg.nextW } := by
      rw [openFence, setBitR_msg, accessed_msg]
    rw [replied_regs, ← fenced]
    refine replied_ingress ?_
    rw [fenced, ← accessed_msg s acc Reg.MSG_FENCE]
    exact setBitR_fence ..
  · rw [bit_replied]
    exact bit_setBitR_fence ..

theorem fenceDone_clear {s : State} {n : Nat} (hf : s.msg.fence = some n) (hc : ∀ w ∈ liveWids s, n ≤ w) :
    fenceDone s = ({ s with msg := { s.msg with fence := none } }).setBitR Reg.MSG_FENCE 1 true := by
  have clear : fenceClear s n = true := by simpa [fenceClear] using hc
  simp [fenceDone, hf, clear]

theorem polls_msgFenceDone {s : State} {n : Nat} (hf : s.msg.fence = some n) (hc : ∀ w ∈ liveWids s, n ≤ w) :
    Polls .msgFenceDone s fun t => t = { s with msg := { s.msg with fence := none }, regs := t.regs } ∧
      t.bit Reg.MSG_FENCE 1 = true ∧ RegsApart s t [Reg.MSG_FENCE] := by
  refine ⟨fenceDone s, rfl, ?_⟩
  rw [fenceDone_clear hf hc]
  exact ⟨setBitR_fence .., bit_setBitR_fence .., regsApart_setBitR _ _ _ _⟩

end Sys2Proof.Machine
end

section
namespace Sys2Proof.Machine

/-! ### What the error path leaves of the registers (18 R427)

A flag that finds the log's queue full is counted and told to the Burins, which may wake the block, and raises the error
event, which may merge, spill or be discarded at its target (09 R208). -/

/-- The words outside the targets' frames that an occurrence can change, its flag apart. -/
def occWords : List Nat :=
  [Reg.GLB_ELOG_STAT, Reg.PWR_STAT, Reg.PWR_LAST_WAKE, Reg.PWR_IDLE_CNT, Reg.RNK_DIRECT_CNT, Reg.RNK_DIRECT_CNT + 4]

/-- From `s₀` to `s` no other word below the targets' frames has changed. -/
def OccApart (s₀ s : State) : Prop := ∀ j, j < 0x100000 → j ∉ occWords → s.rd j = s₀.rd j

namespace OccApart

variable {s₀ s : State}

theorem refl : OccApart s s := fun _ _ _ => rfl

theorem ite {p : Prop} [Decidable p] {t : State} (hs : OccApart s₀ s) (ht : OccApart s₀ t) : OccApart s₀ (if p then s else t) := by
  split
  · exact hs
  · exact ht

theorem wr {off : Nat} {v : W32} (ho : off ∈ occWords ∨ 0x100000 ≤ off) (h : OccApart s₀ s) : OccApart s₀ (s.wr off v) := by
  intro j hj hn
  have other : j ≠ off := by
    rintro rfl
    rcases ho with ho | ho
    · exact hn ho
    · omega
  rw [rd_wr_other _ _ other, h j hj hn]

theorem setFld {off hi lo v : Nat} (ho : off ∈ occWords ∨ 0x100000 ≤ off) (h : OccApart s₀ s) :
    OccApart s₀ (s.setFld off hi lo v) := .wr ho h

theorem setBitR {off i : Nat} {b : Bool} (ho : off ∈ occWords ∨ 0x100000 ≤ off) (h : OccApart s₀ s) :
    OccApart s₀ (s.setBitR off i b) := .wr ho h

/-- Waking (17 R405, R417). -/
theorem abandonPrep (h : OccApart s₀ s) : OccApart s₀ (abandonPrep s) :=
  .ite (.wr (.inl (by decide)) (.setFld (.inl (by decide)) h)) h

theorem lastWake {code idx : Nat} (h : OccApart s₀ s) : OccApart s₀ (lastWake s code idx) := .wr (.inl (by decide)) h

theorem beginWake {code idx : Nat} (h : OccApart s₀ s) : OccApart s₀ (beginWake s code idx) :=
  .ite (.lastWake (s := secondsPass s) h) (.lastWake (s := secondsPass s) h)

theorem wake {code idx : Nat} (h : OccApart s₀ s) : OccApart s₀ (wake s code idx) := by
  have prep : OccApart s₀ (Machine.abandonPrep s) := .abandonPrep h
  unfold Machine.wake
  dsimp only
  split
  · exact prep
  · exact .ite prep prep
  · exact .ite (.beginWake prep) prep
  · exact prep
  · exact .ite (.setFld (.inl (by decide)) (.lastWake prep)) prep

theorem ipendBit {i : Nat} (h : OccApart s₀ s) : OccApart s₀ (ipendBit s i) := .ite (.wake (s := withIpend s i) h) h

theorem occQuiet {src flag unit : Nat} {fresh : Bool} (h : OccApart s₀ s) : OccApart s₀ (occQuiet s src flag unit fresh) :=
  .ite h (.ipendBit (.setFld (.inl (by decide)) h))

theorem flagQuiet {src off i unit : Nat} {fresh : Bool} (ho : 0x100000 ≤ off) (h : OccApart s₀ s) :
    OccApart s₀ (flagQuiet s src off i unit fresh) :=
  .ite h (.occQuiet (.setBitR (.inr ho) h))

/-- A physical insert that a tree's queue has no room for merges or spills (07 R160). -/
theorem treePut {k : Nat} {o : TOp} (ho : o.virt = false) (h : OccApart s₀ s) : OccApart s₀ (treePut s k o) := by
  have counted : OccApart s₀ (s.cnt64 Reg.RNK_DIRECT_CNT) := .wr (.inl (by decide)) (.wr (.inl (by decide)) h)
  unfold Machine.treePut
  refine .ite h (.ite ?_ h)
  split
  next t ht =>
    rw [insMeets_frame s ho ht]
    exact h
  next => exact .ite counted counted

theorem errEvent {src : Nat} (h : OccApart s₀ s) : OccApart s₀ (errEvent s src) :=
  .ite (.ite (.flagQuiet (by unfold tgtOff; omega) h) (.treePut rfl h)) h

theorem occ {src flag unit : Nat} {fresh : Bool} (h : OccApart s₀ s) : OccApart s₀ (occ s src flag unit fresh) :=
  .ite (.occQuiet h) (.errEvent (.occQuiet h))

end OccApart

section
variable (s : State) (src unit : Nat) (fresh : Bool) {off i : Nat}

/-- A flag that is raised is set, whether or not its occurrence finds room. -/
theorem bit_setFlag (ho : off < 0x100000) (hn : off ∉ occWords) (hi : i < 32) :
    (setFlag s src off i unit fresh).bit off i = true := by
  unfold setFlag
  split
  · assumption
  · rw [State.bit, OccApart.occ .refl off ho hn, rd_setBitR, if_pos rfl, bitAt, getLsbD_setBit _ _ _ _ hi, if_pos rfl]

theorem rd_setFlag_other {j : Nat} (hj : j < 0x100000) (hn : j ∉ occWords) (ho : j ≠ off) :
    (setFlag s src off i unit fresh).rd j = s.rd j := by
  unfold setFlag
  split
  · rfl
  · rw [OccApart.occ .refl j hj hn, rd_setBitR, if_neg ho]

end

/-! ### MSG_PQ_CFG (05 R111, R117, R119) -/

/-- The row of MSG_PQ_CFG. -/
def pqCfgRow : RegRow := { off := 0x39004, rst := 0x40000400, rd := 0x7FFF7FFF, rw := 0x7FFF7FFF, priv := 0x7FFF7FFF }

theorem regRow_pqCfg (p : Par) : regRow p Reg.MSG_PQ_CFG = some pqCfgRow := rfl

theorem mask_pqCfg : reachable pqCfgRow true true = 0x7FFF7FFF := by decide

theorem checks_pqCfg (s : State) (d : W32) : flatChecks s Reg.MSG_PQ_CFG d =
    [fchk 14 0 false (pqRsvBad s d), fchk 30 16 false (outside (pqRsv s d) 16384 (field d 30 16))] := rfl

/-- RSV of a write is judged by the Panels' commitments, which the access itself does not touch. -/
theorem pqRsvBad_accessed (s : State) (acc : RegAcc) (off : Nat) (d : W32) : pqRsvBad (accessed s acc off) d = pqRsvBad s d := by
  rw [accessed_frame]
  rfl

theorem pqCfg_taken {s : State} {d : W32} (hr : pqRsvBad s d = false) (hl : field d 14 0 ≤ field d 30 16)
    (hh : field d 30 16 ≤ 16384) (src : Src) : wordWritten s Reg.MSG_PQ_CFG pqCfgRow d true true src =
      s.wr Reg.MSG_PQ_CFG ((s.rd Reg.MSG_PQ_CFG &&& ~~~0x7FFF7FFF) ||| (d &&& 0x7FFF7FFF)) := by
  have good : outside (pqRsv s d) 16384 (field d 30 16) = false := by
    simp only [outside, pqRsv, hr, Bool.false_eq_true, if_false, Bool.or_eq_false_iff, decide_eq_false_iff_not]
    omega
  have checks : runChecks (reachable pqCfgRow true true) (flatChecks s Reg.MSG_PQ_CFG d) = (0x7FFF7FFF, []) := by
    rw [checks_pqCfg, mask_pqCfg, hr, good]
    decide
  rw [wordWritten_taken rfl checks (by decide)]
  exact congrArg (s.wr Reg.MSG_PQ_CFG) (value_rw rfl (by decide) _)

/-- The bits that a write with a reserved RSV leaves to CAP, which is in range or not. -/
def capBits (bad : Bool) : W32 := if bad then 0 else 0x7FFF0000

/-- The fields that such a write flags. -/
def capKinds (bad : Bool) : List Nat := if bad then [1, 1] else [1]

theorem capKinds_reserved : ∀ bad, ∀ k ∈ capKinds bad, k = 1 := by decide

theorem runChecks_reservedRsv : ∀ bad, runChecks 0x7FFF7FFF [fchk 14 0 false true, fchk 30 16 false bad] =
    (capBits bad, capKinds bad) := by decide

theorem capBits_low : ∀ bad, ∀ j ≤ 14, ((0x7FFF7FFF : W32) &&& capBits bad).getLsbD j = false := by decide

/-- A write that reaches CAP alone. -/
theorem pqCfg_capWritten (s : State) (d : W32) (bad : Bool) (kinds : List Nat) (src : Src) :
    let t := applyWord s ⟨Reg.MSG_PQ_CFG, pqCfgRow, d, capBits bad, kinds⟩ d true src
    t.msg = s.msg ∧ t.fld Reg.MSG_PQ_CFG 14 0 = s.fld Reg.MSG_PQ_CFG 14 0 ∧ RegsApart s t [Reg.MSG_PQ_CFG] := by
  rw [applyWord_plain rfl]
  split
  · exact ⟨rfl, rfl, fun _ _ => rfl⟩
  · have value := value_rw (off := Reg.MSG_PQ_CFG) (row := pqCfgRow) (d := d) (m := capBits bad) (kinds := kinds) rfl rfl
      (s.rd Reg.MSG_PQ_CFG)
    have written : applyFlat s ⟨Reg.MSG_PQ_CFG, pqCfgRow, d, capBits bad, kinds⟩ src = s.wr Reg.MSG_PQ_CFG _ :=
      congrArg (s.wr Reg.MSG_PQ_CFG) value
    rw [written]
    refine ⟨wr_msg .., ?_, fun j hj => rd_wr_other _ _ (by simpa using hj)⟩
    rw [State.fld, rd_wr_same]
    refine field_congr fun j _ hj => ?_
    rw [getLsbD_merge, show (pqCfgRow.rw &&& capBits bad).getLsbD j = false from capBits_low bad j hj, if_neg (by decide)]

/-- A reserved RSV is flagged, and neither the field nor the live reservation takes it. -/
theorem pqCfg_reserved (s : State) {d : W32} (hd : 16384 < field d 14 0) (src : Src) :
    let t := wordWritten s Reg.MSG_PQ_CFG pqCfgRow d true true src
    t.fld Reg.MSG_PQ_CFG 14 0 = s.fld Reg.MSG_PQ_CFG 14 0 ∧ t.bit Reg.GLB_ERR 1 = true ∧ t.msg = s.msg := by
  have bad : pqRsvBad s d = true := by simp [pqRsvBad, hd]
  rw [wordWritten, wordPlan_plain rfl, mask_pqCfg, checks_pqCfg, bad, runChecks_reservedRsv]
  dsimp only
  generalize outside (pqRsv s d) 16384 (field d 30 16) = cap
  have flagged : capKinds cap ≠ [] := by cases cap <;> decide
  rw [flagPlans_one (kind := 1) flagged (capKinds_reserved cap) (by decide)]
  obtain ⟨hcap, -, -, hapart⟩ := captured_foldl flagged (capKinds_reserved cap) (off := flagOff Reg.MSG_PQ_CFG) (by decide)
    (by decide) src s
  generalize (capKinds cap).foldl (fun s k => glbCapture s (flagOff Reg.MSG_PQ_CFG) src k) s = u at hcap hapart
  have word : (setFlag u 0 Reg.GLB_ERR 1 0 true).rd Reg.MSG_PQ_CFG = s.rd Reg.MSG_PQ_CFG :=
    (rd_setFlag_other u 0 0 true (by decide) (by decide) (by decide)).trans (hapart _ (by decide))
  have flag := bit_setFlag u 0 0 true (off := Reg.GLB_ERR) (i := 1) (by decide) (by decide) (by decide)
  have msg : (setFlag u 0 Reg.GLB_ERR 1 0 true).msg = s.msg := by rw [setFlag_msg, hcap]
  generalize setFlag u 0 Reg.GLB_ERR 1 0 true = v at word flag msg
  obtain ⟨hmsg, hfld, hrest⟩ := pqCfg_capWritten v d cap (capKinds cap) src
  refine ⟨hfld.trans (congrArg (field · 14 0) word), ?_, hmsg.trans msg⟩
  exact (congrArg (bitAt · 1) (hrest Reg.GLB_ERR (by decide))).trans flag

theorem exec_msgPqCfgWrite (acc : RegAcc) (s : State) : exec (.msgPqCfgWrite acc) s = .next (regWrite s Reg.MSG_PQ_CFG acc) := rfl

section
variable {s : State} {acc : RegAcc}

theorem regWrite_pqCfg (h : running s = true) (ha : Admits s acc) (hp : acc.priv = true) (hs : acc.sec = true) :
    regWrite s Reg.MSG_PQ_CFG acc = replied s acc
      (wordWritten (accessed s acc Reg.MSG_PQ_CFG) Reg.MSG_PQ_CFG pqCfgRow acc.data true true acc.src) false 0 :=
  regWrite_secure h ha hp hs (.inr (by decide)) (by decide) (by decide) (regRow_pqCfg _)

theorem gives_msgPqCfg_taken (h : running s = true) (ha : Admits s acc) (hp : acc.priv = true) (hs : acc.sec = true)
    (hr : pqRsvBad s acc.data = false) (hl : field acc.data 14 0 ≤ field acc.data 30 16) (hh : field acc.data 30 16 ≤ 16384) :
    Gives (.msgPqCfgWrite acc) s fun t =>
      t = { seen s acc Reg.MSG_PQ_CFG with regs := t.regs, prf := t.prf } ∧
      t.fld Reg.MSG_PQ_CFG 14 0 = field acc.data 14 0 ∧ t.fld Reg.MSG_PQ_CFG 30 16 = field acc.data 30 16 ∧
      RegsApart s t [Reg.MSG_PQ_CFG] := by
  refine gives_intro (exec_msgPqCfgWrite acc s) ?_
  rw [regWrite_pqCfg h ha hp hs, pqCfg_taken (by rwa [pqRsvBad_accessed]) hl hh]
  have rsv : ∀ j ≤ 14, (0x7FFF7FFF : W32).getLsbD j = true := by decide
  have cap : ∀ j ≤ 30, 16 ≤ j → (0x7FFF7FFF : W32).getLsbD j = true := by decide
  refine ⟨?_, ?_, ?_, regsApart_replied fun j hj => rd_wr_other _ _ (by simpa using hj)⟩
  · rw [replied_regs, replied_prf]
    exact replied_written (by apply State.ext <;> simp)
  · rw [fld_replied, State.fld, rd_wr_same]
    exact field_congr fun j _ hj => by rw [getLsbD_merge, rsv j hj, if_pos rfl]
  · rw [fld_replied, State.fld, rd_wr_same]
    exact field_congr fun j hj hj' => by rw [getLsbD_merge, cap j hj' hj, if_pos rfl]

theorem gives_msgPqCfg_reserved (h : running s = true) (ha : Admits s acc) (hp : acc.priv = true) (hs : acc.sec = true)
    (hd : 16384 < field acc.data 14 0) : Gives (.msgPqCfgWrite acc) s fun t =>
      t.fld Reg.MSG_PQ_CFG 14 0 = s.fld Reg.MSG_PQ_CFG 14 0 ∧ t.bit Reg.GLB_ERR 1 = true ∧ t.msg = s.msg := by
  refine gives_intro (exec_msgPqCfgWrite acc s) ?_
  rw [regWrite_pqCfg h ha hp hs]
  obtain ⟨hfld, hbit, hmsg⟩ := pqCfg_reserved (accessed s acc Reg.MSG_PQ_CFG) hd acc.src
  generalize wordWritten (accessed s acc Reg.MSG_PQ_CFG) Reg.MSG_PQ_CFG pqCfgRow acc.data true true acc.src = t at hfld hbit hmsg ⊢
  refine ⟨?_, (bit_replied ..).trans hbit, ?_⟩
  · rw [fld_replied, hfld]
    exact congrArg (field · 14 0) (rd_accessed ..)
  · rw [replied_frame]
    exact hmsg.trans (accessed_msg ..)

end

/-- Settles O20: the set and its failure, the fence's two ends, and MSG_PQ_CFG by what RSV is. -/
theorem slowPathAndFence : Obligations.SlowPathAndFence := by
  unfold Obligations.SlowPathAndFence
  exact ⟨fun s n e r h he hr hf hc hw => ⟨fun hq hen => gives_slowSetDone_failed h he hr hf hc hw hq hen,
      fun g hen hm hd hl _ hh ho => gives_slowSetDone_made h he hr hf hc hw hen hm hd hl hh ho⟩,
    fun s acc h ha hp hs hd => gives_msgFenceReq h ha hp hs hd, fun s n hf hc => polls_msgFenceDone hf hc,
    fun s acc h ha hp hs => ⟨fun hr hl hh => gives_msgPqCfg_taken h ha hp hs hr hl hh,
      fun hd => gives_msgPqCfg_reserved h ha hp hs hd⟩⟩

end Sys2Proof.Machine
end

section
namespace Sys2Proof.Machine

/-! ### A write whose every field is locked (16 R380, R386, R387) -/

/-- The plan of a word of register `reg` of which nothing takes effect, each of its fields being locked. -/
def LockedOut (reg : Nat) (p : WPlan) : Prop :=
  plainOff p.off = true ∧ flagOff p.off = reg ∧ p.m = 0 ∧ p.kinds ≠ [] ∧ ∀ k ∈ p.kinds, k = 0

section
variable {reg : Nat} {ps : List WPlan}

theorem captured_lockedOut (ho : reg < 2 ^ 24) (hn : ps ≠ []) (hp : ∀ p ∈ ps, LockedOut reg p) (src : Src) (s : State) :
    Captured s (ps.foldl (fun s p => p.kinds.foldl (fun s k => glbCapture s (flagOff p.off) src k) s) s) reg 0 := by
  induction ps generalizing s with
  | nil => exact absurd rfl hn
  | cons p l ih =>
    obtain ⟨⟨-, rfl, -, hk, hz⟩, hl⟩ := List.forall_mem_cons.1 hp
    have first := captured_foldl hk hz ho (by decide) src s
    cases l with
    | nil => exact first
    | cons q l => exact first.trans (ih (by simp) hl _)

/-- Its flags are LOCK_WRITE alone, one occurrence whatever the number of fields. -/
theorem flagPlans_lockedOut (hn : ps ≠ []) (hp : ∀ p ∈ ps, LockedOut reg p) (src : Src) (s : State) :
    flagPlans src s ps = setFlag
      (ps.foldl (fun s p => p.kinds.foldl (fun s k => glbCapture s (flagOff p.off) src k) s) s) 0 Reg.GLB_ERR 0 0 true := by
  have lock : (ps.any fun p => p.kinds.contains 0) = true := by
    obtain ⟨p, hm⟩ := List.exists_mem_of_ne_nil _ hn
    obtain ⟨-, -, -, hk, hz⟩ := hp p hm
    obtain ⟨k, hkm⟩ := List.exists_mem_of_ne_nil _ hk
    have := hz k hkm
    exact List.any_eq_true.2 ⟨p, hm, by simpa [this] using hkm⟩
  have rsv : (ps.any fun p => p.kinds.contains 1) = false := by
    refine List.any_eq_false.2 fun p hm => ?_
    obtain ⟨-, -, -, -, hz⟩ := hp p hm
    simpa using fun h => absurd (hz 1 h) (by decide)
  unfold flagPlans
  simp only [lock, rsv, if_true, Bool.false_eq_true, if_false]

/-- A flag of GLB_ERR on a state that has captured the access. -/
theorem Captured.writeFlagged {s u : State} {off kind : Nat} (hc : Captured s u off kind) (hq : s.err.queue.length < 16)
    (hk : kind < 2) : WriteFlagged s (setFlag u 0 Reg.GLB_ERR kind 0 true) off kind := by
  obtain ⟨hu, hoff, hbit, hapart⟩ := hc
  have herr : u.err = s.err := by rw [hu]
  have hcount : u.count = s.count := by rw [hu]
  have hold : u.bit Reg.GLB_ERR kind = s.bit Reg.GLB_ERR kind := congrArg (bitAt · kind) (hapart _ (by decide))
  obtain ⟨⟨hset, hqueue⟩, ht, hrest⟩ := setFlag_spec (s := u) (off := Reg.GLB_ERR) (i := kind) 0 0 true (by rwa [herr])
    (by decide) (by omega)
  generalize setFlag u 0 Reg.GLB_ERR kind 0 true = t at hset hqueue ht hrest
  have haddr : t.rd Reg.GLB_ERR_ADDR = u.rd Reg.GLB_ERR_ADDR := hrest _ (by decide)
  refine ⟨by rw [ht, hu], ⟨hset, by rw [hqueue, herr, hcount, hold]⟩, (congrArg (field · 23 0) haddr).trans hoff,
    (congrArg (bitAt · 26) haddr).trans hbit, fun j hj => ?_⟩
  obtain ⟨h0, h1⟩ : j ≠ Reg.GLB_ERR ∧ j ∉ [Reg.GLB_ERR_ADDR, Reg.GLB_ERR_ADDR + 4] := by simpa using hj
  exact (hrest j (by simpa using h0)).trans (hapart j h1)

/-- Of a state whose log may have no room: the flag and the captured access. -/
theorem Captured.flags {s u : State} {off kind : Nat} (hc : Captured s u off kind) (hk : kind < 2) :
    let t := setFlag u 0 Reg.GLB_ERR kind 0 true
    t.bit Reg.GLB_ERR kind = true ∧ t.fld Reg.GLB_ERR_ADDR 23 0 = off ∧ t.bit Reg.GLB_ERR_ADDR 26 = decide (kind = 1) ∧
    t.port = s.port ∧
    ∀ j, j < 0x100000 → j ∉ occWords → j ∉ [Reg.GLB_ERR, Reg.GLB_ERR_ADDR, Reg.GLB_ERR_ADDR + 4] → t.rd j = s.rd j := by
  obtain ⟨hu, hoff, hbit, hapart⟩ := hc
  have haddr : (setFlag u 0 Reg.GLB_ERR kind 0 true).rd Reg.GLB_ERR_ADDR = u.rd Reg.GLB_ERR_ADDR :=
    rd_setFlag_other u 0 0 true (by decide) (by decide) (by decide)
  refine ⟨bit_setFlag u 0 0 true (by decide) (by decide) (by omega), (congrArg (field · 23 0) haddr).trans hoff,
    (congrArg (bitAt · 26) haddr).trans hbit, by rw [setFlag_port, hu], fun j hj hn hl => ?_⟩
  obtain ⟨h0, h1⟩ : j ≠ Reg.GLB_ERR ∧ j ∉ [Reg.GLB_ERR_ADDR, Reg.GLB_ERR_ADDR + 4] := by simpa using hl
  exact (rd_setFlag_other u 0 0 true hj hn h0).trans (hapart j h1)

end

/-! ### The words of a legal write (16 R377, R380) -/

/-- The plans of a write's words. -/
def plansOf (s : State) (ws : List (Nat × W32)) (data : W64) (priv sec : Bool) : List WPlan :=
  ws.filterMap fun w => (regRow s.par w.1).map fun row => planWord s w.1 row (laneOf data w.1) w.2 priv sec

theorem writeWords_plain {s : State} {ws : List (Nat × W32)} {data : W64} {priv sec : Bool}
    (hp : ∀ p ∈ plansOf s ws data priv sec, plainOff p.off = true) (src : Src) :
    writeWords s ws data priv sec src = (plansOf s ws data priv sec).foldl
      (fun s p => applyWord s p (laneOf data p.off) sec src) (flagPlans src s (plansOf s ws data priv sec)) := by
  have win : (plansOf s ws data priv sec).any (fun p => isWinOff p.off) = false :=
    List.any_eq_false.2 fun p hm => by
      obtain ⟨hw, -⟩ := plainOff_iff.1 (hp p hm)
      simp [hw]
  unfold plansOf at win ⊢
  simp only [writeWords, win, Bool.false_eq_true, if_false]

theorem plansOf_cons {s : State} {w : Nat} {row : RegRow} (hr : regRow s.par w = some row) (m : W32) (ws : List (Nat × W32))
    (data : W64) (priv sec : Bool) : plansOf s ((w, m) :: ws) data priv sec =
      planWord s w row (laneOf data w) m priv sec :: plansOf s ws data priv sec := by
  simp [plansOf, hr]

/-- Plans without a guarded field raise no flag. -/
theorem flagPlans_quiet (src : Src) (s : State) {ps : List WPlan} (h : ∀ p ∈ ps, p.kinds = []) : flagPlans src s ps = s := by
  have none : ∀ k, (ps.any fun p => p.kinds.contains k) = false := fun k =>
    List.any_eq_false.2 fun p hp => by simp [h p hp]
  have captures : ps.foldl (fun s p => p.kinds.foldl (fun s k => glbCapture s (flagOff p.off) src k) s) s = s := by
    clear none
    induction ps with
    | nil => rfl
    | cons p l ih =>
      obtain ⟨hp, hl⟩ := List.forall_mem_cons.1 h
      rw [List.foldl_cons, hp]
      exact ih hl
  simp only [flagPlans, none, captures, Bool.false_eq_true, if_false]

theorem writeWords_lockedOut {s : State} {ws : List (Nat × W32)} {data : W64} {priv sec : Bool} {reg : Nat}
    (hp : ∀ p ∈ plansOf s ws data priv sec, LockedOut reg p) (src : Src) :
    writeWords s ws data priv sec src = flagPlans src s (plansOf s ws data priv sec) := by
  rw [writeWords_plain fun p hm => (hp p hm).1]
  generalize flagPlans src s (plansOf s ws data priv sec) = u
  generalize plansOf s ws data priv sec = ps at hp
  induction ps with
  | nil => rfl
  | cons p l ih =>
    obtain ⟨⟨hpl, -, hm, -⟩, hl⟩ := List.forall_mem_cons.1 hp
    rw [List.foldl_cons, applyWord_plain hpl, if_pos hm]
    exact ih hl

end Sys2Proof.Machine
end

section
namespace Sys2Proof.Machine

/-! ### XLT_SRC_BASE and XLT_ATT_BASE (06 R147) -/

/-- The words of XLT_SRC_BASE and XLT_ATT_BASE. -/
def xltBaseWords : List Nat := [Reg.XLT_SRC_BASE, Reg.XLT_SRC_BASE + 4, Reg.XLT_ATT_BASE, Reg.XLT_ATT_BASE + 4]

/-- The bits of such a word that a write reaches: BITS and [31:12] of the lower half, [51:32] in the upper. -/
def xltBaseMask (w : Nat) : W32 := if w % 8 = 0 then 0xFFFFF01F else 0xFFFFF

/-- The BITS field of a write of the lower half is reserved. -/
def xltBaseRsv (w : Nat) (d : W32) : Bool :=
  if w = Reg.XLT_SRC_BASE then outside 1 24 (field d 4 0) else outside 13 21 (field d 4 0)

theorem forall_xltBaseWords {P : Nat → Prop} (h0 : P Reg.XLT_SRC_BASE) (h1 : P (Reg.XLT_SRC_BASE + 4)) (h2 : P Reg.XLT_ATT_BASE)
    (h3 : P (Reg.XLT_ATT_BASE + 4)) : ∀ w ∈ xltBaseWords, P w := by
  simp only [xltBaseWords, List.forall_mem_cons]
  exact ⟨h0, h1, h2, h3, by simp⟩

theorem plainOff_xltBase : ∀ w ∈ xltBaseWords, plainOff w = true := by decide

/-- The row of such a word is RW in its bits, and no field of it is SEC. -/
theorem regRow_xltBase (p : Par) : ∀ w ∈ xltBaseWords, ∃ row, regRow p w = some row ∧ row.w1c = 0 ∧
    row.rw &&& xltBaseMask w = xltBaseMask w ∧ ∀ sec, reachable row true sec = xltBaseMask w :=
  forall_xltBaseWords ⟨_, rfl, rfl, by decide, by decide⟩ ⟨_, rfl, rfl, by decide, by decide⟩
    ⟨_, rfl, rfl, by decide, by decide⟩
    ⟨_, rfl, rfl, by decide, by decide⟩

theorem checks_xltBase (s : State) (d : W32) : ∀ w ∈ xltBaseWords, flatChecks s w d =
    if w % 8 = 0 then [fchk 4 0 (xltEn s) (xltBaseRsv w d), fchk 31 12 (xltEn s) false] else wholeChk (xltEn s) :=
  forall_xltBaseWords rfl rfl rfl rfl

/-- With XLT_CTRL.EN 1 every field of such a word is locked. -/
theorem locked_xltBase {s : State} (h : xltEn s = true) (d : W32) {w : Nat} (hw : w ∈ xltBaseWords) : ∃ kinds,
    runChecks (xltBaseMask w) (flatChecks s w d) = (0, kinds) ∧ kinds ≠ [] ∧ ∀ k ∈ kinds, k = 0 := by
  rw [checks_xltBase s d w hw, h, xltBaseMask]
  split
  · have lower : ∀ rsv, runChecks 0xFFFFF01F [fchk 4 0 true rsv, fchk 31 12 true false] = (0, [0, 0]) := by decide
    exact ⟨[0, 0], lower _, by simp⟩
  · exact ⟨[0], by decide, by simp⟩

/-- With EN 0 a write whose BITS field is legal is free. -/
theorem free_xltBase {s : State} (h : xltEn s = false) {d : W32} {w : Nat} (hw : w ∈ xltBaseWords)
    (hl : w % 8 = 0 → xltBaseRsv w d = false) : runChecks (xltBaseMask w) (flatChecks s w d) = (xltBaseMask w, []) := by
  rw [checks_xltBase s d w hw, h, xltBaseMask]
  split
  next h8 =>
    rw [hl h8]
    decide
  next => decide

theorem lockedOut_xltBase {s : State} (h : xltEn s = true) {w : Nat} (hw : w ∈ xltBaseWords) {row : RegRow}
    (hr : regRow s.par w = some row) (d : W32) (sec : Bool) :
    LockedOut (w - w % 8) (planWord s w row d 0xFFFFFFFF true sec) := by
  obtain ⟨_, hrow, -, -, hm⟩ := regRow_xltBase s.par w hw
  obtain ⟨kinds, hc, hn, hk⟩ := locked_xltBase h d hw
  cases hr.symm.trans hrow
  have plan := wordPlan_plain (plainOff_xltBase w hw) s row d true sec
  rw [hm, hc] at plan
  rw [show planWord s w row d 0xFFFFFFFF true sec = _ from plan]
  have flag : ∀ w ∈ xltBaseWords, flagOff w = w - w % 8 := by decide
  exact ⟨plainOff_xltBase w hw, flag w hw, rfl, hn, hk⟩

theorem applyFlat_xltBase (s : State) (src : Src) : ∀ w ∈ xltBaseWords, ∀ p : WPlan, p.off = w →
    applyFlat s p src = s.wr w (p.value (s.rd w)) :=
  forall_xltBaseWords (fun ⟨_, _, _, _, _⟩ h => by cases h; rfl) (fun ⟨_, _, _, _, _⟩ h => by cases h; rfl)
    (fun ⟨_, _, _, _, _⟩ h => by cases h; rfl) (fun ⟨_, _, _, _, _⟩ h => by cases h; rfl)

/-- The word that a write of d leaves where v stood. -/
def xltBaseWord (w : Nat) (v d : W32) : W32 := (v &&& ~~~xltBaseMask w) ||| (d &&& xltBaseMask w)

/-- A free write of a word raises no flag, and the word takes it. -/
theorem applied_xltBase {s : State} (h : xltEn s = false) {w : Nat} (hw : w ∈ xltBaseWords) {row : RegRow}
    (hr : regRow s.par w = some row) {d : W32} (hl : w % 8 = 0 → xltBaseRsv w d = false) (sec : Bool) (u : State) (d' : W32)
    (src : Src) :
    let p := planWord s w row d 0xFFFFFFFF true sec
    p.off = w ∧ p.kinds = [] ∧ applyWord u p d' sec src = u.wr w (xltBaseWord w (u.rd w) d) := by
  obtain ⟨_, hrow, hc, hrw, hm⟩ := regRow_xltBase s.par w hw
  cases hr.symm.trans hrow
  have plan := wordPlan_plain (plainOff_xltBase w hw) s row d true sec
  rw [hm, free_xltBase h hw hl] at plan
  rw [show planWord s w row d 0xFFFFFFFF true sec = _ from plan]
  have mask : ∀ w ∈ xltBaseWords, xltBaseMask w ≠ 0 := by decide
  refine ⟨rfl, rfl, ?_⟩
  rw [applyWord_plain (p := ⟨w, row, d, xltBaseMask w, []⟩) (plainOff_xltBase w hw), if_neg (mask w hw),
    applyFlat_xltBase u src w hw _ rfl, value_rw hc hrw, xltBaseWord]

/-! #### The words of one access -/

/-- s once the words of an access have taken its data. -/
def xltBasesWritten (s : State) (words : List Nat) (data : W64) : State :=
  words.foldl (fun u w => u.wr w (xltBaseWord w (u.rd w) (laneOf data w))) s

theorem xltBasesWritten_frame (s : State) (words : List Nat) (data : W64) : xltBasesWritten s words data =
    { s with regs := (xltBasesWritten s words data).regs, prf := (xltBasesWritten s words data).prf } := by
  unfold xltBasesWritten
  induction words generalizing s with
  | nil => rfl
  | cons w l ih =>
    have step : s.wr w (xltBaseWord w (s.rd w) (laneOf data w)) = { s with
      regs := (s.wr w (xltBaseWord w (s.rd w) (laneOf data w))).regs
      prf := (s.wr w (xltBaseWord w (s.rd w) (laneOf data w))).prf } := by apply State.ext <;> simp
    rw [List.foldl_cons, ih, step]

theorem rd_xltBasesWritten (s : State) {words : List Nat} (hn : words.Nodup) (data : W64) (j : Nat) :
    (xltBasesWritten s words data).rd j = if j ∈ words then xltBaseWord j (s.rd j) (laneOf data j) else s.rd j := by
  unfold xltBasesWritten
  induction words generalizing s with
  | nil => simp
  | cons w l ih =>
    obtain ⟨hw, hl⟩ := List.nodup_cons.1 hn
    rw [List.foldl_cons, ih _ hl, rd_wr]
    by_cases hj : j = w
    · subst hj
      simp [hw]
    · simp [hj]

section
variable {s : State} {words : List Nat} (hw : ∀ w ∈ words, w ∈ xltBaseWords) (data : W64) (sec : Bool) (src : Src)
include hw

theorem plansOf_lockedOut (h : xltEn s = true) {reg : Nat} (hreg : ∀ w ∈ words, w - w % 8 = reg) :
    ∀ p ∈ plansOf s (words.map (·, 0xFFFFFFFF)) data true sec, LockedOut reg p := by
  intro p hp
  obtain ⟨⟨w, m⟩, hm, hp⟩ := List.mem_filterMap.1 hp
  obtain ⟨v, hv, rfl, rfl⟩ : ∃ v ∈ words, v = w ∧ 0xFFFFFFFF = m := by simpa using hm
  obtain ⟨row, hr, rfl⟩ := Option.map_eq_some_iff.1 hp
  rw [← hreg v hv]
  exact lockedOut_xltBase h (hw v hv) hr _ sec

theorem plansOf_xltBase_ne_nil (hn : words ≠ []) : plansOf s (words.map (·, 0xFFFFFFFF)) data true sec ≠ [] := by
  cases words with
  | nil => exact absurd rfl hn
  | cons w l =>
    obtain ⟨row, hr, -⟩ := regRow_xltBase s.par w (hw w (by simp))
    rw [List.map_cons, plansOf_cons hr]
    exact List.cons_ne_nil _ _

theorem writeWords_xltBase_free (h : xltEn s = false) (hl : ∀ w ∈ words, w % 8 = 0 → xltBaseRsv w (laneOf data w) = false) :
    writeWords s (words.map (·, 0xFFFFFFFF)) data true sec src = xltBasesWritten s words data := by
  have plan : ∀ p ∈ plansOf s (words.map (·, 0xFFFFFFFF)) data true sec, plainOff p.off = true ∧ p.kinds = [] := by
    intro p hp
    obtain ⟨⟨w, m⟩, hm, hp⟩ := List.mem_filterMap.1 hp
    obtain ⟨v, hv, rfl, rfl⟩ : ∃ v ∈ words, v = w ∧ 0xFFFFFFFF = m := by simpa using hm
    obtain ⟨row, hr, rfl⟩ := Option.map_eq_some_iff.1 hp
    obtain ⟨hoff, hk, -⟩ := applied_xltBase h (hw v hv) hr (hl v hv) sec s 0 src
    exact ⟨by rw [hoff]; exact plainOff_xltBase v (hw v hv), hk⟩
  have quiet : flagPlans src s (plansOf s (words.map (·, 0xFFFFFFFF)) data true sec) = s :=
    flagPlans_quiet src s fun p hp => (plan p hp).2
  rw [writeWords_plain fun p hp => (plan p hp).1, quiet]
  suffices ∀ u, (plansOf s (words.map (·, 0xFFFFFFFF)) data true sec).foldl
      (fun u p => applyWord u p (laneOf data p.off) sec src) u = xltBasesWritten u words data from this s
  clear plan quiet
  induction words with
  | nil => exact fun _ => rfl
  | cons w l ih =>
    intro u
    obtain ⟨row, hr, -⟩ := regRow_xltBase s.par w (hw w (by simp))
    obtain ⟨-, -, happ⟩ := applied_xltBase h (hw w (by simp)) hr (hl w (by simp)) sec u
      (laneOf data (planWord s w row (laneOf data w) 0xFFFFFFFF true sec).off) src
    rw [List.map_cons, plansOf_cons hr, List.foldl_cons, happ]
    exact ih (fun v hv => hw v (by simp [hv])) (fun v hv => hl v (by simp [hv])) _

end

/-! #### One access (O45) -/

/-- A legal access of register `reg`: one of its halves in 32 bits, or the whole in 64. -/
def BaseAccess (a : BusAcc) (reg : Nat) : Prop :=
  (a.size = 2 ∧ (a.off.toNat = reg ∨ a.off.toNat = reg + 4)) ∨ (a.size = 3 ∧ a.off.toNat = reg)

/-- The words that it covers. -/
def accessWords (a : BusAcc) (reg : Nat) : List Nat := if a.size = 3 then [reg, reg + 4] else [a.off.toNat]

/-- The 64 bits that it covers. -/
def accessHalf (a : BusAcc) (reg : Nat) : W64 :=
  if a.size = 3 then BitVec.allOnes 64 else if a.off.toNat = reg then 0xFFFFFFFF else 0xFFFFFFFF00000000

section
variable {s : State} {a : BusAcc} {reg : Nat} (hreg : reg = Reg.XLT_SRC_BASE ∨ reg = Reg.XLT_ATT_BASE)

include hreg in
theorem mem_xltBaseWords : reg ∈ xltBaseWords ∧ reg + 4 ∈ xltBaseWords ∧ reg % 8 = 0 ∧ reg + 4 < 0x31000 := by
  rcases hreg with rfl | rfl <;> decide

/-- What the words of an access are among. -/
theorem accessWords_cases (hs : BaseAccess a reg) : accessWords a reg = [reg, reg + 4] ∧ accessHalf a reg = BitVec.allOnes 64 ∨
    accessWords a reg = [reg] ∧ accessHalf a reg = 0xFFFFFFFF ∨
    accessWords a reg = [reg + 4] ∧ accessHalf a reg = 0xFFFFFFFF00000000 ∧ a.off.toNat ≠ reg := by
  unfold accessWords accessHalf
  rcases hs with ⟨h2, ho | ho⟩ | ⟨h3, -⟩
  · simp [h2, ho]
  · simp [h2, ho]
  · simp [h3]

theorem mem_accessWords (hs : BaseAccess a reg) {w : Nat} (hw : w ∈ accessWords a reg) : w = reg ∨ w = reg + 4 := by
  rcases accessWords_cases hs with ⟨h, -⟩ | ⟨h, -⟩ | ⟨h, -⟩ <;> simp [h] at hw <;> omega

theorem off_of_mem_accessWords (hs : BaseAccess a reg) (hm : reg ∈ accessWords a reg) : a.off.toNat = reg := by
  rcases hs with ⟨h2, ho | ho⟩ | ⟨-, ho⟩
  · exact ho
  · simp [accessWords, h2, ho] at hm
  · exact ho

include hreg in
theorem busWords_xltBase (hs : BaseAccess a reg) (src : Src) :
    busWords s a.off.toNat a.size.toNat src = (accessWords a reg).map (·, 0xFFFFFFFF) := by
  obtain ⟨hlow, hhigh, h8, hlt⟩ := mem_xltBaseWords hreg
  have built : ∀ w ∈ xltBaseWords, builtFor s src w = true := fun w hw => by
    obtain ⟨row, hr, -⟩ := regRow_xltBase s.par w hw
    have lt : ∀ w ∈ xltBaseWords, w < 0x38100 := by decide
    simp [builtFor, hr, lt w hw]
  unfold accessWords
  rcases hs with ⟨h2, ho⟩ | ⟨h3, ho⟩
  · have off : a.off.toNat ∈ xltBaseWords := by rcases ho with ho | ho <;> rw [ho] <;> assumption
    have align : a.off.toNat % 4 = 0 := by omega
    simp [busWords, align, built _ off, h2]
  · simp [busWords, ho, h8, built _ hlow, built _ hhigh, h3]

include hreg in
theorem srcWrite_xltBase (hs : BaseAccess a reg) (h : running s = true) (hp : a.priv = true) (hr : a.read = false)
    (ha : Admits s (attrsOf a)) : srcWrite s a = replied s (attrsOf a)
      (writeWords (accessed s (attrsOf a) a.off.toNat) ((accessWords a reg).map (·, 0xFFFFFFFF)) a.data true a.sec a.src)
      false 0 := by
  obtain ⟨-, -, -, hlt⟩ := mem_xltBaseWords hreg
  have frame : isTgtOff a.off.toNat = false := by
    simp only [isTgtOff, Bool.and_eq_false_iff, decide_eq_false_iff_not]
    rcases hs with ⟨-, ho⟩ | ⟨-, ho⟩ <;> omega
  have some_word : accessWords a reg ≠ [] := by unfold accessWords; split <;> simp
  refine srcWrite_admitted h ha (fun _ => by simp [portHeld, vpeWaits, hr, frame]) hr ?_
  rw [busWrite, busWords_xltBase hreg hs, hp]
  obtain ⟨w, l, hw⟩ := List.exists_cons_of_ne_nil some_word
  rw [hw, List.map_cons]

/-- The port that an answer leaves is made from the port alone. -/
theorem replied_port_congr {acc : RegAcc} {t u : State} {err : Bool} {data : W64} (h : t.port = u.port) :
    (replied s acc t err data).port = (replied s acc u err data).port := by
  unfold replied portAnswer portShow
  dsimp only
  rw [h]
  split
  · split <;> rfl
  · exact h

include hreg in
/-- With XLT_CTRL.EN 1 the access is answered, flagged and captured, and the register keeps its value. -/
theorem gives_xltBase_locked (hs : BaseAccess a reg) (h : running s = true) (hp : a.priv = true) (hr : a.read = false)
    (ha : Admits s (attrsOf a)) (hen : s.bit Reg.XLT_CTRL 0 = true) : Gives (.registerWrite a) s fun t =>
      t.rd64 reg = s.rd64 reg ∧ t.port = (seen s (attrsOf a) a.off.toNat).port ∧
      t.bit Reg.GLB_ERR 0 = true ∧ t.fld Reg.GLB_ERR_ADDR 23 0 = reg ∧ t.bit Reg.GLB_ERR_ADDR 26 = false ∧
      (s.err.queue.length < 16 →
        t = { seen s (attrsOf a) a.off.toNat with regs := t.regs, err := t.err } ∧ Flagged s t 0 Reg.GLB_ERR 0 0 true ∧
        RegsApart s t [Reg.GLB_ERR, Reg.GLB_ERR_ADDR, Reg.GLB_ERR_ADDR + 4]) := by
  obtain ⟨hlow, hhigh, h8, hlt⟩ := mem_xltBaseWords hreg
  have bases : ∀ w ∈ accessWords a reg, w ∈ xltBaseWords := fun w hw => by
    rcases mem_accessWords hs hw with rfl | rfl <;> assumption
  have some_word : accessWords a reg ≠ [] := by unfold accessWords; split <;> simp
  refine gives_intro (exec_registerWrite a s) ?_
  rw [srcWrite_xltBase hreg hs h hp hr ha]
  have en : xltEn (accessed s (attrsOf a) a.off.toNat) = true := (bit_accessed ..).trans hen
  have locked := plansOf_lockedOut (s := accessed s (attrsOf a) a.off.toNat) bases a.data a.sec en (reg := reg) fun w hw => by
    rcases mem_accessWords hs hw with rfl | rfl <;> omega
  have some_plan := plansOf_xltBase_ne_nil (s := accessed s (attrsOf a) a.off.toNat) bases a.data a.sec some_word
  rw [writeWords_lockedOut locked, flagPlans_lockedOut some_plan locked]
  have captured := captured_lockedOut (reg := reg) (by omega) some_plan locked a.src (accessed s (attrsOf a) a.off.toNat)
  obtain ⟨hflag, haddr, hkind, hport, hrest⟩ := captured.flags (by decide)
  have kept : ∀ w ∈ xltBaseWords, w < 0x100000 ∧ w ∉ occWords ∧ w ∉ [Reg.GLB_ERR, Reg.GLB_ERR_ADDR, Reg.GLB_ERR_ADDR + 4] := by
    decide
  refine ⟨?_, ?_, (bit_replied ..).trans hflag, (fld_replied ..).trans haddr, (bit_replied ..).trans hkind, fun hq => ?_⟩
  · obtain ⟨hl1, hl2, hl3⟩ := kept reg hlow
    obtain ⟨hh1, hh2, hh3⟩ := kept (reg + 4) hhigh
    rw [State.rd64, rd_replied, rd_replied, hrest _ hl1 hl2 hl3, hrest _ hh1 hh2 hh3, rd_accessed, rd_accessed]
    rfl
  · rw [seen, ← replied_accessed]
    exact replied_port_congr hport
  · obtain ⟨ht, hf, -, -, hapart⟩ := writeFlagged_replied
      (captured.writeFlagged (by rwa [accessed_err]) (by decide))
    exact ⟨ht, hf, hapart⟩

theorem append_laneOf (data : W64) {w : Nat} (h8 : w % 8 = 0) : laneOf data (w + 4) ++ laneOf data w = data := by
  rw [laneOf, laneOf, if_pos (by omega), if_neg (by omega)]
  apply BitVec.eq_of_getLsbD_eq
  intro j hj
  rw [BitVec.getLsbD_append]
  split
  · simp [*]
  · simp [show 32 + (j - 32) = j by omega, show j - 32 < 32 by omega]

include hreg in
/-- The words of an access that takes effect are the merge of its 64 bits. -/
theorem append_xltBaseWord (hs : BaseAccess a reg) (hi lo : W32) (data : W64) :
    (if reg + 4 ∈ accessWords a reg then xltBaseWord (reg + 4) hi (laneOf data (reg + 4)) else hi) ++
      (if reg ∈ accessWords a reg then xltBaseWord reg lo (laneOf data reg) else lo) =
    ((hi ++ lo) &&& ~~~(0x000FFFFFFFFFF01F &&& accessHalf a reg)) ||| (data &&& (0x000FFFFFFFFFF01F &&& accessHalf a reg)) := by
  obtain ⟨-, -, h8, -⟩ := mem_xltBaseWords hreg
  have upper : xltBaseMask (reg + 4) = 0xFFFFF := if_neg (by omega)
  have lower : xltBaseMask reg = 0xFFFFF01F := if_pos h8
  have merged : ∀ (p q : Prop) [Decidable p] [Decidable q], (if p then xltBaseWord (reg + 4) hi (laneOf data (reg + 4)) else hi) ++
      (if q then xltBaseWord reg lo (laneOf data reg) else lo) =
      ((hi ++ lo) &&& ~~~((if p then (0xFFFFF : W32) else 0) ++ (if q then (0xFFFFF01F : W32) else 0))) |||
        (data &&& ((if p then (0xFFFFF : W32) else 0) ++ (if q then (0xFFFFF01F : W32) else 0))) := by
    intro p q _ _
    rw [← append_laneOf data h8, BitVec.not_append, BitVec.and_append, BitVec.and_append, BitVec.or_append, append_laneOf data h8]
    have untouched : ∀ v d : W32, v = (v &&& ~~~0) ||| (d &&& 0) := fun v d => by
      simpa using (and_ones v).symm
    congr 1
    · split
      · rw [xltBaseWord, upper]
      · exact untouched ..
    · split
      · rw [xltBaseWord, lower]
      · exact untouched ..
  rw [merged]
  rcases accessWords_cases hs with ⟨hw, hh⟩ | ⟨hw, hh⟩ | ⟨hw, hh, -⟩ <;> simp [hw, hh]

include hreg in
/-- The legal values of BITS (06 R120, R123). -/
theorem legal_xltBase {data : W64} (hl : if reg = Reg.XLT_SRC_BASE then 1 ≤ data.toNat % 32 ∧ data.toNat % 32 ≤ 24
    else 13 ≤ data.toNat % 32 ∧ data.toNat % 32 ≤ 21) : xltBaseRsv reg (laneOf data reg) = false := by
  obtain ⟨-, -, h8, -⟩ := mem_xltBaseWords hreg
  have bits : field (laneOf data reg) 4 0 = data.toNat % 32 := by
    rw [laneOf, if_neg (by omega), field, BitVec.truncate_eq_setWidth, BitVec.toNat_setWidth, Nat.shiftRight_zero]
    omega
  unfold xltBaseRsv outside
  rw [bits]
  split at hl
  next h =>
    rw [if_pos h]
    simp
    omega
  next h =>
    rw [if_neg h]
    simp
    omega

include hreg in
/-- With EN 0 an access whose BITS field is legal takes effect. -/
theorem gives_xltBase_taken (hs : BaseAccess a reg) (h : running s = true) (hp : a.priv = true) (hr : a.read = false)
    (ha : Admits s (attrsOf a)) (hen : s.bit Reg.XLT_CTRL 0 = false)
    (hl : a.off.toNat = reg → if reg = Reg.XLT_SRC_BASE then 1 ≤ a.data.toNat % 32 ∧ a.data.toNat % 32 ≤ 24
      else 13 ≤ a.data.toNat % 32 ∧ a.data.toNat % 32 ≤ 21) : Gives (.registerWrite a) s fun t =>
      t.rd64 reg = (s.rd64 reg &&& ~~~(0x000FFFFFFFFFF01F &&& accessHalf a reg)) |||
        (a.data &&& (0x000FFFFFFFFFF01F &&& accessHalf a reg)) ∧
      t = { seen s (attrsOf a) a.off.toNat with regs := t.regs, prf := t.prf } ∧ RegsApart s t [reg, reg + 4] := by
  obtain ⟨hlow, hhigh, h8, hlt⟩ := mem_xltBaseWords hreg
  have bases : ∀ w ∈ accessWords a reg, w ∈ xltBaseWords := fun w hw => by
    rcases mem_accessWords hs hw with rfl | rfl <;> assumption
  have nodup : (accessWords a reg).Nodup := by unfold accessWords; split <;> simp
  refine gives_intro (exec_registerWrite a s) ?_
  have en : xltEn (accessed s (attrsOf a) a.off.toNat) = false := (bit_accessed ..).trans hen
  have legal : ∀ w ∈ accessWords a reg, w % 8 = 0 → xltBaseRsv w (laneOf a.data w) = false := by
    intro w hw hw8
    obtain rfl : w = reg := by rcases mem_accessWords hs hw with h | h <;> omega
    exact legal_xltBase hreg (hl (off_of_mem_accessWords hs hw))
  rw [srcWrite_xltBase hreg hs h hp hr ha, writeWords_xltBase_free bases a.data a.sec a.src en legal]
  generalize hu : xltBasesWritten (accessed s (attrsOf a) a.off.toNat) (accessWords a reg) a.data = u
  have frame := xltBasesWritten_frame (accessed s (attrsOf a) a.off.toNat) (accessWords a reg) a.data
  have rd := rd_xltBasesWritten (accessed s (attrsOf a) a.off.toNat) nodup a.data
  rw [hu] at frame rd
  refine ⟨?_, ?_, regsApart_replied (off := a.off.toNat) fun j hj => ?_⟩
  · rw [State.rd64, rd_replied, rd_replied, rd, rd, rd_accessed, rd_accessed]
    exact append_xltBaseWord hreg hs _ _ _
  · rw [replied_regs, replied_prf]
    exact replied_written frame
  · rw [rd, if_neg fun hw => hj (by simpa using mem_accessWords hs hw)]

end

/-- Settles O45: with EN 1 every field of the access is locked and flagged; with EN 0 its words take effect. -/
theorem xltBasesLocked : Obligations.XltBasesLocked := by
  unfold Obligations.XltBasesLocked
  exact fun s a reg h hp hr ha hreg hs => ⟨fun hen => gives_xltBase_locked hreg hs h hp hr ha hen,
    fun hen hl => gives_xltBase_taken hreg hs h hp hr ha hen hl⟩

end Sys2Proof.Machine
end

section
namespace Sys2Proof.Machine

/-! ### Words of host memory (00 R4)

An address of host memory has 52 bits: two accesses are apart where no byte of the one is a byte of the other, wherever they
wrap. -/

section
variable {m : List Host.Cell} {a n v : Nat}

theorem read_memStore_other (hm : Memory.wf m = true) {x : Nat} (hx : ∀ k, k < n → x ≠ haddr (a + k)) :
    Memory.read (memStore m a n v) x = Memory.read m x := by
  induction n with
  | zero => rfl
  | succ n ih =>
    rw [memStore, Memory.read_write _ _ _ _ (memStore_wf hm a n v), if_neg (hx n (by omega))]
    exact ih fun k hk => hx k (by omega)

theorem read_memStore_at (hm : Memory.wf m = true) (hn : n ≤ 2 ^ 52) {k : Nat} (hk : k < n) :
    Memory.read (memStore m a n v) (haddr (a + k)) = BitVec.ofNat 8 (v >>> (8 * k)) := by
  induction n with
  | zero => omega
  | succ n ih =>
    rw [memStore, Memory.read_write _ _ _ _ (memStore_wf hm a n v)]
    by_cases h : k = n
    · rw [h, if_pos rfl]
    · have other : haddr (a + k) ≠ haddr (a + n) := by
        unfold haddr
        omega
      rw [if_neg other]
      exact ih (by omega) (by omega)

theorem memLoad_congr {m' : List Host.Cell} (h : ∀ k, k < n → Memory.read m' (haddr (a + k)) = Memory.read m (haddr (a + k))) :
    memLoad m' a n = memLoad m a n := by
  induction n with
  | zero => rfl
  | succ n ih => rw [memLoad, memLoad, h n (by omega), ih fun k hk => h k (by omega)]

/-- The number that n bytes spell. -/
theorem memLoad_bytes (h : ∀ k, k < n → Memory.read m (haddr (a + k)) = BitVec.ofNat 8 (v >>> (8 * k))) :
    memLoad m a n = v % 2 ^ (8 * n) := by
  induction n with
  | zero => simp [memLoad, Nat.mod_one]
  | succ n ih =>
    rw [memLoad, h n (by omega), ih fun k hk => h k (by omega), BitVec.toNat_ofNat, Nat.shiftRight_eq_div_pow, Nat.shiftLeft_eq,
      Nat.mul_succ, Nat.pow_add, Nat.mod_mul, Nat.mul_comm (2 ^ (8 * n))]

end

/-- No byte of the m at a is one of the n at b. -/
def BytesApart (a m b n : Nat) : Prop := ∀ i, i < m → ∀ j, j < n → haddr (a + i) ≠ haddr (b + j)

theorem Apart.bytesApart {a m b n : Nat} (h : Apart a m b n) : BytesApart a m b n := by
  obtain ⟨hd, ha, hb⟩ := h
  intro i hi j hj
  unfold haddr
  rw [Nat.mod_eq_of_lt (by omega), Nat.mod_eq_of_lt (by omega)]
  omega

theorem BytesApart.symm {a m b n : Nat} (h : BytesApart a m b n) : BytesApart b n a m :=
  fun i hi j hj e => h j hj i hi e.symm

theorem load64_congr {s t : State} (h : t.mem = s.mem) (a : Nat) : t.load64 a = s.load64 a := by
  rw [State.load64, State.load64, h]

theorem load64_store64_same {s : State} (hm : Memory.wf s.mem = true) (a : Nat) (v : W64) : (s.store64 a v).load64 a = v := by
  have bytes : memLoad (memStore s.mem a 8 v.toNat) a 8 = v.toNat % 2 ^ (8 * 8) :=
    memLoad_bytes fun k hk => read_memStore_at hm (by decide) hk
  apply BitVec.eq_of_toNat_eq
  show (BitVec.ofNat 64 (memLoad (memStore s.mem a 8 v.toNat) a 8)).toNat = v.toNat
  rw [bytes, BitVec.toNat_ofNat]
  omega

theorem load64_store64_apart {s : State} (hm : Memory.wf s.mem = true) {a b : Nat} (h : BytesApart a 8 b 8) (v : W64) :
    (s.store64 a v).load64 b = s.load64 b := by
  have bytes : memLoad (memStore s.mem a 8 v.toNat) b 8 = memLoad s.mem b 8 :=
    memLoad_congr fun k hk => read_memStore_other hm fun j hj => (h j hj k hk).symm
  exact congrArg (BitVec.ofNat 64) bytes

/-! ### A list of writes (06 R139) -/

theorem writeList_cons (s : State) (w : Nat × W64) (l : List (Nat × W64)) :
    writeList s (w :: l) = writeList (s.store64 w.1 w.2) l := rfl

theorem writeList_frame (s : State) (l : List (Nat × W64)) :
    writeList s l = { s with mem := (writeList s l).mem, coh := (writeList s l).coh } := by
  induction l generalizing s with
  | nil => rfl
  | cons w l ih =>
    rw [writeList_cons, ih]
    rfl

/-- The memory that the writes leave depends on no other part of the state. -/
theorem writeList_mem_congr {s t : State} (h : t.mem = s.mem) (l : List (Nat × W64)) : (writeList t l).mem = (writeList s l).mem := by
  induction l generalizing s t with
  | nil => exact h
  | cons w l ih => exact ih (congrArg (memStore · w.1 8 w.2.toNat) h)

section
variable {s : State} (hm : Memory.wf s.mem = true) {l : List (Nat × W64)}
include hm

theorem read_writeList_other {x : Nat} (hx : ∀ w ∈ l, ∀ k, k < 8 → x ≠ haddr (w.1 + k)) :
    Memory.read (writeList s l).mem x = Memory.read s.mem x := by
  induction l generalizing s with
  | nil => rfl
  | cons w l ih =>
    obtain ⟨hw, hl⟩ := List.forall_mem_cons.1 hx
    rw [writeList_cons, ih (store64_wf s _ _ hm) hl]
    exact read_memStore_other hm hw

theorem load64_writeList_other {b : Nat} (hb : ∀ w ∈ l, BytesApart w.1 8 b 8) : (writeList s l).load64 b = s.load64 b := by
  induction l generalizing s with
  | nil => rfl
  | cons w l ih =>
    obtain ⟨hw, hl⟩ := List.forall_mem_cons.1 hb
    rw [writeList_cons, ih (store64_wf s _ _ hm) hl, load64_store64_apart hm hw]

/-- Each of the words written, where they lie apart. -/
theorem load64_writeList (hp : l.Pairwise fun v w => BytesApart v.1 8 w.1 8) : ∀ w ∈ l, (writeList s l).load64 w.1 = w.2 := by
  induction l generalizing s with
  | nil => simp
  | cons w l ih =>
    obtain ⟨hw, hl⟩ := List.pairwise_cons.1 hp
    refine List.forall_mem_cons.2 ⟨?_, fun v hv => ?_⟩
    · rw [writeList_cons, load64_writeList_other (store64_wf s _ _ hm) fun v hv => (hw v hv).symm, load64_store64_same hm]
    · rw [writeList_cons]
      exact ih (store64_wf s _ _ hm) hl v hv

end

/-! ### What the table cache serves (13 R309, R313) -/

/-- What is touched is told by the agent's part of the state. -/
theorem Touched.of_coh {s t u : State} {w : List (Nat × Nat)} (h : Touched s t w) (hc : u.coh = t.coh) : Touched s u w := by
  obtain ⟨hcoh, hline⟩ := h
  refine ⟨by rw [hc]; exact hcoh, fun l => ?_⟩
  rw [lineState, hc]
  exact hline l

/-- The lines written are the same. -/
theorem Touched.congr {s t : State} {v w : List (Nat × Nat)} (h : Touched s t v)
    (e : ∀ l, (v.any fun p => (linesAt p.1 p.2).contains l) = w.any fun p => (linesAt p.1 p.2).contains l) : Touched s t w :=
  ⟨h.1, fun l => by rw [h.2 l, e l]⟩

theorem owned_iff {s : State} {a n : Nat} :
    Owned s a n ↔ ∀ l ∈ linesAt a n, lineState s l = some .m ∨ lineState s l = some .e := by
  simp [Owned, State.owns, Coh.owns, lineState]

/-- A line held E or M stays so as others are read and written. -/
theorem Owned.of_touched {s t : State} {w : List (Nat × Nat)} {a n : Nat} (h : Touched s t w) (ho : Owned s a n) : Owned t a n := by
  rw [owned_iff] at ho ⊢
  intro l hl
  rw [h.2 l]
  split
  · exact .inl rfl
  · exact ho l hl

theorem Owned.held {s : State} {a n : Nat} (h : Owned s a n) : Held s a n := fun l hl => by
  rw [held_eq]
  rcases owned_iff.1 h l hl with h | h <;> rw [h] <;> rfl

theorem touched_refl (s : State) : Touched s s [] := ⟨rfl, fun _ => rfl⟩

theorem touched_writeList {s : State} {l : List (Nat × W64)} (ho : ∀ w ∈ l, Owned s w.1 8) :
    Touched s (writeList s l) (l.map fun w => (w.1, 8)) := by
  induction l generalizing s with
  | nil => exact touched_refl s
  | cons w l ih =>
    obtain ⟨hw, hl⟩ := List.forall_mem_cons.1 ho
    have first : Touched s (s.store64 w.1 w.2) [(w.1, 8)] := touched_store hw
    exact first.trans (ih fun v hv => (hl v hv).of_touched first)

/-- From s to u the block has only read host memory: the pseudo-LRU bits have changed, and lines not held are named. -/
def Looked (s u : State) : Prop := u = { s with coh := { s.coh with plru := u.coh.plru, missed := u.coh.missed } }

theorem Looked.refl (s : State) : Looked s s := rfl

theorem Looked.reads {s u : State} (h : Looked s u) (a n : Nat) : Looked s (u.reads a n) := by
  obtain ⟨p, m, hr⟩ := cohRead_frame u.coh a n
  unfold Looked State.reads at *
  rw [hr, h]

/-- A state with the pseudo-LRU bits p. -/
def withPlru (s : State) (p : Tbl (BitVec 15)) : State := { s with coh := { s.coh with plru := p } }

/-- Where the cache serves every read, the pseudo-LRU bits alone have changed. -/
theorem Looked.served {s u : State} (h : Looked s u) (hs : Serves s u) : u = withPlru s u.coh.plru := by
  unfold Looked at h
  rw [show u.coh.missed = s.coh.missed from hs] at h
  exact h

theorem touched_withPlru (s : State) (p : Tbl (BitVec 15)) : Touched s (withPlru s p) [] := ⟨rfl, fun _ => rfl⟩

/-! ### The start of a command (11 R256, R271) -/

/-- s once the command at the front of ring r, fetched alone, has started. -/
def started (s : State) (r : Nat) : State :=
  { s with
    pwr := { s.pwr with act := true }
    cmdRot := if 2 ≤ r then BitVec.ofNat 3 r else s.cmdRot
    rings := (s.modRing r fun x => { x with fetched := [] }).rings }

theorem ring_started (s : State) (r j : Nat) :
    (started s r).ring j = if j = r then { s.ring r with fetched := [] } else s.ring j :=
  ring_modRing s r j fun x => { x with fetched := [] }

theorem cmdOn_running {s : State} (h : running s = true) : cmdOn s = true := by
  obtain ⟨hr, -, -, hd⟩ := (running_iff s).mp h
  simp [cmdOn, engOn_running h, hr, hd]

section
variable {s : State} {r op : Nat} {d : Desc}

/-- A command that nothing holds back acts on the state that its reads leave. -/
theorem startCmd_starts (h : Starts s r op d) {act : State → Nat → Desc → State} {grp : State → Desc → Bool}
    {rd : State → Desc → State} (herr : (rd (started s r) d).err = s.err) (hgrp : grp (rd (started s r) d) d = false) :
    startCmd s r op act grp rd = act (rd (started s r) d) r d := by
  obtain ⟨hrun, hst, hck, hf, hmay, hturn, -⟩ := h
  have begins : (if 2 ≤ r then { (activity s).modRing r (fun x => { x with fetched := x.fetched.tail }) with
      cmdRot := BitVec.ofNat 3 r } else (activity s).modRing r fun x => { x with fetched := x.fetched.tail }) = started s r := by
    have front : (begun s).modRing r (fun x => { x with fetched := x.fetched.tail }) =
        (begun s).modRing r fun x => { x with fetched := [] } := by
      have tail : { (begun s).ring r with fetched := ((begun s).ring r).fetched.tail } =
          ({ (begun s).ring r with fetched := [] } : Ring) := by
        rw [show (begun s).ring r = s.ring r from rfl, hf]
        rfl
      exact congrArg ((begun s).setRing r) tail
    rw [activity_running hrun, front]
    unfold started
    split <;> rfl
  have check : startCheck (rd (started s r) d) r d = none := by
    unfold startCheck inSafe at hck ⊢
    rw [herr]
    exact hck
  simp only [startCmd, hst, hmay, hturn, begins, hgrp, check, Bool.and_self, Bool.not_true, Bool.false_eq_true, if_false,
    Bool.and_false]

theorem cmdMem_good (h : Starts s r op d) : cmdMem s r .good = .good := by
  obtain ⟨-, -, -, -, -, -, hfail⟩ := h
  simp [cmdMem, State.failures, hfail]

theorem forgetCmd_of_no_failure {u : State} (h : u.coh.failed = []) (r : Nat) : forgetCmd u r = u := if_pos h

/-- A table command whose reads are served and whose accesses are good. -/
theorem startMem_starts (h : Starts s r op d) (hop : op < 0x30) {act : CmdMem → State → Nat → Desc → State}
    {grp : CmdMem → State → Desc → Bool} {rd : State → Desc → State} {p : Tbl (BitVec 15)}
    (hrd : rd (started s r) d = withPlru (started s r) p) (hgrp : grp .good (withPlru (started s r) p) d = false) :
    startMem s r op .good act grp rd = s.served (act .good (withPlru (started s r) p) r d) := by
  have reads : (fun s d => if CmdMem.good = .readFail then s else rd s d) = rd := by
    funext u e
    exact if_neg (by decide)
  have failed : (withPlru (started s r) p).coh.failed = [] := by
    obtain ⟨-, -, -, -, -, -, hfail⟩ := h
    exact hfail
  rw [startMem, cmdMem_good h, cmdServed, if_neg (by simpa using hop)]
  rw [reads, startCmd_starts h (by rw [hrd]; rfl) (by rw [hrd]; exact hgrp), hrd, forgetCmd_of_no_failure failed]

end

/-! ### The end of a command (11 R259) -/

theorem completeBad_of_none_fetched {u : State} {r : Nat} (hf : (u.ring r).fetched = []) (n : Nat) : completeBad u r n = u := by
  cases n with
  | zero => rfl
  | succ n =>
    unfold completeBad
    dsimp only
    rw [hf]

section
variable {u : State} {r : Nat} (hf : (u.ring r).fetched = []) (d : Desc)
include hf

/-- A command of a ring with nothing fetched behind it completes: its record waits. -/
theorem complete_spec (status : Nat) (result : W64) :
    let t := complete u r d status result
    t = { u with rings := t.rings } ∧ Completes u t r d status result := by
  have ring := ring_modRing u r
    (f := fun x => { x with run := none, recs := x.recs ++ [recOf u d status result] })
  have fetched : ((u.modRing r fun x => { x with run := none, recs := x.recs ++ [recOf u d status result] }).ring r).fetched
      = [] := by
    rw [ring, if_pos rfl]
    exact hf
  dsimp only [complete]
  rw [completeBad_of_none_fetched fetched]
  refine ⟨rfl, ?_, fun j hj => (ring j).trans (if_neg hj)⟩
  rw [ring, if_pos rfl, ← hf]

/-- A table command with no lookup and no translated write under way ends at once (06 R134). -/
theorem endTable_spec (hq : transWids u = []) (status : Nat) :
    let t := endTable u r d status
    t = { u with rings := t.rings } ∧ Completes u t r d status 0 := by
  have ring := ring_modRing u r
    (f := fun x => { x with run := some { desc := d, status := status, kind := .lookups (transWids u) } })
  have run := (ring r).trans (if_pos rfl)
  have poll : endTable u r d status = complete (goOn u r d status (.lookups (transWids u))) r d status := by
    unfold endTable pollRing
    rw [show (goOn u r d status (.lookups (transWids u))).ring r = _ from run]
    simp [runReady, runLeft, hq]
  have fetched : ((goOn u r d status (.lookups (transWids u))).ring r).fetched = [] := by
    rw [goOn, run]
    exact hf
  obtain ⟨ht, hr, hrest⟩ := complete_spec fetched d status 0
  dsimp only
  rw [poll]
  generalize complete (goOn u r d status (.lookups (transWids u))) r d status = t at ht hr hrest ⊢
  refine ⟨?_, ?_, fun j hj => (hrest j hj).trans ((ring j).trans (if_neg hj))⟩
  · rw [ht]
    rfl
  · rw [hr, goOn, run]
    rfl

end

/-- What a started command completes, the ring's command completes. -/
theorem Completes.of_started {s u t : State} {r : Nat} {d : Desc} {status : Nat} {result : W64}
    (hu : ∀ j, u.ring j = (started s r).ring j) (hc : u.count = s.count) (h : Completes u t r d status result) :
    Completes s t r d status result := by
  obtain ⟨hr, hrest⟩ := h
  have record : recOf u d status result = recOf s d status result := by
    unfold recOf
    rw [hc]
  refine ⟨?_, fun j hj => ?_⟩
  · rw [hr, hu, ring_started, if_pos rfl, record]
  · rw [hrest j hj, hu, ring_started, if_neg hj]

end Sys2Proof.Machine
end

section
namespace Sys2Proof.Machine

/-! ### Lists of reads (06 R130, R139) -/

/-- The reads of a list, each an address and a number of bytes. -/
def readList (s : State) (l : List (Nat × Nat)) : State := l.foldl (fun s a => s.reads a.1 a.2) s

theorem readList_coh (s : State) (l : List (Nat × Nat)) :
    readList s l = { s with coh := l.foldl (fun c a => cohRead c a.1 a.2) s.coh } := by
  unfold readList
  induction l generalizing s with
  | nil => rfl
  | cons a l ih =>
    rw [List.foldl_cons, ih]
    rfl

theorem looked_readList (s : State) (l : List (Nat × Nat)) : Looked s (readList s l) := by
  suffices ∀ u, Looked s u → Looked s (readList u l) from this s (.refl s)
  unfold readList
  induction l with
  | nil => exact fun u h => h
  | cons a l ih => exact fun u h => ih _ (h.reads a.1 a.2)

/-- The reads of a command that starts are served where they are served before it. -/
theorem readList_started {s : State} {l : List (Nat × Nat)} (h : Serves s (readList s l)) (r : Nat) :
    readList (started s r) l = withPlru (started s r) (readList s l).coh.plru := by
  have coh : (readList (started s r) l).coh = (readList s l).coh := by
    rw [readList_coh, readList_coh]
    rfl
  have serves : Serves (started s r) (readList (started s r) l) := by
    rw [Serves, coh]
    exact h
  rw [(looked_readList (started s r) l).served serves, coh]

theorem serves_readList {s : State} {l : List (Nat × Nat)} (h : ∀ a ∈ l, Held s a.1 a.2) : Serves s (readList s l) := by
  suffices ∀ u, Touched s u [] → Touched s (readList u l) [] from (this s (touched_refl s)).serves
  unfold readList
  induction l with
  | nil => exact fun u t => t
  | cons a l ih =>
    obtain ⟨ha, hl⟩ := List.forall_mem_cons.1 h
    intro u t
    refine ih hl _ (t.trans (touched_reads fun n hn => ?_))
    rw [held_eq, t.2 n]
    exact ha n hn

/-- The attribute entry that `entReads` reads. -/
def entList (s : State) (p : Nat) (m : MapEntry) : List (Nat × Nat) :=
  if hasAtt s m.virt p m.event && !remoteDest s m.virt m.dest then [(attEntry s m.virt p m.event, 16)] else []

theorem entReads_list (s : State) (p : Nat) (m : MapEntry) : entReads s p m = readList s (entList s p m) := by
  unfold entReads entList
  split <;> rfl

/-- The entries that a key with the map entry at a names. -/
def keyList (s : State) (d : Desc) (a : Nat) : List (Nat × Nat) :=
  [(srcAddr s d.src, 32), (a, 16)] ++
    if (readMap s a).valid then entList s (readSrc s d.src).panel (readMap s a) else []

theorem src_of_keyMap {s : State} {d : Desc} {a : Nat} (h : keyMap s d = some a) : d.src < 2 ^ srcBits s := by
  simp only [keyMap] at h
  split at h
  · cases h
  · omega

theorem keyReads_list {s : State} {d : Desc} {a : Nat} (h : keyMap s d = some a) : keyReads s d = readList s (keyList s d a) := by
  unfold keyReads keyList
  rw [if_pos (src_of_keyMap h)]
  show (match keyMap s d with | none => _ | some a => _) = _
  rw [h]
  simp only [entReads_list]
  by_cases hv : (readMap s a).valid = true
  · rw [if_pos hv]
    exact if_pos hv
  · rw [if_neg hv]
    exact if_neg hv

theorem mapReads_list {s : State} {d : Desc} {a : Nat} (h : keyMap s d = some a) :
    mapReads s d = readList s (keyList s d a ++ entList s (readSrc s d.src).panel d.ent) := by
  have ent : ∀ p m, entList (readList s (keyList s d a)) p m = entList s p m := by
    rw [readList_coh]
    exact fun _ _ => rfl
  rw [mapReads, keyReads_list h, entReads_list, ent]
  exact List.foldl_append.symm

section
variable {s : State} {d : Desc} {a : Nat} (hk : keyMap s d = some a) (r : Nat)
include hk

theorem keyReads_started (h : Serves s (keyReads s d)) :
    keyReads (started s r) d = withPlru (started s r) (keyReads s d).coh.plru := by
  rw [keyReads_list hk] at h ⊢
  rw [keyReads_list (s := started s r) hk]
  exact readList_started h r

theorem mapReads_started (h : Serves s (mapReads s d)) :
    mapReads (started s r) d = withPlru (started s r) (mapReads s d).coh.plru := by
  rw [mapReads_list hk] at h ⊢
  rw [mapReads_list (s := started s r) hk]
  exact readList_started h r

end

theorem srcReads_started {s : State} {d : Desc} (hb : d.src < 2 ^ srcBits s) (ho : Owned s (srcAddr s d.src) 32) (r : Nat) :
    srcReads (started s r) d = withPlru (started s r) (srcReads s d).coh.plru := by
  have list : ∀ v, d.src < 2 ^ srcBits v → srcReads v d = readList v [(srcAddr v d.src, 32)] := fun v hv => if_pos hv
  rw [list s hb, list (started s r) hb]
  exact readList_started (l := [(srcAddr s d.src, 32)]) (serves_readList (by simpa using ho.held)) r

/-- What the words written read as, in any state with that memory. -/
theorem load64_of_mem {s t : State} {l : List (Nat × W64)} (hm : Memory.wf s.mem = true)
    (hp : l.Pairwise fun v w => BytesApart v.1 8 w.1 8) (h : t.mem = (writeList s l).mem) : ∀ w ∈ l, t.load64 w.1 = w.2 :=
  fun w hw => (load64_congr h w.1).trans (load64_writeList hm hp w hw)

/-! ### An operation joins a queue (07 R158, R160) -/

/-- s with the operation o at the end of the queue of target k's tree. -/
def withOp (s : State) (k : Nat) (o : TOp) : State := s.setTgt k { s.tgt k with opq := (s.tgt k).opq ++ [o] }

theorem queued_withOp {s t : State} {k : Nat} {o : TOp} (h : t.tg = (withOp s k o).tg) : Queued s t k o := by
  have tgt : ∀ j, t.tgt j = (withOp s k o).tgt j := fun j => by rw [State.tgt, h]; rfl
  exact ⟨by rw [tgt, withOp, tgt_setTgt_same], fun j hj => by rw [tgt, withOp, tgt_setTgt, if_neg hj]⟩

section
variable {s : State} {k : Nat} {o : TOp}

theorem treeEnq_room (h : (s.tgt k).opq.length < 64) (hs : (s.tgt k).src = [] ∨ o.kind = .ins) : treeEnq s k o = withOp s k o := by
  rw [treeEnq, if_neg fun full => by omega]
  exact if_pos ⟨h, hs⟩

theorem treeEnq_free (h : opqFull s k = false) : treeEnq s k o = withOp s k o := by
  simp only [opqFull, Bool.or_eq_false_iff, decide_eq_false_iff_not, Bool.not_eq_false', List.isEmpty_iff] at h
  obtain ⟨room, src⟩ := h
  exact treeEnq_room (by omega) (.inl src)

end

/-! ### A table command's writes, and its end (06 R134, R139) -/

theorem begunOn_eq (s : State) (r : Nat) : begunOn s r = { started s r with rings := s.rings } := by
  unfold started begunOn begun
  split <;> rfl

section
variable {s : State} {r : Nat} {d : Desc} (hq : transWids s = []) (p : Tbl (BitVec 15))
  {l : List (Nat × W64)} (ho : ∀ w ∈ l, Owned s w.1 8)
include hq ho

/-- The command's writes made, with the trees as g, it completes. -/
theorem table_ends (g : Tbl Tg) :
    let t := s.served (endTable { writeList (withPlru (started s r) p) l with tg := g } r d stOk)
    t = { begunOn s r with mem := t.mem, coh := t.coh, rings := t.rings, tg := g } ∧ Touched s t (l.map fun w => (w.1, 8)) ∧
    Completes s t r d stOk 0 ∧ t.mem = (writeList s l).mem ∧ t.tg = g := by
  have frame := writeList_frame (withPlru (started s r) p) l
  have touched : Touched s (writeList (withPlru (started s r) p) l) (l.map fun w => (w.1, 8)) :=
    ((touched_withPlru s p).of_coh rfl).trans (touched_writeList fun w hw => (ho w hw).of_touched ((touched_withPlru s p).of_coh rfl))
  have mem : (writeList (withPlru (started s r) p) l).mem = (writeList s l).mem := 
    writeList_mem_congr (show (withPlru (started s r) p).mem = s.mem from rfl) l
  generalize writeList (withPlru (started s r) p) l = u at frame touched mem
  have rings : u.rings = (started s r).rings := by rw [frame]; rfl
  have count : u.count = s.count := by rw [frame]; rfl
  have wids : transWids { u with tg := g } = [] := by rw [frame]; exact hq
  have fetched : (State.ring { u with tg := g } r).fetched = [] := by
    rw [show State.ring { u with tg := g } r = (started s r).ring r by rw [State.ring, rings]; rfl, ring_started, if_pos rfl]
  obtain ⟨ends, done⟩ := endTable_spec fetched d wids stOk
  dsimp only
  generalize endTable { u with tg := g } r d stOk = t at ends done ⊢
  have coh : t.coh = u.coh := by rw [ends]
  have touches : Touched s t (l.map fun w => (w.1, 8)) := touched.of_coh coh
  rw [served_eq touches.serves]
  refine ⟨?_, touches, done.of_started (fun j => by rw [State.ring, rings]; rfl) count, by rw [ends]; exact mem, by rw [ends]⟩
  rw [begunOn_eq, ends, frame]
  rfl

/-- As `table_ends`, the trees as they are. -/
theorem table_ends_plain :
    let t := s.served (endTable (writeList (withPlru (started s r) p) l) r d stOk)
    (t = { begunOn s r with mem := t.mem, coh := t.coh, rings := t.rings } ∧ Touched s t (l.map fun w => (w.1, 8))) ∧
    Completes s t r d stOk 0 ∧ t.mem = (writeList s l).mem := by
  have frame := writeList_frame (withPlru (started s r) p) l
  have tg : (writeList (withPlru (started s r) p) l).tg = (begunOn s r).tg := by
    rw [frame, begunOn_eq]
    rfl
  obtain ⟨ht, touched, done, mem, -⟩ := table_ends hq p ho (begunOn s r).tg
  have same : writeList (withPlru (started s r) p) l = { writeList (withPlru (started s r) p) l with tg := (begunOn s r).tg } := by
    rw [← tg]
  rw [← same] at ht touched done mem
  exact ⟨⟨ht, touched⟩, done, mem⟩

/-- A row that makes those writes and ends. -/
theorem gives_writes {i : Instr} {P : State → Prop}
    (hi : exec i s = .next (s.served (endTable (writeList (withPlru (started s r) p) l) r d stOk)))
    (hP : ∀ t, (t = { begunOn s r with mem := t.mem, coh := t.coh, rings := t.rings } ∧ Touched s t (l.map fun w => (w.1, 8))) →
      Completes s t r d stOk 0 → t.mem = (writeList s l).mem → P t) : Gives i s P := by
  obtain ⟨only, done, mem⟩ := table_ends_plain hq p ho
  exact gives_intro hi (hP _ only done mem)

end

end Sys2Proof.Machine
end

section
namespace Sys2Proof.Machine

/-! ### Lines of a table entry (06 R121 to R123) -/

theorem linesAt_one {a n : Nat} (hn : 0 < n) (h : haddr a % 64 + n ≤ 64) : linesAt a n = [haddr a / 64] := by
  rw [linesAt, show (haddr a % 64 + n + 63) / 64 = 1 by omega]
  rfl

theorem base4k_aligned (w : W64) : base4k w % 4096 = 0 := by
  unfold base4k
  rw [BitVec.toNat_and, show (4096 : Nat) = 2 ^ 12 from rfl, Nat.and_mod_two_pow]
  exact Nat.and_zero _

/-- The words of a source entry lie in its line. -/
theorem linesAt_src (s : State) (src : Nat) {k n : Nat} (hn : 0 < n) (h : k + n ≤ 32) :
    linesAt (srcAddr s src + k) n = [haddr (srcAddr s src) / 64] := by
  have aligned := base4k_aligned (s.rd64 Reg.XLT_SRC_BASE)
  unfold srcAddr
  rw [linesAt_one hn (by unfold haddr; omega)]
  unfold haddr
  congr 1
  omega

theorem linesAt_srcAddr (s : State) (src : Nat) {n : Nat} (hn : 0 < n) (h : n ≤ 32) :
    linesAt (srcAddr s src) n = [haddr (srcAddr s src) / 64] :=
  linesAt_src s src (k := 0) hn (by omega)

theorem owned_src {s : State} {src k n : Nat} (ho : Owned s (srcAddr s src) 32) (hn : 0 < n) (h : k + n ≤ 32) :
    Owned s (srcAddr s src + k) n := by
  unfold Owned State.owns at *
  rw [linesAt_src s src hn h]
  rwa [linesAt_srcAddr s src (by decide) (by decide)] at ho

/-! ### SRC_MAP (06 R135) -/

/-- Word 0 of the source entry that a SRC_MAP writes. -/
def srcWord (d : Desc) : W64 :=
  BitVec.ofNat 64 (1 + d.physOk.toNat * 2 + d.pnlOk.toNat * 4 + d.srcPanel * 2 ^ 4 + d.dbits * 2 ^ 14)

theorem toNat_srcWord (d : Desc) :
    (srcWord d).toNat = 1 + d.physOk.toNat * 2 + d.pnlOk.toNat * 4 + d.srcPanel * 2 ^ 4 + d.dbits * 2 ^ 14 ∧
    d.srcPanel < 2 ^ 10 ∧ d.dbits < 2 ^ 5 := by
  have panel : d.srcPanel < 2 ^ 10 := Nat.mod_lt _ (by decide)
  have dbits : d.dbits < 2 ^ 5 := Nat.mod_lt _ (by decide)
  have phys := Bool.toNat_le d.physOk
  have pnl := Bool.toNat_le d.pnlOk
  refine ⟨?_, panel, dbits⟩
  rw [srcWord, BitVec.toNat_ofNat]
  omega

theorem bitAt_eq (w : W64) (i : Nat) : bitAt w i = decide (w.toNat / 2 ^ i % 2 = 1) := by
  rw [bitAt, ← BitVec.testBit_toNat, Nat.testBit_eq_decide_div_mod_eq]

theorem bitAt_of_toNat {w : W64} {i : Nat} {b : Bool} (h : w.toNat / 2 ^ i % 2 = b.toNat) : bitAt w i = b := by
  rw [bitAt_eq, h]
  cases b <;> rfl

/-- The fields of that word are those that the command names. -/
theorem srcWord_fields (d : Desc) : bitAt (srcWord d) 0 = true ∧ bitAt (srcWord d) 1 = d.physOk ∧
    bitAt (srcWord d) 2 = d.pnlOk ∧ field (srcWord d) 13 4 = d.srcPanel ∧ field (srcWord d) 18 14 = d.dbits := by
  obtain ⟨w, panel, dbits⟩ := toNat_srcWord d
  have phys := Bool.toNat_le d.physOk
  have pnl := Bool.toNat_le d.pnlOk
  refine ⟨bitAt_of_toNat ?_, bitAt_of_toNat ?_, bitAt_of_toNat ?_, ?_, ?_⟩ <;>
    simp only [field, Nat.shiftRight_eq_div_pow, w, Bool.toNat_true] <;> omega

/-- The words that a SRC_MAP writes. -/
def srcWrites (s : State) (d : Desc) : List (Nat × W64) :=
  let c := srcAddr s d.src
  [(c + 0, srcWord d), (c + 8, d.word 2), (c + 16, 0), (c + 24, 0)]

theorem srcMap_writes {u : State} {r : Nat} {d : Desc} (hb : d.src < 2 ^ srcBits u) (hd : d.dbits ≤ 21)
    (hp : d.pnlOk = true → d.srcPanel < u.par.panels) (hv : (readSrc u d.src).valid = false) :
    srcMap .good u r d = endTable (writeList u (srcWrites u d)) r d stOk := by
  have fits : ¬(2 ^ srcBits u ≤ d.src ∨ 21 < d.dbits ∨ (d.pnlOk = true ∧ u.par.panels ≤ d.srcPanel)) := by
    rintro (h | h | ⟨h, k⟩)
    · omega
    · omega
    · have := hp h
      omega
  rw [srcMap, if_neg fits, if_neg (by decide), if_neg (by rw [hv]; decide)]
  rfl

theorem srcWrites_apart (s : State) (d : Desc) : (srcWrites s d).Pairwise fun v w => BytesApart v.1 8 w.1 8 := by
  simp only [srcWrites, List.pairwise_cons, List.mem_cons, List.not_mem_nil, or_false, forall_eq_or_imp, forall_eq,
    IsEmpty.forall_iff, implies_true, List.Pairwise.nil, and_true, BytesApart, haddr]
  refine ⟨⟨?_, ?_, ?_⟩, ⟨?_, ?_⟩, ?_⟩ <;> intro i hi j hj <;> omega

theorem touched_srcWrites {s t : State} {d : Desc} (h : Touched s t ((srcWrites s d).map fun w => (w.1, 8))) :
    Touched s t [(srcAddr s d.src, 32)] := by
  refine h.congr fun l => ?_
  simp only [srcWrites, List.map_cons, List.map_nil, List.any_cons, List.any_nil, Bool.or_false, Bool.or_self,
    linesAt_srcAddr s d.src (n := 32) (by decide) (by decide), linesAt_src s d.src (n := 8) (k := 0) (by decide) (by decide),
    linesAt_src s d.src (n := 8) (k := 8) (by decide) (by decide), linesAt_src s d.src (n := 8) (k := 16) (by decide) (by decide),
    linesAt_src s d.src (n := 8) (k := 24) (by decide) (by decide)]

section
variable {s : State} {r : BitVec 3} {d : Desc}

theorem gives_srcMap (h : Starts s r.toNat 0x10 d) (hq : transWids s = []) (hm : Memory.wf s.mem = true)
    (hb : d.src < 2 ^ srcBits s) (hd : d.dbits ≤ 21) (hp : d.pnlOk = true → d.srcPanel < s.par.panels)
    (hv : (readSrc s d.src).valid = false) (ho : Owned s (srcAddr s d.src) 32) :
    Gives (.srcMap r .good) s fun t =>
      (t = { begunOn s r.toNat with mem := t.mem, coh := t.coh, rings := t.rings } ∧ Touched s t [(srcAddr s d.src, 32)]) ∧
      Completes s t r.toNat d stOk 0 ∧
      let n := readSrc t d.src
      n.valid = true ∧ n.physOk = d.physOk ∧ n.pnlOk = d.pnlOk ∧ n.panel = d.srcPanel ∧ n.dbits = d.dbits ∧
      n.w1 = d.word 2 ∧ n.mapCnt = 0 ∧ n.w3 = 0 ∧
      ∀ x, (∀ k, k < 32 → x ≠ haddr (srcAddr s d.src + k)) → Memory.read t.mem x = Memory.read s.mem x := by
  have words : ∀ w ∈ srcWrites s d, Owned s w.1 8 := by
    simp only [srcWrites, List.mem_cons, List.not_mem_nil, or_false, forall_eq_or_imp, forall_eq]
    exact ⟨owned_src ho (by decide) (by decide), owned_src ho (by decide) (by decide), owned_src ho (by decide) (by decide),
      owned_src ho (by decide) (by decide)⟩
  have row : exec (.srcMap r .good) s = .next (s.served (endTable
      (writeList (withPlru (started s r.toNat) (srcReads s d).coh.plru) (srcWrites s d)) r.toNat d stOk)) := by
    show Host.Outcome.next (startMem s r.toNat 0x10 .good srcMap (rd := srcReads)) = _
    rw [startMem_starts h (by decide) (srcReads_started hb ho r.toNat) rfl,
      srcMap_writes (u := withPlru (started s r.toNat) _) hb hd hp hv]
    rfl
  refine gives_writes hq _ words row fun t only done mem => ?_
  obtain ⟨ht, touched⟩ := only
  have word := load64_of_mem hm (srcWrites_apart s d) mem
  have entry : readSrc t d.src = ⟨srcWord d, d.word 2, 0, 0⟩ := by
    have addr : srcAddr t d.src = srcAddr s d.src := by
      rw [ht, begunOn_eq]
      rfl
    simp only [srcWrites, List.mem_cons, List.not_mem_nil, or_false, forall_eq_or_imp, forall_eq] at word
    obtain ⟨w0, w1, w2, w3⟩ := word
    rw [readSrc, addr]
    exact congr (congr (congr (congrArg SrcEntry.mk w0) w1) w2) w3
  obtain ⟨valid, phys, pnl, panel, dbits⟩ := srcWord_fields d
  refine ⟨⟨ht, touched_srcWrites touched⟩, done, ?_⟩
  rw [entry]
  refine ⟨valid, phys, pnl, panel, dbits, rfl, rfl, rfl, fun x hx => ?_⟩
  rw [mem]
  refine read_writeList_other hm ?_
  simp only [srcWrites, List.mem_cons, List.not_mem_nil, or_false, forall_eq_or_imp, forall_eq, Nat.add_assoc]
  refine ⟨?_, ?_, ?_, ?_⟩ <;> exact fun k hk => hx _ (by omega)

/-! ### SRC_UNMAP (06 R135) -/

theorem tableWrites_good (u : State) (r : Nat) (d : Desc) (l : List (Nat × W64)) :
    tableWrites u r d .good l = endTable (writeList u l) r d stOk := by
  simp only [tableWrites, writesDone, List.take_length, if_true]

theorem srcUnmap_writes {u : State} {r : Nat} {d : Desc} (hb : d.src < 2 ^ srcBits u) (hv : (readSrc u d.src).valid = true)
    (hc : (readSrc u d.src).mapCnt = 0) : srcUnmap .good u r d =
      endTable (writeList u [(srcAddr u d.src, setBit (readSrc u d.src).w0 0 false)]) r d stOk := by
  rw [srcUnmap, if_neg (by omega), if_neg (by decide)]
  dsimp only
  rw [if_neg (by simpa using hc), hv]
  exact tableWrites_good u r d _

/-- One word written is stored, and nothing else. -/
theorem stored64_of_mem {s t : State} {a : Nat} {v : W64} (hm : Memory.wf s.mem = true)
    (h : t.mem = (writeList s [(a, v)]).mem) : Stored64 s t a v := by
  refine ⟨load64_of_mem hm (List.pairwise_singleton _ _) h (a, v) (List.mem_singleton_self _), fun x hx => ?_⟩
  rw [h]
  exact read_memStore_other hm hx

theorem gives_srcUnmap (h : Starts s r.toNat 0x11 d) (hq : transWids s = []) (hm : Memory.wf s.mem = true)
    (hb : d.src < 2 ^ srcBits s) (hv : (readSrc s d.src).valid = true) (hc : (readSrc s d.src).mapCnt = 0)
    (ho : Owned s (srcAddr s d.src) 32) :
    Gives (.srcUnmap r .good) s fun t =>
      (t = { begunOn s r.toNat with mem := t.mem, coh := t.coh, rings := t.rings } ∧ Touched s t [(srcAddr s d.src, 8)]) ∧
      Completes s t r.toNat d stOk 0 ∧ Stored64 s t (srcAddr s d.src) (setBit (readSrc s d.src).w0 0 false) := by
  have row : exec (.srcUnmap r .good) s = .next (s.served (endTable
      (writeList (withPlru (started s r.toNat) (srcReads s d).coh.plru)
        [(srcAddr s d.src, setBit (readSrc s d.src).w0 0 false)]) r.toNat d stOk)) := by
    show Host.Outcome.next (startMem s r.toNat 0x11 .good srcUnmap (rd := srcReads)) = _
    rw [startMem_starts h (by decide) (srcReads_started hb ho r.toNat) rfl,
      srcUnmap_writes (u := withPlru (started s r.toNat) _) hb hv hc]
    rfl
  refine gives_writes hq _ ?_ row fun t only done mem => ⟨only, done, stored64_of_mem hm mem⟩
  simpa using owned_src (k := 0) ho (by decide) (by decide)

/-! ### EV_MAP (06 R135) -/

theorem mapAddr_of_keyMap {s : State} {d : Desc} {a : Nat} (h : keyMap s d = some a) : mapAddr (readSrc s d.src) d.key = a := by
  simp only [keyMap] at h
  split at h
  · cases h
  · exact Option.some.inj h

theorem evMap_writes {u : State} {r : Nat} {d : Desc} {a : Nat} (hk : keyMap u d = some a)
    (hc : mapCheck u (readSrc u d.src) d.ent = none) (hv : (readMap u a).valid = false)
    (hr : remoteDest u d.ent.virt d.ent.dest = false)
    (hm : attMapped (u.load64 (attEntry u d.ent.virt (readSrc u d.src).panel d.ent.event)) = false)
    (hu : attUsed (u.load64 (attEntry u d.ent.virt (readSrc u d.src).panel d.ent.event)) = false) :
    evMap .good u r d = endTable (writeList u (mapWrites u d)) r d stOk := by
  simp [evMap, hk, hc, hv, hr, hm, hu, writesDone]

/-- No group 0 entry stands for the event that an EV_MAP names. -/
theorem mapGroup0_of_entry {s : State} {d : Desc} {p : Nat}
    (h : wordGroup0 (s.load64 (attEntry s d.ent.virt p d.ent.event)) = false) : mapGroup0 s d = false := by
  unfold mapGroup0
  dsimp only
  cases hv : d.ent.virt with
  | true => rfl
  | false =>
    rw [hv] at h
    rw [show wordGroup0 (s.load64 (attAddr s d.ent.event)) = false from h, Bool.and_false]

theorem gives_evMap {a : Nat} (h : Starts s r.toNat 0x12 d) (hq : transWids s = []) (hm : Memory.wf s.mem = true)
    (hk : keyMap s d = some a) (hg : d.ent.attr.group = true) (hc : mapCheck s (readSrc s d.src) d.ent = none)
    (hv : (readMap s a).valid = false) (hr : remoteDest s d.ent.virt d.ent.dest = false)
    (h0 : wordGroup0 (s.load64 (attEntry s d.ent.virt (readSrc s d.src).panel d.ent.event)) = false)
    (hmap : attMapped (s.load64 (attEntry s d.ent.virt (readSrc s d.src).panel d.ent.event)) = false)
    (hu : attUsed (s.load64 (attEntry s d.ent.virt (readSrc s d.src).panel d.ent.event)) = false)
    (apart : (mapWrites s d).Pairwise fun v w => BytesApart v.1 8 w.1 8)
    (serves : Serves s (mapReads s d)) (owned : ∀ w ∈ mapWrites s d, Owned s w.1 8) :
    Gives (.evMap r .good) s fun t =>
      (t = { begunOn s r.toNat with mem := t.mem, coh := t.coh, rings := t.rings } ∧
        Touched s t ((mapWrites s d).map fun w => (w.1, 8))) ∧
      Completes s t r.toNat d stOk 0 ∧ ∀ w ∈ mapWrites s d, t.load64 w.1 = w.2 := by
  have group : (writesGroup0 d || (decide (CmdMem.good ≠ .readFail) &&
      mapGroup0 (withPlru (started s r.toNat) (mapReads s d).coh.plru) d)) = false := by
    have named : bitAt (d.word 2) 2 = true := hg
    have entry : mapGroup0 (withPlru (started s r.toNat) (mapReads s d).coh.plru) d = false := mapGroup0_of_entry (s := s) h0
    rw [writesGroup0, named, entry]
    rfl
  have row : exec (.evMap r .good) s = .next (s.served (endTable
      (writeList (withPlru (started s r.toNat) (mapReads s d).coh.plru) (mapWrites s d)) r.toNat d stOk)) := by
    show Host.Outcome.next (startMem s r.toNat 0x12 .good evMap
      (fun c s d => writesGroup0 d || (decide (c ≠ .readFail) && mapGroup0 s d)) mapReads) = _
    rw [startMem_starts h (by decide) (mapReads_started hk r.toNat serves) group,
      evMap_writes (u := withPlru (started s r.toNat) _) hk hc hv hr hmap hu]
    rfl
  exact gives_writes hq _ owned row fun t only done mem => ⟨only, done, load64_of_mem hm apart mem⟩

end

end Sys2Proof.Machine
end

section
namespace Sys2Proof.Machine

section
variable {s u : State} {r : BitVec 3} {d : Desc} {a : Nat}

/-! ### EV_UNMAP and EV_ATTR of an event with an entry here (06 R135, R138) -/

/-- The writes of an EV_UNMAP whose event has an attribute entry. -/
def unmapWrites (s : State) (d : Desc) (a : Nat) : List (Nat × W64) :=
  let e := readSrc s d.src
  let m := readMap s a
  [(a, setBit m.w0 0 false), (entAtt s e m, setBit (s.load64 (entAtt s e m)) 12 false),
   (srcAddr s d.src + 16, setField e.w2 21 0 (e.mapCnt - 1))]

theorem evUnmap_writes {r : Nat} (hk : keyMap u d = some a) (hv : (readMap u a).valid = true)
    (hr : remoteDest u (readMap u a).virt (readMap u a).dest = false)
    (ha : hasAtt u (readMap u a).virt (readSrc u d.src).panel (readMap u a).event = true) :
    evUnmap .good u r d = endTable (writeList u (unmapWrites u d a)) r d stOk := by
  simp [evUnmap, hk, hv, hr, ha, tableWrites_good, unmapWrites]

theorem gives_evUnmap (h : Starts s r.toNat 0x13 d) (hq : transWids s = []) (hm : Memory.wf s.mem = true)
    (hk : keyMap s d = some a) (hv : (readMap s a).valid = true)
    (hr : remoteDest s (readMap s a).virt (readMap s a).dest = false) (hg : keyGroup0 s d = false)
    (ha : hasAtt s (readMap s a).virt (readSrc s d.src).panel (readMap s a).event = true)
    (apart : (unmapWrites s d a).Pairwise fun v w => BytesApart v.1 8 w.1 8)
    (serves : Serves s (keyReads s d)) (owned : ∀ w ∈ unmapWrites s d a, Owned s w.1 8) :
    Gives (.evUnmap r .good) s fun t =>
      (t = { begunOn s r.toNat with mem := t.mem, coh := t.coh, rings := t.rings } ∧
        Touched s t ((unmapWrites s d a).map fun w => (w.1, 8))) ∧
      Completes s t r.toNat d stOk 0 ∧ ∀ w ∈ unmapWrites s d a, t.load64 w.1 = w.2 := by
  have row : exec (.evUnmap r .good) s = .next (s.served (endTable
      (writeList (withPlru (started s r.toNat) (keyReads s d).coh.plru) (unmapWrites s d a)) r.toNat d stOk)) := by
    show Host.Outcome.next (startMem s r.toNat 0x13 .good evUnmap
      (fun c s d => decide (c ≠ .readFail) && keyGroup0 s d) keyReads) = _
    rw [startMem_starts h (by decide) (keyReads_started hk r.toNat serves) hg,
      evUnmap_writes (u := withPlru (started s r.toNat) _) hk hv hr ha]
    rfl
  exact gives_writes hq _ owned row fun t only done mem => ⟨only, done, load64_of_mem hm apart mem⟩

/-- The writes of an EV_ATTR. -/
def attrWrites (s : State) (d : Desc) (a : Nat) : List (Nat × W64) :=
  let aa := entAtt s (readSrc s d.src) (readMap s a)
  [(aa, attAttr (s.load64 aa) d.newAttr), (a, mapAttr (readMap s a).w0 d.newAttr)]

/-- The local target that holds the event of a map entry, by its attribute entry. -/
def entHolder (s : State) (d : Desc) (a : Nat) : BitVec 14 :=
  (attDest (s.load64 (entAtt s (readSrc s d.src) (readMap s a)))).truncate 14

theorem msgEvent_of_hasAtt {virt : Bool} {p : Nat} {ev : EventId} (h : hasAtt s virt p ev = true) : msgEvent ev = true := by
  rw [hasAtt, Bool.and_eq_true] at h
  exact h.1

/-- The re-prioritise of an EV_ATTR, at the local holder of a physical event. -/
def attrOp (s : State) (d : Desc) (a : Nat) : TOp := mkOp .rpr false (readMap s a).event d.newAttr s.count

theorem rprAt_local {g : BitVec 14} {ev : EventId} {n : Attr} (hl : isLocal s g = true)
    (hf : opqFull s (g.toNat % 128) = false) :
    rprAt s (.tgt g) false ev n = withOp s (g.toNat % 128) (mkOp .rpr false ev n s.count) := by
  rw [rprAt, if_pos hl, treeEnq_free hf]

theorem evAttr_writes {r : Nat} (hk : keyMap u d = some a) (hv : (readMap u a).valid = true)
    (hr : remoteDest u (readMap u a).virt (readMap u a).dest = false)
    (ha : hasAtt u (readMap u a).virt (readSrc u d.src).panel (readMap u a).event = true)
    (hphys : (readMap u a).virt = false) (hl : isLocal u (entHolder u d a) = true)
    (hf : opqFull u ((entHolder u d a).toNat % 128) = false) :
    evAttr .good u r d = endTable { writeList u (attrWrites u d a) with
      tg := (withOp u ((entHolder u d a).toNat % 128) (attrOp u d a)).tg } r d stOk := by
  have msg := msgEvent_of_hasAtt ha
  have frame := writeList_frame u (attrWrites u d a)
  have rpr : rprAt (writeList u (attrWrites u d a)) (.tgt (entHolder u d a)) false (readMap u a).event d.newAttr =
      { writeList u (attrWrites u d a) with tg := (withOp u ((entHolder u d a).toNat % 128) (attrOp u d a)).tg } := by
    generalize writeList u (attrWrites u d a) = v at frame ⊢
    rw [rprAt_local (by rw [frame]; exact hl) (by rw [frame]; exact hf), frame]
    rfl
  rw [← rpr]
  rw [hphys] at hr ha
  simp only [evAttr, hk, hv, hr, ha, msg, hphys, writesDone, Bool.not_true, Bool.false_eq_true, false_and, false_or, if_false,
    if_true, reduceCtorEq]
  rfl

theorem gives_evAttr (h : Starts s r.toNat 0x14 d) (hq : transWids s = []) (hm : Memory.wf s.mem = true)
    (hk : keyMap s d = some a) (hv : (readMap s a).valid = true)
    (hr : remoteDest s (readMap s a).virt (readMap s a).dest = false) (hg : keyGroup0 s d = false)
    (ha : hasAtt s (readMap s a).virt (readSrc s d.src).panel (readMap s a).event = true)
    (hphys : (readMap s a).virt = false) (hn : d.newAttr.group = true) (hl : isLocal s (entHolder s d a) = true)
    (hf : opqFull s ((entHolder s d a).toNat % 128) = false)
    (apart : (attrWrites s d a).Pairwise fun v w => BytesApart v.1 8 w.1 8)
    (serves : Serves s (keyReads s d)) (owned : ∀ w ∈ attrWrites s d a, Owned s w.1 8) :
    Gives (.evAttr r .good) s fun t =>
      t = { begunOn s r.toNat with mem := t.mem, coh := t.coh, rings := t.rings, tg := t.tg } ∧
      Touched s t ((attrWrites s d a).map fun w => (w.1, 8)) ∧ Completes s t r.toNat d stOk 0 ∧
      (∀ w ∈ attrWrites s d a, t.load64 w.1 = w.2) ∧ Queued s t ((entHolder s d a).toNat % 128) (attrOp s d a) := by
  have group : (writesGroup0 d || (decide (CmdMem.good ≠ .readFail) &&
      keyGroup0 (withPlru (started s r.toNat) (keyReads s d).coh.plru) d)) = false := by
    have named : bitAt (d.word 2) 2 = true := hn
    have entry : keyGroup0 (withPlru (started s r.toNat) (keyReads s d).coh.plru) d = false := hg
    rw [writesGroup0, named, entry]
    rfl
  have row : exec (.evAttr r .good) s = .next (s.served (endTable
      { writeList (withPlru (started s r.toNat) (keyReads s d).coh.plru) (attrWrites s d a) with
        tg := (withOp s ((entHolder s d a).toNat % 128) (attrOp s d a)).tg } r.toNat d stOk)) := by
    show Host.Outcome.next (startMem s r.toNat 0x14 .good evAttr
      (fun c s d => writesGroup0 d || (decide (c ≠ .readFail) && keyGroup0 s d)) keyReads) = _
    rw [startMem_starts h (by decide) (keyReads_started hk r.toNat serves) group,
      evAttr_writes (u := withPlru (started s r.toNat) _) hk hv hr ha hphys hl hf]
    rfl
  obtain ⟨ht, touched, done, mem, tg⟩ := table_ends (r := r.toNat) (d := d) hq (keyReads s d).coh.plru owned
    (withOp s ((entHolder s d a).toNat % 128) (attrOp s d a)).tg
  refine gives_intro row ⟨?_, touched, done, load64_of_mem hm apart mem, queued_withOp tg⟩
  rw [tg]
  exact ht

end

/-! ### XLT_INV of tables with no cached line (06 R135) -/

/-- What `dropGone` does for ring r: an XLT_INV with no line left completes. -/
def invStep (s : State) (r : Nat) : State :=
  match (s.ring r).run with
  | some u => if u.kind = .inv ∧ (s.coh.drop.all fun d => decide (d.2 ≠ .ring r)) then complete s r u.desc u.status else s
  | none => s

theorem dropGone_eq {s : State} (h : s.coh.drop = []) : dropGone s = (List.range 8).foldl invStep s := by
  have same : (modCoh s fun c => { c with drop := c.drop.filter fun d => (lineState s d.1).isSome || inEvb s d.1 }) = s := by
    rw [modCoh, h, List.filter_nil, ← h]
  unfold dropGone
  rw [same]
  rfl

theorem invStep_of_no_run {s : State} {j : Nat} (h : (s.ring j).run = none) : invStep s j = s := by
  rw [invStep, h]

theorem foldl_invStep_of_no_run {s : State} {l : List Nat} (h : ∀ j ∈ l, (s.ring j).run = none) : l.foldl invStep s = s := by
  induction l with
  | nil => rfl
  | cons j l ih =>
    obtain ⟨hj, hl⟩ := List.forall_mem_cons.1 h
    rw [List.foldl_cons, invStep_of_no_run hj, ih hl]

/-- Of the rings of l, an XLT_INV runs on ring r alone, and no line is left for it. -/
theorem foldl_invStep {s : State} {r : Nat} {u : Run} {l : List Nat} (hr : r ∈ l) (hrun : (s.ring r).run = some u)
    (hk : u.kind = .inv) (hd : s.coh.drop = []) (hf : (s.ring r).fetched = [])
    (hl : ∀ j ∈ l, j ≠ r → (s.ring j).run = none) : l.foldl invStep s = complete s r u.desc u.status := by
  induction l with
  | nil => cases hr
  | cons j l ih =>
    obtain ⟨hj, hl⟩ := List.forall_mem_cons.1 hl
    rw [List.foldl_cons]
    by_cases h : j = r
    · obtain ⟨-, ring, others⟩ := complete_spec hf u.desc u.status 0
      rw [h, invStep, hrun]
      dsimp only
      rw [if_pos ⟨hk, by rw [hd]; rfl⟩]
      refine foldl_invStep_of_no_run fun i hi => ?_
      by_cases e : i = r
      · rw [e, ring]
      · rw [others i e]
        exact hl i hi e
    · rw [invStep_of_no_run (hj h)]
      exact ih ((List.mem_cons.1 hr).resolve_left (Ne.symm h)) hl

/-- With no line cached, an XLT_INV of a source in range, or of all, ends at once. -/
theorem xltInv_ends {u : State} {r : Nat} {d : Desc} (hb : bitAt (d.word 1) 24 = true ∨ d.src < 2 ^ srcBits u)
    (hl : u.coh.lines = []) (hd : u.coh.drop = []) (hr : r < 8) (hf : (u.ring r).fetched = [])
    (hrun : ∀ j, j < 8 → (u.ring j).run = none) : xltInv false u r d = complete (goOn u r d stOk .inv) r d stOk := by
  have inRange : (!bitAt (d.word 1) 24 && decide (2 ^ srcBits u ≤ d.src)) = false := by
    rcases hb with h | h
    · rw [h]
      rfl
    · rw [decide_eq_false (by omega), Bool.and_false]
  have same : (modCoh (goOn u r d stOk .inv) fun c => { c with drop := c.drop ++ [] }) = goOn u r d stOk .inv := by
    simp only [modCoh, List.append_nil]
  have ring := ring_modRing u r (f := fun x => { x with run := some { desc := d, status := stOk, kind := .inv } })
  simp only [xltInv, inRange, Bool.false_eq_true, if_false, hl, List.map_nil, List.filter_nil, same]
  rw [dropGone_eq (s := goOn u r d stOk .inv) hd]
  refine foldl_invStep (List.mem_range.2 hr) (congrArg Ring.run ((ring r).trans (if_pos rfl))) rfl hd ?_ fun j hj e => ?_
  · exact (congrArg Ring.fetched ((ring r).trans (if_pos rfl))).trans hf
  · exact (congrArg Ring.run ((ring j).trans (if_neg e))).trans (hrun j (List.mem_range.1 hj))

theorem gives_xltInv {s : State} {r : BitVec 3} {d : Desc} (h : Starts s r.toNat 0x16 d) (hl : s.coh.lines = [])
    (hd : s.coh.drop = []) (hb : bitAt (d.word 1) 24 = true ∨ d.src < 2 ^ srcBits s)
    (hrun : ∀ j, j < 8 → (s.ring j).run = none) : Gives (.xltInv r false) s fun t =>
      t = { begunOn s r.toNat with rings := t.rings } ∧ Completes s t r.toNat d stOk 0 := by
  have ring := ring_started s r.toNat
  have fetched : ((started s r.toNat).ring r.toNat).fetched = [] := by rw [ring, if_pos rfl]
  have idle : ∀ j, j < 8 → ((started s r.toNat).ring j).run = none := fun j hj => by
    rw [ring]
    split
    · exact hrun _ r.isLt
    · exact hrun j hj
  have failed : (started s r.toNat).coh.failed = [] := by
    obtain ⟨-, -, -, -, -, -, hfail⟩ := h
    exact hfail
  have good : decide (cmdMem s r.toNat (if false = true then .readFail else .good) ≠ .good) = false := by
    rw [if_neg (by decide), cmdMem_good h]
    rfl
  have goes := ring_modRing (started s r.toNat) r.toNat
    (f := fun x => { x with run := some { desc := d, status := stOk, kind := .inv } })
  have goesFetched : ((goOn (started s r.toNat) r.toNat d stOk .inv).ring r.toNat).fetched = [] :=
    (congrArg Ring.fetched ((goes _).trans (if_pos rfl))).trans fetched
  obtain ⟨ht, hr, others⟩ := complete_spec goesFetched d stOk 0
  have row : exec (.xltInv r false) s =
      .next (s.served (complete (goOn (started s r.toNat) r.toNat d stOk .inv) r.toNat d stOk)) := by
    show Host.Outcome.next (startFail s r.toNat 0x16 false xltInv) = _
    rw [startFail, good, cmdServed, if_neg (by decide), startCmd_starts h rfl rfl, forgetCmd_of_no_failure failed,
      xltInv_ends (u := started s r.toNat) hb hl hd r.isLt fetched idle]
  rw [served_eq (show Serves s (complete _ _ _ _) by rw [ht]; rfl)] at row
  refine gives_intro row ⟨?_, ?_⟩
  · rw [begunOn_eq]
    exact ht
  · refine Completes.of_started (fun j => rfl) rfl ⟨?_, fun j hj => ?_⟩
    · rw [hr, goOn, goes, if_pos rfl]
      rfl
    · rw [others j hj, goOn, goes, if_neg hj]

/-! ### The writes lie apart -/

theorem apart_pair {v w : Nat × W64} (h : Apart v.1 8 w.1 8) : [v, w].Pairwise fun x y => BytesApart x.1 8 y.1 8 := by
  simpa using h.bytesApart

theorem apart_triple {v w x : Nat × W64} (hvw : Apart v.1 8 w.1 8) (hvx : Apart v.1 8 x.1 8) (hwx : Apart w.1 8 x.1 8) :
    [v, w, x].Pairwise fun x y => BytesApart x.1 8 y.1 8 := by
  simpa using ⟨⟨hvw.bytesApart, hvx.bytesApart⟩, hwx.bytesApart⟩

theorem Apart.symm {a m b n : Nat} (h : Apart a m b n) : Apart b n a m := by
  obtain ⟨hd, ha, hb⟩ := h
  exact ⟨hd.symm, hb, ha⟩

theorem touched_swap {s t : State} {v w : Nat × Nat} {l : List (Nat × Nat)} (h : Touched s t (v :: w :: l)) :
    Touched s t (w :: v :: l) :=
  h.congr fun _ => Bool.or_left_comm _ _ _

/-- Settles O33: each command starts as it is (`startMem_starts`), its writes are made in their order, and with nothing under
way it ends at once (`table_ends`). -/
theorem tableCommands : Obligations.TableCommands := by
  unfold Obligations.TableCommands
  intro s r op d h hq hm
  refine ⟨?srcMap, ?srcUnmap, ?evMap, ?mapped, ?inv⟩
  case srcMap =>
    rintro rfl hb hd hp hv ho
    exact gives_srcMap h hq hm hb hd hp hv ho
  case srcUnmap =>
    rintro rfl hb hv hc ho
    exact gives_srcUnmap h hq hm hb hv hc ho
  case evMap =>
    rintro a hk n aa rfl hg hc hv hr h0 hmap hu apart1 apart2 apart3 serves own1 own2 own3
    have writes : mapWrites s d = [(aa, attWord n.attr true true n.dest), (a, setBit n.w0 0 true),
        (srcAddr s d.src + 16, setField (readSrc s d.src).w2 21 0 ((readSrc s d.src).mapCnt + 1))] := by
      rw [← mapAddr_of_keyMap hk]
      rfl
    have apart : (mapWrites s d).Pairwise fun v w => BytesApart v.1 8 w.1 8 := by
      rw [writes]
      exact apart_triple apart1 apart2 apart3
    have owned : ∀ w ∈ mapWrites s d, Owned s w.1 8 := by
      rw [writes]
      simpa using ⟨own1, own2, own3⟩
    refine gives_mono (gives_evMap h hq hm hk hg hc hv hr h0 hmap hu apart serves owned) fun t ⟨only, done, word⟩ => ?_
    rw [writes] at only word
    exact ⟨only, done, by simpa using word⟩
  case mapped =>
    intro a hk m aa hv hr h0 ha apart serves own1 own2
    refine ⟨?unmap, ?attr⟩
    case unmap =>
      rintro rfl apart2 apart3 own3
      have owned : ∀ w ∈ unmapWrites s d a, Owned s w.1 8 := by
        simpa [unmapWrites] using ⟨own2, own1, own3⟩
      refine gives_mono (gives_evUnmap h hq hm hk hv hr h0 ha (apart_triple apart.symm apart3 apart2) serves owned)
        fun t ⟨⟨ht, touched⟩, done, word⟩ => ⟨⟨ht, touched_swap touched⟩, done, ?_⟩
      simpa [unmapWrites] using word
    case attr =>
      rintro rfl hphys hn hl hf
      have owned : ∀ w ∈ attrWrites s d a, Owned s w.1 8 := by
        simpa [attrWrites] using ⟨own1, own2⟩
      refine gives_mono (gives_evAttr h hq hm hk hv hr h0 ha hphys hn hl hf (apart_pair apart) serves owned)
        fun t ⟨ht, touched, done, word, queued⟩ => ⟨ht, touched, done, ?_⟩
      simp only [attrWrites, List.mem_cons, List.not_mem_nil, or_false, forall_eq_or_imp, forall_eq] at word
      obtain ⟨attrWord, mapWord⟩ := word
      exact ⟨attrWord, mapWord, queued⟩
  case inv =>
    rintro rfl hl hd hb hrun
    exact gives_xltInv h hl hd hb hrun

end Sys2Proof.Machine
end

section
namespace Sys2Proof.Machine

/-! ### Commands that go on (11 R256) -/

theorem cmdMem_of_no_failure {s : State} (h : s.coh.failed = []) (r : Nat) : cmdMem s r .good = .good := by
  simp [cmdMem, State.failures, h]

/-- What has completed is told by the rings and the stroke count of the state before. -/
theorem Completes.congr {s u t : State} {r : Nat} {d : Desc} {status : Nat} {result : W64} (hr : u.rings = s.rings)
    (hc : u.count = s.count) (h : Completes u t r d status result) : Completes s t r d status result := by
  obtain ⟨ring, others⟩ := h
  have rings : ∀ j, u.ring j = s.ring j := fun j => congrArg (fun x => Tbl.get Ring.empty x j) hr
  refine ⟨?_, fun j hj => (others j hj).trans (rings j)⟩
  rw [ring, rings, recOf, recOf, hc]

theorem goesOn_started {s t : State} {r : Nat} {d : Desc} {status : Nat} {k : RunKind}
    (h : t.rings = (goOn (started s r) r d status k).rings) : GoesOn s t r d status k := by
  have rings : ∀ j, t.ring j = (goOn (started s r) r d status k).ring j := fun j => congrArg (fun x => Tbl.get Ring.empty x j) h
  have goes := ring_modRing (started s r) r (f := fun x => { x with run := some { desc := d, status := status, kind := k } })
  refine ⟨?_, fun j hj => ?_⟩
  · rw [rings, goOn, goes, if_pos rfl, ring_started, if_pos rfl]
  · rw [rings, goOn, goes, if_neg hj, ring_started, if_neg hj]

/-- The queues that an operation leaves depend on no other part of the state. -/
theorem withOp_tg {s u : State} (h : u.tg = s.tg) (k : Nat) (o : TOp) : (withOp u k o).tg = (withOp s k o).tg := by
  rw [withOp, withOp, State.setTgt, State.setTgt, State.tgt, State.tgt, h]

/-! ### EV_MOVE of a message event between local targets (06 R140) -/

theorem isLocal_iff {s : State} {g : BitVec 14} : isLocal s g = true ↔ g.toNat / 128 = s.instId.toNat := decide_eq_true_iff

theorem present_self (s : State) : present s s.instId.toNat = true := by simp [present]

theorem targetsOf_self (s : State) : targetsOf s s.instId.toNat = s.par.targets := if_pos rfl

/-- The target that an EV_MOVE names. -/
def moveDest (d : Desc) : Nat := field (d.word 2) 63 48

/-- The move that an EV_MOVE of the physical event of the map entry at a begins. -/
def msgMove (s : State) (r : Nat) (d : Desc) (a : Nat) : Move :=
  { step := .v1, ring := r, ev := (readMap s a).event, wired := false, old := .tgt (entHolder s d a),
    new := .tgt (BitVec.ofNat 14 (moveDest d)), panel := (readSrc s d.src).panel, attr := (readMap s a).attr, found := false,
    redir := false, mapA := a, attA := entAtt s (readSrc s d.src) (readMap s a), mapping := false, waits := [] }

/-- The move-out that step V1 queues. -/
def msgMvo (s : State) (r a : Nat) : TOp :=
  { mkOp .mvo false (readMap s a).event (readMap s a).attr s.count with wid := some (cmdWid r) }

/-- A local target's number, as the destination field of a command gives it. -/
theorem localDest {s : State} {n : Nat} (h : n = s.instId.toNat * 128 + n % 128) :
    (BitVec.ofNat 16 n).toNat = n ∧ (BitVec.ofNat 16 n).truncate 14 = BitVec.ofNat 14 n ∧ n / 128 = s.instId.toNat ∧
    isLocal s (BitVec.ofNat 14 n) = true := by
  have inst := s.instId.isLt
  have wide : (BitVec.ofNat 16 n).toNat = n := by
    rw [BitVec.toNat_ofNat]
    omega
  have narrow : (BitVec.ofNat 14 n).toNat = n := by
    rw [BitVec.toNat_ofNat]
    omega
  refine ⟨wide, ?_, by omega, ?_⟩
  · apply BitVec.eq_of_toNat_eq
    rw [BitVec.truncate, BitVec.toNat_setWidth, wide, narrow]
    omega
  · rw [isLocal_iff, narrow]
    omega

theorem moveV1_local {u : State} {m : Move} {g : BitVec 14} (ho : m.old = .tgt g) (hl : isLocal u g = true)
    (hf : opqFull u (g.toNat % 128) = false) :
    moveV1 u m = withOp { u with move := some { m with step := .v1 } } (g.toNat % 128)
      { mkOp .mvo false m.ev m.attr u.count with wid := some (cmdWid m.ring) } := by
  unfold moveV1
  dsimp only
  rw [ho]
  dsimp only
  exact (if_pos hl).trans (treeEnq_free (s := { u with move := some { m with step := .v1, old := .tgt g } }) hf)

theorem moveMsg_begins {u : State} {r : Nat} {d : Desc} {a : Nat} (hk : keyMap u d = some a) (hv : (readMap u a).valid = true)
    (hp : (readMap u a).virt = false) (hl : isLocal u ((readMap u a).dest.truncate 14) = true)
    (ha : hasAtt u false (readSrc u d.src).panel (readMap u a).event = true)
    (hw : (attDest (u.load64 (entAtt u (readSrc u d.src) (readMap u a)))).toNat < 2 ^ 14)
    (hold : isLocal u (entHolder u d a) = true) (hn : moveDest d = u.instId.toNat * 128 + moveDest d % 128)
    (ht : moveDest d % 128 < u.par.targets) (hne : (entHolder u d a).toNat ≠ moveDest d)
    (hf : opqFull u ((entHolder u d a).toNat % 128) = false) :
    moveMsg .good u r d = withOp { goOn u r d stOk .move with move := some (msgMove u r d a) }
      ((entHolder u d a).toNat % 128) (msgMvo u r a) := by
  obtain ⟨wide, narrow, inst, newLocal⟩ := localDest hn
  have old : (entHolder u d a).toNat = (attDest (u.load64 (entAtt u (readSrc u d.src) (readMap u a)))).toNat := by
    rw [entHolder, BitVec.truncate, BitVec.toNat_setWidth]
    omega
  have oldInst : (attDest (u.load64 (entAtt u (readSrc u d.src) (readMap u a)))).toNat / 128 = u.instId.toNat := by
    rw [← old, ← isLocal_iff]
    exact hold
  have here : remoteDest u (readMap u a).virt (readMap u a).dest = false := by rw [remoteDest, hl, Bool.not_true, Bool.and_false]
  have inRange : ¬(2 ^ 14 ≤ moveDest d ∨ targetsOf u u.instId.toNat ≤ moveDest d % 128) := by
    have := u.instId.isLt
    rw [targetsOf_self]
    omega
  have other : BitVec.ofNat 16 (moveDest d) ≠ attDest (u.load64 (entAtt u (readSrc u d.src) (readMap u a))) := by
    intro e
    rw [← e, wide] at old
    exact hne old
  have msg := msgEvent_of_hasAtt ha
  have ha0 : hasAtt u false 0 (readMap u a).event = true := ha
  have begins : moveMsg .good u r d = beginMove u d (msgMove u r d a)
      (fromRing r (attWord (readMap u a).attr true true (BitVec.ofNat 16 (moveDest d)))) := by
    rw [moveDest] at wide narrow inst newLocal inRange other
    rw [hp] at here
    simp [moveMsg, hk, hv, hp, here, msg, ha, ha0, wide, narrow, inst, other, newLocal, oldInst, present_self, msgMove, destAs,
      entHolder, moveDest]
    exact fun bad => absurd bad inRange
  have local1 : beginMove u d (msgMove u r d a) (fromRing r (attWord (readMap u a).attr true true (BitVec.ofNat 16 (moveDest d)))) =
      moveV1 (goOn u r d stOk .move) (msgMove u r d a) := by
    unfold beginMove msgMove
    dsimp only
    rw [newLocal]
    rfl
  rw [begins, local1]
  exact moveV1_local (u := goOn u r d stOk .move) rfl hold hf

/-- s once that move has begun, its move-out not yet queued; p are the pseudo-LRU bits. -/
def moveBegun (s : State) (r : Nat) (d : Desc) (a : Nat) (p : Tbl (BitVec 15)) : State :=
  { goOn (withPlru (started s r) p) r d stOk .move with move := some (msgMove s r d a) }

/-- s once the move has begun and its move-out is queued on the old holder's tree. -/
def evMoved (s : State) (r : Nat) (d : Desc) (a : Nat) (p : Tbl (BitVec 15)) : State :=
  withOp (moveBegun s r d a p) ((entHolder s d a).toNat % 128) (msgMvo s r a)

theorem tg_moveBegun (s : State) (r : Nat) (d : Desc) (a : Nat) (p : Tbl (BitVec 15)) : (moveBegun s r d a p).tg = s.tg := rfl

section
variable {s : State} {r : BitVec 3} {d : Desc} {a : Nat}

theorem gives_evMove (h : Starts s r.toNat 0x15 d) (hmsg : bitAt (d.word 1) 45 = false) (hk : keyMap s d = some a)
    (hg : keyGroup0 s d = false) (hv : (readMap s a).valid = true) (hp : (readMap s a).virt = false)
    (hl : isLocal s ((readMap s a).dest.truncate 14) = true)
    (ha : hasAtt s false (readSrc s d.src).panel (readMap s a).event = true)
    (hw : (attDest (s.load64 (entAtt s (readSrc s d.src) (readMap s a)))).toNat < 2 ^ 14)
    (hold : isLocal s (entHolder s d a) = true) (hn : moveDest d = s.instId.toNat * 128 + moveDest d % 128)
    (ht : moveDest d % 128 < s.par.targets) (hne : (entHolder s d a).toNat ≠ moveDest d)
    (hf : opqFull s ((entHolder s d a).toNat % 128) = false) (serves : Serves s (keyReads s d)) :
    Gives (.evMove r .good) s fun t =>
      t = { begunOn s r.toNat with rings := t.rings, tg := t.tg, move := t.move, coh := t.coh } ∧ Touched s t [] ∧
      GoesOn s t r.toNat d stOk .move ∧ t.move = some (msgMove s r.toNat d a) ∧
      Queued s t ((entHolder s d a).toNat % 128) (msgMvo s r.toNat a) := by
  have group : ((decide (CmdMem.good ≠ .readFail) || bitAt (d.word 1) 45) &&
      moveGroup0 (withPlru (started s r.toNat) (keyReads s d).coh.plru) d) = false := by
    have entry : moveGroup0 (withPlru (started s r.toNat) (keyReads s d).coh.plru) d = false := by
      rw [moveGroup0, hmsg]
      exact hg
    rw [entry, Bool.and_false]
  have reads : (fun s d => if bitAt (d.word 1) 45 = true then s else keyReads s d) (started s r.toNat) d =
      withPlru (started s r.toNat) (keyReads s d).coh.plru := by
    dsimp only
    rw [hmsg]
    exact keyReads_started hk r.toNat serves
  have act : evMove .good (withPlru (started s r.toNat) (keyReads s d).coh.plru) r.toNat d =
      evMoved s r.toNat d a (keyReads s d).coh.plru := by
    rw [evMove, hmsg]
    exact moveMsg_begins (u := withPlru (started s r.toNat) _) hk hv hp hl ha hw hold hn ht hne hf
  have row : exec (.evMove r .good) s = .next (s.served (evMoved s r.toNat d a (keyReads s d).coh.plru)) := by
    show Host.Outcome.next (startMem s r.toNat 0x15 .good evMove
      (fun c s d => (decide (c ≠ .readFail) || bitAt (d.word 1) 45) && moveGroup0 s d)
      (fun s d => if bitAt (d.word 1) 45 then s else keyReads s d)) = _
    rw [startMem_starts h (by decide) reads group, act]
  have touched : Touched s (evMoved s r.toNat d a (keyReads s d).coh.plru) [] := (touched_withPlru s _).of_coh rfl
  rw [served_eq touched.serves] at row
  refine gives_intro row ⟨?_, touched, goesOn_started rfl, rfl, queued_withOp (withOp_tg (tg_moveBegun s r.toNat d a _) _ _)⟩
  rw [begunOn_eq]
  rfl

end

end Sys2Proof.Machine
end

section
namespace Sys2Proof.Machine

/-! ### MVO: step V1 of a move (06 R141) -/

/-- s once the next operation of target k's tree, a move-out, has issued. -/
def mvoIssued (s : State) (k : Nat) : State := (begun s).setTgt k (popped (s.tgt k))

theorem tgt_mvoIssued (s : State) (k j : Nat) : (mvoIssued s k).tgt j = if j = k then popped (s.tgt k) else s.tgt j :=
  tgt_setTgt (begun s) k j _

theorem activeIn_popped (x : Tg) (virt : Bool) (ev : EventId) : activeIn (popped x) virt ev = activeIn x virt ev := by
  unfold popped
  split <;> rfl

theorem residentIn_popped (x : Tg) (virt : Bool) (ev : EventId) : residentIn (popped x) virt ev = residentIn x virt ev := by
  unfold popped
  split <;> rfl

section
variable {s : State} {k : Nat} {o : TOp}

theorem popOp_mvo (hrun : running s = true) (ho : headOp s k = some o) (hkind : o.kind = .mvo) : popOp s k = mvoIssued s k := by
  unfold popOp
  rw [ho, activity_running hrun, Option.all_some, hkind]
  rfl

theorem issue_mvo (hrun : running s = true) (ho : headOp s k = some o) (hkind : o.kind = .mvo) (hphys : o.virt = false)
    (act : State → TOp → State) : issue s k (· == .mvo) act = act (mvoIssued s k) o := by
  have here : redirected s k o = none := by rw [redirected, if_pos (.inr (.inl hkind))]
  have on : offTreeNow s k o = false := by
    rw [offTreeNow, hphys]
    rfl
  simp [issue, ho, hkind, here, on, popOp_mvo hrun ho hkind]

/-- What an MVO of a move in step V1 does, by the tree's state of the event. -/
theorem mvoDo_v1 {m : Move} (hredir : s.wft.redirs = []) (hphys : o.virt = false) (hmove : s.move = some m)
    (hstep : m.step = .v1) (hev : m.ev = o.ev) : mvoDo (mvoIssued s k) k o =
    if activeIn (s.tgt k) false m.ev then endMove (mvoIssued s k) m stBusy
    else match residentIn (s.tgt k) false m.ev with
    | none => noEntry (mvoIssued s k) m
    | some e => insertAt { takeOut (mvoIssued s k) k false m.ev with
        move := some { m with step := .v3, redir := true, found := true } }
        { m with attr := { prio := e.base, group := e.group, cls := e.cls } } e.arr := by
  have asked : redirAsked (mvoIssued s k) k o = none := by
    rw [redirAsked, show (mvoIssued s k).wft.redirs = [] from hredir]
    rfl
  have tgt : (mvoIssued s k).tgt k = popped (s.tgt k) := by rw [tgt_mvoIssued, if_pos rfl]
  unfold mvoDo
  rw [asked, show (mvoIssued s k).move = some m from hmove]
  dsimp only
  rw [hphys, tgt, activeIn_popped, residentIn_popped, if_neg (by simp [hstep, hev]), hev]
  rfl

/-- A move-out whose step ends V1, or the move, leaves no move-out without a tree to go on. -/
theorem issueMvo_done {t : State} (hi : issue s k (· == .mvo) (fun s o => mvoDo s k o) = t)
    (ht : ∀ m ∈ t.move, m.step ≠ .v1) : issueMvo s k = t := by
  unfold issueMvo
  rw [hi]
  dsimp only
  split
  · rename_i m hm
    rw [decide_eq_false (ht m hm), Bool.and_false]
    rfl
  · rfl

end

theorem completeRun_of_run {s : State} {r : Nat} {u : Run} (h : (s.ring r).run = some u) (status : Nat) :
    completeRun s r status = complete s r u.desc status := by
  rw [completeRun, h]

/-- The insert that carries the resident entry e of a move's event to its new target. -/
def movedOp (s : State) (m : Move) (e : Entry) : TOp :=
  { mkOp .ins false m.ev { prio := e.base, group := e.group, cls := e.cls } e.arr with
    level := isLevel s false m.ev, reent := true }

/-- s once the move-out of the move m has taken its resident event out of target k's tree. -/
def movedOut (s : State) (k : Nat) (m : Move) : State :=
  { takeOut (mvoIssued s k) k false m.ev with move := some { m with step := .v3, redir := true, found := true } }

theorem tgt_movedOut (s : State) (k j : Nat) (m : Move) : (movedOut s k m).tgt j =
    if j = k then { popped (s.tgt k) with entries := (s.tgt k).entries.filter fun f => !f.same false m.ev } else s.tgt j := by
  have entries : (popped (s.tgt k)).entries = (s.tgt k).entries := by
    unfold popped
    split <;> rfl
  have taken := tgt_modTgt (mvoIssued s k) k j fun x => { x with entries := x.entries.filter fun f => !f.same false m.ev }
  refine taken.trans ?_
  rw [tgt_mvoIssued, tgt_mvoIssued, if_pos rfl, entries]
  split <;> rfl

section
variable {s : State} {k : BitVec 7} {o : TOp} {m : Move} {g : BitVec 14} (hrun : running s = true) (hredir : s.wft.redirs = [])
  (ho : headOp s k.toNat = some o) (hkind : o.kind = .mvo) (hphys : o.virt = false) (hmove : s.move = some m)
  (hstep : m.step = .v1) (hev : m.ev = o.ev) (hnew : m.new = .tgt g) (hlocal : isLocal s g = true)
include hrun hredir ho hkind hphys hmove hstep hev hnew hlocal

theorem gives_mvo_resident {e : Entry} (hact : activeIn (s.tgt k.toNat) false o.ev = false)
    (hres : residentIn (s.tgt k.toNat) false o.ev = some e) (hother : g.toNat % 128 ≠ k.toNat)
    (hroom : (s.tgt (g.toNat % 128)).opq.length < 64) : Gives (.mvo k) s fun t =>
      let x := s.tgt k.toNat
      let u := g.toNat % 128
      t = { begun s with tg := t.tg, move := some { m with step := .v3, redir := true, found := true } } ∧
      t.tgt k.toNat = { popped x with entries := x.entries.filter fun f => !f.same false o.ev } ∧
      t.tgt u = { s.tgt u with opq := (s.tgt u).opq ++
        [{ mkOp .ins false m.ev { prio := e.base, group := e.group, cls := e.cls } e.arr with
            level := isLevel s false m.ev, reent := true }] } ∧
      ∀ j, j ≠ k.toNat → j ≠ u → t.tgt j = s.tgt j := by
  have tgt := fun j => tgt_movedOut s k.toNat j m
  have target : (movedOut s k.toNat m).tgt (g.toNat % 128) = s.tgt (g.toNat % 128) := (tgt _).trans (if_neg hother)
  have inserts : insertAt (movedOut s k.toNat m) { m with attr := { prio := e.base, group := e.group, cls := e.cls } } e.arr =
      withOp (movedOut s k.toNat m) (g.toNat % 128) (movedOp s m e) := by
    unfold insertAt
    dsimp only
    rw [hnew]
    exact (if_pos hlocal).trans (treeEnq_room (by rw [target]; exact hroom) (.inr rfl))
  have issued : issueMvo s k.toNat = withOp (movedOut s k.toNat m) (g.toNat % 128) (movedOp s m e) := by
    refine issueMvo_done ?_ fun n hn => ?_
    · rw [issue_mvo hrun ho hkind hphys, mvoDo_v1 hredir hphys hmove hstep hev, hev, if_neg (by rw [hact]; decide), hres, ← hev]
      exact inserts
    · cases hn
      exact nofun
  have row : exec (.mvo k) s = .next (withOp (movedOut s k.toNat m) (g.toNat % 128) (movedOp s m e)) := by
    show Host.Outcome.next (s.served (issueMvo s k.toNat)) = _
    rw [issued]
    exact congrArg Host.Outcome.next (served_eq rfl)
  have queued := queued_withOp (s := movedOut s k.toNat m) (k := g.toNat % 128) (o := movedOp s m e) rfl
  obtain ⟨inserted, others⟩ := queued
  refine gives_intro row ⟨rfl, ?_, ?_, fun j hk hj => ?_⟩
  · rw [others _ (Ne.symm hother), tgt, if_pos rfl, hev]
  · rw [inserted, target]
    rfl
  · rw [others _ hj, tgt, if_neg hk]

theorem gives_mvo_active {u : Run} (hact : activeIn (s.tgt k.toNat) false o.ev = true)
    (hr : (s.ring m.ring).run = some u) (hf : (s.ring m.ring).fetched = []) : Gives (.mvo k) s fun t =>
      t = { begun s with tg := t.tg, move := none, rings := t.rings } ∧ Completes s t m.ring u.desc stBusy 0 ∧
      t.tgt k.toNat = popped (s.tgt k.toNat) := by
  have ends : endMove (mvoIssued s k.toNat) m stBusy =
      complete { mvoIssued s k.toNat with move := none } m.ring u.desc stBusy := by
    have claim : unclaim (mvoIssued s k.toNat) m = mvoIssued s k.toNat := by
      unfold unclaim
      rw [hnew]
      dsimp only
      rw [show isLocal (mvoIssued s k.toNat) g = true from hlocal]
      rfl
    rw [endMove, claim]
    exact completeRun_of_run (s := { mvoIssued s k.toNat with move := none }) hr _
  obtain ⟨ht, done⟩ := complete_spec (u := { mvoIssued s k.toNat with move := none }) (r := m.ring) hf u.desc stBusy 0
  dsimp only at ht done
  have row : exec (.mvo k) s = .next (s.served (complete { mvoIssued s k.toNat with move := none } m.ring u.desc stBusy)) := by
    have issued : issueMvo s k.toNat = complete { mvoIssued s k.toNat with move := none } m.ring u.desc stBusy := by
      refine issueMvo_done ?_ fun n hn => ?_
      · rw [issue_mvo hrun ho hkind hphys, mvoDo_v1 hredir hphys hmove hstep hev, hev, if_pos hact, ends]
      · rw [ht] at hn
        cases hn
    rw [← issued]
    rfl
  generalize complete { mvoIssued s k.toNat with move := none } m.ring u.desc stBusy = t at ht done row
  rw [served_eq (show Serves s t by rw [Serves, ht]; rfl)] at row
  refine gives_intro row ⟨?_, done.congr rfl rfl, ?_⟩
  · rw [ht]
    rfl
  · rw [ht]
    exact (tgt_mvoIssued s _ _).trans (if_pos rfl)

end

/-! ### MOVE_TABLES_VISIBLE and MOVE_REDIRECT_REMOVE: steps V3 and V5 (06 R141) -/

section
variable {s : State} {m : Move} {g h : BitVec 14}

/-- The writes of step V3 of a message event's move between local targets. -/
def localV3 (s : State) (m : Move) (h : BitVec 14) : List (Nat × W64) :=
  [(m.mapA, setField (s.load64 m.mapA) 63 48 h.toNat), (m.attA, setField (s.load64 m.attA) 31 16 h.toNat)]

theorem v3Writes_local (hw : m.wired = false) (hm : m.mapping = false) (ho : m.old = .tgt g) (hn : m.new = .tgt h)
    (hg : isLocal s g = true) (hh : isLocal s h = true) : v3Writes s m = localV3 s m h := by
  have dest : (h.zeroExtend 16).toNat = h.toNat := by
    rw [BitVec.zeroExtend, BitVec.toNat_setWidth]
    omega
  simp only [v3Writes, hw, hm, ho, hn, hg, hh, destWord, dest, Bool.false_eq_true, if_false, if_true]
  rfl

theorem v3Remote_local (ho : m.old = .tgt g) (hn : m.new = .tgt h) (hg : isLocal s g = true) (hh : isLocal s h = true) :
    v3Remote s m = s := by
  simp [v3Remote, ho, hn, hg, hh]

theorem moveV4_found (hf : m.found = true) (n : Nat) : moveV4 s m n = s := if_pos hf

theorem moveHolder_message (hw : m.wired = false) : moveHolder s m = s := by
  unfold moveHolder
  rw [hw]
  split <;> rfl

theorem gives_moveTables (hrun : running s = true) (hfail : s.coh.failed = []) (hmem : Memory.wf s.mem = true)
    (hmove : s.move = some m) (hstep : m.step = .v3) (hw : m.wired = false) (hm : m.mapping = false) (hfound : m.found = true)
    (ho : m.old = .tgt g) (hn : m.new = .tgt h) (hg : isLocal s g = true) (hh : isLocal s h = true)
    (hlane : laneHas s (g.toNat % 128) none m.ev = false) (apart : Apart m.mapA 8 m.attA 8) (own1 : Owned s m.mapA 8)
    (own2 : Owned s m.attA 8) : Gives (.moveTablesVisible .good) s fun t =>
      t = { s with mem := t.mem, coh := t.coh, move := some { m with step := .v5, waits := transWids s } } ∧
      Touched s t [(m.mapA, 8), (m.attA, 8)] ∧
      t.load64 m.mapA = setField (s.load64 m.mapA) 63 48 h.toNat ∧
      t.load64 m.attA = setField (s.load64 m.attA) 31 16 h.toNat := by
  have frame := writeList_frame s (localV3 s m h)
  have touched : Touched s (writeList s (localV3 s m h)) [(m.mapA, 8), (m.attA, 8)] :=
    touched_writeList (by simpa [localV3] using ⟨own1, own2⟩)
  have word := load64_writeList hmem (l := localV3 s m h) (apart_pair apart)
  have tables : moveTables s .good = { writeList s (localV3 s m h) with
      move := some { m with step := .v5, waits := transWids s } } := by
    have lane : oldLane s m = false := by
      unfold oldLane
      rw [ho]
      exact (congrArg _ hlane).trans (Bool.and_false _)
    unfold moveTables
    rw [hmove]
    dsimp only
    rw [v3Writes_local hw hm ho hn hg hh, if_neg (by rw [hstep, lane]; decide)]
    have remote : v3Remote (writeList s (localV3 s m h)) m = writeList s (localV3 s m h) := by
      rw [frame]
      exact v3Remote_local ho hn hg hh
    have waits : transWids (writeList s (localV3 s m h)) = transWids s := by
      rw [frame]
      rfl
    rw [show (localV3 s m h).take (writesDone .good (localV3 s m h).length).1 = localV3 s m h from rfl, remote, waits,
      moveV4_found hfound, moveHolder_message hw, hm]
    rfl
  have row : exec (.moveTablesVisible .good) s = .next (s.served { writeList s (localV3 s m h) with
      move := some { m with step := .v5, waits := transWids s } }) := by
    rw [← tables]
    show Host.Outcome.next (if cmdOn s then _ else s) = _
    rw [if_pos (cmdOn_running hrun), hmove]
    dsimp only
    rw [forgetCmd_of_no_failure hfail, cmdMem_of_no_failure hfail]
  simp only [localV3, List.mem_cons, List.not_mem_nil, or_false, forall_eq_or_imp, forall_eq] at word
  obtain ⟨mapWord, attWord⟩ := word
  have served : Touched s { writeList s (localV3 s m h) with move := some { m with step := .v5, waits := transWids s } }
      [(m.mapA, 8), (m.attA, 8)] := touched.of_coh rfl
  rw [served_eq served.serves] at row
  refine gives_intro row ⟨?_, served, mapWord, attWord⟩
  rw [frame]

theorem gives_moveRemove {u : Run} (hrun : running s = true) (hthere : oldThere s m = false) (hmove : s.move = some m)
    (hstep : m.step = .v5) (hwaits : ∀ w ∈ m.waits, w ∉ transWids s) (hold : oldHolds s m = false)
    (hcmds : s.wft.cmds = []) (hreq : s.wft.reqWait = []) (hr : (s.ring m.ring).run = some u)
    (hf : (s.ring m.ring).fetched = []) : Gives .moveRedirectRemove s fun t =>
      t = { s with move := none, rings := t.rings } ∧ Completes s t m.ring u.desc u.status 0 := by
  have raises : raisesOut s m = false := by
    unfold raisesOut
    unfold oldThere at hthere
    split at hthere
    · rw [hthere, Bool.false_and]
    · rfl
  have waits : m.waits.any (transWids s).contains = false := by
    rw [List.any_eq_false]
    exact fun w hw => by simpa using hwaits w hw
  have removes : moveRemove s = complete { s with move := none } m.ring u.desc u.status := by
    unfold moveRemove
    rw [hmove]
    simp only [hstep, waits, hold, hcmds, hreq, raises, hthere, hr]
    rfl
  obtain ⟨ht, done⟩ := complete_spec (u := { s with move := none }) (r := m.ring) hf u.desc u.status 0
  have row : exec .moveRedirectRemove s = .next (complete { s with move := none } m.ring u.desc u.status) := by
    rw [← removes]
    exact congrArg Host.Outcome.next (if_pos (cmdOn_running hrun))
  exact gives_intro row ⟨ht, done.congr rfl rfl⟩

end

/-- Settles O34: the steps V1 to V5 of a move between local targets, each from the state that it starts in: the command
(`gives_evMove`), its move-out (`gives_mvo_resident`, `gives_mvo_active`), the tables and the redirect's end. -/
theorem moves : Obligations.Moves := by
  unfold Obligations.Moves
  refine ⟨?command, ?resident, ?active, ?tables, ?removed⟩
  case command =>
    intro s r d a h hmsg hk hg m e aa old new hv hp hl ha hf hw hold hn ht hne serves
    exact gives_evMove h hmsg hk hg hv hp hl ha hw hold hn ht hne hf serves
  case resident =>
    intro s k o m g e hrun hredir ho hkind hphys hmove hstep hev _ hact hres hnew hlocal hother hroom
    exact gives_mvo_resident hrun hredir ho hkind hphys hmove hstep hev hnew hlocal hact hres hother hroom
  case active =>
    intro s k o m u g hrun hredir ho hkind hphys hmove hstep hev hact hnew hlocal hr hf
    exact gives_mvo_active hrun hredir ho hkind hphys hmove hstep hev hnew hlocal hact hr hf
  case tables =>
    intro s m g h hrun hfail hmem hmove hstep hw hm hfound ho hn hg hh hlane apart own1 own2
    exact gives_moveTables hrun hfail hmem hmove hstep hw hm hfound ho hn hg hh hlane apart own1 own2
  case removed =>
    intro s m u hrun hthere hmove hstep hwaits hold hcmds hreq hr hf
    exact gives_moveRemove hrun hthere hmove hstep hwaits hold hcmds hreq hr hf

end Sys2Proof.Machine
end

section
namespace Sys2Proof.Machine

/-! ### A flag with its log (18 R427) -/

theorem Flagged.congr {s u t : State} {src off i unit : Nat} {fresh : Bool} (herr : u.err = s.err) (hcount : u.count = s.count)
    (hrd : u.rd off = s.rd off) (h : Flagged u t src off i unit fresh) : Flagged s t src off i unit fresh := by
  obtain ⟨hset, hqueue⟩ := h
  refine ⟨hset, ?_⟩
  rw [hqueue, herr, hcount, State.bit, State.bit, hrd]

/-- The registers change, and nothing else, and outside l they do not. -/
def RegsIn (s t : State) (l : List Nat) : Prop := t = { s with regs := t.regs } ∧ RegsApart s t l

theorem RegsIn.trans {s t u : State} {l m : List Nat} (h : RegsIn s t l) (k : RegsIn t u m) : RegsIn s u (l ++ m) := by
  obtain ⟨ht, ha⟩ := h
  obtain ⟨hu, hb⟩ := k
  refine ⟨?_, fun j hj => ?_⟩
  · rw [hu, ht]
  · rw [List.mem_append, not_or] at hj
    exact (hb j hj.2).trans (ha j hj.1)

theorem regsIn_wr (s : State) {off : Nat} (v : W32) (h : proofMask off = 0) : RegsIn s (s.wr off v) [off] := by
  refine ⟨?_, fun j hj => rd_wr_other _ _ (by simpa using hj)⟩
  apply State.ext <;> simp
  exact wr_prf_unproofed _ _ h

theorem regsIn_cnt64 (s : State) {off : Nat} (hl : proofMask off = 0) (hh : proofMask (off + 4) = 0) :
    RegsIn s (s.cnt64 off) [off, off + 4] := by
  obtain ⟨frame, -, apart⟩ := counted_cnt64 s hl hh
  exact ⟨frame, apart⟩

/-- An error whose log takes words outside its flag register. -/
theorem logErr_spec {s : State} {src off i unit voff vbit : Nat} {put : State → State} {l : List Nat}
    (hq : s.err.queue.length < 16) (hp : proofMask off = 0) (hi : i < 32)
    (hcap : RegsIn s ((put s).setBitR voff vbit true) l) (hl : off ∉ l) :
    let t := logErr s src off i unit voff vbit put
    t = { s with regs := t.regs, err := t.err } ∧ Flagged s t src off i unit (!s.bit voff vbit) ∧ RegsApart s t (off :: l) := by
  cases hv : s.bit voff vbit with
  | true =>
    rw [logErr_of_valid hv]
    obtain ⟨flagged, frame, apart⟩ := setFlag_spec (s := s) src unit false hq hp hi
    exact ⟨frame, flagged, fun j hj => apart j fun h => hj (List.mem_cons.2 (.inl (List.mem_singleton.1 h)))⟩
  | false =>
    rw [logErr_of_free hv]
    obtain ⟨frame, apart⟩ := hcap
    generalize (put s).setBitR voff vbit true = u at frame apart ⊢
    have err : u.err = s.err := by rw [frame]
    obtain ⟨flagged, frame', apart'⟩ := setFlag_spec (s := u) src unit true (by rw [err]; exact hq) hp hi
    refine ⟨?_, flagged.congr err (by rw [frame]) (apart off hl), fun j hj => ?_⟩
    · rw [frame', frame]
    · rw [List.mem_cons, not_or] at hj
      exact (apart' j (by simpa using hj.1)).trans (apart j hj.2)

/-! ### Faults of the translation engine (06 R144) -/

/-- The words that a fault changes. -/
def faultWords : List Nat := [Reg.XLT_FAULT_CNT, Reg.XLT_FAULT, Reg.XLT_FLOG0, Reg.XLT_FLOG1]

/-- What the log captures of a fault. -/
def faultCapture (s : State) (log0 log1 : W32) : State :=
  ((s.wr Reg.XLT_FLOG0 log0).wr Reg.XLT_FLOG1 log1).setBitR Reg.XLT_FLOG0 31 true

theorem regsIn_faultCapture (s : State) (log0 log1 : W32) :
    RegsIn s (faultCapture s log0 log1) ([Reg.XLT_FLOG0] ++ [Reg.XLT_FLOG1] ++ [Reg.XLT_FLOG0]) := by
  have first := regsIn_wr s (off := Reg.XLT_FLOG0) log0 (by decide)
  have second := regsIn_wr (s.wr Reg.XLT_FLOG0 log0) (off := Reg.XLT_FLOG1) log1 (by decide)
  exact (first.trans second).trans (regsIn_wr _ (off := Reg.XLT_FLOG0) _ (by decide))

theorem xltFault_spec {s : State} {c : Nat} (hq : s.err.queue.length < 16) (hc : c < 32) (src slice data page : Nat) :
    let t := xltFault s c src slice data page
    t = { s with regs := t.regs, err := t.err } ∧ Flagged s t 2 Reg.XLT_FAULT c 0 (!s.bit Reg.XLT_FLOG0 31) ∧
    t.rd Reg.XLT_FAULT_CNT = satInc (s.rd Reg.XLT_FAULT_CNT) ∧ RegsApart s t faultWords := by
  have counted : RegsIn s (s.cnt32 Reg.XLT_FAULT_CNT) [Reg.XLT_FAULT_CNT] := regsIn_wr s _ (by decide)
  have count := (rd_cnt32 s Reg.XLT_FAULT_CNT Reg.XLT_FAULT_CNT).trans (if_pos rfl)
  unfold xltFault
  generalize BitVec.ofNat 32 (src % 2 ^ 24 + c * 2 ^ 24 + slice % 8 * 2 ^ 28) = log0
  generalize BitVec.ofNat 32 (data % 2 ^ 21 + page % 2 ^ 11 * 2 ^ 21) = log1
  generalize s.cnt32 Reg.XLT_FAULT_CNT = u at counted count
  obtain ⟨frame, apart⟩ := counted
  have err : u.err = s.err := by rw [frame]
  have stroke : u.count = s.count := by rw [frame]
  have flags := apart Reg.XLT_FAULT (by decide)
  have valid : u.bit Reg.XLT_FLOG0 31 = s.bit Reg.XLT_FLOG0 31 := congrArg (bitAt · 31) (apart Reg.XLT_FLOG0 (by decide))
  have logged := logErr_spec (s := u) (src := 2) (off := Reg.XLT_FAULT) (i := c) (unit := 0) (voff := Reg.XLT_FLOG0) (vbit := 31)
    (put := fun s => (s.wr Reg.XLT_FLOG0 log0).wr Reg.XLT_FLOG1 log1)
    (by rw [err]; exact hq) (by decide) hc (regsIn_faultCapture u log0 log1) (by decide)
  dsimp only at logged ⊢
  generalize logErr u 2 Reg.XLT_FAULT c 0 Reg.XLT_FLOG0 31 _ = t at logged ⊢
  obtain ⟨frame', flagged, apart'⟩ := logged
  rw [valid] at flagged
  refine ⟨by rw [frame', frame], flagged.congr err stroke flags, (apart' Reg.XLT_FAULT_CNT (by decide)).trans count, fun j hj => ?_⟩
  simp only [faultWords, List.mem_cons, List.not_mem_nil, or_false, not_or] at hj
  obtain ⟨hcnt, hflag, h0, h1⟩ := hj
  exact (apart' j (by simp [hflag, h0, h1])).trans (apart j (by simpa using hcnt))

/-! ### Stages L1 to L4 of a lookup (06 R125, R126, R128) -/

section
variable {u : State} {m : Miss}

/-- u once the source entry's line has been used. -/
def usedSrc (u : State) (w : MWrite) : State := { u with coh := cohUse u.coh (lineOf (srcAddr u w.src.toNat)) }

theorem held_usedSrc (u : State) (w : MWrite) (l : Nat) : (usedSrc u w).held l = u.held l := cohUse_holds _ _ _

theorem runLookup_head {c : Nat} (h : checkHead u m.en m.w = some c) : runLookup u m = finishLookup u m (.inl c) := by
  rw [runLookup, h]

section
variable (h : checkHead u m.en m.w = none)
include h

theorem runLookup_srcMiss (hs : srcHeld u m.w = false) :
    runLookup u m = missOn u m false (lineOf (srcAddr u m.w.src.toNat)) := by
  rw [srcHeld] at hs
  simp [runLookup, h, hs]

/-- With the source entry's line held, the checks of the entry follow. -/
theorem runLookup_src (hs : srcHeld u m.w = true) : runLookup u m = match checkSrc u m.w false with
    | some c => finishLookup (usedSrc u m.w) m (.inl c)
    | none =>
      if !u.held (mapLine u m.w) then missOn (usedSrc u m.w) m true (mapLine u m.w)
      else match checkMap u m.w false with
        | some c => finishLookup { u with coh := usedBoth u m.w } m (.inl c)
        | none => finishLookup { u with coh := usedBoth u m.w } m (.inr (lookupRes u m.w)) := by
  have held := held_usedSrc u m.w (mapLine u m.w)
  unfold usedSrc mapLine at held
  rw [srcHeld] at hs
  unfold runLookup
  rw [h]
  dsimp only
  rw [hs]
  rw [if_neg (by decide)]
  show (match checkSrc u m.w false with | some c => _ | none => _) = _
  cases checkSrc u m.w false with
  | some c => rfl
  | none =>
    dsimp only
    rw [show State.held { u with coh := cohUse u.coh (lineOf (srcAddr u m.w.src.toNat)) }
      (lineOf (mapAddr (readSrc { u with coh := cohUse u.coh (lineOf (srcAddr u m.w.src.toNat)) } m.w.src.toNat) (dataOf m.w))) =
      u.held (mapLine u m.w) from held]
    cases u.held (mapLine u m.w) with
    | false => rfl
    | true => rfl

end
/-! ### The end of a lookup (06 R128, R129) -/

/-- No other lookup of m's sub-queue is under way. -/
def Alone (u : State) (m : Miss) : Prop := ∀ k ∈ u.miss, sameSub m k = false

theorem alone_of_slice (h : ∀ k ∈ u.miss, k.slice ≠ m.slice) : Alone u m := fun k hk => by
  simp [sameSub, h k hk]

theorem alone_of_slow (h : m.slow = true) : Alone u m := fun k _ => by
  simp [sameSub, h]

theorem releaseHeld_alone (h : Alone u m) (n : Nat) : releaseHeld u m n = u := by
  have none : (u.miss.find? fun k => sameSub m k && k.res.isSome && !behindMiss u k) = none := by
    rw [List.find?_eq_none]
    intro k hk
    simp [h k hk]
  cases n with
  | zero => rfl
  | succ n => rw [releaseHeld, none]

/-- With no other lookup of its sub-queue, a lookup that has ended is dispatched, and releases none. -/
theorem finishLookup_alone (h : Alone u m) {t : State} {r : Nat ⊕ XRes} (ht : endLookup u m r = t) (hm : t.miss = u.miss) :
    finishLookup u m r = t := by
  have first : behindMiss u m = false := by
    rw [behindMiss, List.any_eq_false]
    intro k hk
    simp [h k hk]
  rw [finishLookup, first, ht]
  exact releaseHeld_alone (u := t) (by unfold Alone; rw [hm]; exact h) _

/-- The insert that a local physical result of a write becomes (06 R129). -/
def resultOp (w : MWrite) (r : XRes) : TOp := { mkOp .ins false r.ev r.attr w.arr with wid := some w.wid }

/-- The tree that a local result goes to. -/
def resultTree (r : XRes) : Nat := (r.dest.truncate 14).toNat % 128

theorem endLookup_queued (hs : m.slow = false) {r : XRes} (hp : r.virt = false) (hl : isLocal u (r.dest.truncate 14) = true)
    (hroom : (u.tgt (resultTree r)).opq.length < 64) : endLookup u m (.inr r) = withOp u (resultTree r) (resultOp m.w r) := by
  simp only [endLookup, dispatchQueued, hs, hp, Bool.false_eq_true, if_false]
  rw [if_pos hl]
  exact treeEnq_room hroom (.inr rfl)

theorem endLookup_slow (hs : m.slow = true) {r : XRes} (hl : r.virt = true ∨ isLocal u (r.dest.truncate 14) = true) :
    endLookup u m (.inr r) = setSlow u m.w.wid (.set r) := by
  have here : (!r.virt && !isLocal u (r.dest.truncate 14)) = false := by
    rcases hl with h | h <;> simp [h]
  simp only [endLookup, dispatchSlow, hs, here, if_true, Bool.false_eq_true, if_false]

theorem endLookup_fault (hs : m.slow = false) (c : Nat) :
    endLookup u m (.inl c) = xltFault u c m.w.src.toNat m.slice (dataOf m.w) (pageOf m.w) := by
  simp only [endLookup, hs, Bool.false_eq_true, if_false]

/-! ### A lookup that misses (06 R128) -/

/-- With no lookup of the slice missing, a lookup that misses takes a slot. -/
theorem missOn_alone (hs : m.slow = false) (hr : m.res = none) (h : ∀ k ∈ u.miss, k.slice ≠ m.slice ∧ k.w.wid ≠ m.w.wid)
    (atMap : Bool) (l : Nat) : missOn u m atMap l = State.cnt64
      { u with miss := u.miss ++ [{ m with atMap := atMap, line := l, slot := true, filled := false, new := atMap }] }
      Reg.XLT_MISS_CNT := by
  have others : ∀ p : Miss → Bool, (u.miss.find? fun k => decide (k.slice = m.slice) && p k) = none := fun p => by
    rw [List.find?_eq_none]
    intro k hk
    simp [(h k hk).1]
  have noSlots : (u.miss.filter fun k => decide (k.slice = m.slice) && k.slot) = [] := by
    rw [List.filter_eq_nil_iff]
    intro k hk
    simp [(h k hk).1]
  have rest : (u.miss.map fun k => if k.w.wid = m.w.wid then { k with slot := true } else k) = u.miss :=
    (List.map_congr_left (g := id) fun k hk => if_neg (h k hk).2).trans (List.map_id _)
  simp [missOn, slotNext, hs, hr, Bool.and_assoc, others, noSlots, rest, List.find?_append, List.filter_append]

end

/-! ### What a lookup reads does not change as it issues (06 R125) -/

/-- The words of the lookup counter. -/
def lookupWords : List Nat := [Reg.XLT_LOOKUP_CNT, Reg.XLT_LOOKUP_CNT + 4]

/-- u is s, apart from the ingress and the lookup counter. -/
def SameTables (s u : State) : Prop := u = { s with msg := u.msg, regs := u.regs } ∧ RegsApart s u lookupWords

namespace SameTables

section
variable {s u : State} (h : SameTables s u)
include h

theorem load64 (a : Nat) : u.load64 a = s.load64 a := by
  obtain ⟨frame, -⟩ := h
  rw [frame]
  rfl

theorem held (l : Nat) : u.held l = s.held l := by
  obtain ⟨frame, -⟩ := h
  rw [frame]
  rfl

theorem tgt (k : Nat) : u.tgt k = s.tgt k := by
  obtain ⟨frame, -⟩ := h
  rw [frame]
  rfl

theorem srcBits : srcBits u = srcBits s := by
  obtain ⟨-, apart⟩ := h
  exact congrArg (field · 4 0) (apart Reg.XLT_SRC_BASE (by decide))

theorem attBits : attBits u = attBits s := by
  obtain ⟨-, apart⟩ := h
  exact congrArg (field · 4 0) (apart Reg.XLT_ATT_BASE (by decide))

theorem xltEn : xltEn u = xltEn s := by
  obtain ⟨-, apart⟩ := h
  exact congrArg (bitAt · 0) (apart Reg.XLT_CTRL (by decide))

theorem isLocal (g : BitVec 14) : isLocal u g = isLocal s g := by
  obtain ⟨-, apart⟩ := h
  have id : u.instId = s.instId := congrArg (fun w => BitVec.ofNat 7 (field w 6 0)) (apart Reg.GLB_ID (by decide))
  rw [Machine.isLocal, id, Machine.isLocal]

theorem present (i : Nat) : present u i = present s i := by
  obtain ⟨frame, apart⟩ := h
  have id : u.instId = s.instId := congrArg (fun w => BitVec.ofNat 7 (field w 6 0)) (apart Reg.GLB_ID (by decide))
  rw [Machine.present, id, frame]
  rfl

theorem srcAddr (n : Nat) : srcAddr u n = srcAddr s n := by
  obtain ⟨-, apart⟩ := h
  rw [Machine.srcAddr, State.rd64, apart Reg.XLT_SRC_BASE (by decide), apart (Reg.XLT_SRC_BASE + 4) (by decide)]
  rfl

theorem readSrc (n : Nat) : readSrc u n = readSrc s n := by
  simp only [Machine.readSrc, h.srcAddr, h.load64]

theorem readMap (a : Nat) : readMap u a = readMap s a := by
  simp only [Machine.readMap, h.load64]

theorem checkHead (en : Bool) (w : MWrite) : checkHead u en w = checkHead s en w := by
  simp only [Machine.checkHead, h.srcBits]

theorem checkSrc (w : MWrite) (bad : Bool) : checkSrc u w bad = checkSrc s w bad := by
  simp only [Machine.checkSrc, h.readSrc]

theorem destOk (pnlOk : Bool) (panel : Nat) (virt : Bool) (dest : BitVec 16) (ev : EventId) :
    destOk u pnlOk panel virt dest ev = destOk s pnlOk panel virt dest ev := by
  have frame := h.1
  simp only [Machine.destOk, h.isLocal, h.present, h.attBits]
  rw [frame]
  rfl

theorem checkMap (w : MWrite) (bad : Bool) : checkMap u w bad = checkMap s w bad := by
  simp only [Machine.checkMap, h.readSrc, h.readMap, h.destOk]

theorem lookupRes (w : MWrite) : lookupRes u w = lookupRes s w := by
  simp only [Machine.lookupRes, h.readSrc, h.readMap]

theorem mapLine (w : MWrite) : mapLine u w = mapLine s w := by
  simp only [Machine.mapLine, h.readSrc]

theorem srcHeld (w : MWrite) : srcHeld u w = srcHeld s w := by
  simp only [Machine.srcHeld, h.srcAddr, h.held]

theorem usedBoth (w : MWrite) : usedBoth u w = usedBoth s w := by
  have frame := h.1
  simp only [Machine.usedBoth, h.srcAddr, h.mapLine]
  rw [frame]

theorem passes {en : Bool} {w : MWrite} (p : Passes s en w) : Passes u en w := by
  rw [Passes, h.checkHead, h.checkSrc, h.checkMap]
  exact p

theorem cached {w : MWrite} (p : Cached s w) : Cached u w := by
  rw [Cached, h.srcHeld, h.mapLine, h.held]
  exact p

end

end SameTables

end Sys2Proof.Machine
end

section
namespace Sys2Proof.Machine

/-! ### The issue of a lookup (06 R125, R130; 05 R105) -/

theorem ageMisses_of_none {s : State} {sl : Nat} (h : ∀ m ∈ s.miss, m.slice ≠ sl) : ageMisses s sl = s := by
  have same : (s.miss.map fun m => if m.slice = sl then { m with new := false } else m) = s.miss :=
    (List.map_congr_left (g := id) fun m hm => if_neg (h m hm)).trans (List.map_id _)
  rw [ageMisses, same]

theorem sliceCycles_of_none {s : State} {sl : Nat} (h : ∀ m ∈ s.miss, m.slice ≠ sl) (idle : Nat) :
    sliceCycles s sl idle = setSlowAge s sl (min 3 (Tbl.get 3 s.msg.slowAge sl + idle)) := by
  rw [sliceCycles, ageMisses_of_none h, ite_self]

theorem pickFrom_setSlowAge (s : State) (sl i n : Nat) (l : List Nat) : pickFrom (setSlowAge s i n) sl l = pickFrom s sl l := by
  induction l with
  | nil => rfl
  | cons q l ih =>
    rw [pickFrom, pickFrom, ih]
    rfl

theorem pickQueue_setSlowAge (s : State) (sl i n : Nat) : pickQueue (setSlowAge s i n) sl = pickQueue s sl := by
  unfold pickQueue
  simp only [pickFrom_setSlowAge]
  rfl

/-- The cycles since the slow path's last lookup of a slice, at an issue (05 R105). -/
def slowCycles (s : State) (sl idle : Nat) : Nat := min 3 (Tbl.get 3 s.msg.slowAge sl + idle)

section
variable {s : State} {sl idle : Nat} (hslices : sl < s.par.targets / 16) (hmiss : ∀ m ∈ s.miss, m.slice ≠ sl)
include hslices hmiss

/-- With no lookup of the slice missing, an issue looks up a write of the slow path or of a sub-queue. -/
theorem lookupIssue_free : lookupIssue s sl idle =
    match slowNext s sl, (pickQueue s sl).bind fun q => (subHead s sl q).map fun e => (q, e) with
    | some e, none => issueSlow (setSlowAge s sl (slowCycles s sl idle)) sl e
    | some e, some k =>
      if 3 ≤ slowCycles s sl idle then issueSlow (setSlowAge s sl (slowCycles s sl idle)) sl e
      else issueQueued (setSlowAge (setSlowAge s sl (slowCycles s sl idle)) sl (slowCycles s sl idle + 1)) sl k.1 k.2
    | none, some k => issueQueued (setSlowAge (setSlowAge s sl (slowCycles s sl idle)) sl (min 3 (slowCycles s sl idle + 1))) sl k.1 k.2
    | none, none => setSlowAge s sl (slowCycles s sl idle) := by
  have free : ¬(sliceHeld s sl = true ∨ reenters s sl = true ∨ s.par.targets / 16 ≤ sl) := by
    have held : sliceHeld s sl = false := by
      rw [sliceHeld, List.any_eq_false]
      intro m hm
      simp [hmiss m hm]
    have again : reenters s sl = false := by
      rw [reenters, List.any_eq_false]
      intro m hm
      simp [hmiss m hm]
    simp only [held, again, Bool.false_eq_true, false_or]
    omega
  have aged : ageMisses (setSlowAge s sl (slowCycles s sl idle)) sl = setSlowAge s sl (slowCycles s sl idle) := ageMisses_of_none hmiss
  have age : Tbl.get 3 (setSlowAge s sl (slowCycles s sl idle)).msg.slowAge sl = slowCycles s sl idle := Tbl.get_put_same ..
  have cycles : sliceCycles s sl idle = setSlowAge s sl (slowCycles s sl idle) := sliceCycles_of_none hmiss idle
  unfold lookupIssue
  rw [if_neg free, cycles]
  simp only [age, aged, pickQueue_setSlowAge]
  rfl

/-- The queued path issues: the slow path has no write for the slice, or has had a cycle of the last three. -/
theorem lookupIssue_queued {q : Nat} {e : QWrite} (hq : pickQueue s sl = some q) (he : subHead s sl q = some e)
    (hs : slowNext s sl = none ∨ slowCycles s sl idle < 3) : lookupIssue s sl idle =
      issueQueued (setSlowAge (setSlowAge s sl (slowCycles s sl idle)) sl (min 3 (slowCycles s sl idle + 1))) sl q e := by
  rw [lookupIssue_free hslices hmiss, hq]
  simp only [Option.bind_some, he, Option.map_some]
  cases hn : slowNext s sl with
  | none => rfl
  | some f =>
    have young : slowCycles s sl idle < 3 := hs.resolve_left (by rw [hn]; exact nofun)
    dsimp only
    rw [if_neg (by omega), Nat.min_eq_right (by omega)]

/-- The slow path issues: no sub-queue is ready, or it has had none of the last three cycles. -/
theorem lookupIssue_slow {e : Slow} (he : slowNext s sl = some e)
    (hs : pickQueue s sl = none ∨ 3 ≤ Tbl.get 3 s.msg.slowAge sl + idle) :
    lookupIssue s sl idle = issueSlow (setSlowAge s sl (slowCycles s sl idle)) sl e := by
  rw [lookupIssue_free hslices hmiss, he]
  rcases hs with hs | hs
  · rw [hs]
    rfl
  · cases (pickQueue s sl).bind fun q => (subHead s sl q).map fun e => (q, e) with
    | none => rfl
    | some k => exact if_pos (by unfold slowCycles; omega)

end

theorem exec_lookupIssue {s : State} (h : running s = true) (sl : BitVec 3) (idle : BitVec 2) :
    exec (.lookupIssue sl idle) s = .next (lookupIssue s sl.toNat idle.toNat) := by
  show Host.Outcome.next (if engOn s 2 then lookupIssue s sl.toNat idle.toNat else s) = _
  rw [if_pos (engOn_running h 2)]

/-! ### The state that a queued lookup reads -/

/-- s once the lookup of the write e of sub-queue q has issued, its stages to come; the slow path has waited `age` cycles. -/
def queuedOut (s : State) (sl q : Nat) (e : QWrite) (age : Nat) : State :=
  { s with
    msg := { s.msg with
      q := s.msg.q.filter fun x => decide (x.w.wid ≠ e.w.wid)
      slots := Tbl.put s.msg.slots (q * 8 + sl) (slotsLeft s q sl - 1)
      slowAge := Tbl.put (Tbl.put s.msg.slowAge sl age) sl (min 3 (age + 1)) }
    regs := (s.cnt64 Reg.XLT_LOOKUP_CNT).regs }

/-- That lookup. -/
def queuedMiss (s : State) (sl q : Nat) (e : QWrite) : Miss :=
  { slice := sl, q := q, w := e.w, slow := false, atMap := false, en := xltEn s }

theorem cnt64_lookup (s : State) : s.cnt64 Reg.XLT_LOOKUP_CNT = { s with regs := (s.cnt64 Reg.XLT_LOOKUP_CNT).regs } := by
  obtain ⟨frame, -⟩ := regsIn_cnt64 s (off := Reg.XLT_LOOKUP_CNT) (by decide) (by decide)
  exact frame

theorem regs_wr (s : State) (off : Nat) (v : W32) : (s.wr off v).regs = Tbl.put s.regs off v := by
  unfold State.wr
  dsimp only
  split <;> rfl

/-- What a counter becomes depends on no other part of the state. -/
theorem regs_cnt64 {s u : State} (hr : u.regs = s.regs) (hp : u.par = s.par) (off : Nat) :
    (u.cnt64 off).regs = (s.cnt64 off).regs := by
  simp only [State.cnt64, State.wr64, regs_wr, State.rd64, State.rd, hr, hp]

/-- The registers of t, put in s. -/
theorem rd_withRegs {s t : State} (h : t = { s with regs := t.regs }) (j : Nat) : State.rd { s with regs := t.regs } j = t.rd j :=
  congrArg (fun x => State.rd x j) h.symm

theorem sameTables_queuedOut (s : State) (sl q : Nat) (e : QWrite) (age : Nat) : SameTables s (queuedOut s sl q e age) := by
  obtain ⟨frame, apart⟩ := regsIn_cnt64 s (off := Reg.XLT_LOOKUP_CNT) (by decide) (by decide)
  exact ⟨rfl, fun j hj => (rd_withRegs frame j).trans (apart j hj)⟩

theorem issueQueued_runs (s : State) (sl q : Nat) (e : QWrite) (age : Nat) :
    issueQueued (setSlowAge (setSlowAge s sl age) sl (min 3 (age + 1))) sl q e =
      runLookup (queuedOut s sl q e age) (queuedMiss s sl q e) := by
  have en := (sameTables_queuedOut s sl q e age).xltEn
  have regs := regs_cnt64 (s := s) (u := setSlowAge (setSlowAge s sl age) sl (min 3 (age + 1))) rfl rfl Reg.XLT_LOOKUP_CNT
  unfold issueQueued
  rw [cnt64_lookup, regs, queuedMiss, ← en]
  rfl

/-! ### What a lookup of a sub-queue leaves (06 R125, R130) -/

/-- The issue of a lookup of the write w, of sub-queue q, as it stands in t. -/
def QueuedIssue (s t : State) (sl q : Nat) (w : MWrite) (age : Nat) : Prop :=
  t.msg = { s.msg with q := s.msg.q.filter fun x => decide (x.w.wid ≠ w.wid),
                       slots := Tbl.put s.msg.slots (q * 8 + sl) (slotsLeft s q sl - 1),
                       slowAge := t.msg.slowAge } ∧
  Tbl.get 3 t.msg.slowAge sl = min 3 (age + 1) ∧ t.rd64 Reg.XLT_LOOKUP_CNT = s.rd64 Reg.XLT_LOOKUP_CNT + 1

theorem rd64_queuedOut (s : State) (sl q : Nat) (e : QWrite) (age : Nat) :
    (queuedOut s sl q e age).rd64 Reg.XLT_LOOKUP_CNT = s.rd64 Reg.XLT_LOOKUP_CNT + 1 := by
  obtain ⟨frame, count, -⟩ := counted_cnt64 s (off := Reg.XLT_LOOKUP_CNT) (by decide) (by decide)
  exact (congrArg (fun x => State.rd64 x Reg.XLT_LOOKUP_CNT) frame.symm).trans count

/-- What comes after leaves the issue as it is. -/
theorem queuedIssue_of_rd {s t : State} {sl q : Nat} {e : QWrite} {age : Nat} (hmsg : t.msg = (queuedOut s sl q e age).msg)
    (hrd : ∀ j ∈ lookupWords, t.rd j = (queuedOut s sl q e age).rd j) : QueuedIssue s t sl q e.w age := by
  refine ⟨by rw [hmsg]; rfl, by rw [hmsg]; exact Tbl.get_put_same .., ?_⟩
  rw [← rd64_queuedOut s sl q e age, State.rd64, State.rd64, hrd _ (by decide), hrd _ (by decide)]

section
variable {u : State} {m : Miss}

theorem runLookup_passes (hp : Passes u m.en m.w) (hc : Cached u m.w) :
    runLookup u m = finishLookup { u with coh := usedBoth u m.w } m (.inr (lookupRes u m.w)) := by
  obtain ⟨head, src, map⟩ := hp
  obtain ⟨hsrc, hmap⟩ := hc
  rw [runLookup_src head hsrc, src]
  dsimp only
  rw [hmap, if_neg (by decide), map]

theorem runLookup_mapMiss (head : checkHead u m.en m.w = none) (hsrc : srcHeld u m.w = true)
    (src : checkSrc u m.w false = none) (hmap : u.held (mapLine u m.w) = false) :
    runLookup u m = missOn (usedSrc u m.w) m true (mapLine u m.w) := by
  rw [runLookup_src head hsrc, src]
  dsimp only
  rw [hmap]
  rfl

/-- A lookup of a sub-queue that passes, no other of it being under way, becomes an insert in a local tree (06 R129). -/
theorem runLookup_inserts (hp : Passes u m.en m.w) (hc : Cached u m.w) (ha : Alone u m) (hs : m.slow = false)
    (hphys : (lookupRes u m.w).virt = false) (hl : isLocal u ((lookupRes u m.w).dest.truncate 14) = true)
    (hroom : (u.tgt (resultTree (lookupRes u m.w))).opq.length < 64) :
    runLookup u m = withOp { u with coh := usedBoth u m.w } (resultTree (lookupRes u m.w)) (resultOp m.w (lookupRes u m.w)) := by
  rw [runLookup_passes hp hc]
  have ends := endLookup_queued (u := { u with coh := usedBoth u m.w }) (m := m) hs hphys hl hroom
  exact finishLookup_alone (u := { u with coh := usedBoth u m.w }) ha ends rfl

/-- Check c is the first that fails, what the checks before it read being in the table cache (06 R126). -/
def Fails126 (u : State) (en : Bool) (w : MWrite) (c : Nat) : Prop :=
  checkHead u en w = some c ∨ (checkHead u en w = none ∧ srcHeld u w = true ∧ checkSrc u w false = some c) ∨
  (checkHead u en w = none ∧ Cached u w ∧ checkSrc u w false = none ∧ checkMap u w false = some c)

theorem runLookup_fails {c : Nat} (h : Fails126 u m.en m.w c) :
    ∃ p, runLookup u m = finishLookup { u with coh := { u.coh with plru := p } } m (.inl c) := by
  rcases h with head | ⟨head, hsrc, src⟩ | ⟨head, ⟨hsrc, hmap⟩, src, map⟩
  · exact ⟨u.coh.plru, runLookup_head head⟩
  · obtain ⟨p, used⟩ := cohUse_frame u.coh (lineOf (srcAddr u m.w.src.toNat))
    refine ⟨p, ?_⟩
    rw [runLookup_src head hsrc, src, ← used]
    rfl
  · obtain ⟨p, used⟩ := cohUse_frame u.coh (lineOf (srcAddr u m.w.src.toNat))
    obtain ⟨p', used'⟩ := cohUse_frame { u.coh with plru := p } (mapLine u m.w)
    refine ⟨p', ?_⟩
    rw [runLookup_src head hsrc, src]
    dsimp only
    rw [hmap, if_neg (by decide), map, usedBoth, used, used']

theorem checkSrc_le {w : MWrite} {bad : Bool} {c : Nat} (h : checkSrc u w bad = some c) : c ≤ cMem := by
  unfold checkSrc at h
  dsimp only at h
  repeat' split at h
  all_goals cases h <;> decide

theorem checkMap_le {w : MWrite} {bad : Bool} {c : Nat} (h : checkMap u w bad = some c) : c ≤ cMem := by
  unfold checkMap at h
  dsimp only at h
  repeat' split at h
  all_goals cases h <;> decide

theorem checkHead_le {en : Bool} {w : MWrite} {c : Nat} (h : checkHead u en w = some c) : c ≤ cMem := by
  unfold checkHead at h
  repeat' split at h
  all_goals cases h <;> decide

theorem Fails126.le {en : Bool} {w : MWrite} {c : Nat} (h : Fails126 u en w c) : c ≤ cMem := by
  rcases h with head | ⟨-, -, src⟩ | ⟨-, -, -, map⟩
  · exact checkHead_le head
  · exact checkSrc_le src
  · exact checkMap_le map

theorem Fails126.same {s : State} (h : SameTables s u) {en : Bool} {w : MWrite} {c : Nat} (f : Fails126 s en w c) :
    Fails126 u en w c := by
  rcases f with head | ⟨head, hsrc, src⟩ | ⟨head, cached, src, map⟩
  · exact .inl ((h.checkHead en w).trans head)
  · exact .inr (.inl ⟨(h.checkHead en w).trans head, (h.srcHeld w).trans hsrc, (h.checkSrc w _).trans src⟩)
  · exact .inr (.inr ⟨(h.checkHead en w).trans head, h.cached cached, (h.checkSrc w _).trans src, (h.checkMap w _).trans map⟩)

end

/-- A fault of a lookup that has issued. -/
theorem SameTables.fault {s u : State} (h : SameTables s u) {c : Nat} (hq : s.err.queue.length < 16) (hc : c < 32)
    (p : Tbl (BitVec 15)) (src slice data page : Nat) :
    let v := { u with coh := { u.coh with plru := p } }
    let t := xltFault v c src slice data page
    t = { s with msg := t.msg, regs := t.regs, err := t.err, coh := { s.coh with plru := t.coh.plru } } ∧ t.msg = u.msg ∧
    t.miss = v.miss ∧ (∀ j ∈ lookupWords, t.rd j = u.rd j) ∧
    Flagged s t 2 Reg.XLT_FAULT c 0 (!s.bit Reg.XLT_FLOG0 31) ∧ t.rd Reg.XLT_FAULT_CNT = satInc (s.rd Reg.XLT_FAULT_CNT) := by
  obtain ⟨frame, apart⟩ := h
  have err : u.err = s.err := by rw [frame]
  have stroke : u.count = s.count := by rw [frame]
  have valid : u.bit Reg.XLT_FLOG0 31 = s.bit Reg.XLT_FLOG0 31 := congrArg (bitAt · 31) (apart Reg.XLT_FLOG0 (by decide))
  have fault := xltFault_spec (s := { u with coh := { u.coh with plru := p } }) (c := c) (by rw [err]; exact hq) hc src slice data page
  dsimp only at fault ⊢
  generalize xltFault { u with coh := { u.coh with plru := p } } c src slice data page = t at fault ⊢
  obtain ⟨frame', flagged, count, apart'⟩ := fault
  have msg : t.msg = u.msg := by rw [frame']
  have coh : t.coh = { u.coh with plru := p } := by rw [frame']
  have away : ∀ j ∈ lookupWords, j ∉ faultWords := by decide
  rw [show State.bit { u with coh := { u.coh with plru := p } } Reg.XLT_FLOG0 31 = s.bit Reg.XLT_FLOG0 31 from valid] at flagged
  refine ⟨?_, msg, by rw [frame'], fun j hj => apart' j (away j hj),
    flagged.congr err stroke (apart Reg.XLT_FAULT (by decide)), count.trans (congrArg satInc (apart Reg.XLT_FAULT_CNT (by decide)))⟩
  rw [msg, coh, frame', frame]

/-- A miss of a lookup that has issued. -/
theorem SameTables.miss {s u : State} (h : SameTables s u) (p : Tbl (BitVec 15)) (l : List Miss) :
    let t := State.cnt64 { u with coh := { u.coh with plru := p }, miss := l } Reg.XLT_MISS_CNT
    t = { s with msg := t.msg, regs := t.regs, coh := { s.coh with plru := p }, miss := l } ∧ t.msg = u.msg ∧
    (∀ j ∈ lookupWords, t.rd j = u.rd j) ∧ t.rd64 Reg.XLT_MISS_CNT = s.rd64 Reg.XLT_MISS_CNT + 1 := by
  obtain ⟨frame, apart⟩ := h
  have counted := counted_cnt64 { u with coh := { u.coh with plru := p }, miss := l } (off := Reg.XLT_MISS_CNT) (by decide) (by decide)
  dsimp only at counted ⊢
  generalize State.cnt64 { u with coh := { u.coh with plru := p }, miss := l } Reg.XLT_MISS_CNT = t at counted ⊢
  obtain ⟨frame', count, apart'⟩ := counted
  have msg : t.msg = u.msg := by rw [frame']
  have away : ∀ j ∈ lookupWords, j ∉ [Reg.XLT_MISS_CNT, Reg.XLT_MISS_CNT + 4] := by decide
  have before : u.rd64 Reg.XLT_MISS_CNT = s.rd64 Reg.XLT_MISS_CNT := by
    rw [State.rd64, State.rd64, apart _ (by decide), apart _ (by decide)]
  refine ⟨?_, msg, fun j hj => apart' j (away j hj), count.trans (congrArg (· + 1) before)⟩
  rw [msg, frame', frame]

/-! ### LOOKUP_ISSUE of a sub-queue's oldest write -/

section
variable {s : State} {sl : BitVec 3} {idle : BitVec 2} {q : Nat} {e : QWrite} (hrun : running s = true)
  (hslices : sl.toNat < s.par.targets / 16) (hmiss : ∀ m ∈ s.miss, m.slice ≠ sl.toNat ∧ m.w.wid ≠ e.w.wid)
  (hq : pickQueue s sl.toNat = some q) (he : subHead s sl.toNat q = some e)
  (hs : slowNext s sl.toNat = none ∨ slowCycles s sl.toNat idle.toNat < 3)
include hrun hslices hmiss hq he hs

theorem exec_queuedLookup : exec (.lookupIssue sl idle) s =
    .next (runLookup (queuedOut s sl.toNat q e (slowCycles s sl.toNat idle.toNat)) (queuedMiss s sl.toNat q e)) := by
  rw [exec_lookupIssue hrun, lookupIssue_queued hslices (fun m hm => (hmiss m hm).1) hq he hs, issueQueued_runs]

theorem gives_lookup_passes (hp : Passes s (xltEn s) e.w) (hc : Cached s e.w) (hphys : (lookupRes s e.w).virt = false)
    (hl : isLocal s ((lookupRes s e.w).dest.truncate 14) = true)
    (hroom : (s.tgt (resultTree (lookupRes s e.w))).opq.length < 64) : Gives (.lookupIssue sl idle) s fun t =>
      t = { s with msg := t.msg, tg := t.tg, regs := t.regs, coh := usedBoth s e.w } ∧
      QueuedIssue s t sl.toNat q e.w (slowCycles s sl.toNat idle.toNat) ∧
      Queued s t (resultTree (lookupRes s e.w)) (resultOp e.w (lookupRes s e.w)) ∧
      RegsApart s t [Reg.XLT_LOOKUP_CNT, Reg.XLT_LOOKUP_CNT + 4] := by
  have same := sameTables_queuedOut s sl.toNat q e (slowCycles s sl.toNat idle.toNat)
  have row := exec_queuedLookup hrun hslices hmiss hq he hs
  have ends := runLookup_inserts (m := queuedMiss s sl.toNat q e) (same.passes hp) (same.cached hc)
    (alone_of_slice fun k hk => (hmiss k hk).1) rfl (by rw [same.lookupRes]; exact hphys)
    (by rw [same.lookupRes, same.isLocal]; exact hl) (by rw [same.lookupRes, same.tgt]; exact hroom)
  rw [same.lookupRes, same.usedBoth] at ends
  rw [ends] at row
  have tg : State.tg { queuedOut s sl.toNat q e (slowCycles s sl.toNat idle.toNat) with coh := usedBoth s e.w } = s.tg := rfl
  exact gives_intro row ⟨rfl, queuedIssue_of_rd rfl fun _ _ => rfl, queued_withOp (withOp_tg tg _ _), fun j hj => same.2 j hj⟩

theorem gives_lookup_fails {c : Nat} (hroom : s.err.queue.length < 16) (hf : Fails126 s (xltEn s) e.w c) :
    Gives (.lookupIssue sl idle) s fun t =>
      t = { s with msg := t.msg, regs := t.regs, err := t.err, coh := { s.coh with plru := t.coh.plru } } ∧
      QueuedIssue s t sl.toNat q e.w (slowCycles s sl.toNat idle.toNat) ∧
      Flagged s t 2 Reg.XLT_FAULT c 0 (!s.bit Reg.XLT_FLOG0 31) ∧
      t.rd Reg.XLT_FAULT_CNT = satInc (s.rd Reg.XLT_FAULT_CNT) := by
  have same := sameTables_queuedOut s sl.toNat q e (slowCycles s sl.toNat idle.toNat)
  have row := exec_queuedLookup hrun hslices hmiss hq he hs
  obtain ⟨p, ends⟩ := runLookup_fails (m := queuedMiss s sl.toNat q e) (hf.same same)
  have bound : c < 32 := Nat.lt_of_le_of_lt hf.le (by decide)
  obtain ⟨frame, msg, miss, rd, flagged, count⟩ := same.fault hroom bound p e.w.src.toNat sl.toNat (dataOf e.w) (pageOf e.w)
  have alone : Alone { queuedOut s sl.toNat q e (slowCycles s sl.toNat idle.toNat) with coh := { s.coh with plru := p } }
      (queuedMiss s sl.toNat q e) := alone_of_slice fun k hk => (hmiss k hk).1
  have done := finishLookup_alone alone (endLookup_fault (m := queuedMiss s sl.toNat q e) rfl c) miss
  rw [ends.trans done] at row
  exact gives_intro row ⟨frame, queuedIssue_of_rd msg rd, flagged, count⟩

theorem gives_lookup_misses {p : Tbl (BitVec 15)} {atMap : Bool} {l : Nat}
    (hm : runLookup (queuedOut s sl.toNat q e (slowCycles s sl.toNat idle.toNat)) (queuedMiss s sl.toNat q e) =
      missOn { queuedOut s sl.toNat q e (slowCycles s sl.toNat idle.toNat) with coh := { s.coh with plru := p } }
        (queuedMiss s sl.toNat q e) atMap l) : Gives (.lookupIssue sl idle) s fun t =>
      t = { s with msg := t.msg, regs := t.regs, coh := { s.coh with plru := p },
                   miss := s.miss ++ [{ queuedMiss s sl.toNat q e with slot := true, atMap := atMap, line := l, new := atMap }] } ∧
      QueuedIssue s t sl.toNat q e.w (slowCycles s sl.toNat idle.toNat) ∧
      t.rd64 Reg.XLT_MISS_CNT = s.rd64 Reg.XLT_MISS_CNT + 1 := by
  have same := sameTables_queuedOut s sl.toNat q e (slowCycles s sl.toNat idle.toNat)
  have row := exec_queuedLookup hrun hslices hmiss hq he hs
  rw [hm, missOn_alone rfl rfl hmiss] at row
  obtain ⟨frame, msg, rd, count⟩ := same.miss p
    (s.miss ++ [{ queuedMiss s sl.toNat q e with slot := true, atMap := atMap, line := l, new := atMap }])
  exact gives_intro row ⟨frame, queuedIssue_of_rd msg rd, count⟩

theorem gives_lookup_srcMiss (hhead : checkHead s (xltEn s) e.w = none) (hsrc : srcHeld s e.w = false) :
    Gives (.lookupIssue sl idle) s fun t =>
      t = { s with msg := t.msg, regs := t.regs,
                   miss := s.miss ++ [{ queuedMiss s sl.toNat q e with slot := true, line := lineOf (srcAddr s e.w.src.toNat) }] } ∧
      QueuedIssue s t sl.toNat q e.w (slowCycles s sl.toNat idle.toNat) ∧
      t.rd64 Reg.XLT_MISS_CNT = s.rd64 Reg.XLT_MISS_CNT + 1 := by
  have same := sameTables_queuedOut s sl.toNat q e (slowCycles s sl.toNat idle.toNat)
  have misses := runLookup_srcMiss (m := queuedMiss s sl.toNat q e) ((same.checkHead _ _).trans hhead) ((same.srcHeld _).trans hsrc)
  rw [same.srcAddr] at misses
  exact gives_lookup_misses hrun hslices hmiss hq he hs (p := s.coh.plru) misses

theorem gives_lookup_mapMiss (hhead : checkHead s (xltEn s) e.w = none) (hsrc : srcHeld s e.w = true)
    (hpass : checkSrc s e.w false = none) (hmap : s.held (mapLine s e.w) = false) :
    Gives (.lookupIssue sl idle) s fun t =>
      t = { s with msg := t.msg, regs := t.regs, coh := { s.coh with plru := t.coh.plru },
                   miss := s.miss ++ [{ queuedMiss s sl.toNat q e with
                     slot := true, atMap := true, line := mapLine s e.w, new := true }] } ∧
      QueuedIssue s t sl.toNat q e.w (slowCycles s sl.toNat idle.toNat) ∧
      t.rd64 Reg.XLT_MISS_CNT = s.rd64 Reg.XLT_MISS_CNT + 1 := by
  have same := sameTables_queuedOut s sl.toNat q e (slowCycles s sl.toNat idle.toNat)
  obtain ⟨p, used⟩ := cohUse_frame s.coh (lineOf (srcAddr s e.w.src.toNat))
  have misses := runLookup_mapMiss (m := queuedMiss s sl.toNat q e) ((same.checkHead _ _).trans hhead)
    ((same.srcHeld _).trans hsrc) ((same.checkSrc _ _).trans hpass)
    ((same.held _).trans ((congrArg s.held (same.mapLine e.w)).trans hmap))
  have used' : usedSrc (queuedOut s sl.toNat q e (slowCycles s sl.toNat idle.toNat)) e.w =
      { queuedOut s sl.toNat q e (slowCycles s sl.toNat idle.toNat) with coh := { s.coh with plru := p } } := by
    rw [usedSrc, same.srcAddr, ← used]
    rfl
  have line : runLookup (queuedOut s sl.toNat q e (slowCycles s sl.toNat idle.toNat)) (queuedMiss s sl.toNat q e) =
      missOn { queuedOut s sl.toNat q e (slowCycles s sl.toNat idle.toNat) with coh := { s.coh with plru := p } }
        (queuedMiss s sl.toNat q e) true (mapLine s e.w) := by
    rw [misses, ← used', ← same.mapLine]
    rfl
  refine gives_mono (gives_lookup_misses hrun hslices hmiss hq he hs line) fun t ⟨frame, issued, count⟩ => ⟨?_, issued, count⟩
  have plru : t.coh.plru = p := by rw [frame]
  rw [plru]
  exact frame

end

end Sys2Proof.Machine
end

section
namespace Sys2Proof.Machine

/-! ### LOOKUP_ISSUE of the slow path's oldest write (05 R103, R105) -/

/-- s once the lookup of a slow-path write has issued on slice sl, its stages to come; age is what the slice had waited. -/
def slowOut (s : State) (sl age : Nat) : State :=
  { s with
    msg := { s.msg with slowAge := Tbl.put (Tbl.put s.msg.slowAge sl age) sl 0 }
    regs := (s.cnt64 Reg.XLT_LOOKUP_CNT).regs }

/-- That lookup. -/
def slowMiss (s : State) (sl : Nat) (e : Slow) : Miss :=
  { slice := sl, q := e.q, w := e.w, slow := true, atMap := false, en := xltEn s }

theorem sameTables_slowOut (s : State) (sl age : Nat) : SameTables s (slowOut s sl age) := by
  obtain ⟨frame, apart⟩ := regsIn_cnt64 s (off := Reg.XLT_LOOKUP_CNT) (by decide) (by decide)
  exact ⟨rfl, fun j hj => (rd_withRegs frame j).trans (apart j hj)⟩

theorem rd64_slowOut (s : State) (sl age : Nat) :
    (slowOut s sl age).rd64 Reg.XLT_LOOKUP_CNT = s.rd64 Reg.XLT_LOOKUP_CNT + 1 := by
  obtain ⟨frame, count, -⟩ := counted_cnt64 s (off := Reg.XLT_LOOKUP_CNT) (by decide) (by decide)
  exact (congrArg (fun x => State.rd64 x Reg.XLT_LOOKUP_CNT) frame.symm).trans count

theorem issueSlow_runs (s : State) (sl age : Nat) (e : Slow) :
    issueSlow (setSlowAge s sl age) sl e = runLookup (slowOut s sl age) (slowMiss s sl e) := by
  have regs := regs_cnt64 (s := s) (u := setSlowAge (setSlowAge s sl age) sl 0) rfl rfl Reg.XLT_LOOKUP_CNT
  unfold issueSlow
  rw [cnt64_lookup, regs]
  rfl

section
variable {s : State}

theorem gives_lookup_slow {sl : BitVec 3} {idle : BitVec 2} {e : Slow} (hrun : running s = true)
    (hslices : sl.toNat < s.par.targets / 16) (hmiss : ∀ m ∈ s.miss, m.slice ≠ sl.toNat) (he : slowNext s sl.toNat = some e)
    (hs : pickQueue s sl.toNat = none ∨ 3 ≤ Tbl.get 3 s.msg.slowAge sl.toNat + idle.toNat) (hp : Passes s (xltEn s) e.w)
    (hc : Cached s e.w) (hl : (lookupRes s e.w).virt = true ∨ isLocal s ((lookupRes s e.w).dest.truncate 14) = true) :
    Gives (.lookupIssue sl idle) s fun t =>
      t = { s with msg := { s.msg with slow := t.msg.slow, slowAge := t.msg.slowAge }, regs := t.regs, coh := usedBoth s e.w } ∧
      t.msg.slow = (s.msg.slow.map fun x => if x.w.wid = e.w.wid then { x with stage := .set (lookupRes s e.w) } else x) ∧
      t.rd64 Reg.XLT_LOOKUP_CNT = s.rd64 Reg.XLT_LOOKUP_CNT + 1 ∧ Tbl.get 3 t.msg.slowAge sl.toNat = 0 := by
  have same := sameTables_slowOut s sl.toNat (slowCycles s sl.toNat idle.toNat)
  have row := exec_lookupIssue hrun sl idle
  have passes := runLookup_passes (m := slowMiss s sl.toNat e) (same.passes hp) (same.cached hc)
  have ends : endLookup { slowOut s sl.toNat (slowCycles s sl.toNat idle.toNat) with coh := usedBoth s e.w } (slowMiss s sl.toNat e)
      (.inr (lookupRes s e.w)) =
      setSlow { slowOut s sl.toNat (slowCycles s sl.toNat idle.toNat) with coh := usedBoth s e.w } e.w.wid
        (.set (lookupRes s e.w)) := by
    refine endLookup_slow rfl (hl.imp_right fun h => ?_)
    rw [← h]
    exact same.isLocal _
  have done := finishLookup_alone (alone_of_slow rfl) ends rfl
  rw [same.lookupRes, same.usedBoth] at passes
  rw [lookupIssue_slow hslices hmiss he hs, issueSlow_runs, passes.trans done] at row
  exact gives_intro row ⟨rfl, rfl, rd64_slowOut s sl.toNat (slowCycles s sl.toNat idle.toNat), Tbl.get_put_same ..⟩

/-! ### MISS_FILL (06 R128) -/

/-- s once the missing lookup m re-enters at L1. -/
def reentered (s : State) (m : Miss) : State := { s with miss := s.miss.filter fun x => decide (x.w.wid ≠ m.w.wid) }

theorem missFill_good {sl n : BitVec 3} {m : Miss} (hm : missNth s sl.toNat n.toNat = some m)
    (hlost : s.coh.failed.contains (.lookup sl, m.line) = false) (hfill : m.filled = true ∨ s.held m.line = true) :
    missFill s sl.toNat n.toNat = slotNext (runLookup (reentered s m) m) sl.toNat := by
  have here : (BitVec.ofNat 3 sl.toNat) = sl := BitVec.ofNat_toNat ..
  have failed : (s.coh.failed.filter fun x => decide (x ≠ (.lookup sl, m.line))) = s.coh.failed := by
    rw [List.filter_eq_self]
    intro x hx
    refine decide_eq_true fun e => ?_
    rw [e] at hx
    simp [hx] at hlost
  have ready : (!false && !m.filled && !s.held m.line) = false := by
    rcases hfill with h | h <;> simp [h]
  unfold missFill
  rw [hm]
  simp only [here, hlost, ready, failed]
  rfl

theorem slice_of_missNth {sl n : Nat} {m : Miss} (h : missNth s sl n = some m) : m.slice = sl := by
  have mem := List.mem_of_getElem? h
  simp only [List.mem_filter, Bool.and_eq_true, decide_eq_true_eq] at mem
  obtain ⟨-, slice, -⟩ := mem
  exact slice

/-- With no lookup of the slice held for want of a slot, none takes the one that is free. -/
theorem slotNext_of_none {u : State} {sl : Nat} (h : ∀ k ∈ u.miss, k.slice ≠ sl) : slotNext u sl = u := by
  have none : (u.miss.find? fun k => decide (k.slice = sl) && k.res.isNone && !k.slot) = none := by
    rw [List.find?_eq_none]
    intro k hk
    simp [h k hk]
  rw [slotNext, none]

theorem polls_missFill {sl n : BitVec 3} {m : Miss} (hrun : running s = true) (hm : missNth s sl.toNat n.toNat = some m)
    (hs : m.slow = false) (hmiss : ∀ k ∈ s.miss, k.w.wid = m.w.wid ∨ k.slice ≠ sl.toNat)
    (hlost : s.coh.failed.contains (.lookup sl, m.line) = false) (hfill : m.filled = true ∨ s.held m.line = true)
    (hp : Passes s m.en m.w) (hc : Cached s m.w) (hphys : (lookupRes s m.w).virt = false)
    (hl : isLocal s ((lookupRes s m.w).dest.truncate 14) = true)
    (hroom : (s.tgt (resultTree (lookupRes s m.w))).opq.length < 64) : Polls (.missFill sl n) s fun t =>
      t = { s with miss := s.miss.filter fun x => decide (x.w.wid ≠ m.w.wid), tg := t.tg, coh := usedBoth s m.w } ∧
      Queued s t (resultTree (lookupRes s m.w)) (resultOp m.w (lookupRes s m.w)) := by
  have others : ∀ k ∈ (reentered s m).miss, k.slice ≠ sl.toNat := fun k hk => by
    simp only [reentered, List.mem_filter, decide_eq_true_eq] at hk
    obtain ⟨mem, other⟩ := hk
    exact (hmiss k mem).resolve_left other
  have alone : Alone (reentered s m) m := alone_of_slice fun k hk => by
    rw [slice_of_missNth hm]
    exact others k hk
  have ends : runLookup (reentered s m) m = withOp { reentered s m with coh := usedBoth s m.w }
      (resultTree (lookupRes s m.w)) (resultOp m.w (lookupRes s m.w)) := runLookup_inserts hp hc alone hs hphys hl hroom
  have row : exec (.missFill sl n) s = .next (pollAll (withOp { reentered s m with coh := usedBoth s m.w }
      (resultTree (lookupRes s m.w)) (resultOp m.w (lookupRes s m.w)))) := by
    show Host.Outcome.next (if engOn s 2 then pollAll (missFill s sl.toNat n.toNat) else s) = _
    rw [if_pos (engOn_running hrun 2), missFill_good hm hlost hfill, ends, slotNext_of_none]
    exact others
  have tg : State.tg { reentered s m with coh := usedBoth s m.w } = s.tg := rfl
  exact ⟨_, row, rfl, queued_withOp (withOp_tg tg _ _)⟩

end

/-- Settles O21: what issues (`lookupIssue_queued`, `lookupIssue_slow`), and how the stages end by what the table cache holds
and the checks find (`runLookup_inserts`, `runLookup_fails`, `missOn_alone`). -/
theorem lookups : Obligations.Lookups := by
  unfold Obligations.Lookups
  refine ⟨?queued, ?slow, ?fill⟩
  case queued =>
    intro s sl idle q e hrun hslices hmiss hq he age hs w issued r k m
    refine ⟨?passes, ?fails, ?srcMiss, ?mapMiss⟩
    case passes =>
      intro hp hc hphys hl hroom
      exact gives_lookup_passes hrun hslices hmiss hq he hs hp hc hphys hl hroom
    case fails =>
      intro c hroom hf
      exact gives_lookup_fails hrun hslices hmiss hq he hs hroom hf
    case srcMiss =>
      intro hhead hsrc
      exact gives_lookup_srcMiss hrun hslices hmiss hq he hs hhead hsrc
    case mapMiss =>
      intro hhead hsrc hpass hmap
      exact gives_lookup_mapMiss hrun hslices hmiss hq he hs hhead hsrc hpass hmap
  case slow =>
    intro s sl idle e hrun hslices hmiss he hs hp hc hl
    exact gives_lookup_slow hrun hslices hmiss he hs hp hc hl
  case fill =>
    intro s sl n m hrun hm hslow hmiss hlost hfill hp hc r k hphys hl hroom
    exact polls_missFill hrun hm hslow hmiss hlost hfill hp hc hphys hl hroom

end Sys2Proof.Machine
end

section
namespace Sys2Proof.Machine

/-! ### The rows that wait for their lines (13 R313, R321) -/

/-- A row of the trees' engines while the block runs, of whose accesses none has failed. -/
theorem servedRow {s : State} {w : AccWho} (h : running s = true) (hf : s.failures w = 0) (n : Nat) (fail : Bool)
    (act : State → Bool → State) :
    (if engOn s 3 then s.served (s.withFail w n fail act) else s) = s.served (act s fail) := by
  rw [if_pos (engOn_running h 3), State.withFail, if_pos hf]

theorem gives_served {i : Instr} {s t : State} {P : State → Prop} (hx : exec i s = .next (s.served t)) (hs : Serves s t)
    (hp : P t) : Gives i s P := by
  rw [served_eq hs] at hx
  exact gives_intro hx hp

theorem cohRead_missed (c : Coh) (a n : Nat) :
    (cohRead c a n).missed = c.missed ++ (linesAt a n).filter fun l => !c.holds l := by
  unfold cohRead
  induction linesAt a n generalizing c with
  | nil => simp
  | cons l r ih =>
    rw [List.foldl_cons, ih]
    by_cases hl : c.holds l = true
    · simp [hl]
    · rw [if_neg hl, List.filter_cons_of_pos (by simpa using hl)]
      exact List.append_assoc ..

/-- A read is served exactly where the table cache holds its lines. -/
theorem serves_reads_iff {s : State} {a n : Nat} : Serves s (s.reads a n) ↔ Held s a n := by
  show (cohRead s.coh a n).missed = s.coh.missed ↔ _
  rw [cohRead_missed, List.append_right_eq_self, List.filter_eq_nil_iff]
  simp [Held, State.held]

/-! ### A refill's bit and attributes (07 R167, R168) -/

/-- Where an event's attributes are read in host memory. -/
def attrReads (s : State) (vpe : Option (BitVec 16)) (ev : EventId) : List (Nat × Nat) :=
  match vpe with
  | some v => [(vattAddr s v ev, 16)]
  | none => if decide (ev.toNat < 32) || wiredEv s ev then [] else [(attAddr s ev, 16)]

theorem readAttr_list (s : State) (vpe : Option (BitVec 16)) (ev : EventId) :
    readAttr s vpe ev = readList s (attrReads s vpe ev) := by
  cases vpe with
  | some v => rfl
  | none =>
    unfold readAttr attrReads
    dsimp only
    split <;> rfl

theorem attrHeld_iff {s : State} {vpe : Option (BitVec 16)} {ev : EventId} :
    AttrHeld s vpe ev ↔ ∀ a ∈ attrReads s vpe ev, Held s a.1 a.2 := by
  rw [AttrHeld, readAttr_list]
  have one : ∀ a : Nat × Nat, Serves s (readList s [a]) ↔ ∀ b ∈ [a], Held s b.1 b.2 := fun a => by
    rw [List.forall_mem_singleton]
    exact serves_reads_iff
  cases vpe with
  | some v => exact one _
  | none =>
    unfold attrReads
    dsimp only
    split
    · exact ⟨fun _ _ h => absurd h List.not_mem_nil, fun _ => rfl⟩
    · exact one _

theorem Held.of_touched {s t : State} {w : List (Nat × Nat)} {a n : Nat} (h : Touched s t w) (hh : Held s a n) : Held t a n := by
  intro l hl
  have before := hh l hl
  rw [held_eq] at before ⊢
  rw [h.2 l]
  split
  · rfl
  · exact before

theorem touched_readList {s : State} {l : List (Nat × Nat)} (h : ∀ a ∈ l, Held s a.1 a.2) : Touched s (readList s l) [] := by
  rw [(looked_readList s l).served (serves_readList h)]
  exact touched_withPlru s _

/-- An event's bit, set in a line held E or M, is cleared and its attributes are read. -/
def bitTaken (s : State) (k : Nat) (vpe : Option (BitVec 16)) (ev : EventId) : State :=
  readAttr (putBit s k vpe ev false) vpe ev

section
variable {s : State} {k : Nat} {vpe : Option (BitVec 16)} {ev : EventId}

theorem bitTaken_list (s : State) (k : Nat) (vpe : Option (BitVec 16)) (ev : EventId) :
    bitTaken s k vpe ev = readList (putBit s k vpe ev false) (attrReads s vpe ev) := readAttr_list ..

theorem bitTaken_frame (s : State) (k : Nat) (vpe : Option (BitVec 16)) (ev : EventId) :
    bitTaken s k vpe ev = { s with mem := (bitTaken s k vpe ev).mem, coh := (bitTaken s k vpe ev).coh } := by
  rw [bitTaken_list, readList_coh]
  rfl

/-- A state whose trees alone differ has the bit taken alike. -/
theorem bitTaken_setTgt (s : State) (x : Tg) : bitTaken (s.setTgt k x) k vpe ev = (bitTaken s k vpe ev).setTgt k x := by
  rw [bitTaken_list, bitTaken_list, readList_coh, readList_coh]
  rfl

theorem bitPut_bitTaken (hm : Memory.wf s.mem = true) (ho : Owned s (bitAddr s k vpe ev) 1) (ha : AttrHeld s vpe ev) :
    BitPut s (bitTaken s k vpe ev) k vpe ev false := by
  obtain ⟨touched, bytes⟩ := bitPut_putBit false hm ho
  have attrs := touched_readList fun a h => (attrHeld_iff.1 ha a h).of_touched touched
  have mem : (bitTaken s k vpe ev).mem = (putBit s k vpe ev false).mem := by rw [bitTaken_list, readList_coh]
  refine ⟨bitTaken_list s k vpe ev ▸ touched.trans attrs, fun x => ?_⟩
  rw [mem]
  exact bytes x

end

end Sys2Proof.Machine
end

section
namespace Sys2Proof.Machine

/-! ### A refill enters (07 R167, R168) -/

theorem BitPut.of_eq {s t u : State} {k : Nat} {vpe : Option (BitVec 16)} {ev : EventId} {b : Bool} (h : BitPut s t k vpe ev b)
    (hm : u.mem = t.mem) (hc : u.coh = t.coh) : BitPut s u k vpe ev b := by
  obtain ⟨touched, bytes⟩ := h
  exact ⟨touched.of_coh hc, fun x => by rw [hm, bytes x]⟩

/-- The insert of a refilled event. -/
def refillOp (s : State) (k : Nat) (virt swept repl : Bool) (ev : EventId) (a : Attr) : TOp :=
  { mkOp .ins virt ev a s.count with refill := true, swept := swept, repl := repl, vpe := (s.tgt k).vpe }

theorem redirected_ins {s : State} {k : Nat} {o : TOp} (h : o.kind = .ins) :
    redirected s k o = redirOf s (homeOf s k (if o.virt then some o.vpe else none)) o.ev := by
  rw [redirected, if_neg (by simp [h])]
  cases o.virt <;> rfl

/-- What no redirect takes joins the urgent inserts, or the sweep engine's buffer. -/
theorem refillIns_stays {s : State} {k : Nat} {virt : Bool} {ev : EventId}
    (h : redirOf s (homeOf s k (vpeOf s k virt)) ev = none) (urgent swept repl : Bool) (a : Attr) :
    refillIns s k virt urgent swept repl ev a = s.modTgt k fun x =>
      if urgent then { x with urgent := x.urgent ++ [refillOp s k virt swept repl ev a] }
      else { x with sbuf := x.sbuf ++ [refillOp s k virt swept repl ev a] } := by
  have stays : redirected s k (refillOp s k virt swept repl ev a) = none := (redirected_ins rfl).trans h
  unfold refillIns
  show (match redirected s k (refillOp s k virt swept repl ev a) with | some m => _ | none => _) = _
  rw [stays]
  rfl

/-! ### Errors of the ranking (07 R174) -/

/-- The log of an error of the ranking. -/
def rnkLog (i k : Nat) (ev : EventId) (s : State) : State :=
  s.wr Reg.RNK_ERR_LOG (BitVec.ofNat 32 (ev.toNat + k % 128 * 2 ^ 21 + i * 2 ^ 28))

theorem rnkErr_eq (s : State) (i k : Nat) (ev : EventId) :
    rnkErr s i k ev = logErr s 3 Reg.RNK_ERR i 0 Reg.RNK_ERR_LOG 31 (rnkLog i k ev) := rfl

theorem rnkErr_spec {s : State} {i : Nat} (hq : s.err.queue.length < 16) (hi : i < 32) (k : Nat) (ev : EventId) :
    let t := rnkErr s i k ev
    t = { s with regs := t.regs, err := t.err } ∧ Flagged s t 3 Reg.RNK_ERR i 0 (!s.bit Reg.RNK_ERR_LOG 31) := by
  have logged : RegsIn s ((rnkLog i k ev s).setBitR Reg.RNK_ERR_LOG 31 true) ([Reg.RNK_ERR_LOG] ++ [Reg.RNK_ERR_LOG]) :=
    (regsIn_wr _ _ (by decide)).trans (regsIn_wr _ _ (by decide))
  obtain ⟨frame, flagged, -⟩ := logErr_spec (src := 3) (off := Reg.RNK_ERR) (unit := 0) hq (by decide) hi logged (by decide)
  rw [rnkErr_eq]
  exact ⟨frame, flagged⟩

/-! ### LEAD_ARRIVE (07 R167) -/

/-- A target once the lead of a kind has arrived: its chunk has none, and waits for a sweep. -/
def leadDone (x : Tg) (virt : Bool) (ev : EventId) : Tg :=
  let x := clearLeadOk (x.setLead virt none) virt (chunkOf ev)
  x.setSwp virt (waitSweep (x.swp virt) (chunkOf ev))

theorem leadDone_vpe (x : Tg) (virt : Bool) (ev : EventId) : (leadDone x virt ev).vpe = x.vpe := by cases virt <;> rfl

theorem exec_leadArrive {s : State} {k : BitVec 7} {virt : Bool} (h : running s = true) (hf : s.failures (.refill k virt) = 0)
    (fail : Bool) : exec (.leadArrive k virt fail) s = .next (s.served (leadArrive s k.toNat virt fail)) :=
  congrArg Host.Outcome.next (servedRow h hf 1 fail fun s fail => leadArrive s k.toNat virt fail)

section
variable {s : State} {k : Nat} {virt : Bool} {ev : EventId} (hl : (s.tgt k).lead virt = some ev)
  (hn : laneHas s k (vpeOf s k virt) ev = false)
include hl hn

theorem leadArrive_failed :
    leadArrive s k virt true = rnkErr (s.setTgt k ((s.tgt k).setLead virt none)) 3 k ev := by
  simp [leadArrive, hl, hn]

theorem leadArrive_gone (hb : pendBit s k (vpeOf s k virt) ev = false) : leadArrive s k virt false =
    (s.setTgt k (leadDone (s.tgt k) virt ev)).reads (bitAddr s k (vpeOf s k virt) ev) 1 := by
  have gone : pendBit (s.setTgt k (leadDone (s.tgt k) virt ev)) k (vpeOf s k virt) ev = false := hb
  simp only [leadDone] at gone
  simp only [leadArrive, hl, hn, gone]
  rfl

theorem leadArrive_set (hb : pendBit s k (vpeOf s k virt) ev = true) (ha : noAttrs s (vpeOf s k virt) ev = false) :
    leadArrive s k virt false =
      let u := bitTaken (s.setTgt k (leadDone (s.tgt k) virt ev)) k (vpeOf s k virt) ev
      refillIns u k virt true false false ev (refillAttr u k (vpeOf s k virt) ev) := by
  have set : pendBit (s.setTgt k (leadDone (s.tgt k) virt ev)) k (vpeOf s k virt) ev = true := hb
  have attrs : noAttrs (putBit (s.setTgt k (leadDone (s.tgt k) virt ev)) k (vpeOf s k virt) ev false) (vpeOf s k virt) ev =
      false := ha
  simp only [leadDone] at set attrs
  simp only [leadArrive, hl, hn, set, attrs]
  rw [bitTaken_list, readList_coh, readAttr_list, readList_coh]
  rfl

end

section
variable {s : State} {k : BitVec 7} {virt : Bool} {ev : EventId}

theorem gives_leadArrive_failed (h : running s = true) (hl : (s.tgt k.toNat).lead virt = some ev)
    (hf : s.failures (.refill k virt) = 0) (hn : laneHas s k.toNat (vpeOf s k.toNat virt) ev = false)
    (hq : s.err.queue.length < 16) : Gives (.leadArrive k virt true) s fun t =>
      t = { s with tg := t.tg, regs := t.regs, err := t.err } ∧
      Flagged s t 3 Reg.RNK_ERR 3 0 (!s.bit Reg.RNK_ERR_LOG 31) ∧ t.tgt k.toNat = (s.tgt k.toNat).setLead virt none := by
  obtain ⟨frame, flagged⟩ := rnkErr_spec (s := s.setTgt k.toNat ((s.tgt k.toNat).setLead virt none)) (i := 3) hq (by decide)
    k.toNat ev
  rw [← leadArrive_failed hl hn] at frame flagged
  refine gives_served (exec_leadArrive h hf true) (by rw [Serves, frame]; rfl) ⟨?_, flagged, ?_⟩
  · rw [frame]
    rfl
  · rw [State.tgt, frame]
    exact tgt_setTgt_same ..

theorem gives_leadArrive_gone (h : running s = true) (hl : (s.tgt k.toNat).lead virt = some ev)
    (hf : s.failures (.refill k virt) = 0) (hn : laneHas s k.toNat (vpeOf s k.toNat virt) ev = false)
    (hb : pendBit s k.toNat (vpeOf s k.toNat virt) ev = false) (hh : Held s (bitAddr s k.toNat (vpeOf s k.toNat virt) ev) 1) :
    Gives (.leadArrive k virt false) s fun t =>
      t = { s with tg := t.tg, coh := t.coh } ∧ Touched s t [] ∧ t.tgt k.toNat = leadDone (s.tgt k.toNat) virt ev ∧
      ∀ j, j ≠ k.toNat → t.tgt j = s.tgt j := by
  have touched : Touched s (leadArrive s k.toNat virt false) [] := by
    rw [leadArrive_gone hl hn hb]
    exact (touched_reads hh).of_coh rfl
  refine gives_served (exec_leadArrive h hf false) touched.serves ⟨?_, touched, ?_, fun j hj => ?_⟩
  all_goals rw [leadArrive_gone hl hn hb]
  · rfl
  · exact tgt_setTgt_same ..
  · exact (tgt_setTgt ..).trans (if_neg hj)

theorem gives_leadArrive_set (h : running s = true) (hl : (s.tgt k.toNat).lead virt = some ev)
    (hf : s.failures (.refill k virt) = 0) (hn : laneHas s k.toNat (vpeOf s k.toNat virt) ev = false)
    (hb : pendBit s k.toNat (vpeOf s k.toNat virt) ev = true) (ha : noAttrs s (vpeOf s k.toNat virt) ev = false)
    (hr : redirOf s (homeOf s k.toNat (vpeOf s k.toNat virt)) ev = none)
    (ho : Owned s (bitAddr s k.toNat (vpeOf s k.toNat virt) ev) 1) (hh : AttrHeld s (vpeOf s k.toNat virt) ev)
    (hm : Memory.wf s.mem = true) : Gives (.leadArrive k virt false) s fun t =>
      let y := leadDone (s.tgt k.toNat) virt ev
      t = { s with tg := t.tg, mem := t.mem, coh := t.coh } ∧ BitPut s t k.toNat (vpeOf s k.toNat virt) ev false ∧
      t.tgt k.toNat = { y with urgent := y.urgent ++
        [{ mkOp .ins virt ev (refillAttr t k.toNat (vpeOf s k.toNat virt) ev) s.count with
          refill := true, vpe := (s.tgt k.toNat).vpe }] } ∧
      ∀ j, j ≠ k.toNat → t.tgt j = s.tgt j := by
  have put := bitPut_bitTaken hm ho hh
  have taken := bitTaken_frame s k.toNat (vpeOf s k.toNat virt) ev
  have row := exec_leadArrive h hf false
  rw [leadArrive_set hl hn hb ha, bitTaken_setTgt] at row
  generalize bitTaken s k.toNat (vpeOf s k.toNat virt) ev = u at put taken row
  have entered : (u.setTgt k.toNat (leadDone (s.tgt k.toNat) virt ev)).tgt k.toNat = leadDone (s.tgt k.toNat) virt ev :=
    tgt_setTgt_same ..
  have others : ∀ j, j ≠ k.toNat → (u.setTgt k.toNat (leadDone (s.tgt k.toNat) virt ev)).tgt j = s.tgt j := fun j hj => by
    rw [tgt_setTgt, if_neg hj, taken]
    rfl
  have frame : u.setTgt k.toNat (leadDone (s.tgt k.toNat) virt ev) =
      { s with tg := (u.setTgt k.toNat (leadDone (s.tgt k.toNat) virt ev)).tg, mem := u.mem, coh := u.coh } := by
    rw [taken]
    rfl
  generalize u.setTgt k.toNat (leadDone (s.tgt k.toNat) virt ev) = v at entered others frame row
  have mem : v.mem = u.mem := by rw [frame]
  have coh : v.coh = u.coh := by rw [frame]
  have stays : redirOf v (homeOf v k.toNat (vpeOf v k.toNat virt)) ev = none := by
    rw [vpeOf, entered, leadDone_vpe, frame]
    exact hr
  rw [refillIns_stays stays] at row
  have touched : Touched s v [(bitAddr s k.toNat (vpeOf s k.toNat virt) ev, 1)] := put.1.of_coh coh
  refine gives_served row touched.serves ⟨?_, put.of_eq mem coh, ?_, fun j hj => ?_⟩
  · rw [frame]
    rfl
  · rw [tgt_modTgt, if_pos rfl, if_pos rfl, refillOp, entered, leadDone_vpe, frame]
    rfl
  · rw [tgt_modTgt, if_neg hj, others j hj]

end

end Sys2Proof.Machine
end

section
namespace Sys2Proof.Machine

/-! ### SWEEP_START and BACKGROUND_SWEEP (07 R168, R169) -/

/-- A target whose engine for physical sweeps takes chunk c. -/
def sweepBegun (x : Tg) (c : Nat) : Tg :=
  { x with swpP := { x.swpP with
      waiting := x.swpP.waiting.filter (· ≠ c),
      run := some { chunk := c, taken := false, snap := [], result := Sum.empty } } }

theorem beginSweep_physical (s : State) (k c : Nat) : beginSweep s k false c = s.setTgt k (sweepBegun (s.tgt k) c) := rfl

section
variable {s : State} {k : BitVec 7} {c : Nat}

theorem sweepStart_best (hr : refillOk s k.toNat false = true) (hs : (s.tgt k.toNat).swpP.run = none)
    (hb : bestWaiting (s.tgt k.toNat) false = some c) :
    sweepStart s k.toNat false = s.setTgt k.toNat (sweepBegun (s.tgt k.toNat) c) := by
  have idle : ((s.tgt k.toNat).swp false).run = none := hs
  simp [sweepStart, hr, idle, hb, beginSweep_physical]

theorem backgroundSweep_best (hr : refillOk s k.toNat false = true) (hs : (s.tgt k.toNat).swpP.run = none) {e : Sum}
    (hl : (s.tgt k.toNat).entries.length < s.fld Reg.RNK_REFILL 28 16) (hw : (s.tgt k.toNat).swpP.waiting = [])
    (hp : (s.tgt k.toNat).leadP = none) (hb : bestChunk (fun _ => false) (s.tgt k.toNat).sumP = some (c, e)) :
    backgroundSweep s k.toNat false = s.setTgt k.toNat (sweepBegun (s.tgt k.toNat) c) := by
  simp [backgroundSweep, Tg.swp, Tg.lead, Tg.sums, hr, hs, hl, hw, hp, hb, beginSweep_physical]

/-- A row that begins a sweep. -/
theorem gives_sweepBegun {i : Instr} {u : State} (h : running s = true)
    (hi : exec i s = .next (if engOn s 3 then u else s)) (hu : u = s.setTgt k.toNat (sweepBegun (s.tgt k.toNat) c)) :
    Gives i s fun t => t = { s with tg := t.tg } ∧ t.tgt k.toNat = sweepBegun (s.tgt k.toNat) c ∧
      ∀ j, j ≠ k.toNat → t.tgt j = s.tgt j := by
  rw [if_pos (engOn_running h 3), hu] at hi
  exact gives_intro hi ⟨rfl, tgt_setTgt_same .., fun j hj => (tgt_setTgt ..).trans (if_neg hj)⟩

end

/-! ### SWEEP_LINES_ARRIVE (07 R168 step 1) -/

/-- The events of a chunk, ascending. -/
def chunkEvents (c : Nat) : List EventId := (List.range 1024).map fun i => BitVec.ofNat 21 (c * 1024 + i)

section
variable {c : Nat} (hc : c < 2048)
include hc

theorem toNat_chunkEvent {i : Nat} (hi : i < 1024) : (BitVec.ofNat 21 (c * 1024 + i)).toNat = c * 1024 + i := by
  rw [BitVec.toNat_ofNat]
  exact Nat.mod_eq_of_lt (by omega)

theorem mem_chunkEvents {ev : EventId} : ev ∈ chunkEvents c ↔ chunkOf ev = c := by
  unfold chunkEvents chunkOf
  rw [List.mem_map]
  constructor
  · rintro ⟨i, hi, rfl⟩
    have hi := List.mem_range.1 hi
    rw [toNat_chunkEvent hc hi]
    omega
  · intro h
    have hi : ev.toNat % 1024 < 1024 := Nat.mod_lt _ (by decide)
    refine ⟨ev.toNat % 1024, List.mem_range.2 hi, BitVec.eq_of_toNat_eq ?_⟩
    rw [toNat_chunkEvent hc hi]
    omega

theorem pairwise_chunkEvents : (chunkEvents c).Pairwise (· < ·) := by
  unfold chunkEvents
  rw [List.pairwise_map]
  refine List.pairwise_lt_range.imp_of_mem fun {i j} hi hj h => ?_
  have hi := List.mem_range.1 hi
  have hj := List.mem_range.1 hj
  rw [BitVec.lt_def, toNat_chunkEvent hc hi, toNat_chunkEvent hc hj]
  omega

end

/-- The chunk's set bits, which a running sweep's snapshot takes. -/
def snapOf (s : State) (k : Nat) (virt : Bool) (c : Nat) : List EventId := (chunkEvents c).filter (pendBit s k (vpeOf s k virt))

theorem exec_sweepLinesArrive {s : State} {k : BitVec 7} {virt : Bool} (h : running s = true)
    (hf : s.failures (.refill k virt) = 0) (fail : Bool) :
    exec (.sweepLinesArrive k virt fail) s = .next (s.served (sweepLines s k.toNat virt fail)) :=
  congrArg Host.Outcome.next (servedRow h hf 1 fail fun s fail => sweepLines s k.toNat virt fail)

/-- A target whose sweep of a kind has its snapshot. -/
def sweepTaken (x : Tg) (virt : Bool) (r : Sweep) (snap : List EventId) : Tg :=
  let x := clearLeadOk x virt r.chunk
  x.setSwp virt { x.swp virt with run := some { r with taken := true, snap := snap, due := false } }

theorem run_sweepTaken (x : Tg) (virt : Bool) (r : Sweep) (snap : List EventId) :
    ((sweepTaken x virt r snap).swp virt).run = some { r with taken := true, snap := snap, due := false } := by
  cases virt <;> rfl

theorem leadOk_sweepTaken (x : Tg) (virt : Bool) (r : Sweep) (snap : List EventId) :
    (Tbl.get Sum.empty ((sweepTaken x virt r snap).sums virt) r.chunk).leadOk = false := by
  have sums : (sweepTaken x virt r snap).sums virt = (clearLeadOk x virt r.chunk).sums virt := by cases virt <;> rfl
  have cleared : (clearLeadOk x virt r.chunk).sums virt =
      Tbl.put (x.sums virt) r.chunk { Tbl.get Sum.empty (x.sums virt) r.chunk with leadOk := false } := by cases virt <;> rfl
  rw [sums, cleared, Tbl.get_put_same]

theorem sweepLines_snap {s : State} {k : Nat} {virt : Bool} {r : Sweep} (hr : ((s.tgt k).swp virt).run = some r)
    (ht : r.taken = false) (hd : r.due = false) (hn : snapOf s k virt r.chunk ≠ []) : sweepLines s k virt false =
      (s.reads (bitAddr s k (vpeOf s k virt) (BitVec.ofNat 21 (r.chunk * 1024))) 128).setTgt k
        (sweepTaken (s.tgt k) virt r (snapOf s k virt r.chunk)) := by
  have some' : (snapOf s k virt r.chunk).isEmpty = false := by simpa using hn
  simp only [sweepLines, hr, ht, hd]
  show State.setTgt _ k (if (snapOf s k virt r.chunk).isEmpty then _ else _) = _
  rw [some']
  rfl

theorem gives_sweepLinesArrive {s : State} {k : BitVec 7} {virt : Bool} {r : Sweep} (h : running s = true)
    (hr : ((s.tgt k.toNat).swp virt).run = some r) (ht : r.taken = false) (hd : r.due = false) (hc : r.chunk < 2048)
    (hf : s.failures (.refill k virt) = 0)
    (hb : ∃ ev, chunkOf ev = r.chunk ∧ pendBit s k.toNat (vpeOf s k.toNat virt) ev = true)
    (hh : Held s (bitAddr s k.toNat (vpeOf s k.toNat virt) (BitVec.ofNat 21 (r.chunk * 1024))) 128) :
    Gives (.sweepLinesArrive k virt false) s fun t => t = { s with tg := t.tg, coh := t.coh } ∧ Touched s t [] ∧
      (∃ q, ((t.tgt k.toNat).swp virt).run = some q ∧ q.chunk = r.chunk ∧ q.taken = true ∧ q.result = r.result ∧
        q.snap.Pairwise (· < ·) ∧
        ∀ ev, ev ∈ q.snap ↔ chunkOf ev = r.chunk ∧ pendBit s k.toNat (vpeOf s k.toNat virt) ev = true) ∧
      (Tbl.get Sum.empty ((t.tgt k.toNat).sums virt) r.chunk).leadOk = false ∧ ∀ j, j ≠ k.toNat → t.tgt j = s.tgt j := by
  have members : ∀ ev, ev ∈ snapOf s k.toNat virt r.chunk ↔
      chunkOf ev = r.chunk ∧ pendBit s k.toNat (vpeOf s k.toNat virt) ev = true := fun ev => by
    rw [snapOf, List.mem_filter, mem_chunkEvents hc]
  have some' : snapOf s k.toNat virt r.chunk ≠ [] := by
    obtain ⟨ev, hev⟩ := hb
    exact List.ne_nil_of_mem ((members ev).2 hev)
  have ascending : (snapOf s k.toNat virt r.chunk).Pairwise (· < ·) := by
    unfold snapOf
    exact (pairwise_chunkEvents hc).filter _
  have row := exec_sweepLinesArrive h hf false
  rw [sweepLines_snap hr ht hd some'] at row
  generalize snapOf s k.toNat virt r.chunk = snap at members ascending row
  refine gives_served row ((touched_reads hh).of_coh rfl).serves ⟨rfl, (touched_reads hh).of_coh rfl,
    ⟨{ r with taken := true, snap := snap, due := false }, ?_, rfl, rfl, rfl, ascending, members⟩, ?_, fun j hj => ?_⟩
  · rw [tgt_setTgt_same, run_sweepTaken]
  · rw [tgt_setTgt_same, leadOk_sweepTaken]
  · exact (tgt_setTgt ..).trans (if_neg hj)

/-! ### SWEEP_ATTR_ARRIVE (07 R168 steps 2 and 3) -/

theorem exec_sweepAttrArrive {s : State} {k : BitVec 7} {virt : Bool} (h : running s = true)
    (hf : s.failures (.refill k virt) = 0) (fail : Bool) :
    exec (.sweepAttrArrive k virt fail) s = .next (s.served (sweepAttr s k.toNat virt fail)) :=
  congrArg Host.Outcome.next (servedRow h hf 1 fail fun s fail => sweepAttr s k.toNat virt fail)

section
variable {s : State} {k : Nat} {ev : EventId} {r : Sweep} {rest : List EventId}

/-- The visit of a physical sweep's next event, whose bit is set. -/
theorem sweepAttr_visit (hr : (s.tgt k).swpP.run = some r) (ht : r.taken = true) (hs : r.snap = ev :: rest)
    (hn : laneHas s k none ev = false) (hl : ((s.tgt k).buf false).length < 16) (hb : pendBit s k none ev = true)
    (ha : noAttrs s none ev = false) :
    sweepAttr s k false false = sweepNext (sweepPlace (bitTaken s k none ev) k false ev) k false := by
  have run : ((s.tgt k).swp false).run = some r := hr
  have vpe : vpeOf s k false = none := rfl
  simp [sweepAttr, run, hs, vpe, ht, hn, Nat.not_le.2 hl, hb, ha, shtTake, bitTaken]

/-- Where RESERVE is free, the event becomes an insert. -/
theorem sweepPlace_room {virt : Bool} (hf : s.fld Reg.RNK_REFILL 12 0 < 4096 - (s.tgt k).entries.length) :
    sweepPlace s k virt ev =
      refillIns s k virt (sweepUrgent s k virt) true false ev (refillAttr s k (vpeOf s k virt) ev) := by
  simp [sweepPlace, hf]

/-- The next event of the snapshot, where one is left. -/
theorem sweepNext_left (hr : (s.tgt k).swpP.run = some r) (hs : r.snap = ev :: rest) (hn : rest ≠ []) :
    sweepNext s k false = s.modTgt k fun x => { x with swpP := { x.swpP with run := some { r with snap := rest } } } := by
  have run : ((s.tgt k).swp false).run = some r := hr
  have left : rest.isEmpty = false := by simpa using hn
  simp only [sweepNext, State.modTgt, run, hs, List.tail_cons, left]
  rfl

end

theorem gives_sweepAttrArrive {s : State} {k : BitVec 7} {r : Sweep} {ev : EventId} {rest : List EventId} (h : running s = true)
    (hr : (s.tgt k.toNat).swpP.run = some r) (ht : r.taken = true) (hs : r.snap = ev :: rest) (hn : rest ≠ [])
    (hw : laneHas s k.toNat none ev = false) (hl : ((s.tgt k.toNat).buf false).length < 16)
    (hf : s.failures (.refill k false) = 0) (hu : sweepUrgent s k.toNat false = false) (hb : pendBit s k.toNat none ev = true)
    (ha : noAttrs s none ev = false) (hfree : s.fld Reg.RNK_REFILL 12 0 < 4096 - (s.tgt k.toNat).entries.length)
    (hd : redirOf s (homeOf s k.toNat none) ev = none) (ho : Owned s (bitAddr s k.toNat none ev) 1) (hh : AttrHeld s none ev)
    (hm : Memory.wf s.mem = true) : Gives (.sweepAttrArrive k false false) s fun t =>
      t = { s with tg := t.tg, mem := t.mem, coh := t.coh } ∧ BitPut s t k.toNat none ev false ∧
      t.tgt k.toNat = { s.tgt k.toNat with
        swpP := { (s.tgt k.toNat).swpP with run := some { r with snap := rest } },
        sbuf := (s.tgt k.toNat).sbuf ++ [{ mkOp .ins false ev (refillAttr t k.toNat none ev) s.count with
          refill := true, swept := true, vpe := (s.tgt k.toNat).vpe }] } ∧
      ∀ j, j ≠ k.toNat → t.tgt j = s.tgt j := by
  obtain ⟨touched, bytes⟩ := bitPut_bitTaken hm ho hh
  have frame := bitTaken_frame s k.toNat none ev
  have row := exec_sweepAttrArrive h hf false
  rw [sweepAttr_visit hr ht hs hw hl hb ha] at row
  generalize bitTaken s k.toNat none ev = u at touched bytes frame row
  have tgt : ∀ j, u.tgt j = s.tgt j := fun j => by
    rw [frame]
    rfl
  have room : u.fld Reg.RNK_REFILL 12 0 < 4096 - (u.tgt k.toNat).entries.length := by
    rw [frame]
    exact hfree
  have calm : sweepUrgent u k.toNat false = false := by
    rw [frame]
    exact hu
  have stays : redirOf u (homeOf u k.toNat (vpeOf u k.toNat false)) ev = none := by
    rw [frame]
    exact hd
  rw [sweepPlace_room room, refillIns_stays stays, calm, sweepNext_left (r := r) (by rw [tgt_modTgt, if_pos rfl, tgt]; exact hr)
    hs hn] at row
  refine gives_served row touched.serves ⟨?_, BitPut.of_eq ⟨touched, bytes⟩ rfl rfl, ?_, fun j hj => ?_⟩
  · rw [frame]
    rfl
  · rw [tgt_modTgt, if_pos rfl, tgt_modTgt, if_pos rfl, if_neg (by decide), refillOp, tgt, frame]
    rfl
  · rw [tgt_modTgt, if_neg hj, tgt_modTgt, if_neg hj, tgt]

/-- Settles O24: a lead by what has become of its bit and its read, a sweep's start, its snapshot and the visit of an event. -/
theorem refillsAndSweeps : Obligations.RefillsAndSweeps := by
  unfold Obligations.RefillsAndSweeps
  refine ⟨?lead, ?start, ?lines, ?visit⟩
  case lead =>
    intro s k virt ev h hl hf vpe hn x y
    exact ⟨fun hb hh => gives_leadArrive_gone h hl hf hn hb hh,
      fun hb ha hr ho hh hm => gives_leadArrive_set h hl hf hn hb ha hr ho hh hm,
      fun hq => gives_leadArrive_failed h hl hf hn hq⟩
  case start =>
    intro s k c h hr hs from'
    exact ⟨fun hb => gives_sweepBegun h rfl (sweepStart_best hr hs hb),
      fun e hl hw hp hb => gives_sweepBegun h rfl (backgroundSweep_best hr hs hl hw hp hb)⟩
  case lines =>
    intro s k virt r h hr ht hd hc hf hb hh
    exact gives_sweepLinesArrive h hr ht hd hc hf hb hh
  case visit =>
    intro s k r ev rest h hr ht hs hn hw hl hf hu hb ha hfree hd ho hh hm
    exact gives_sweepAttrArrive h hr ht hs hn hw hl hf hu hb ha hfree hd ho hh hm

end Sys2Proof.Machine
end

section
namespace Sys2Proof.Machine

/-! ### The completion of commands (11 R259, R264) -/

theorem completeBad_frame (s : State) (r n : Nat) : completeBad s r n = { s with rings := (completeBad s r n).rings } := by
  induction n generalizing s with
  | zero => rfl
  | succ n ih =>
    unfold completeBad
    dsimp only
    split
    · rfl
    · split
      · rfl
      · split
        · rfl
        · rw [ih]
          rfl

theorem pollRing_frame (s : State) (r : Nat) : pollRing s r = { s with rings := (pollRing s r).rings } := by
  unfold pollRing
  split
  · rfl
  · dsimp only
    split
    · unfold complete
      rw [completeBad_frame]
      rfl
    · split <;> rfl

theorem foldl_coh {α : Type} {f : State → α → State} (hf : ∀ s a, (f s a).coh = s.coh) (l : List α) (s : State) :
    (l.foldl f s).coh = s.coh := by
  induction l generalizing s with
  | nil => rfl
  | cons a l ih => exact (ih (f s a)).trans (hf s a)

theorem pollOwed_coh (s : State) : (pollOwed s).coh = s.coh := by
  unfold pollOwed
  exact foldl_coh (f := fun s (o : Owed) => answerReq s o.inst o.req o.status false) (fun _ _ => rfl) _ _

/-- The completion of commands touches no line. -/
theorem pollAll_coh (s : State) : (pollAll s).coh = s.coh := by
  unfold pollAll
  exact (pollOwed_coh _).trans (foldl_coh (fun s r => by rw [pollRing_frame]) _ _)

theorem polls_served {i : Instr} {s u : State} {P : State → Prop} (hx : exec i s = .next (s.served (pollAll u)))
    (hs : Serves s u) (hp : P u) : Polls i s P := by
  rw [served_eq (by rw [Serves, pollAll_coh]; exact hs)] at hx
  exact ⟨u, hx, hp⟩

/-! ### A Shuttle lane without clears (07 R165) -/

theorem nextSpill_head {s : State} {w : LaneW} (hs : w.set = true) (hv : w.vpe = none) (he : s.rnkEn = true) (rest : List LaneW) :
    nextSpill s (w :: rest) = some (w, rest) := by
  simp [nextSpill, tableOn, hs, hv, he]

/-- Sets stay in the lane. -/
theorem applyClears_sets {l : List LaneW} (h : ∀ w ∈ l, w.set = true) (s : State) (kept : List LaneW) :
    applyClears s kept l = (s, kept ++ l) := by
  induction l generalizing kept with
  | nil => rw [List.append_nil]; rfl
  | cons w r ih =>
    obtain ⟨hw, hr⟩ := List.forall_mem_cons.1 h
    rw [applyClears, if_pos (by simp [hw]), ih hr, List.append_assoc, List.singleton_append]

theorem laneDrain_sets {s : State} {l : Nat} (h : ∀ w ∈ s.lane l, w.set = true) :
    laneDrain s l = s.setLane l (s.lane l) := by
  simp [laneDrain, applyClears_sets h]

/-- Without a direct spill that waits, a free buffer entry is left. -/
theorem directLane_idle {s : State} (h : ∀ e ∈ s.tg, e.2.dsp = []) (l : Nat) : directLane s l = s := by
  have idle : (s.tg.filter fun p => decide (p.1 / 16 = l) && !p.2.dsp.isEmpty) = [] := by
    rw [List.filter_eq_nil_iff]
    intro p hp
    simp [h p hp]
  rw [directLane, idle]
  rfl

theorem Tbl.mem_del {α : Type} {m : Tbl α} {i : Nat} {e : Nat × α} (h : e ∈ Tbl.del m i) : e ∈ m := by
  induction m with
  | nil => exact h
  | cons p r ih =>
    unfold Tbl.del at h
    split at h
    · exact List.mem_cons_of_mem _ (ih h)
    · exact (List.mem_cons.1 h).elim (fun e => e ▸ List.mem_cons_self) fun h => List.mem_cons_of_mem _ (ih h)

theorem Tbl.mem_put {α : Type} {m : Tbl α} {i : Nat} {v : α} {e : Nat × α} (h : e ∈ Tbl.put m i v) :
    e = (i, v) ∨ e ∈ m :=
  (List.mem_cons.1 h).imp_right Tbl.mem_del

/-- A mark leaves every tree's direct spills. -/
theorem dsp_markLive {s : State} (h : ∀ e ∈ s.tg, e.2.dsp = []) (k : Nat) (virt : Bool) (ev : EventId) (p : Byte) :
    ∀ e ∈ (markLive s k virt ev p).tg, e.2.dsp = [] := by
  have here : (s.tgt k).dsp = [] := Tbl.get_of_all (fun x : Tg => x.dsp = []) _ _ _ rfl h
  have marked : ((markLive s k virt ev p).tgt k).dsp = [] := by
    rw [markLive, tgt_modTgt, if_pos rfl]
    dsimp only
    split
    · split <;> cases virt <;> exact here
    · cases virt <;> exact here
  intro e he
  have tgt : (markLive s k virt ev p).tgt k = _ := tgt_modTgt ..
  rcases Tbl.mem_put he with rfl | he
  · rw [tgt, if_pos rfl] at marked
    exact marked
  · exact h e he

/-! ### SPILL_SET_DONE (07 R165) -/

theorem exec_spillSetDone {s : State} {l : BitVec 3} (h : running s = true) (hf : s.failures (.spill l) = 0) (fail : Bool) :
    exec (.spillSetDone l fail) s = .next (s.served (pollAll (spillSetDone s l.toNat fail))) := by
  show Host.Outcome.next (if engOn s 3 then
    s.served (pollAll (s.withFail (.spill l) 4 fail fun s fail => spillSetDone s l.toNat fail)) else s) = _
  rw [if_pos (engOn_running h 3), State.withFail, if_pos hf]

/-- u once the spill that has left lane l is told, the lane's other writes being the sets `rest`. -/
theorem spill_told {u : State} {l : Nat} {rest : List LaneW} (hl : u.lane l = rest) (hs : ∀ w ∈ rest, w.set = true)
    (hd : ∀ e ∈ u.tg, e.2.dsp = []) : directLane (laneDrain u l) l = u.setLane l rest := by
  subst hl
  rw [laneDrain_sets hs]
  exact directLane_idle (s := u.setLane l (u.lane l)) hd l

section
variable {s : State} {l : Nat} {w : LaneW} {rest : List LaneW} (hl : s.lane l = w :: rest) (hs : w.set = true)
  (hv : w.vpe = none) (he : s.rnkEn = true)
include hl hs hv he

theorem spillSetDone_made : spillSetDone s l false = directLane (laneDrain (noteState (markLive
    (putBit (s.setLane l rest) w.t none w.ev true) w.t false w.ev w.prio) w.t false w.ev) l) l := by
  simp [spillSetDone, hl, nextSpill_head hs hv he, hv]

theorem spillSetDone_failed (hw : w.wid = none) : spillSetDone s l true =
    directLane (laneDrain (noteState (rnkErr (s.setLane l rest) 2 w.t w.ev) w.t false w.ev) l) l := by
  simp [spillSetDone, hl, nextSpill_head hs hv he, hv, hw, cmdFail]

end

section
variable {s : State} {l : BitVec 3} {w : LaneW} {rest : List LaneW} (h : running s = true) (hl : s.lane l.toNat = w :: rest)
  (hs : w.set = true) (hv : w.vpe = none) (he : s.rnkEn = true) (hr : ∀ c ∈ rest, c.set = true)
  (hf : s.failures (.spill l) = 0) (hd : ∀ e ∈ s.tg, e.2.dsp = [])
include h hl hs hv he hr hf hd

theorem polls_spillSetDone_made (hm : Memory.wf s.mem = true) (ho : Owned s (bitAddr s w.t none w.ev) 1) :
    Polls (.spillSetDone l false) s fun t =>
      t = { s with lanes := t.lanes, mem := t.mem, coh := t.coh, tg := t.tg, win := t.win, wft := t.wft } ∧
      BitPut s t w.t none w.ev true ∧ t.lane l.toNat = rest ∧ (∀ j, j ≠ l.toNat → t.lane j = s.lane j) ∧
      (∀ j, j ≠ w.t → t.tgt j = s.tgt j) ∧
      Tbl.get Sum.empty (t.tgt w.t).sumP (chunkOf w.ev) =
        (Tbl.get Sum.empty (s.tgt w.t).sumP (chunkOf w.ev)).mark w.prio (leadOff w.ev) := by
  have row := exec_spillSetDone h hf false
  rw [spillSetDone_made hl hs hv he] at row
  have raised : BitRaised (s.setLane l.toNat rest) _ w.t w.ev w.prio := bitRaised_noteState w.prio hm ho
  have noted := noteState_frame (markLive (putBit (s.setLane l.toNat rest) w.t none w.ev true) w.t false w.ev w.prio) w.t false w.ev
  have direct := dsp_markLive (s := putBit (s.setLane l.toNat rest) w.t none w.ev true) hd w.t false w.ev w.prio
  generalize noteState _ w.t false w.ev = u at raised noted row
  have tg : u.tg = (markLive (putBit (s.setLane l.toNat rest) w.t none w.ev true) w.t false w.ev w.prio).tg := by rw [noted]
  obtain ⟨frame, put, others, sum⟩ := raised
  have lane : ∀ j, u.lane j = if j = l.toNat then rest else s.lane j := fun j => by
    rw [frame]
    exact Tbl.get_put ..
  rw [spill_told ((lane _).trans (if_pos rfl)) hr (by rw [tg]; exact direct)] at row
  refine polls_served row put.1.serves ⟨?_, put, Tbl.get_put_same .., fun j hj => ?_, others, sum⟩
  · rw [frame]
    rfl
  · exact (Tbl.get_put_other _ _ _ hj).trans ((lane j).trans (if_neg hj))

theorem polls_spillSetDone_failed (hq : s.err.queue.length < 16) (hw : w.wid = none) : Polls (.spillSetDone l true) s fun t =>
    t = { s with lanes := t.lanes, regs := t.regs, err := t.err, win := t.win, wft := t.wft } ∧
    Flagged s t 3 Reg.RNK_ERR 2 0 (!s.bit Reg.RNK_ERR_LOG 31) ∧ t.lane l.toNat = rest := by
  have row := exec_spillSetDone h hf true
  rw [spillSetDone_failed hl hs hv he hw] at row
  obtain ⟨logged, set, queued⟩ := rnkErr_spec (s := s.setLane l.toNat rest) (i := 2) hq (by decide) w.t w.ev
  have noted := noteState_frame (rnkErr (s.setLane l.toNat rest) 2 w.t w.ev) w.t false w.ev
  generalize rnkErr (s.setLane l.toNat rest) 2 w.t w.ev = v at logged set queued noted row
  generalize noteState v w.t false w.ev = u at noted row
  have frame : u = { s.setLane l.toNat rest with regs := v.regs, err := v.err, win := u.win, wft := u.wft } := by
    rw [noted, logged]
  have lane : u.lane l.toNat = rest := by
    rw [frame]
    exact Tbl.get_put_same ..
  rw [spill_told lane hr (by rw [frame]; exact hd)] at row
  refine polls_served row (by rw [Serves, frame]; rfl) ⟨?_, ⟨?_, ?_⟩, Tbl.get_put_same ..⟩
  · rw [frame]
    rfl
  · rw [noted]
    exact set
  · rw [noted]
    exact queued

end

end Sys2Proof.Machine
end

section
namespace Sys2Proof.Machine

/-! ### RNK_CTRL (07 R172, R173, R175) -/

/-- The row of RNK_CTRL. -/
def rnkCtrlRow : RegRow := { off := 0x31000, rd := 0x3, rw := 0x3, priv := 0x3 }

theorem regRow_rnkCtrl (p : Par) : regRow p Reg.RNK_CTRL = some rnkCtrlRow := rfl

theorem mask_rnkCtrl : reachable rnkCtrlRow true true = 0x3 := by decide

theorem checks_rnkCtrl (s : State) (d : W32) :
    flatChecks s Reg.RNK_CTRL d = [fchk 0 0 (s.rnkEn && !bitAt d 0) false] := rfl

/-- RNK_CTRL as a write of the fields in mask m leaves it. -/
def rnkCtrlWord (s : State) (d m : W32) : W32 := (s.rd Reg.RNK_CTRL &&& ~~~m) ||| (d &&& m)

theorem rnkCtrl_started {s : State} {d : W32} (he : s.rnkEn = false) (src : Src) :
    wordWritten s Reg.RNK_CTRL rnkCtrlRow d true true src = applyRnkCtrl s (rnkCtrlWord s d 0x3) := by
  have checks : runChecks (reachable rnkCtrlRow true true) (flatChecks s Reg.RNK_CTRL d) = (0x3, []) := by
    rw [checks_rnkCtrl, mask_rnkCtrl, he, Bool.false_and, runChecks_free]
  rw [wordWritten_taken rfl checks (by decide)]
  exact congrArg (applyRnkCtrl s) (value_rw rfl (by decide) _)

/-- A write that would take EN back is flagged, and leaves it. -/
theorem rnkCtrl_kept {s : State} {d : W32} (he : s.rnkEn = true) (hd : bitAt d 0 = false) (src : Src) :
    let u := flagPlans src s [⟨Reg.RNK_CTRL, rnkCtrlRow, d, 0x2, [0]⟩]
    wordWritten s Reg.RNK_CTRL rnkCtrlRow d true true src = applyRnkCtrl u (rnkCtrlWord u d 0x2) := by
  have checks : runChecks (reachable rnkCtrlRow true true) (flatChecks s Reg.RNK_CTRL d) = (0x2, [0]) := by
    rw [checks_rnkCtrl, mask_rnkCtrl, he, hd]
    decide
  dsimp only
  rw [wordWritten, wordPlan_plain rfl, checks]
  dsimp only
  rw [applyWord_plain (p := ⟨Reg.RNK_CTRL, rnkCtrlRow, d, 0x2, [0]⟩) rfl, if_neg (show (0x2 : W32) ≠ 0 by decide)]
  exact congrArg (applyRnkCtrl _) (value_rw rfl (by decide) _)

/-- EN going to 1 starts the load. -/
theorem applyRnkCtrl_start {s : State} {nv : W32} (he : s.rnkEn = false) (hn : bitAt nv 0 = true) :
    let t := applyRnkCtrl s nv
    t = { s with regs := t.regs, prf := t.prf, rnk := t.rnk } ∧
    t.rnk = { s.rnk with rebuild := bitAt nv 1 || s.bit Reg.RNK_STAT 1, loaded := [] } ∧
    t.rd Reg.RNK_CTRL = setBit nv 1 false ∧ t.bit Reg.RNK_STAT 0 = true ∧ RegsApart s t [Reg.RNK_CTRL, Reg.RNK_STAT] := by
  have start : applyRnkCtrl s nv = { (s.wr Reg.RNK_CTRL (setBit nv 1 false)).setBitR Reg.RNK_STAT 0 true with
      rnk := { s.rnk with rebuild := bitAt nv 1 || s.bit Reg.RNK_STAT 1, loaded := [] } } := by
    have stat : ((s.wr Reg.RNK_CTRL (setBit nv 1 false)).setBitR Reg.RNK_STAT 0 true).bit Reg.RNK_STAT 1 =
        s.bit Reg.RNK_STAT 1 := by
      rw [State.bit, rd_setBitR, if_pos rfl, bitAt, getLsbD_setBit _ _ _ _ (by decide), if_neg (by decide),
        rd_wr_other _ _ (by decide)]
      rfl
    simp only [applyRnkCtrl, he, hn, Bool.not_false, Bool.and_self, if_true, stat]
    simp
  have word : ∀ j, (applyRnkCtrl s nv).rd j = ((s.wr Reg.RNK_CTRL (setBit nv 1 false)).setBitR Reg.RNK_STAT 0 true).rd j :=
    fun j => by rw [start]; rfl
  refine ⟨?_, by rw [start], ?_, ?_, fun j hj => ?_⟩
  · rw [start]
    apply State.ext <;> simp
  · rw [word, rd_setBitR, if_neg (by decide), rd_wr_same]
  · rw [State.bit, word, rd_setBitR, if_pos rfl, bitAt, getLsbD_setBit _ _ _ _ (by decide), if_pos rfl]
  · obtain ⟨hc, hs⟩ : j ≠ Reg.RNK_CTRL ∧ j ≠ Reg.RNK_STAT := by simpa using hj
    rw [word, rd_setBitR, if_neg hs, rd_wr_other _ _ hc]

/-- A write that reached registers, proof and the ranking, as the answer leaves it. -/
theorem replied_ranking {s t : State} {acc : RegAcc} {off : Nat}
    (ht : t = { accessed s acc off with regs := t.regs, prf := t.prf, rnk := t.rnk }) :
    replied s acc t false 0 = { seen s acc off with regs := t.regs, prf := t.prf, rnk := t.rnk } := by
  rw [seen, ← replied_accessed]
  generalize t.regs = regs, t.prf = prf, t.rnk = rnk at ht ⊢
  subst ht
  unfold replied
  split
  · dsimp only [portAnswer, portShow]
    split <;> rfl
  · rfl

theorem and_three_eq_one {w : W32} (h0 : w.getLsbD 0 = true) (h1 : w.getLsbD 1 = false) : w &&& 3 = 1 := by
  have three : ∀ j < 32, (3 : W32).getLsbD j = decide (j < 2) := by decide
  have one : ∀ j < 32, (1 : W32).getLsbD j = decide (j = 0) := by decide
  apply BitVec.eq_of_getLsbD_eq
  intro j hj
  rw [BitVec.getLsbD_and, three j hj, one j hj]
  match j with
  | 0 => rw [h0]; rfl
  | 1 => rw [h1]; rfl
  | j + 2 => simp

theorem exec_rnkCtrlWrite (acc : RegAcc) (s : State) : exec (.rnkCtrlWrite acc) s = .next (regWrite s Reg.RNK_CTRL acc) := rfl

section
variable {s : State} {acc : RegAcc} (h : running s = true) (ha : Admits s acc) (hp : acc.priv = true) (hs : acc.sec = true)
include h ha hp hs

theorem regWrite_rnkCtrl : regWrite s Reg.RNK_CTRL acc = replied s acc
    (wordWritten (accessed s acc Reg.RNK_CTRL) Reg.RNK_CTRL rnkCtrlRow acc.data true true acc.src) false 0 :=
  regWrite_secure h ha hp hs (.inl (by decide)) (by decide) (by decide) (regRow_rnkCtrl _)

theorem gives_rnkCtrl_started (he : s.rnkEn = false) (hd : acc.data.getLsbD 0 = true) : Gives (.rnkCtrlWrite acc) s fun t =>
    t = { seen s acc Reg.RNK_CTRL with regs := t.regs, prf := t.prf,
                                        rnk := { s.rnk with rebuild := t.rnk.rebuild, loaded := [] } } ∧
    t.rd Reg.RNK_CTRL &&& 3 = 1 ∧ t.bit Reg.RNK_STAT 0 = true ∧
    t.rnk.rebuild = (acc.data.getLsbD 1 || s.bit Reg.RNK_STAT 1) ∧ RegsApart s t [Reg.RNK_CTRL, Reg.RNK_STAT] := by
  refine gives_intro (exec_rnkCtrlWrite acc s) ?_
  have off : (accessed s acc Reg.RNK_CTRL).rnkEn = false := (bit_accessed ..).trans he
  have word : ∀ j < 2, (rnkCtrlWord (accessed s acc Reg.RNK_CTRL) acc.data 0x3).getLsbD j = acc.data.getLsbD j := fun j hj => by
    have mask : ∀ j < 2, (0x3 : W32).getLsbD j = true := by decide
    rw [rnkCtrlWord, getLsbD_merge, mask j hj, if_pos rfl]
  rw [regWrite_rnkCtrl h ha hp hs, rnkCtrl_started off]
  generalize rnkCtrlWord (accessed s acc Reg.RNK_CTRL) acc.data 0x3 = nv at word
  obtain ⟨frame, rnk, ctrl, stat, apart⟩ := applyRnkCtrl_start off ((word 0 (by decide)).trans hd)
  generalize applyRnkCtrl (accessed s acc Reg.RNK_CTRL) nv = t at frame rnk ctrl stat apart ⊢
  have low : t.rd Reg.RNK_CTRL &&& 3 = 1 := by
    refine and_three_eq_one ?_ ?_ <;> rw [ctrl, getLsbD_setBit _ _ _ _ (by decide)]
    · exact (word 0 (by decide)).trans hd
    · rfl
  have ranking : (replied s acc t false 0).rnk =
      { s.rnk with rebuild := acc.data.getLsbD 1 || s.bit Reg.RNK_STAT 1, loaded := [] } := by
    rw [replied_frame, rnk, bitAt, word 1 (by decide), bit_accessed, accessed_frame]
  refine ⟨?_, (congrArg (· &&& 3) (rd_replied ..)).trans low, (bit_replied ..).trans stat, by rw [ranking],
    regsApart_replied apart⟩
  rw [ranking, replied_regs, replied_prf, replied_ranking frame, ← ranking, replied_frame]

theorem gives_rnkCtrl_kept (he : s.rnkEn = true) (hd : acc.data.getLsbD 0 = false) (hq : s.err.queue.length < 16) :
    Gives (.rnkCtrlWrite acc) s fun t => t.rnkEn = true ∧ Flagged s t 0 Reg.GLB_ERR 0 0 true ∧ t.tg = s.tg := by
  refine gives_intro (exec_rnkCtrlWrite acc s) ?_
  have on : (accessed s acc Reg.RNK_CTRL).rnkEn = true := (bit_accessed ..).trans he
  rw [regWrite_rnkCtrl h ha hp hs, rnkCtrl_kept on hd]
  obtain ⟨frame, flagged, -, -, apart⟩ := writeFlagged_flagPlans (s := accessed s acc Reg.RNK_CTRL)
    (p := ⟨Reg.RNK_CTRL, rnkCtrlRow, acc.data, 0x2, [0]⟩) (kind := 0) (by rwa [accessed_err]) (by simp) (by simp) (by decide)
    (show Reg.RNK_CTRL < 2 ^ 24 by decide) rfl acc.src
  generalize flagPlans acc.src _ _ = u at frame flagged apart ⊢
  have still : u.rnkEn = true := (congrArg (bitAt · 0) (apart Reg.RNK_CTRL (by decide))).trans on
  have kept : (rnkCtrlWord u acc.data 0x2).getLsbD 0 = true := by
    rw [rnkCtrlWord, getLsbD_merge, if_neg (by decide)]
    exact still
  have written : applyRnkCtrl u (rnkCtrlWord u acc.data 0x2) = u.wr Reg.RNK_CTRL (rnkCtrlWord u acc.data 0x2) := by
    simp [applyRnkCtrl, still]
  have flag : Flagged (accessed s acc Reg.RNK_CTRL) (u.wr Reg.RNK_CTRL (rnkCtrlWord u acc.data 0x2)) 0 Reg.GLB_ERR 0 0 true := by
    obtain ⟨set, queued⟩ := flagged
    exact ⟨(congrArg (bitAt · 0) (rd_wr_other _ _ (by decide))).trans set, (wr_err ..).trans queued⟩
  rw [written]
  refine ⟨(bit_replied ..).trans ((congrArg (bitAt · 0) (rd_wr_same ..)).trans kept), flagged_replied flag, ?_⟩
  rw [replied_frame]
  show (u.wr Reg.RNK_CTRL _).tg = s.tg
  rw [wr_tg, frame, accessed_frame]

end

end Sys2Proof.Machine
end

section
namespace Sys2Proof.Machine

/-! ### Words of 32 bits in host memory (00 R4) -/

/-- An address that is not listed reads as the default. -/
theorem Memory.read_of_forall_ne {m : List Host.Cell} {x : Nat} (h : ∀ c ∈ m, c.1 ≠ x) : Memory.read m x = memDefault := by
  induction m with
  | nil => rfl
  | cons c r ih =>
    obtain ⟨hc, hr⟩ := List.forall_mem_cons.1 h
    exact (if_neg hc).trans (ih hr)

/-- A word of which no byte is listed is 0. -/
theorem load32_of_forall_ne {s : State} {a : Nat} (h : ∀ k, k < 4 → ∀ c ∈ s.mem, c.1 ≠ haddr (a + k)) :
    s.load32 a = 0 := by
  have bytes : memLoad s.mem a 4 = 0 % 2 ^ (8 * 4) := memLoad_bytes fun k hk => by
    rw [Memory.read_of_forall_ne (h k hk), Nat.zero_shiftRight]
    rfl
  rw [State.load32, bytes]
  rfl

/-! ### The load of a summary table (07 R172) -/

theorem get_filter_map {α : Type} (d : α) (f : Nat → α) (p : Nat × α → Bool) (l : List Nat) (c : Nat) :
    Tbl.get d ((l.map fun k => (k, f k)).filter p) c = if c ∈ l ∧ p (c, f c) = true then f c else d := by
  induction l with
  | nil => simp
  | cons k r ih =>
    rw [List.map_cons, List.filter_cons]
    by_cases hk : c = k
    · subst hk
      by_cases hp : p (c, f c) = true
      · simp [hp, Tbl.get]
      · rw [if_neg hp, ih, if_neg fun h => hp h.2, if_neg fun h => hp h.2]
    · have rest : Tbl.get d (if p (k, f k) = true then (k, f k) :: (r.map fun k => (k, f k)).filter p
          else (r.map fun k => (k, f k)).filter p) c = Tbl.get d ((r.map fun k => (k, f k)).filter p) c := by
        split
        · exact if_neg (Ne.symm hk)
        · rfl
      rw [rest, ih]
      simp [hk]

/-- The entry of a word of target k's summary table. -/
def sumEntry (s : State) (k c : Nat) : Option Sum := Sum.ofWord (s.load32 (sumBase s k + 4 * c))

/-- The chunks of which target k's summary table has a nonzero byte. -/
def sumChunks (s : State) (k : Nat) : List Nat := usedChunks s.mem (sumBase s k) 2048 4

theorem mem_sumChunks {s : State} {k c : Nat} : c ∈ sumChunks s k ↔
    ∃ e ∈ s.mem, (sumBase s k ≤ e.1 ∧ e.1 < sumBase s k + 2048 * 4) ∧ (e.1 - sumBase s k) / 4 = c := by
  simp [sumChunks, usedChunks, and_assoc]

theorem sumEntry_unused {s : State} {k c : Nat} (hb : sumBase s k + 0x2000 ≤ 2 ^ 52) (hc : c < 2048) (hu : c ∉ sumChunks s k) :
    sumEntry s k c = some Sum.empty := by
  have zero : s.load32 (sumBase s k + 4 * c) = 0 := load32_of_forall_ne fun j hj e he h => by
    rw [haddr, Nat.mod_eq_of_lt (by omega)] at h
    exact hu (mem_sumChunks.2 ⟨e, he, by omega, by omega⟩)
  rw [sumEntry, zero]
  decide

section
variable {s : State} {k : Nat} (hr : s.rnk.rebuild = false)
include hr

/-- Without a bad word every word of the table has an entry. -/
theorem sumEntry_isSome (hw : badWords s [] k = []) {c : Nat} (hu : c ∈ sumChunks s k) : (sumEntry s k c).isSome = true := by
  have chunks : badChunks s k [] = (sumChunks s k).filter fun c => (sumEntry s k c).isNone := by simp [badChunks, hr]; rfl
  have small : c < 2048 := by
    obtain ⟨e, -, he, rfl⟩ := mem_sumChunks.1 hu
    omega
  by_contra none
  have bad : c ∈ badChunks s k [] := by
    rw [chunks, List.mem_filter]
    exact ⟨hu, by simpa using none⟩
  have listed : (k, c) ∈ badWords s [] k := by
    have some' : (badChunks s k []).isEmpty = false := by simpa using List.ne_nil_of_mem bad
    simp only [badWords, some', Bool.false_eq_true, if_false, List.mem_map, List.mem_filter, List.mem_range]
    exact ⟨c, ⟨small, by simpa using bad⟩, rfl⟩
  rw [hw] at listed
  exact absurd listed List.not_mem_nil

/-- The summary that a clean load gives a target without one. -/
theorem get_loadSum (hp : (s.tgt k).sumP = []) (hb : sumBase s k + 0x2000 ≤ 2 ^ 52) (hw : badWords s [] k = []) {c : Nat}
    (hc : c < 2048) : Tbl.get Sum.empty (loadSum s k []) c =
      let m := (sumEntry s k c).getD Sum.empty
      if m.v then m else Sum.empty := by
  have sums : loadSum s k [] =
      (((sumChunks s k).dedup.map fun c => (c, (sumEntry s k c).getD Sum.sweepAll)).filter fun e => e.2.v) := by
    simp [loadSum, hp, hr]
    rfl
  rw [sums]
  simp only [get_filter_map, List.mem_dedup]
  by_cases hu : c ∈ sumChunks s k
  · obtain ⟨m, hm⟩ := Option.isSome_iff_exists.1 (sumEntry_isSome hr hw hu)
    simp [hu, hm]
  · rw [if_neg fun h => hu h.1, sumEntry_unused hb hc hu]
    rfl

end

/-! ### LOAD_DONE (07 R172) -/

/-- s once the summary table of target k is read, its words all good. -/
def tableLoaded (s : State) (k : Nat) : State :=
  let m := loadSum s k []
  let s := if m.isEmpty && (s.tgt k).sumP.isEmpty then s else s.modTgt k fun x => { x with sumP := m }
  { s with rnk := { s.rnk with loaded := k :: s.rnk.loaded } }

section
variable {s : State} {k : Nat}

theorem loadTgt_clean (hf : s.coh.failed = []) (hw : badWords s [] k = []) : loadTgt [] s k = tableLoaded s k := by
  have bad : loadBad s [] k = [] := by simp [loadBad, hf]
  unfold loadTgt
  dsimp only
  rw [bad, hw]
  rfl

theorem tableLoaded_frame (s : State) (k : Nat) : tableLoaded s k =
    { s with tg := (tableLoaded s k).tg, rnk := { s.rnk with loaded := k :: s.rnk.loaded } } := by
  unfold tableLoaded
  dsimp only
  split <;> rfl

theorem sumP_tableLoaded (s : State) (k : Nat) : ((tableLoaded s k).tgt k).sumP = loadSum s k [] := by
  unfold tableLoaded
  dsimp only
  split
  next h =>
    obtain ⟨hm, hp⟩ : loadSum s k [] = [] ∧ (s.tgt k).sumP = [] := by simpa using h
    exact hp.trans hm.symm
  next => exact congrArg Tg.sumP (tgt_setTgt_same ..)

theorem tgt_tableLoaded_other (s : State) {k j : Nat} (h : j ≠ k) : (tableLoaded s k).tgt j = s.tgt j := by
  unfold tableLoaded
  dsimp only
  split
  · rfl
  · exact (tgt_setTgt ..).trans (if_neg h)

/-- What a table's load reads is not changed by the load of another. -/
theorem badWords_tableLoaded (s : State) (k j : Nat) : badWords (tableLoaded s k) [] j = badWords s [] j := by
  rw [tableLoaded_frame]
  rfl

theorem loadSum_tableLoaded (s : State) {k j : Nat} (h : j ≠ k) : loadSum (tableLoaded s k) j [] = loadSum s j [] := by
  have tgt := tgt_tableLoaded_other s h
  have frame := tableLoaded_frame s k
  generalize tableLoaded s k = t at tgt frame ⊢
  unfold loadSum
  rw [tgt, frame]
  rfl

end

/-- From s to t the summary tables of the targets of l have been read. -/
def TablesLoaded (s t : State) (l : List Nat) : Prop :=
  t = { s with tg := t.tg, rnk := { s.rnk with loaded := t.rnk.loaded } } ∧
  (∀ k, k ∈ t.rnk.loaded ↔ k ∈ l ∨ k ∈ s.rnk.loaded) ∧
  (∀ k ∈ l, (t.tgt k).sumP = loadSum s k []) ∧ ∀ j, j ∉ l → t.tgt j = s.tgt j

theorem tablesLoaded_foldl {s : State} {l : List Nat} (hn : l.Nodup) (hf : s.coh.failed = [])
    (hw : ∀ k ∈ l, badWords s [] k = []) : TablesLoaded s (l.foldl (loadTgt []) s) l := by
  induction l generalizing s with
  | nil => exact ⟨rfl, by simp, by simp, fun _ _ => rfl⟩
  | cons k r ih =>
    obtain ⟨hk, hr⟩ := List.nodup_cons.1 hn
    obtain ⟨wk, wr⟩ := List.forall_mem_cons.1 hw
    have first := tableLoaded_frame s k
    obtain ⟨frame, loaded, sums, others⟩ := ih (s := tableLoaded s k) hr (by rw [first]; exact hf)
      fun j hj => (badWords_tableLoaded s k j).trans (wr j hj)
    rw [List.foldl_cons, loadTgt_clean hf wk]
    generalize r.foldl (loadTgt []) (tableLoaded s k) = t at frame loaded sums others ⊢
    refine ⟨?_, fun j => ?_, List.forall_mem_cons.2 ⟨?_, fun j hj => ?_⟩, fun j hj => ?_⟩
    · rw [frame, first]
    · rw [loaded, first, List.mem_cons, List.mem_cons]
      tauto
    · rw [others k hk, sumP_tableLoaded]
    · rw [sums j hj, loadSum_tableLoaded s (ne_of_mem_of_not_mem hj hk)]
    · obtain ⟨hjk, hjr⟩ : j ≠ k ∧ j ∉ r := by simpa using hj
      rw [others j hjr, tgt_tableLoaded_other s hjk]

theorem mem_toLoad {s : State} {k : Nat} : k ∈ toLoad s ↔ k < s.par.targets ∧ k ∉ s.rnk.loaded := by simp [toLoad]

theorem nodup_toLoad (s : State) : (toLoad s).Nodup := List.nodup_range.filter _

theorem forget_clean {s : State} (h : s.coh.failed = []) (w : AccWho) : s.forget w = s := by
  have none : (s.coh.failed.filter fun e => decide (e.1 ≠ w)) = s.coh.failed := by rw [h]; rfl
  rw [State.forget, none]

/-- The load ends where no table is left. -/
theorem loadEnd_done {s : State} (h : toLoad s = []) (hr : s.rnk.rebuild = false) (hf : s.coh.failed = []) :
    let t := loadEnd s
    t = { s with regs := t.regs, rnk := { s.rnk with rebuild := false, loaded := [] } } ∧ t.tg = s.tg ∧
    t.bit Reg.RNK_STAT 0 = false := by
  have clean : (s.setBitR Reg.RNK_STAT 0 false).coh.failed = [] := by rw [setBitR_coh, hf]
  have ends : loadEnd s = { s.setBitR Reg.RNK_STAT 0 false with rnk := { s.rnk with rebuild := false, loaded := [] } } := by
    simp only [loadEnd, h, List.isEmpty_nil, if_true, setBitR_rnk, hr, Bool.false_eq_true, if_false, forget_clean clean]
  have prf : (s.setBitR Reg.RNK_STAT 0 false).prf = s.prf := wr_prf_unproofed _ _ (by decide)
  rw [ends]
  refine ⟨?_, setBitR_tg .., ?_⟩
  · apply State.ext <;> simp [prf]
  · show (s.setBitR Reg.RNK_STAT 0 false).bit Reg.RNK_STAT 0 = false
    rw [State.bit, rd_setBitR, if_pos rfl, bitAt, getLsbD_setBit _ _ _ _ (by decide), if_pos rfl]

theorem exists_other_of_ne_singleton {l : List Nat} {k : Nat} (hn : l.Nodup) (hk : k ∈ l) (h : l ≠ [k]) :
    ∃ j ∈ l, j ≠ k := by
  match l, hn, hk, h with
  | [j], _, hk, h => exact absurd (congrArg (fun i => [i]) (List.mem_singleton.1 hk).symm) h
  | i :: j :: r, hn, _, _ =>
    obtain ⟨hi, -⟩ := List.nodup_cons.1 hn
    by_cases e : i = k
    · exact ⟨j, by simp, fun hj => hi (by simp [e, hj])⟩
    · exact ⟨i, by simp, e⟩

section
variable {s : State} (h : running s = true) (hb : s.bit Reg.RNK_STAT 0 = true)
include h hb

theorem exec_loadDone_all : exec (.loadDone none []) s = .next (loadEnd ((toLoad s).foldl (loadTgt []) s)) := by
  show Host.Outcome.next (if engOn s 3 then loadDone s none [] else s) = _
  rw [if_pos (engOn_running h 3), loadDone, hb]
  rfl

theorem exec_loadDone_next {k : BitVec 7} (hn : nextLoad s k.toNat = true) :
    exec (.loadDone (some k) []) s = .next (loadEnd (loadTgt [] s k.toNat)) := by
  show Host.Outcome.next (if engOn s 3 then loadDone s (some k.toNat) [] else s) = _
  rw [if_pos (engOn_running h 3), loadDone, hb]
  exact congrArg Host.Outcome.next (if_pos hn)

variable (hf : s.coh.failed = [])
include hf

theorem gives_loadDone_all (hr : s.rnk.rebuild = false) (hw : ∀ k, k < s.par.targets → badWords s [] k = []) :
    Gives (.loadDone none []) s fun t =>
    t = { s with tg := t.tg, regs := t.regs, rnk := { s.rnk with rebuild := false, loaded := [] } } ∧
    t.bit Reg.RNK_STAT 0 = false ∧ ∀ k ∈ toLoad s, (t.tgt k).sumP = loadSum s k [] := by
  refine gives_intro (exec_loadDone_all h hb) ?_
  obtain ⟨frame, loaded, sums, -⟩ := tablesLoaded_foldl (nodup_toLoad s) hf fun k hk => hw k (mem_toLoad.1 hk).1
  generalize (toLoad s).foldl (loadTgt []) s = u at frame loaded sums ⊢
  have par : u.par = s.par := by rw [frame]
  have done : toLoad u = [] := List.eq_nil_iff_forall_not_mem.2 fun k hk => by
    obtain ⟨hlt, hnot⟩ := mem_toLoad.1 hk
    rw [loaded, mem_toLoad, not_or] at hnot
    exact hnot.1 ⟨par ▸ hlt, hnot.2⟩
  obtain ⟨ends, tg, stat⟩ := loadEnd_done done (by rw [frame]; exact hr) (by rw [frame]; exact hf)
  generalize loadEnd u = t at ends tg stat ⊢
  refine ⟨?_, stat, fun k hk => ?_⟩
  · rw [ends, frame]
  · rw [State.tgt, tg]
    exact sums k hk

theorem gives_loadDone_next {k : BitVec 7} (hn : nextLoad s k.toNat = true) (hl : toLoad s ≠ [k.toNat])
    (hw : badWords s [] k.toNat = []) : Gives (.loadDone (some k) []) s fun t =>
      t = { s with tg := t.tg, rnk := { s.rnk with loaded := k.toNat :: s.rnk.loaded } } ∧
      (t.tgt k.toNat).sumP = loadSum s k.toNat [] ∧ ∀ j, j ≠ k.toNat → t.tgt j = s.tgt j := by
  refine gives_intro (exec_loadDone_next h hb hn) ?_
  have frame := tableLoaded_frame s k.toNat
  have next : k.toNat ∈ toLoad s := List.mem_of_find?_eq_some (of_decide_eq_true hn)
  obtain ⟨j, hj, hjk⟩ := exists_other_of_ne_singleton (nodup_toLoad s) next hl
  have left : j ∈ toLoad (tableLoaded s k.toNat) := by
    obtain ⟨hlt, hnot⟩ := mem_toLoad.1 hj
    rw [mem_toLoad, frame]
    exact ⟨hlt, by simpa using ⟨hjk, hnot⟩⟩
  have goes : (toLoad (tableLoaded s k.toNat)).isEmpty = false := by simpa using List.ne_nil_of_mem left
  rw [loadTgt_clean hf hw, loadEnd, goes]
  exact ⟨frame, sumP_tableLoaded s k.toNat, fun i hi => tgt_tableLoaded_other s hi⟩

end

end Sys2Proof.Machine
end

section
namespace Sys2Proof.Machine

/-! ### A list of writes of 32 bits (00 R4) -/

section
variable {s : State} (hm : Memory.wf s.mem = true)
include hm

theorem load32_store32_same (a : Nat) (v : W32) : (s.store32 a v).load32 a = v := by
  have bytes : memLoad (memStore s.mem a 4 v.toNat) a 4 = v.toNat % 2 ^ (8 * 4) :=
    memLoad_bytes fun k hk => read_memStore_at hm (by decide) hk
  apply BitVec.eq_of_toNat_eq
  show (BitVec.ofNat 32 (memLoad (memStore s.mem a 4 v.toNat) a 4)).toNat = v.toNat
  rw [bytes, BitVec.toNat_ofNat]
  omega

theorem load32_store32_apart {a b : Nat} (h : BytesApart a 4 b 4) (v : W32) : (s.store32 a v).load32 b = s.load32 b := by
  have bytes : memLoad (memStore s.mem a 4 v.toNat) b 4 = memLoad s.mem b 4 :=
    memLoad_congr fun k hk => read_memStore_other hm fun j hj => (h j hj k hk).symm
  exact congrArg (BitVec.ofNat 32) bytes

end

/-- The writes of a list, each an address and a word of 32 bits. -/
def writeList32 (s : State) (l : List (Nat × W32)) : State := l.foldl (fun s w => s.store32 w.1 w.2) s

theorem writeList32_frame (s : State) (l : List (Nat × W32)) :
    writeList32 s l = { s with mem := (writeList32 s l).mem, coh := (writeList32 s l).coh } := by
  unfold writeList32
  induction l generalizing s with
  | nil => rfl
  | cons w l ih =>
    rw [List.foldl_cons, ih]
    rfl

section
variable {s : State} (hm : Memory.wf s.mem = true) {l : List (Nat × W32)}
include hm

theorem load32_writeList32_other {b : Nat} (hb : ∀ w ∈ l, BytesApart w.1 4 b 4) : (writeList32 s l).load32 b = s.load32 b := by
  unfold writeList32
  induction l generalizing s with
  | nil => rfl
  | cons w l ih =>
    obtain ⟨hw, hl⟩ := List.forall_mem_cons.1 hb
    rw [List.foldl_cons, ih (store32_wf s _ _ hm) hl, load32_store32_apart hm hw]

/-- Each of the words written, where they lie apart. -/
theorem load32_writeList32 (hp : l.Pairwise fun v w => BytesApart v.1 4 w.1 4) :
    ∀ w ∈ l, (writeList32 s l).load32 w.1 = w.2 := by
  induction l generalizing s with
  | nil => simp
  | cons w l ih =>
    obtain ⟨hw, hl⟩ := List.pairwise_cons.1 hp
    refine List.forall_mem_cons.2 ⟨?_, ih (store32_wf s _ _ hm) hl⟩
    exact (load32_writeList32_other (store32_wf s _ _ hm) fun v hv => (hw v hv).symm).trans (load32_store32_same hm ..)

end

/-! ### Tables without a key twice -/

section
variable {α : Type} {m : Tbl α}

theorem Tbl.find_eq_none_iff {i : Nat} : Tbl.find m i = none ↔ ∀ e ∈ m, e.1 ≠ i := by
  induction m with
  | nil => simp
  | cons e r ih =>
    obtain ⟨k, v⟩ := e
    rw [Tbl.find_cons, List.forall_mem_cons, ← ih]
    by_cases h : i = k
    · simp [h]
    · simp [h, Ne.symm h]

theorem Tbl.mem_of_find {i : Nat} {v : α} (h : Tbl.find m i = some v) : (i, v) ∈ m := by
  induction m with
  | nil => cases h
  | cons e r ih =>
    obtain ⟨k, w⟩ := e
    rw [Tbl.find_cons] at h
    split at h
    next hk =>
      cases h
      rw [hk]
      exact List.mem_cons_self
    next => exact List.mem_cons_of_mem _ (ih h)

variable (hn : Tbl.nodup m = true)
include hn

theorem Tbl.pairwise_of_nodup : m.Pairwise fun a b => a.1 ≠ b.1 := by
  induction m with
  | nil => exact .nil
  | cons e r ih =>
    obtain ⟨hf, hr⟩ : Tbl.find r e.1 = none ∧ Tbl.nodup r = true := by simpa [Tbl.nodup] using hn
    exact .cons (fun b hb => (Tbl.find_eq_none_iff.1 hf b hb).symm) (ih hr)

theorem Tbl.find_of_mem {e : Nat × α} (h : e ∈ m) : Tbl.find m e.1 = some e.2 := by
  induction m with
  | nil => cases h
  | cons p r ih =>
    obtain ⟨hf, hr⟩ : Tbl.find r p.1 = none ∧ Tbl.nodup r = true := by simpa [Tbl.nodup] using hn
    rw [Tbl.find_cons]
    rcases List.mem_cons.1 h with rfl | h
    · rw [if_pos rfl]
    · rw [if_neg (Tbl.find_eq_none_iff.1 hf e h), ih hr h]

end

/-! ### The summaries that a flush writes (07 R172) -/

/-- The live entries of every target, each with the place of its word. -/
def sumWords (s : State) (m : Tbl Tg) : List (Nat × W32) :=
  m.flatMap fun p => p.2.sumP.map fun e => (sumBase s p.1 + 4 * e.1, e.2.word)

/-- s with every word of the summary tables 0. -/
def sumsCleared (s : State) : State :=
  let lo := sumBase s 0
  let hi := sumBase s s.par.targets
  { s with mem := s.mem.filter fun c => !(decide (lo ≤ c.1) && decide (c.1 < hi)), coh := cohRun s.coh lo (hi - lo) }

theorem sumBase_congr {s t : State} (hp : t.par = s.par) (hr : t.regs = s.regs) (k : Nat) : sumBase t k = sumBase s k := by
  simp only [sumBase, State.rd64, State.rd, hp, hr]

/-- The words of one table, while the summary base stays. -/
theorem foldl_storeSum {s u : State} (hp : u.par = s.par) (hr : u.regs = s.regs) (k : Nat) (l : Tbl Sum) :
    l.foldl (fun s e => s.store32 (sumBase s k + 4 * e.1) e.2.word) u =
      writeList32 u (l.map fun e => (sumBase s k + 4 * e.1, e.2.word)) := by
  induction l generalizing u with
  | nil => rfl
  | cons e r ih =>
    rw [List.foldl_cons, sumBase_congr hp hr, ih ((store32_par ..).trans hp) ((store32_regs ..).trans hr)]
    rfl

theorem foldl_storeSums {s u : State} (hp : u.par = s.par) (hr : u.regs = s.regs) (m : Tbl Tg) :
    m.foldl (fun s p => p.2.sumP.foldl (fun s e => s.store32 (sumBase s p.1 + 4 * e.1) e.2.word) s) u =
      writeList32 u (sumWords s m) := by
  induction m generalizing u with
  | nil => rfl
  | cons p r ih =>
    have par (l : List (Nat × W32)) : (writeList32 u l).par = s.par := by rw [writeList32_frame, hp]
    have regs (l : List (Nat × W32)) : (writeList32 u l).regs = s.regs := by rw [writeList32_frame, hr]
    rw [List.foldl_cons, foldl_storeSum hp hr, ih (par _) (regs _)]
    exact List.foldl_append.symm

theorem writeSums_list (s : State) : writeSums s = writeList32 (sumsCleared s) (sumWords s s.tg) :=
  have par : (sumsCleared s).par = s.par := rfl
  have regs : (sumsCleared s).regs = s.regs := rfl
  foldl_storeSums par regs s.tg

theorem writeSums_frame (s : State) : writeSums s = { s with mem := (writeSums s).mem, coh := (writeSums s).coh } := by
  rw [writeSums_list, writeList32_frame]
  rfl

section
variable {s : State} (hb : sumBase s s.par.targets ≤ 2 ^ 52)
include hb

/-- Words of the summary tables of two targets, or of two chunks of one, lie apart. -/
theorem sumWords_apart {k j c d : Nat} (hk : k < s.par.targets) (hj : j < s.par.targets) (hc : c < 2048) (hd : d < 2048)
    (h : k ≠ j ∨ c ≠ d) : BytesApart (sumBase s k + 4 * c) 4 (sumBase s j + 4 * d) 4 := by
  unfold sumBase at hb ⊢
  refine Apart.bytesApart ⟨?_, ?_, ?_⟩ <;> omega

theorem load32_sumsCleared {k c : Nat} (hk : k < s.par.targets) (hc : c < 2048) :
    (sumsCleared s).load32 (sumBase s k + 4 * c) = 0 := by
  refine load32_of_forall_ne fun i hi e he h => ?_
  obtain ⟨-, out⟩ := List.mem_filter.1 he
  unfold sumBase at hb h out
  rw [haddr, Nat.mod_eq_of_lt (by omega)] at h
  simp only [Bool.not_eq_true', Bool.and_eq_false_iff, decide_eq_false_iff_not] at out
  omega

variable (hn : Tbl.nodup s.tg = true)
  (ha : ∀ e ∈ s.tg, e.1 < s.par.targets ∧ Tbl.nodup e.2.sumP = true ∧ ∀ c ∈ e.2.sumP, c.1 < 2048)
include hn ha

theorem pairwise_sumWords : (sumWords s s.tg).Pairwise fun v w => BytesApart v.1 4 w.1 4 := by
  unfold sumWords
  rw [List.pairwise_flatMap]
  refine ⟨fun p hp => ?_, (Tbl.pairwise_of_nodup hn).imp_of_mem fun {p q} hp hq h => ?_⟩
  · obtain ⟨hk, hs, hc⟩ := ha p hp
    rw [List.pairwise_map]
    exact (Tbl.pairwise_of_nodup hs).imp_of_mem fun {d e} hd he h => sumWords_apart hb hk hk (hc d hd) (hc e he) (.inr h)
  · obtain ⟨hk, -, hc⟩ := ha p hp
    obtain ⟨hj, -, hd⟩ := ha q hq
    simp only [List.forall_mem_map]
    exact fun c hcm d hdm => sumWords_apart hb hk hj (hc c hcm) (hd d hdm) (.inl h)

/-- A flush leaves each chunk's word: its live entry's, and 0 without one. -/
theorem load32_writeSums (hm : Memory.wf s.mem = true) {k c : Nat} (hk : k < s.par.targets) (hc : c < 2048) :
    (writeSums s).load32 (sumBase s k + 4 * c) = ((Tbl.find (s.tgt k).sumP c).map Sum.word).getD 0 := by
  have wf : Memory.wf (sumsCleared s).mem = true := Memory.filter_wf hm _
  rw [writeSums_list]
  cases hf : Tbl.find (s.tgt k).sumP c with
  | some v =>
    have entry : (k, s.tgt k) ∈ s.tg := by
      refine Tbl.mem_of_find ?_
      cases ht : Tbl.find s.tg k with
      | some x => rw [State.tgt, Tbl.get_eq_find, ht]; rfl
      | none =>
        rw [State.tgt, Tbl.get_eq_find, ht] at hf
        cases hf
    exact load32_writeList32 wf (pairwise_sumWords hb hn ha) (sumBase s k + 4 * c, v.word)
      (List.mem_flatMap.2 ⟨_, entry, List.mem_map.2 ⟨_, Tbl.mem_of_find hf, rfl⟩⟩)
  | none =>
    have other : ∀ w ∈ sumWords s s.tg, BytesApart w.1 4 (sumBase s k + 4 * c) 4 := by
      intro w hw
      obtain ⟨p, hp, hw⟩ := List.mem_flatMap.1 hw
      obtain ⟨e, he, rfl⟩ := List.mem_map.1 hw
      obtain ⟨hj, -, hd⟩ := ha p hp
      refine sumWords_apart hb hj hk (hd e he) hc ?_
      by_contra same
      obtain ⟨rfl, rfl⟩ : p.1 = k ∧ e.1 = c := by simpa [not_or] using same
      have tgt : s.tgt p.1 = p.2 := by rw [State.tgt, Tbl.get_eq_find, Tbl.find_of_mem hn hp]; rfl
      rw [tgt] at hf
      exact Tbl.find_eq_none_iff.1 hf e he rfl
    exact (load32_writeList32_other wf other).trans (load32_sumsCleared hb hk hc)

end

/-! ### FLUSH_DONE (07 R172) -/

theorem servedRun_eq {s t : State} (h : t.coh.missed = s.coh.missed ∨ s.coh.evb = []) : s.servedRun t = s.ran t := by
  rcases h with h | h <;> simp [State.servedRun, h]

/-- A run that touches no line leaves the coherent agent as it was. -/
theorem ran_coh {s t : State} (h : t.coh = s.coh) : (s.ran t).coh = s.coh := by simp [State.ran, h]

theorem treesFlushed_empty {s : State} (hp : pwrPhase s = 1 ∨ s.rst.phase = .w2) (he : treesEmpty s = true)
    (hs : prepPanels s = false) : treesFlushed s = (if s.rnkEn then writeSums s else s).setBitR Reg.RNK_STAT 2 true := by
  have due : (decide (pwrPhase s = 1) || decide (s.rst.phase = .w2)) = true := by simpa using hp
  simp [treesFlushed, due, he, hs]

theorem ran_frame {s t : State} (h : t = { s with mem := t.mem, coh := t.coh, regs := t.regs }) :
    s.ran t = { s with mem := (s.ran t).mem, coh := (s.ran t).coh, regs := (s.ran t).regs } :=
  congrArg (fun u : State => { u with coh := (s.ran t).coh }) h

/-- What a flush leaves apart from memory, the table cache and RNK_STAT.FLUSHED. -/
theorem treesFlushed_frame {s u : State} (hu : u = { s with mem := u.mem, coh := u.coh }) :
    let t := u.setBitR Reg.RNK_STAT 2 true
    t = { s with mem := t.mem, coh := t.coh, regs := t.regs } ∧ t.bit Reg.RNK_STAT 2 = true ∧ RegsApart s t [Reg.RNK_STAT] := by
  have prf : (u.setBitR Reg.RNK_STAT 2 true).prf = u.prf := wr_prf_unproofed _ _ (by decide)
  have frame : u.setBitR Reg.RNK_STAT 2 true = { u with regs := (u.setBitR Reg.RNK_STAT 2 true).regs } := by
    apply State.ext <;> simp [prf]
  refine ⟨?_, ?_, fun j hj => (regsApart_setBitR _ _ _ _ j hj).trans ?_⟩
  · rw [setBitR_mem, setBitR_coh, frame, hu]
  · rw [State.bit, rd_setBitR, if_pos rfl, bitAt, getLsbD_setBit _ _ _ _ (by decide), if_pos rfl]
  · rw [hu]
    rfl

theorem gives_flushDone {s : State} (hp : pwrPhase s = 1 ∨ s.rst.phase = .w2) (he : treesEmpty s = true)
    (hs : prepPanels s = false) (hv : s.rnkEn = false ∨ s.coh.evb = []) : Gives .flushDone s fun t =>
      t = { s with mem := t.mem, coh := t.coh, regs := t.regs } ∧ t.bit Reg.RNK_STAT 2 = true ∧
      RegsApart s t [Reg.RNK_STAT] ∧
      (s.rnkEn = false → t.mem = s.mem ∧ t.coh = s.coh) ∧ (s.rnkEn = true → t.mem = (writeSums s).mem) := by
  have row : exec .flushDone s = .next (s.servedRun (treesFlushed s)) := rfl
  rw [treesFlushed_empty hp he hs] at row
  cases hen : s.rnkEn with
  | false =>
    rw [hen, if_neg (by decide), servedRun_eq (.inl (by rw [setBitR_coh]))] at row
    obtain ⟨frame, flushed, apart⟩ := treesFlushed_frame (s := s) (u := s) rfl
    exact gives_intro row ⟨ran_frame frame, flushed, apart, fun _ => ⟨setBitR_mem .., ran_coh (setBitR_coh ..)⟩,
      fun h => absurd h (by decide)⟩
  | true =>
    have empty : s.coh.evb = [] := hv.resolve_left (by simp [hen])
    rw [hen, if_pos rfl, servedRun_eq (.inr empty)] at row
    obtain ⟨frame, flushed, apart⟩ := treesFlushed_frame (writeSums_frame s)
    exact gives_intro row ⟨ran_frame frame, flushed, apart, fun h => absurd h (by decide), fun _ => setBitR_mem ..⟩

end Sys2Proof.Machine
end

section
namespace Sys2Proof.Machine

/-! ### The statement of the spills, the flush and the load (07 R163 to R175) -/

theorem load32_congr {s t : State} (h : t.mem = s.mem) (a : Nat) : t.load32 a = s.load32 a :=
  congrArg (fun m => BitVec.ofNat 32 (memLoad m a 4)) h

/-- Settles O25: the pending bit and the live summary of a spill from the put of its bit, the flush by the list of words that
it writes, apart from each other, and the load by what each table's read leaves of the others. -/
theorem spillsFlushAndLoad : Obligations.SpillsFlushAndLoad := by
  unfold Obligations.SpillsFlushAndLoad
  refine ⟨?spill, ?flush, ?ctrl, ?load⟩
  case spill =>
    intro s l w rest h hl hs hv he hr hf hd
    exact ⟨polls_spillSetDone_made h hl hs hv he hr hf hd, polls_spillSetDone_failed h hl hs hv he hr hf hd⟩
  case flush =>
    intro s hp he hs hv
    refine gives_mono (gives_flushDone hp he hs hv) fun t ⟨frame, flushed, apart, off, on⟩ =>
      ⟨frame, flushed, apart, off, ?_⟩
    intro hen hm hn hb ha k c hk hc
    exact (load32_congr (on hen) _).trans (load32_writeSums hb hn ha hm hk hc)
  case ctrl =>
    intro s acc h hp hs ha
    exact ⟨fun he hd => gives_rnkCtrl_started h ha hp hs he hd, fun he hd hq => gives_rnkCtrl_kept h ha hp hs he hd hq⟩
  case load =>
    intro s h hb hr hf loaded
    refine ⟨fun hw => ?_, fun k hn hl hw => ?_⟩
    · refine gives_mono (gives_loadDone_all h hb hf hr hw) fun t ⟨frame, stat, sums⟩ =>
        ⟨frame, stat, fun k hk c hc hp hbase => ?_⟩
      rw [sums k hk]
      exact get_loadSum hr hp hbase (hw k (mem_toLoad.1 hk).1) hc
    · refine gives_mono (gives_loadDone_next h hb hf hn hl hw) fun t ⟨frame, sums, others⟩ =>
        ⟨frame, fun c hc hp hbase => ?_, others⟩
      rw [sums]
      exact get_loadSum hr hp hbase hw hc

end Sys2Proof.Machine
end

section
namespace Sys2Proof.Machine

/-! ### STK_COUNT (O7) -/

theorem count_of_countStands {c : Instr} {s t : State} (hc : countStands c = true) (h : exec c s = .next t) :
    t.count = s.count := by
  have hk : Kept (countStands c) s t := exec_kept c s t h
  rw [hc] at hk
  exact hk.count_eq

/-- Settles O7: a command that the statement does not name is one of those that keep the count. -/
theorem countMovesOnlyHere : Obligations.CountMovesOnlyHere := by
  unfold Obligations.CountMovesOnlyHere
  intro c s t h
  cases c with
  | strokeBoundary | coldReset | rstColdFall | warmQuiet | pwrRetAck | deepDomainRestore => trivial
  | _ => exact count_of_countStands rfl h

end Sys2Proof.Machine
end

section
namespace Sys2Proof.Machine

/-! ### The COMMIT that waits behind the boundary (O10)

A flit that finds another waiting stays behind it in the receive buffer, whatever its type (12 R285, R286); the buffers are
emptied at a boundary, once the queues have taken operations, and order 8 comes after that. -/

/-- A COMMIT of count 500, addressed to 0. -/
def waitingCommit : Flit :=
  wireFlit WPort.empty { ty := 0x05, dst := 0, pay := 500, src := 9, bc := false, hops := 0, port := none } 0

/-- The block out of reset, joining a system, with `waitingCommit` left in the receive buffer of port 0. -/
def commitWaits : State :=
  { State.reset with
    rst := { State.reset.rst with phase := .run }
    wft := { State.reset.wft with
      jst := .joining
      ports := [(0, { WPort.empty with st := .up, phy := true, nbr := 9, rxCred := 31, rxq := [{ flit := waitingCommit, mem := .good }] })] } }

theorem running_commitWaits : running commitWaits = true := by decide +kernel

/-- The boundary takes the COMMIT from the buffer, and loads its count. -/
theorem count_after_commitWaits : (strokeBoundary commitWaits false []).count = 500 := by decide +kernel

/-- Refutes O10: no common count is to be loaded at `commitWaits`, but the boundary itself takes the COMMIT that waits in the
receive buffer, and order 8 loads its count. -/
theorem not_strokeBoundaryCounts : ¬ Obligations.StrokeBoundaryCounts := by
  unfold Obligations.StrokeBoundaryCounts
  intro h
  obtain ⟨boundary, -⟩ := h
  obtain ⟨t, ht, hcount, -⟩ := boundary commitWaits false [] running_commitWaits rfl
  obtain rfl : strokeBoundary commitWaits false [] = t := Host.Outcome.next.inj ht
  rw [count_after_commitWaits] at hcount
  exact absurd hcount (by decide)

end Sys2Proof.Machine
end

section
namespace Sys2Proof.Machine

/-! ### Registers that an update leaves -/

section
variable {s t : State} {l m : List Nat}

theorem RegsApart.trans {u : State} (h : RegsApart s t l) (k : RegsApart t u m) : RegsApart s u (l ++ m) := by
  intro j hj
  rw [List.mem_append, not_or] at hj
  exact (k j hj.2).trans (h j hj.1)

theorem RegsApart.mono (h : RegsApart s t l) (hlm : ∀ j ∈ l, j ∈ m) : RegsApart s t m :=
  fun j hj => h j fun hl => hj (hlm j hl)

theorem RegsApart.rd64 {off : Nat} (h : RegsApart s t l) (hl : off ∉ l) (hh : off + 4 ∉ l) : t.rd64 off = s.rd64 off :=
  rd64_congr (h off hl) (h (off + 4) hh)

theorem RegsApart.fld {off : Nat} (h : RegsApart s t l) (hl : off ∉ l) (hi lo : Nat) : t.fld off hi lo = s.fld off hi lo :=
  congrArg (field · hi lo) (h off hl)

theorem RegsApart.bit {off : Nat} (h : RegsApart s t l) (hl : off ∉ l) (i : Nat) : t.bit off i = s.bit off i :=
  congrArg (bitAt · i) (h off hl)

theorem regsApart_wr64 (s : State) (off : Nat) (v : W64) : RegsApart s (s.wr64 off v) [off, off + 4] := by
  intro j hj
  obtain ⟨h0, h4⟩ : j ≠ off ∧ j ≠ off + 4 := by simpa using hj
  rw [rd_wr64, if_neg h4, if_neg h0]

theorem regsApart_cnt64 (s : State) (off n : Nat) : RegsApart s (s.cnt64 off n) [off, off + 4] := regsApart_wr64 s off _

theorem regsApart_setFld (s : State) (off hi lo v : Nat) : RegsApart s (s.setFld off hi lo v) [off] := by
  intro j hj
  rw [rd_setFld, if_neg (by simpa using hj)]

theorem RegsApart.modStk (h : RegsApart s t l) (f : Stk → Stk) : RegsApart s (modStk t f) l := h

theorem fld_setFld_same (s : State) (off : Nat) {hi lo v : Nat} (hh : hi < 32) (hl : lo ≤ hi) (hv : v < 2 ^ (hi + 1 - lo)) :
    (s.setFld off hi lo v).fld off hi lo = v := by
  rw [State.fld, rd_setFld, if_pos rfl, field_setField_same _ _ _ _ hh hl, Nat.mod_eq_of_lt hv]

theorem bit_setFld_other (s : State) (off : Nat) {hi lo v i : Nat} (hi' : i < 32) (h : i < lo ∨ hi < i) (hlo : lo ≤ hi):
    (s.setFld off hi lo v).bit off i = s.bit off i := by
  rw [State.bit, rd_setFld, if_pos rfl, bitAt, getLsbD_setField _ _ _ _ _ hi', if_neg (by omega)]
  rfl

end

/-! ### What P reads (08 R180) -/

/-- The words that give P, STK_STAT apart, of which it reads FAST alone. -/
def rateWords : List Nat :=
  [Reg.GLB_REFCNT_HZ, Reg.STK_FAST_MHZ, Reg.PWR_DVFS_STATUS] ++ (List.range 8).map fun p => Reg.PWR_OPP + 4 * p

theorem fAck_lt (s : State) : fAck s < 8 := Nat.mod_lt _ (by decide)

theorem periodNow_congr {s t : State} (hlen : t.stk.len = s.stk.len) (hfast : t.bit Reg.STK_STAT 14 = s.bit Reg.STK_STAT 14)
    (h : ∀ j ∈ rateWords, t.rd j = s.rd j) : periodNow t = periodNow s := by
  have hz : t.rd Reg.GLB_REFCNT_HZ = s.rd Reg.GLB_REFCNT_HZ := h _ (by decide)
  have mhz : t.fld Reg.STK_FAST_MHZ 8 0 = s.fld Reg.STK_FAST_MHZ 8 0 := congrArg (field · 8 0) (h _ (by decide))
  have ack : fAck t = fAck s := congrArg (field · 2 0) (h _ (by decide))
  have opp : oppMhz t (fAck s) = oppMhz s (fAck s) :=
    congrArg (field · 11 0) (h _ (List.mem_append_right _ (List.mem_map.2 ⟨fAck s, List.mem_range.2 (fAck_lt s), rfl⟩)))
  simp only [periodNow, fClk, hlen, hfast, hz, mhz, ack, opp]

/-- P does not change where no word that it reads does. -/
theorem RegsApart.periodNow {s t : State} {l : List Nat} (h : RegsApart s t l) (hlen : t.stk.len = s.stk.len)
    (hl : ∀ j ∈ Reg.STK_STAT :: rateWords, j ∉ l) : periodNow t = periodNow s :=
  periodNow_congr hlen (h.bit (hl _ List.mem_cons_self) 14) fun j hj => h j (hl j (List.mem_cons_of_mem _ hj))

/-! ### The origin of the schedule (08 R181, R182) -/

def originWords : List Nat :=
  [Reg.STK_ORIGIN_REF, Reg.STK_ORIGIN_REF + 4, Reg.STK_ORIGIN_CNT, Reg.STK_ORIGIN_CNT + 4]

def periodWords : List Nat := [Reg.STK_REF_PER, Reg.STK_REF_PER + 4]

theorem regsApart_showPeriod (s : State) : RegsApart s (showPeriod s) periodWords := regsApart_wr64 s _ _

/-- The origin is snapshot r at count n. -/
def OriginAt (t : State) (r : W64) (n : Stroke) : Prop :=
  t.rd64 Reg.STK_ORIGIN_REF = r ∧ t.rd64 Reg.STK_ORIGIN_CNT = n.zeroExtend 64

section
variable (s : State) (r : W64) (n : Stroke)

theorem OriginAt.apart {s t : State} {r : W64} {n : Stroke} {l : List Nat} (h : OriginAt s r n) (a : RegsApart s t l)
    (hl : ∀ j ∈ originWords, j ∉ l) : OriginAt t r n := by
  obtain ⟨href, hcnt⟩ := h
  exact ⟨(a.rd64 (hl _ (by decide)) (hl _ (by decide))).trans href, (a.rd64 (hl _ (by decide)) (hl _ (by decide))).trans hcnt⟩

@[simp] theorem originAt_modStk {s : State} {r : W64} {n : Stroke} (f : Stk → Stk) : OriginAt (modStk s f) r n ↔ OriginAt s r n :=
  Iff.rfl

@[simp] theorem setOrigin_stk : (setOrigin s r n).stk = s.stk := by simp [setOrigin]

theorem regsApart_setOrigin : RegsApart s (setOrigin s r n) originWords :=
  (regsApart_wr64 s _ _).trans (regsApart_wr64 _ _ _)

theorem originAt_setOrigin : OriginAt (setOrigin s r n) r n :=
  ⟨((regsApart_wr64 _ Reg.STK_ORIGIN_CNT _).rd64 (by decide) (by decide)).trans (rd64_wr64_same ..), rd64_wr64_same ..⟩

theorem periodNow_setOrigin : periodNow (setOrigin s r n) = periodNow s :=
  (regsApart_setOrigin s r n).periodNow (by simp) (by decide)

theorem reanchor_stk : (reanchor s r n).stk = { s.stk with per := periodNow s } := by
  simp [reanchor, modStk, showPeriod, periodNow_setOrigin]

theorem regsApart_reanchor : RegsApart s (reanchor s r n) (originWords ++ periodWords) :=
  ((regsApart_setOrigin s r n).trans (regsApart_showPeriod _)).modStk _

theorem originAt_reanchor : OriginAt (reanchor s r n) r n :=
  (originAt_setOrigin s r n).apart ((regsApart_showPeriod _).modStk _) (by decide)

end

/-! ### A lag decided (08 R185) -/

section
variable (s : State) (lag : Int)

theorem regsApart_showLag : RegsApart s (showLag s lag) [Reg.STK_STAT] := regsApart_setFld s _ _ _ _

/-- FAST and the other bits of STK_STAT stand. -/
theorem bit_showLag {i : Nat} (h : 11 < i) (hi : i < 32) : (showLag s lag).bit Reg.STK_STAT i = s.bit Reg.STK_STAT i :=
  bit_setFld_other _ _ hi (.inr h) (by decide)

theorem fld_showLag : (showLag s lag).fld Reg.STK_STAT 11 0 = min 4095 lag.toNat :=
  fld_setFld_same s _ (by decide) (by decide) (by omega)

/-- What a lag decides under the schedule in force. -/
def decided (s : State) (lag : Int) : Nat × Nat × Bool :=
  lagDecision lag s.stk.per s.stk.len (s.fld Reg.STK_CATCH 6 0) (s.fld Reg.STK_CATCH 27 16)

/-- The lag shown, and its decision noted for the next boundary. -/
def lagNoted (s : State) (lag : Int) : State :=
  modStk (showLag s lag) fun k => { k with dec := some ((decided s lag).1, (decided s lag).2.1) }

variable {s lag} (r : W64) (n : Stroke)

theorem decideLag_stays (h : (decided s lag).2.2 = false) : decideLag s lag r n = lagNoted s lag :=
  if_neg (by simpa [decided] using h)

theorem decideLag_slips (h : (decided s lag).2.2 = true) :
    decideLag s lag r n = (setOrigin (lagNoted s lag) r n).cnt64 Reg.STK_SLIP_CNT := if_pos h

theorem lagNoted_stk : (lagNoted s lag).stk = { s.stk with dec := some ((decided s lag).1, (decided s lag).2.1) } := by
  simp [lagNoted, modStk, showLag]

theorem regsApart_lagNoted : RegsApart s (lagNoted s lag) [Reg.STK_STAT] := (regsApart_showLag s lag).modStk _

theorem decideLag_stk : (decideLag s lag r n).stk = { s.stk with dec := some ((decided s lag).1, (decided s lag).2.1) } := by
  cases h : (decided s lag).2.2 with
  | true => rw [decideLag_slips r n h, cnt64_stk, setOrigin_stk, lagNoted_stk]
  | false => rw [decideLag_stays r n h, lagNoted_stk]

theorem fld_decideLag : (decideLag s lag r n).fld Reg.STK_STAT 11 0 = min 4095 lag.toNat := by
  cases h : (decided s lag).2.2 with
  | true =>
    rw [decideLag_slips r n h]
    exact (((regsApart_setOrigin _ r n).trans (regsApart_cnt64 _ Reg.STK_SLIP_CNT 1)).fld (by decide) 11 0).trans (fld_showLag s lag)
  | false =>
    rw [decideLag_stays r n h]
    exact fld_showLag s lag

/-- A slip moves the origin, and counts. -/
theorem decideLag_slip (h : (decided s lag).2.2 = true) : OriginAt (decideLag s lag r n) r n ∧
    (decideLag s lag r n).rd64 Reg.STK_SLIP_CNT = s.rd64 Reg.STK_SLIP_CNT + 1 := by
  rw [decideLag_slips r n h]
  refine ⟨(originAt_setOrigin _ r n).apart (regsApart_cnt64 _ Reg.STK_SLIP_CNT 1) (by decide), ?_⟩
  rw [State.cnt64, rd64_wr64_same]
  exact congrArg (· + 1) ((regsApart_lagNoted.trans (regsApart_setOrigin _ r n)).rd64 (by decide) (by decide))

end

/-! ### REF_SNAP_ACK (08 R181 to R183, R185) -/

section
variable (s : State) (f : Stk → Stk)

@[simp] theorem rd64_modStk (j : Nat) : (modStk s f).rd64 j = s.rd64 j := rfl
@[simp] theorem fld_modStk (j hi lo : Nat) : (modStk s f).fld j hi lo = s.fld j hi lo := rfl
@[simp] theorem bit_modStk (j i : Nat) : (modStk s f).bit j i = s.bit j i := rfl
@[simp] theorem stk_modStk : (modStk s f).stk = f s.stk := rfl

end

section
variable (s : State) (ref : W64)

/-- The snapshot of the TAG gives its low 32 bits (12 R288). -/
def tagNoted (s : State) (ref : W64) : State :=
  if s.stk.snapUse = .tag then { s with wft := { s.wft with tag := ref.truncate 32 } } else s

theorem tagNoted_frame : tagNoted s ref = { s with wft := (tagNoted s ref).wft } := by
  unfold tagNoted
  split <;> rfl

@[simp] theorem tagNoted_stk : (tagNoted s ref).stk = s.stk := by rw [tagNoted_frame]
@[simp] theorem tagNoted_regs : (tagNoted s ref).regs = s.regs := by rw [tagNoted_frame]

theorem regsApart_tagNoted : RegsApart s (tagNoted s ref) [] := fun j _ => by
  rw [tagNoted_frame]
  rfl

/-- The schedule starts again at a snapshot that lies below the previous one (R183). -/
def backAnchored (s : State) (ref : W64) : State :=
  modStk (reanchor (showLag (stkErr (tagNoted s ref) 0) 0) ref s.stk.snapAt) fun k => { k with dec := some (0, 0) }

/-- The previous snapshot of the next one. -/
def refNoted (s : State) (ref : W64) : State := modStk s fun k => { k with lastRef := some ref }

variable {s ref}

theorem snapTaken_illegal (hl : refLegal s = false) : snapTaken s ref = refNoted (tagNoted s ref) ref := by
  have hl' : refLegal (tagNoted s ref) = false := by rw [tagNoted_frame]; exact hl
  unfold snapTaken
  exact congrArg (refNoted · ref) (if_pos (by rw [Bool.not_eq_true']; exact hl'))

theorem snapTaken_back (hl : refLegal s = true) (hb : refBack s ref = true) :
    snapTaken s ref = refNoted (backAnchored s ref) ref := by
  have hl' : refLegal (tagNoted s ref) = true := by rw [tagNoted_frame]; exact hl
  have hb' : refBack (tagNoted s ref) ref = true := by rw [tagNoted_frame]; exact hb
  unfold snapTaken
  exact congrArg (refNoted · ref) ((if_neg (by rw [Bool.not_eq_true', Bool.not_eq_false]; exact hl')).trans (if_pos hb'))

theorem snapTaken_anchor (hl : refLegal s = true) (hb : refBack s ref = false) (hu : s.stk.snapUse = .anchor ∨ s.stk.snapUse = .load) :
    snapTaken s ref = refNoted (reanchor s ref s.stk.snapAt) ref := by
  rcases hu with hu | hu <;> simp [snapTaken, refNoted, hl, hb, hu]

theorem snapTaken_measure (hl : refLegal s = true) (hb : refBack s ref = false) (hu : s.stk.snapUse = .measure) :
    snapTaken s ref = refNoted (measure s ref) ref := by
  simp [snapTaken, refNoted, hl, hb, hu]

theorem snapTaken_tag (hl : refLegal s = true) (hb : refBack s ref = false) (hu : s.stk.snapUse = .tag) :
    snapTaken s ref = refNoted (tagNoted s ref) ref := by
  have hl' : refLegal (tagNoted s ref) = true := by rw [tagNoted_frame]; exact hl
  have hb' : refBack (tagNoted s ref) ref = false := by rw [tagNoted_frame]; exact hb
  simp only [tagNoted, hu, if_true] at hl' hb'
  simp [snapTaken, refNoted, tagNoted, hu, hl', hb']

/-! #### REFCNT has gone backward -/

theorem backAnchored_wft : (backAnchored s ref).wft = (tagNoted s ref).wft := by
  simp [backAnchored, reanchor, setOrigin, showPeriod, showLag, stkErr, modStk]

theorem originAt_backAnchored : OriginAt (backAnchored s ref) ref s.stk.snapAt := by
  rw [backAnchored, originAt_modStk]
  exact originAt_reanchor _ _ _

theorem rd_shownBack {j : Nat} (hj : j < 0x100000) (hn : j ∉ occWords) (he : j ≠ Reg.STK_ERR) (hs : j ≠ Reg.STK_STAT) :
    (showLag (stkErr (tagNoted s ref) 0) 0).rd j = s.rd j := by
  rw [regsApart_showLag _ _ _ (by simpa using hs), stkErr, rd_setFlag_other _ _ _ _ hj hn he,
    regsApart_tagNoted s ref j List.not_mem_nil]

theorem bit_backAnchored : (backAnchored s ref).bit Reg.STK_ERR 0 = true := by
  have kept : RegsApart (stkErr (tagNoted s ref) 0) (backAnchored s ref) ([Reg.STK_STAT] ++ (originWords ++ periodWords)) :=
    ((regsApart_showLag _ _).trans (regsApart_reanchor _ _ _)).modStk _
  exact (kept.bit (by decide) 0).trans (bit_setFlag _ _ _ _ (by decide) (by decide) (by decide))

theorem backAnchored_stk : (backAnchored s ref).stk = { s.stk with per := periodNow s, dec := some (0, 0) } := by
  have fast : (showLag (stkErr (tagNoted s ref) 0) 0).bit Reg.STK_STAT 14 = s.bit Reg.STK_STAT 14 := by
    have err : (stkErr (tagNoted s ref) 0).rd Reg.STK_STAT = (tagNoted s ref).rd Reg.STK_STAT :=
      rd_setFlag_other _ _ _ _ (by decide) (by decide) (by decide)
    rw [bit_showLag _ _ (by decide) (by decide), State.bit, err, regsApart_tagNoted s ref _ List.not_mem_nil]
    rfl
  have per : periodNow (showLag (stkErr (tagNoted s ref) 0) 0) = periodNow s := by
    refine periodNow_congr (by simp [showLag, stkErr]) fast fun j hj => ?_
    have hj' : j < 0x100000 ∧ j ∉ occWords ∧ j ≠ Reg.STK_ERR ∧ j ≠ Reg.STK_STAT := by
      revert j; decide
    obtain ⟨h1, h2, h3, h4⟩ := hj'
    exact rd_shownBack h1 h2 h3 h4
  rw [backAnchored, stk_modStk, reanchor_stk, per]
  simp [showLag, stkErr]

/-! #### A measurement (R181, R182, R185) -/

/-- The lag of the snapshot under the P in force. -/
def lagOf (s : State) (ref : W64) : Int := lagAt s s.stk.per ref s.stk.snapAt

/-- P having changed, the origin moves to the snapshot and the count that the lag corrects. -/
def remeasured (s : State) (ref : W64) : State :=
  if periodNow s = s.stk.per then s else reanchor s ref (s.stk.snapAt + BitVec.ofInt 48 (lagOf s ref))

theorem measure_fast (hf : s.bit Reg.STK_STAT 14 = true) : measure s ref = s := if_pos hf

theorem measure_main (hf : s.bit Reg.STK_STAT 14 = false) :
    measure s ref = decideLag (remeasured s ref) (lagOf s ref) ref s.stk.snapAt := if_neg (by simp [hf])

theorem remeasured_stk : (remeasured s ref).stk = { s.stk with per := periodNow s } := by
  unfold remeasured
  split
  next h => rw [h]
  next => rw [reanchor_stk]

theorem regsApart_remeasured : RegsApart s (remeasured s ref) (originWords ++ periodWords) := by
  unfold remeasured
  split
  · exact fun _ _ => rfl
  · exact regsApart_reanchor s ref _

/-- What the measured lag decides, under the P that now stands. -/
theorem decided_remeasured (lag : Int) : decided (remeasured s ref) lag =
    lagDecision lag (periodNow s) s.stk.len (s.fld Reg.STK_CATCH 6 0) (s.fld Reg.STK_CATCH 27 16) := by
  rw [decided, remeasured_stk, regsApart_remeasured.fld (by decide), regsApart_remeasured.fld (by decide)]

/-- Without a slip the origin is that of the measurement. -/
theorem regsApart_measure_stays (hf : s.bit Reg.STK_STAT 14 = false) (h : (decided (remeasured s ref) (lagOf s ref)).2.2 = false) :
    RegsApart (remeasured s ref) (measure s ref) [Reg.STK_STAT] := by
  rw [measure_main hf, decideLag_stays _ _ h]
  exact regsApart_lagNoted

end

/-! #### SnapshotHandshake -/

section
variable {s : State} (ref : W64)

/-- The acknowledge has risen, and the request fallen. -/
def acknowledged (s : State) : State := modStk s fun k => { k with snap := { req := false, ack := true } }

theorem refSnapAck_taken (hreq : s.stk.snap.req = true) (hack : s.stk.snap.ack = false) :
    refSnapAck s ref = acknowledged (snapTaken s ref) := if_pos (by simp [hreq, hack])

theorem snapTaken_count : (snapTaken s ref).count = s.count := (Kept.snapTaken (.refl : Kept true s s)).count_eq

theorem taken_lastRef : (snapTaken s ref).stk.lastRef = some ref := rfl

variable {ref}

theorem taken_tag (hu : s.stk.snapUse = .tag) : (snapTaken s ref).wft.tag = ref.truncate 32 ∧
    (refLegal s = false ∨ refBack s ref = false → (snapTaken s ref).regs = s.regs) := by
  have tag : (tagNoted s ref).wft.tag = ref.truncate 32 := by rw [tagNoted, if_pos hu]
  cases hl : refLegal s with
  | false =>
    rw [snapTaken_illegal hl, refNoted, modStk_wft, modStk_regs]
    exact ⟨tag, fun _ => tagNoted_regs s ref⟩
  | true =>
    cases hb : refBack s ref with
    | true =>
      rw [snapTaken_back hl hb, refNoted, modStk_wft, backAnchored_wft]
      exact ⟨tag, fun h => h.elim nofun nofun⟩
    | false =>
      rw [snapTaken_tag hl hb hu, refNoted, modStk_wft, modStk_regs]
      exact ⟨tag, fun _ => tagNoted_regs s ref⟩

theorem taken_back (hl : refLegal s = true) (hb : refBack s ref = true) : (snapTaken s ref).bit Reg.STK_ERR 0 = true ∧
    (snapTaken s ref).stk.dec = some (0, 0) ∧ OriginAt (snapTaken s ref) ref s.stk.snapAt := by
  rw [snapTaken_back hl hb, refNoted, bit_modStk, stk_modStk, backAnchored_stk, originAt_modStk]
  exact ⟨bit_backAnchored, rfl, originAt_backAnchored⟩

theorem taken_anchor (hl : refLegal s = true) (hu : s.stk.snapUse = .anchor ∨ s.stk.snapUse = .load) :
    OriginAt (snapTaken s ref) ref s.stk.snapAt ∧ (snapTaken s ref).stk.per = periodNow s := by
  cases hb : refBack s ref with
  | true =>
    rw [snapTaken_back hl hb, refNoted, originAt_modStk, stk_modStk, backAnchored_stk]
    exact ⟨originAt_backAnchored, rfl⟩
  | false =>
    rw [snapTaken_anchor hl hb hu, refNoted, originAt_modStk, stk_modStk, reanchor_stk]
    exact ⟨originAt_reanchor _ _ _, rfl⟩

section
variable (hl : refLegal s = true) (hb : refBack s ref = false) (hu : s.stk.snapUse = .measure)
include hl hb hu

theorem taken_fast (hf : s.bit Reg.STK_STAT 14 = true) :
    (snapTaken s ref).regs = s.regs ∧ (snapTaken s ref).stk.dec = s.stk.dec := by
  rw [snapTaken_measure hl hb hu, measure_fast hf]
  exact ⟨rfl, rfl⟩

variable (hf : s.bit Reg.STK_STAT 14 = false)
include hf

theorem taken_measure : (snapTaken s ref).fld Reg.STK_STAT 11 0 = min 4095 (lagOf s ref).toNat ∧
    (snapTaken s ref).stk.per = periodNow s ∧ (snapTaken s ref).stk.dec =
      some ((decided (remeasured s ref) (lagOf s ref)).1, (decided (remeasured s ref) (lagOf s ref)).2.1) := by
  rw [snapTaken_measure hl hb hu, measure_main hf, refNoted, fld_modStk, stk_modStk, decideLag_stk, remeasured_stk]
  exact ⟨fld_decideLag _ _, rfl, rfl⟩

theorem taken_slip (hd : (decided (remeasured s ref) (lagOf s ref)).2.2 = true) :
    OriginAt (snapTaken s ref) ref s.stk.snapAt ∧
      (snapTaken s ref).rd64 Reg.STK_SLIP_CNT = s.rd64 Reg.STK_SLIP_CNT + 1 := by
  rw [snapTaken_measure hl hb hu, measure_main hf, refNoted, originAt_modStk, rd64_modStk]
  obtain ⟨origin, slips⟩ := decideLag_slip (n := s.stk.snapAt) ref hd
  exact ⟨origin, slips.trans (congrArg (· + 1) (regsApart_remeasured.rd64 (by decide) (by decide)))⟩

theorem taken_stays (hd : (decided (remeasured s ref) (lagOf s ref)).2.2 = false) :
    (snapTaken s ref).rd64 Reg.STK_SLIP_CNT = s.rd64 Reg.STK_SLIP_CNT ∧
    (periodNow s = s.stk.per → (snapTaken s ref).rd64 Reg.STK_ORIGIN_REF = s.rd64 Reg.STK_ORIGIN_REF ∧
      (snapTaken s ref).rd64 Reg.STK_ORIGIN_CNT = s.rd64 Reg.STK_ORIGIN_CNT) ∧
    (periodNow s ≠ s.stk.per →
      OriginAt (snapTaken s ref) ref (s.stk.snapAt + BitVec.ofInt 48 (lagOf s ref))) := by
  have kept : RegsApart (remeasured s ref) (snapTaken s ref) [Reg.STK_STAT] := by
    rw [snapTaken_measure hl hb hu]
    exact (regsApart_measure_stays hf hd).modStk _
  refine ⟨?_, fun hp => ?_, fun hp => ?_⟩
  · exact (kept.rd64 (by decide) (by decide)).trans (regsApart_remeasured.rd64 (by decide) (by decide))
  · rw [remeasured, if_pos hp] at kept
    exact ⟨kept.rd64 (by decide) (by decide), kept.rd64 (by decide) (by decide)⟩
  · rw [remeasured, if_neg hp] at kept
    exact (originAt_reanchor _ _ _).apart kept (by decide)

end

end

theorem gives_refcntSnapshot {s : State} {u : SnapUse} (hd : s.stk.snapDue = some u) (hreq : s.stk.snap.req = false)
    (hack : s.stk.snap.ack = false) (hl : refLegal s = true) :
    Gives .refcntSnapshot s fun t => t = { s with stk := t.stk } ∧
      t.stk = { s.stk with snapDue := none, snap := t.stk.snap, snapUse := u, snapAt := s.count } ∧
      t.stk.snap.req = true ∧ t.stk.snap.ack = false := by
  refine gives_intro rfl ?_
  simp [snapshot, hd, hreq, hack, hl, modStk]

theorem gives_refSnapAckFall {s : State} (hreq : s.stk.snap.req = false) :
    Gives .refSnapAckFall s (· = { s with stk := { s.stk with snap := { req := false, ack := false } } }) :=
  gives_intro rfl (if_neg (by simp [hreq]))

/-- Settles O12, by the use of the snapshot: each gives `snapTaken` a form of its own. -/
theorem snapshotHandshake : Obligations.SnapshotHandshake := by
  unfold Obligations.SnapshotHandshake
  refine ⟨fun s u hd hreq hack hl => gives_refcntSnapshot hd hreq hack hl, fun s ref hreq hack => ?_,
    fun s hreq => gives_refSnapAckFall hreq⟩
  refine ⟨acknowledged (snapTaken s ref), congrArg _ (refSnapAck_taken ref hreq hack), ?_⟩
  simp only [acknowledged, modStk_wft, modStk_regs, modStk_count, stk_modStk, rd64_modStk, fld_modStk, bit_modStk]
  refine ⟨trivial, trivial, taken_lastRef ref, snapTaken_count ref, taken_tag, taken_back, fun hl hu => ?_, fun hl hb hu hf => ?_,
    taken_fast⟩
  · obtain ⟨⟨href, hcnt⟩, per⟩ := taken_anchor hl hu
    exact ⟨href, hcnt, per⟩
  · obtain ⟨shown, per, dec⟩ := taken_measure hl hb hu hf
    have slip := taken_slip hl hb hu hf
    have stays := taken_stays hl hb hu hf
    rw [decided_remeasured] at dec slip stays
    exact ⟨dec, shown, per, fun hd => and_assoc.1 (slip hd), stays⟩

end Sys2Proof.Machine
end

section
namespace Sys2Proof.Machine

/-! ### The lag and its decision (08 R180, R181, R185) -/

theorem lagAt_eq (s : State) (per : Nat) (r : W64) (n : Stroke) : lagAt s per r n =
    (BitVec.ofNat 48 ((s.rd64 Reg.STK_ORIGIN_CNT).toNat + (r - s.rd64 Reg.STK_ORIGIN_REF).toNat * 2 ^ 32 / per) - n).toInt := by
  rw [BitVec.ofNat_add, BitVec.ofNat_toNat]
  rfl

section
variable (per len cat jump : Nat)

/-- A lead decides normal strokes, or a slip where it is beyond the margin. -/
theorem lagDecision_lead {lag : Int} (h : lag ≤ 0) : lagDecision lag per len cat jump =
    (0, 0, decide (((2 ^ 32 + per - 1) / per + 1 : Nat) < -lag)) := by
  rcases h.lt_or_eq with h | rfl
  · exact if_pos h
  · have margin : ¬ ((((2 ^ 32 + per - 1) / per + 1 : Nat) : Int) < -0) := not_lt.2 (Int.natCast_nonneg _)
    rw [decide_eq_false margin]
    rfl

variable {len cat jump}

theorem lagDecision_catchUp {lag : Nat} (h : 0 < lag) (hj : lag ≤ jump) (hc : cat < len) :
    lagDecision lag per len cat jump = (catchUpN lag len cat, 0, false) := by
  have h0 : ¬ ((lag : Int) < 0) := by omega
  rw [lagDecision, if_neg h0, Int.toNat_natCast, if_neg h.ne', if_pos ⟨hj, hc⟩]

theorem lagDecision_jump {lag : Nat} (h : 0 < lag) (hj : jump < lag ∨ len ≤ cat) :
    lagDecision lag per len cat jump = (0, lag, false) := by
  have h0 : ¬ ((lag : Int) < 0) := by omega
  rw [lagDecision, if_neg h0, Int.toNat_natCast, if_neg h.ne', if_neg (by omega)]

/-- N strokes of catch-up are the fewest that make up the lag. -/
theorem catchUpN_least {lag : Nat} (h : 0 < lag) (hc : cat < len) :
    lag * len ≤ catchUpN lag len cat * (len - cat) ∧ (catchUpN lag len cat - 1) * (len - cat) < lag * len := by
  have gain : 0 < len - cat := by omega
  have need : 0 < lag * len := Nat.mul_pos h (by omega)
  unfold catchUpN
  generalize lag * len = w at need ⊢
  generalize len - cat = g at gain ⊢
  have whole : (w + g - 1) / g * g + (w + g - 1) % g = w + g - 1 := Nat.div_add_mod' _ _
  have part : (w + g - 1) % g < g := Nat.mod_lt _ gain
  rw [Nat.sub_mul]
  omega

end

/-! ### Order 2 of a boundary (08 R178, R185, R186) -/

section
variable (s : State) (held : Bool)

/-- The stroke that ends was held, or lasted while a frequency request was outstanding (R184). -/
def strokeLate : Bool := (held && s.stk.freqOut) || s.stk.held

def lateCounted : State := if strokeLate s held then s.cnt64 Reg.STK_LATE_CNT else s

/-- What a decided lag adds to the count. -/
def jumpOf : Nat := (s.stk.dec.map (·.2)).getD 0

/-- The catch-up strokes that are still to run. -/
def catchLeft : Nat := (s.stk.dec.map (·.1)).getD s.stk.catchN

theorem cnt64_frame (off n : Nat) : s.cnt64 off n = { s with regs := (s.cnt64 off n).regs, prf := (s.cnt64 off n).prf } := by
  apply State.ext <;> simp

theorem lateCounted_frame :
    lateCounted s held = { s with regs := (lateCounted s held).regs, prf := (lateCounted s held).prf } := by
  unfold lateCounted
  split
  · exact cnt64_frame s _ _
  · rfl

theorem regsApart_lateCounted : RegsApart s (lateCounted s held) [Reg.STK_LATE_CNT, Reg.STK_LATE_CNT + 4] := by
  unfold lateCounted
  split
  · exact regsApart_cnt64 s _ _
  · exact fun _ _ => rfl

theorem lateCounted_late : (lateCounted s held).rd64 Reg.STK_LATE_CNT =
    s.rd64 Reg.STK_LATE_CNT + (if (held && s.stk.freqOut || s.stk.held) = true then 1 else 0) := by
  unfold lateCounted strokeLate
  split
  · rw [State.cnt64, rd64_wr64_same]
    rfl
  · exact (BitVec.add_zero _).symm

theorem countAdvance_count : (countAdvance s).1.count = s.count + 1 + BitVec.ofNat 48 (jumpOf s) := by
  unfold countAdvance jumpOf
  split
  next h => simp [h]
  next n j h =>
    split
    next hj => simp [h, hj]
    next => simp [h]

theorem countAdvance_stk : (countAdvance s).1.stk = { s.stk with dec := none, catchN := catchLeft s } := by
  unfold countAdvance catchLeft
  split
  next h =>
    have left : (s.stk.dec.map (·.1)).getD s.stk.catchN = s.stk.catchN := by rw [h]; rfl
    rw [left, ← h]
  next n j h =>
    split <;> simp [h, modStk]

theorem countAdvance_frame : (countAdvance s).1 = { s with
    count := (countAdvance s).1.count, stk := (countAdvance s).1.stk, regs := (countAdvance s).1.regs,
    prf := (countAdvance s).1.prf } := by
  unfold countAdvance
  split
  · rfl
  · split
    · rfl
    · apply State.ext <;> simp

theorem countAdvance_jumps : (countAdvance s).2 = decide (jumpOf s ≠ 0) := by
  unfold countAdvance jumpOf
  split
  next h => simp [h]
  next n j h => split <;> simp [*]

theorem regsApart_countAdvance : RegsApart s (countAdvance s).1 [Reg.STK_JUMP_CNT, Reg.STK_JUMP_CNT + 4] := by
  unfold countAdvance
  split
  · exact fun _ _ => rfl
  · split
    · exact fun _ _ => rfl
    · exact regsApart_cnt64 { modStk s _ with count := _ } _ _

theorem countAdvance_jump : (countAdvance s).1.rd64 Reg.STK_JUMP_CNT = s.rd64 Reg.STK_JUMP_CNT + BitVec.ofNat 64 (jumpOf s) := by
  unfold countAdvance jumpOf
  split
  next h => simp [h]; rfl
  next n j h =>
    split
    next hj => simp [h, hj]; rfl
    next => 
      simp only [h, State.cnt64, rd64_wr64_same]
      rfl


end

/-! ### The stroke that begins (08 R178, R193) -/

section
variable (s : State)

/-- An Anchor drops what is left of a stretch. -/
def unstretched (s : State) : State := if isAnchor s then modStk s fun k => { k with stretchN := 0 } else s

theorem unstretched_frame : unstretched s = { s with stk := { s.stk with
    stretchN := if isAnchor s = true then 0 else s.stk.stretchN } } := by
  unfold unstretched modStk
  split <;> rfl

variable {s}

theorem nextStroke_fast : nextStroke s true =
    modStk (unstretched s) fun k => { k with kind := .fast, cur := k.fastLen } := rfl

theorem nextStroke_stretch (h : (unstretched s).stk.stretchN ≠ 0) : nextStroke s false =
    modStk (unstretched s) fun k => { k with kind := .stretch, cur := k.len + 8, stretchN := k.stretchN - 1 } := if_pos h

theorem nextStroke_catchUp (h : (unstretched s).stk.stretchN = 0) (hc : (unstretched s).stk.catchN ≠ 0) : nextStroke s false =
    (modStk (unstretched s) fun k => { k with
      kind := .catchUp, cur := (unstretched s).fld Reg.STK_CATCH 6 0, catchN := k.catchN - 1 }).cnt64 Reg.STK_CATCH_CNT :=
  (if_neg (not_not.2 h)).trans (if_pos hc)

theorem nextStroke_normal (h : (unstretched s).stk.stretchN = 0) (hc : (unstretched s).stk.catchN = 0) : nextStroke s false =
    modStk (unstretched s) fun k => { k with kind := .normal, cur := k.len } :=
  (if_neg (not_not.2 h)).trans (if_neg (not_not.2 hc))

/-- Kind and length of a stroke, and what is then left of a stretch and of a catch-up. -/
def strokeKind (k : Stk) : StrokeKind × Nat × Nat × Nat := (k.kind, k.cur, k.stretchN, k.catchN)

/-- What R178 and R193 give the stroke that begins. -/
def nextKind (s : State) (fast : Bool) : StrokeKind × Nat × Nat × Nat :=
  let stretch := if isAnchor s = true then 0 else s.stk.stretchN
  if fast then (.fast, s.stk.fastLen, stretch, s.stk.catchN)
  else if stretch ≠ 0 then (.stretch, s.stk.len + 8, stretch - 1, s.stk.catchN)
  else if s.stk.catchN ≠ 0 then (.catchUp, s.fld Reg.STK_CATCH 6 0, 0, s.stk.catchN - 1)
  else (.normal, s.stk.len, 0, 0)

/-- In t the stroke k has begun, and c more strokes of catch-up have been counted than in s. -/
def Begins (s t : State) (k : StrokeKind × Nat × Nat × Nat) (c : W64) : Prop :=
  t = { s with stk := t.stk, regs := t.regs, prf := t.prf } ∧
  t.stk = { s.stk with kind := k.1, cur := k.2.1, stretchN := k.2.2.1, catchN := k.2.2.2 } ∧
  RegsApart s t [Reg.STK_CATCH_CNT, Reg.STK_CATCH_CNT + 4] ∧
  t.rd64 Reg.STK_CATCH_CNT = s.rd64 Reg.STK_CATCH_CNT + c

/-- A stroke that is not one of catch-up. -/
theorem begins_modStk {f : Stk → Stk} {k : StrokeKind × Nat × Nat × Nat}
    (h : f (unstretched s).stk = { s.stk with kind := k.1, cur := k.2.1, stretchN := k.2.2.1, catchN := k.2.2.2 }) :
    Begins s (modStk (unstretched s) f) k 0 := by
  refine ⟨?_, h, fun j _ => ?_, ?_⟩
  · rw [unstretched_frame]
    rfl
  · rw [unstretched_frame]
    rfl
  · rw [rd64_modStk, unstretched_frame]
    exact (BitVec.add_zero _).symm

theorem Begins.counted {t : State} {k : StrokeKind × Nat × Nat × Nat} (h : Begins s t k 0) :
    Begins s (t.cnt64 Reg.STK_CATCH_CNT) k 1 := by
  obtain ⟨frame, stk, apart, count⟩ := h
  refine ⟨?_, ?_, ?_, ?_⟩
  · rw [cnt64_frame, frame]
  · rw [cnt64_stk, stk]
  · exact (apart.trans (regsApart_cnt64 _ _ _)).mono (by simp)
  · rw [State.cnt64, rd64_wr64_same, count]
    exact congrArg (· + 1) (BitVec.add_zero _)

theorem nextStroke_begins (fast : Bool) : Begins s (nextStroke s fast) (nextKind s fast)
    (if (nextKind s fast).1 = .catchUp then 1 else 0) := by
  have left : (unstretched s).stk = { s.stk with stretchN := if isAnchor s = true then 0 else s.stk.stretchN } := by
    rw [unstretched_frame]
  unfold nextKind
  generalize (if isAnchor s = true then 0 else s.stk.stretchN) = stretch at left ⊢
  have stretched : (unstretched s).stk.stretchN = stretch := by rw [left]
  have catching : (unstretched s).stk.catchN = s.stk.catchN := by rw [left]
  have catchLen : (unstretched s).fld Reg.STK_CATCH 6 0 = s.fld Reg.STK_CATCH 6 0 := by rw [unstretched_frame]; rfl
  cases fast with
  | true =>
    rw [nextStroke_fast]
    exact begins_modStk (by rw [left]; rfl)
  | false =>
    by_cases hs : stretch = 0
    · by_cases hc : s.stk.catchN = 0
      · rw [nextStroke_normal (stretched.trans hs) (catching.trans hc)]
        simp only [hs, hc, ne_eq, not_true_eq_false, if_false, Bool.false_eq_true]
        exact begins_modStk (by simp [left, hs, hc])
      · rw [nextStroke_catchUp (stretched.trans hs) (by rwa [catching]), catchLen]
        simp only [hs, hc, ne_eq, not_true_eq_false, not_false_eq_true, if_true, if_false, Bool.false_eq_true]
        exact (begins_modStk (by rw [left, hs])).counted
    · rw [nextStroke_stretch (by rwa [stretched])]
      simp only [hs, ne_eq, not_false_eq_true, if_true, if_false, Bool.false_eq_true]
      exact begins_modStk (by rw [left])

end

/-! ### The rest of order 3 (08 R181 to R183, R188; 10 R243) -/

/-- From `s₀` to `s` the count, the schedule and every word below the shares of the Panels stand. -/
def BelowShares (s₀ s : State) : Prop := s.count = s₀.count ∧ s.stk = s₀.stk ∧ ∀ j, j < 0x200000 → s.rd j = s₀.rd j

namespace BelowShares
variable {s₀ s : State}

theorem refl : BelowShares s s := ⟨rfl, rfl, fun _ _ => rfl⟩

theorem wr {p r : Nat} {v : W32} (h : BelowShares s₀ s) : BelowShares s₀ (s.wr (shareOff p r) v) := by
  obtain ⟨count, stk, below⟩ := h
  refine ⟨(wr_count ..).trans count, (wr_stk ..).trans stk, fun j hj => ?_⟩
  rw [rd_wr_other _ _ (by unfold shareOff; omega), below j hj]

theorem complete {r : Nat} {d : Desc} {status : Nat} {result : optParam W64 0} (h : BelowShares s₀ s) :
    BelowShares s₀ (complete s r d status result) := by
  unfold Machine.complete
  rw [completeBad_frame]
  exact h

theorem pnlFinish {p : Nat} (h : BelowShares s₀ s) : BelowShares s₀ (pnlFinish s p) := by
  unfold Machine.pnlFinish
  split
  · exact h
  · dsimp only
    split
    · exact .complete (s := s.setPanel _ _) h
    · exact h

theorem shareApply {p : Nat} (h : BelowShares s₀ s) : BelowShares s₀ (shareApply s p) := by
  unfold Machine.shareApply
  dsimp only
  split
  · exact h
  · refine .pnlFinish (s := State.setPanel _ _ _) ?_
    cases (s.panel p).pend with
    | none => exact h
    | some w => exact .wr (.wr h)

theorem sharesApply (h : BelowShares s₀ s) : BelowShares s₀ (sharesApply s) := by
  unfold Machine.sharesApply
  generalize s.pnl.panels.map (·.1) = l
  induction l generalizing s with
  | nil => exact h
  | cons p l ih => exact ih h.shareApply

end BelowShares

/-- MSG_PQ_CFG and the shares of the Panels take effect. -/
def sharesOrder (s : State) : State := queueApply (if s.rst.phase = .w2 then s else sharesApply s)

theorem sharesOrder_below (s : State) : BelowShares s (sharesOrder s) := by
  have shares : BelowShares s (if s.rst.phase = .w2 then s else sharesApply s) := by
    split
    · exact .refl
    · exact BelowShares.refl.sharesApply
  exact shares

theorem wantSnap_frame (s : State) (u : SnapUse) :
    wantSnap s u = modStk s fun k => { k with snapDue := (wantSnap s u).stk.snapDue } := by
  unfold wantSnap
  split <;> rfl

/-- The causes of a snapshot ask for one, and are spent. -/
theorem snapCauses_frame (s : State) (late newLen : Bool) : ∃ due next, snapCauses s late newLen =
    modStk s fun k => { k with snapDue := due, anchorNext := next, freqAck := false } := by
  unfold snapCauses
  dsimp only
  split
  · exact ⟨_, false, by rw [wantSnap_frame]; rfl⟩
  · split
    · exact ⟨_, s.stk.anchorNext, by rw [wantSnap_frame]; rfl⟩
    · exact ⟨s.stk.snapDue, s.stk.anchorNext, rfl⟩

section
variable (s : State) (jump : Bool)

/-- A new SHIFT takes effect at a multiple of its length. -/
def newShift (s : State) : Bool :=
  decide (s.fld Reg.STK_EPOCH 3 0 ≠ s.stk.shift) && decide (s.count.toNat % 2 ^ s.fld Reg.STK_EPOCH 3 0 = 0)

/-- The boundary is an epoch boundary. -/
def epochBegins (s : State) (jump : Bool) : Bool :=
  decide (s.count.toNat % 2 ^ s.stk.shift = 0) || jump || s.stk.epochNext || newShift s

theorem epochOrder_eq : epochOrder s jump = modStk s fun k => { k with
    shift := if newShift s then s.fld Reg.STK_EPOCH 3 0 else k.shift, epochDue := epochBegins s jump, epochNext := false } := rfl

end

/-! ### The schedule at a boundary -/

section
variable (s : State) (held : Bool)

/-- The state once the count has advanced. -/
def advanced : State := (countAdvance (lateCounted s held)).1

/-- STK_LEN comes into force, and the boundary is marked where the switch back falls on it. -/
def lengthSet (s : State) : State :=
  modStk (modPwr s fun p => { p with switchDue := switchNow s }) fun k =>
    { k with len := s.fld Reg.STK_LEN 6 0, held := false, freqOut := s.pwr.freq.req }

/-- The clock of the stroke that begins is CLK_FAST. -/
def fastNext (s : State) : Bool := isFast s && !switchNow s

/-- The stroke that follows has begun. -/
def begunStroke (s : State) : State := showPeriod (nextStroke (lengthSet s) (fastNext s))

theorem boundaryTime_eq : boundaryTime s held = epochOrder (sharesOrder (snapCauses (begunStroke (advanced s held))
    (strokeLate s held) (decide ((advanced s held).fld Reg.STK_LEN 6 0 ≠ (advanced s held).stk.len))))
    (countAdvance (lateCounted s held)).2 := rfl

/-- The state of which order 3 asks whether an epoch begins. -/
def epochAsked : State := sharesOrder (snapCauses (begunStroke (advanced s held)) (strokeLate s held)
  (decide ((advanced s held).fld Reg.STK_LEN 6 0 ≠ (advanced s held).stk.len)))

/-- The words that a boundary counts in. -/
def countWords : List Nat :=
  [Reg.STK_LATE_CNT, Reg.STK_LATE_CNT + 4, Reg.STK_JUMP_CNT, Reg.STK_JUMP_CNT + 4]

theorem regsApart_advanced : RegsApart s (advanced s held) countWords :=
  (regsApart_lateCounted s held).trans (regsApart_countAdvance _)

theorem jumpOf_lateCounted : jumpOf (lateCounted s held) = jumpOf s := by rw [lateCounted_frame]; rfl

theorem advanced_count : (advanced s held).count = s.count + 1 + BitVec.ofNat 48 (jumpOf s) := by
  rw [advanced, countAdvance_count, jumpOf_lateCounted, lateCounted_frame]

theorem advanced_stk : (advanced s held).stk = { s.stk with dec := none, catchN := catchLeft s } := by
  rw [advanced, countAdvance_stk, lateCounted_frame]
  rfl

theorem advanced_frame : advanced s held = { s with
    count := (advanced s held).count, stk := (advanced s held).stk, regs := (advanced s held).regs,
    prf := (advanced s held).prf } := by
  rw [advanced, countAdvance_frame, lateCounted_frame]

theorem advanced_jump : (advanced s held).rd64 Reg.STK_JUMP_CNT = s.rd64 Reg.STK_JUMP_CNT + BitVec.ofNat 64 (jumpOf s) := by
  rw [advanced, countAdvance_jump, jumpOf_lateCounted, (regsApart_lateCounted s held).rd64 (by decide) (by decide)]

theorem advanced_late : (advanced s held).rd64 Reg.STK_LATE_CNT =
    s.rd64 Reg.STK_LATE_CNT + (if (held && s.stk.freqOut || s.stk.held) = true then 1 else 0) := by
  rw [advanced, (regsApart_countAdvance _).rd64 (by decide) (by decide), lateCounted_late]

theorem switchNow_advanced : switchNow (advanced s held) = switchNow s := by
  have apart := regsApart_advanced s held
  have phase : pwrPhase (advanced s held) = pwrPhase s := apart.fld (by decide) 4 2
  have pwr : (advanced s held).pwr = s.pwr := by rw [advanced_frame]
  rw [switchNow, switchNow, phase, apart.bit (by decide), pwr]

theorem fastNext_advanced : fastNext (advanced s held) = (s.bit Reg.STK_STAT 14 && !switchNow s) := by
  rw [fastNext, isFast, switchNow_advanced, (regsApart_advanced s held).bit (by decide)]

theorem isAnchor_lengthSet : isAnchor (lengthSet (advanced s held)) = isAnchor s := by
  have id : (advanced s held).instId = s.instId :=
    congrArg (BitVec.ofNat 7) ((regsApart_advanced s held).fld (by decide) 6 0)
  have anchor : (advanced s held).wft.anchor = s.wft.anchor := by rw [advanced_frame]
  show decide ((advanced s held).wft.anchor = some (advanced s held).instId) = isAnchor s
  rw [id, anchor]
  rfl

theorem lengthSet_stk (a : State) : (lengthSet a).stk =
    { a.stk with len := a.fld Reg.STK_LEN 6 0, held := false, freqOut := a.pwr.freq.req } := rfl

/-- The stroke that a boundary opens (R178), in the terms of the state before it. -/
theorem nextKind_boundary : nextKind (lengthSet (advanced s held)) (fastNext (advanced s held)) =
    (let stretch := if isAnchor s then 0 else s.stk.stretchN
     let len := s.fld Reg.STK_LEN 6 0
     if (s.bit Reg.STK_STAT 14 && !switchNow s) = true then (.fast, s.stk.fastLen, stretch, catchLeft s)
     else if stretch ≠ 0 then (.stretch, len + 8, stretch - 1, catchLeft s)
     else if catchLeft s ≠ 0 then (.catchUp, s.fld Reg.STK_CATCH 6 0, 0, catchLeft s - 1)
     else (.normal, len, 0, 0)) := by
  have apart := regsApart_advanced s held
  have catchLen : (lengthSet (advanced s held)).fld Reg.STK_CATCH 6 0 = s.fld Reg.STK_CATCH 6 0 := apart.fld (by decide) 6 0
  rw [nextKind, catchLen, isAnchor_lengthSet, fastNext_advanced, lengthSet_stk, advanced_stk, apart.fld (by decide)]

/-- The stroke that the boundary opens. -/
def nextOpened : StrokeKind × Nat × Nat × Nat := nextKind (lengthSet (advanced s held)) (fastNext (advanced s held))

/-- The state in which it has begun. -/
def opened : State := nextStroke (lengthSet (advanced s held)) (fastNext (advanced s held))

theorem opened_begins : Begins (lengthSet (advanced s held)) (opened s held) (nextOpened s held)
    (if (nextOpened s held).1 = .catchUp then 1 else 0) := nextStroke_begins _

theorem opened_count : (opened s held).count = (advanced s held).count := by
  obtain ⟨frame, -, -, -⟩ := opened_begins s held
  rw [frame]
  rfl

theorem opened_stk : (opened s held).stk = { s.stk with
    dec := none, len := s.fld Reg.STK_LEN 6 0, held := false, freqOut := s.pwr.freq.req, kind := (nextOpened s held).1,
    cur := (nextOpened s held).2.1, stretchN := (nextOpened s held).2.2.1, catchN := (nextOpened s held).2.2.2 } := by
  obtain ⟨-, stk, -, -⟩ := opened_begins s held
  have pwr : (advanced s held).pwr = s.pwr := by rw [advanced_frame]
  rw [stk, lengthSet_stk, advanced_stk, (regsApart_advanced s held).fld (by decide), pwr]

theorem regsApart_opened :
    RegsApart (advanced s held) (opened s held) [Reg.STK_CATCH_CNT, Reg.STK_CATCH_CNT + 4] := by
  obtain ⟨-, -, apart, -⟩ := opened_begins s held
  exact apart

theorem opened_catch : (opened s held).rd64 Reg.STK_CATCH_CNT =
    s.rd64 Reg.STK_CATCH_CNT + (if (nextOpened s held).1 = .catchUp then 1 else 0) := by
  obtain ⟨-, -, -, counted⟩ := opened_begins s held
  have before : (lengthSet (advanced s held)).rd64 Reg.STK_CATCH_CNT = s.rd64 Reg.STK_CATCH_CNT :=
    (regsApart_advanced s held).rd64 (by decide) (by decide)
  rw [counted, before]

/-- What follows leaves of it all but the causes of a snapshot. -/
theorem epochAsked_opened : (epochAsked s held).count = (opened s held).count ∧
    (∃ due next, (epochAsked s held).stk = { (opened s held).stk with snapDue := due, anchorNext := next, freqAck := false }) ∧
    ∀ j, j < 0x200000 → j ∉ periodWords → (epochAsked s held).rd j = (opened s held).rd j := by
  obtain ⟨due, next, causes⟩ := snapCauses_frame (begunStroke (advanced s held)) (strokeLate s held)
    (decide ((advanced s held).fld Reg.STK_LEN 6 0 ≠ (advanced s held).stk.len))
  obtain ⟨count, stk, below⟩ := sharesOrder_below (snapCauses (begunStroke (advanced s held)) (strokeLate s held)
    (decide ((advanced s held).fld Reg.STK_LEN 6 0 ≠ (advanced s held).stk.len)))
  have shown : (begunStroke (advanced s held)).stk = (opened s held).stk := wr64_stk _ _ _
  refine ⟨?_, ⟨due, next, ?_⟩, fun j hj hp => ?_⟩
  · rw [epochAsked, count, causes]
    exact wr64_count _ _ _
  · rw [epochAsked, stk, causes, stk_modStk, shown]
  · rw [epochAsked, below j hj, causes]
    exact regsApart_showPeriod (opened s held) j hp

theorem epochAsked_rd64 {j : Nat} (hj : j + 4 < 0x200000) (hp : j ∉ periodWords) (hp4 : j + 4 ∉ periodWords) :
    (epochAsked s held).rd64 j = (opened s held).rd64 j := by
  obtain ⟨-, -, below⟩ := epochAsked_opened s held
  exact rd64_congr (below j (by omega) hp) (below (j + 4) hj hp4)

/-- An epoch begins with the boundary (R188), in the terms of the state before it. -/
theorem epochBegins_iff : epochBegins (epochAsked s held) (countAdvance (lateCounted s held)).2 = true ↔
    (epochAsked s held).count.toNat % 2 ^ s.stk.shift = 0 ∨ jumpOf s ≠ 0 ∨ s.stk.epochNext = true ∨
      (s.fld Reg.STK_EPOCH 3 0 ≠ s.stk.shift ∧ (epochAsked s held).count.toNat % 2 ^ s.fld Reg.STK_EPOCH 3 0 = 0) := by
  obtain ⟨-, ⟨due, next, stk⟩, below⟩ := epochAsked_opened s held
  have shift : (epochAsked s held).fld Reg.STK_EPOCH 3 0 = s.fld Reg.STK_EPOCH 3 0 := by
    rw [State.fld, below _ (by decide) (by decide), regsApart_opened s held _ (by decide),
      regsApart_advanced s held _ (by decide)]
    rfl
  have inForce : (epochAsked s held).stk.shift = s.stk.shift := by rw [stk, opened_stk]
  have ordered : (epochAsked s held).stk.epochNext = s.stk.epochNext := by rw [stk, opened_stk]
  rw [epochBegins, newShift, shift, inForce, ordered, countAdvance_jumps, jumpOf_lateCounted]
  simp only [Bool.or_eq_true, Bool.and_eq_true, decide_eq_true_eq, or_assoc]

theorem boundaryTime_asked : boundaryTime s held =
    epochOrder (epochAsked s held) (countAdvance (lateCounted s held)).2 := boundaryTime_eq s held

theorem boundaryTime_rd64 (j : Nat) : (boundaryTime s held).rd64 j = (epochAsked s held).rd64 j := by
  rw [boundaryTime_asked, epochOrder_eq, rd64_modStk]

theorem boundaryTime_stk : ∃ k : Stk, (boundaryTime s held).stk = { k with
    dec := none, len := s.fld Reg.STK_LEN 6 0, kind := (nextOpened s held).1, cur := (nextOpened s held).2.1,
    stretchN := (nextOpened s held).2.2.1, catchN := (nextOpened s held).2.2.2,
    epochDue := epochBegins (epochAsked s held) (countAdvance (lateCounted s held)).2, epochNext := false } := by
  obtain ⟨-, ⟨due, next, stk⟩, -⟩ := epochAsked_opened s held
  refine ⟨(boundaryTime s held).stk, ?_⟩
  rw [boundaryTime_asked, epochOrder_eq, stk_modStk, stk, opened_stk]

theorem boundaryTime_count : (boundaryTime s held).count = (epochAsked s held).count := by
  rw [boundaryTime_asked, epochOrder_eq, modStk_count]

end

end Sys2Proof.Machine
end

section
namespace Sys2Proof.Machine

/-- What a boundary does to the count, the schedule and the epoch (R178, R185, R186, R188). -/
theorem boundaryTime_spec (s : State) (held : Bool) :
    let t := boundaryTime s held
    let len := s.fld Reg.STK_LEN 6 0
    let stretch := if isAnchor s then 0 else s.stk.stretchN
    let sh := s.fld Reg.STK_EPOCH 3 0
    t.count = s.count + 1 + BitVec.ofNat 48 (jumpOf s) ∧ t.stk.dec = none ∧ t.stk.len = len ∧
    t.rd64 Reg.STK_JUMP_CNT = s.rd64 Reg.STK_JUMP_CNT + BitVec.ofNat 64 (jumpOf s) ∧
    strokeKind t.stk =
      (if (s.bit Reg.STK_STAT 14 && !switchNow s) = true then (.fast, s.stk.fastLen, stretch, catchLeft s)
       else if stretch ≠ 0 then (.stretch, len + 8, stretch - 1, catchLeft s)
       else if catchLeft s ≠ 0 then (.catchUp, s.fld Reg.STK_CATCH 6 0, 0, catchLeft s - 1)
       else (.normal, len, 0, 0)) ∧
    t.rd64 Reg.STK_CATCH_CNT = s.rd64 Reg.STK_CATCH_CNT + (if t.stk.kind = .catchUp then 1 else 0) ∧
    t.rd64 Reg.STK_LATE_CNT = s.rd64 Reg.STK_LATE_CNT + (if (held && s.stk.freqOut || s.stk.held) = true then 1 else 0) ∧
    (t.stk.epochDue = true ↔ t.count.toNat % 2 ^ s.stk.shift = 0 ∨ jumpOf s ≠ 0 ∨ s.stk.epochNext = true ∨
      (sh ≠ s.stk.shift ∧ t.count.toNat % 2 ^ sh = 0)) ∧
    t.stk.epochNext = false := by
  dsimp only
  obtain ⟨k, stk⟩ := boundaryTime_stk s held
  obtain ⟨count, -, -⟩ := epochAsked_opened s held
  rw [stk, boundaryTime_count, boundaryTime_rd64, boundaryTime_rd64, boundaryTime_rd64,
    epochAsked_rd64 s held (by decide) (by decide) (by decide), epochAsked_rd64 s held (by decide) (by decide) (by decide),
    epochAsked_rd64 s held (by decide) (by decide) (by decide)]
  refine ⟨?_, rfl, rfl, ?_, nextKind_boundary s held, opened_catch s held, ?_, epochBegins_iff s held, rfl⟩
  · rw [count, opened_count, advanced_count]
  · rw [(regsApart_opened s held).rd64 (by decide) (by decide), advanced_jump]
  · rw [(regsApart_opened s held).rd64 (by decide) (by decide), advanced_late]

/-! ### The count loaded (08 R192) -/

theorem Tbl.get_map {α : Type} {d : α} {f : α → α} (hd : f d = d) (m : Tbl α) (i : Nat) :
    Tbl.get d (m.map fun p => (p.1, f p.2)) i = f (Tbl.get d m i) := by
  induction m with
  | nil => exact hd.symm
  | cons e r ih =>
    obtain ⟨k, v⟩ := e
    by_cases h : k = i <;> simp [Tbl.get, h, ih]

theorem tgt_shiftTime (s : State) (d : Stroke) (j : Nat) : (shiftTime s d).tgt j = shiftTg d (s.tgt j) :=
  Tbl.get_map (f := shiftTg d) rfl s.tg j

theorem line_shiftTime (s : State) (d : Stroke) (j : Nat) : (shiftTime s d).line j = shiftLine d (s.line j) :=
  Tbl.get_map (f := shiftLine d) rfl s.win j

theorem loadCount_frame (s : State) (n : Stroke) :
    loadCount s n = modStk (shiftTime s (n - s.count)) fun k =>
      { k with snapDue := (loadCount s n).stk.snapDue, epochNext := true } := by
  unfold loadCount
  dsimp only
  rw [wantSnap_frame]
  rfl

theorem loadCount_snapDue {s : State} (h : refLegal s = true) (n : Stroke) : (loadCount s n).stk.snapDue = some .load := by
  have h' : refLegal (shiftTime s (n - s.count)) = true := h
  simp [loadCount, wantSnap, h']

/-- The common count that a COMMIT loads. -/
def commonCount (s : State) (n : Stroke) (h : Nat) : Stroke := n + BitVec.ofNat 48 (transitOf s h)

theorem alignOrder_commit {s : State} {n : Stroke} {h : Nat} (ha : s.stk.alignIn = none) (hc : s.stk.commitIn = some (n, h)) :
    ∃ due, alignOrder s = modStk (loadCount (modStk s fun k => { k with commitIn := none }) (commonCount s n h)) fun k =>
      { k with alignDue := due } := by
  unfold alignOrder
  simp only [ha, hc]
  exact ⟨_, rfl⟩

/-- Order 8 for a COMMIT. -/
theorem alignOrder_loads {s : State} {n : Stroke} {h : Nat} (ha : s.stk.alignIn = none) (hc : s.stk.commitIn = some (n, h)) :
    let t := alignOrder s
    let d := commonCount s n h - s.count
    t.count = commonCount s n h ∧ t.stk.commitIn = none ∧ t.stk.epochNext = true ∧
    (refLegal s = true → t.stk.snapDue = some .load) ∧ t.regs = s.regs ∧
    (∀ j, (t.tgt j).entries = (s.tgt j).entries.map fun e => { e with arr := e.arr + d }) ∧
    (∀ j, (t.tgt j).opq = (s.tgt j).opq.map fun o => { o with arr := o.arr + d }) ∧
    ∀ j, (t.line j).unr = (s.line j).unr.map (· + d) := by
  obtain ⟨due, ordered⟩ := alignOrder_commit ha hc
  have snap := fun hl : refLegal s = true =>
    loadCount_snapDue (s := modStk s fun k => { k with commitIn := none }) hl (commonCount s n h)
  rw [loadCount_frame] at ordered snap
  dsimp only
  rw [ordered]
  refine ⟨?_, rfl, rfl, snap, rfl, fun j => ?_, fun j => ?_, fun j => ?_⟩
  · show s.count + (commonCount s n h - s.count) = commonCount s n h
    rw [BitVec.add_comm, BitVec.sub_add_cancel]
  · exact congrArg Tg.entries (tgt_shiftTime s (commonCount s n h - s.count) j)
  · exact congrArg Tg.opq (tgt_shiftTime s (commonCount s n h - s.count) j)
  · exact congrArg Line.unr (line_shiftTime s (commonCount s n h - s.count) j)

/-! ### Alignment (08 R193) -/

/-- The offset to an alignment stroke. -/
def alignOffset (s : State) (n : Stroke) (h : Nat) : Int := (s.count - commonCount s n h).toInt

section
variable (s : State) (off : Int)

/-- The offset is shown. -/
def offsetShown : State := s.setFld Reg.STK_STAT 23 16 (satByte off)

/-- One beyond JUMP is flagged. -/
def offsetNoted : State :=
  if off < -(s.fld Reg.STK_CATCH 27 16 : Int) ∨ (s.fld Reg.STK_CATCH 27 16 : Int) < off then stkErr (offsetShown s off) 1
  else offsetShown s off

theorem offsetNoted_stk : (offsetNoted s off).stk = s.stk := by
  unfold offsetNoted
  split <;> simp [offsetShown, stkErr]

theorem offsetNoted_count : (offsetNoted s off).count = s.count := by
  unfold offsetNoted
  split <;> simp [offsetShown, stkErr]

theorem rd_offsetNoted {j : Nat} (hj : j < 0x100000) (hn : j ∉ occWords) (hs : j ≠ Reg.STK_STAT) (he : j ≠ Reg.STK_ERR) :
    (offsetNoted s off).rd j = s.rd j := by
  have shown : (offsetShown s off).rd j = s.rd j := regsApart_setFld _ _ _ _ _ j (by simpa using hs)
  unfold offsetNoted
  split
  · exact (rd_setFlag_other _ _ _ _ hj hn he).trans shown
  · exact shown

theorem fld_offsetNoted : (offsetNoted s off).fld Reg.STK_STAT 23 16 = satByte off := by
  have shown : (offsetShown s off).fld Reg.STK_STAT 23 16 = satByte off :=
    fld_setFld_same _ _ (by decide) (by decide) (BitVec.isLt _)
  unfold offsetNoted
  split
  · exact (congrArg (field · 23 16) (rd_setFlag_other _ _ _ _ (by decide) (by decide) (by decide))).trans shown
  · exact shown

variable {s off}

theorem bit_offsetNoted
    (h : off < -(s.fld Reg.STK_CATCH 27 16 : Int) ∨ (s.fld Reg.STK_CATCH 27 16 : Int) < off) :
    (offsetNoted s off).bit Reg.STK_ERR 1 = true := by
  rw [offsetNoted, if_pos h]
  exact bit_setFlag _ _ _ _ (by decide) (by decide) (by decide)

theorem err_offsetNoted (hl : -(s.fld Reg.STK_CATCH 27 16 : Int) ≤ off) (hh : off ≤ (s.fld Reg.STK_CATCH 27 16 : Int)) :
    (offsetNoted s off).rd Reg.STK_ERR = s.rd Reg.STK_ERR := by
  rw [offsetNoted, if_neg (by omega)]
  exact regsApart_setFld _ _ _ _ _ _ (by decide)

theorem originCnt_offsetNoted : originCnt (offsetNoted s off) = originCnt s := by
  unfold originCnt
  rw [rd64_congr (rd_offsetNoted s off (by decide) (by decide) (by decide) (by decide))
    (rd_offsetNoted s off (by decide) (by decide) (by decide) (by decide))]

/-- The count of the origin moves by the offset. -/
def originMoved (s : State) (off : Int) : State :=
  s.wr64 Reg.STK_ORIGIN_CNT ((originCnt s - BitVec.ofInt 48 off).zeroExtend 64)

end

section
variable {s : State} {n : Stroke} {h : Nat}

theorem alignApply_behind (ho : alignOffset s n h ≤ -2) : alignApply s n h =
    wantSnap (originMoved (offsetNoted s (alignOffset s n h)) (alignOffset s n h)) .measure := by
  have add : ∀ (x : Stroke) (i : Int), x + BitVec.ofInt 48 (-i) = x - BitVec.ofInt 48 i := fun x i => by
    rw [BitVec.ofInt_neg, BitVec.sub_eq_add_neg]
  unfold originMoved
  rw [← add]
  exact if_pos ho

theorem alignApply_ahead (ho : 2 ≤ alignOffset s n h) : alignApply s n h =
    modStk (originMoved (offsetNoted s (alignOffset s n h)) (alignOffset s n h)) fun k =>
      { k with stretchN := ((alignOffset s n h).toNat * k.len + 7) / 8 } :=
  (if_neg (not_le.2 (show -2 < alignOffset s n h by omega))).trans (if_pos ho)

theorem alignApply_near (hl : -2 < alignOffset s n h) (hh : alignOffset s n h < 2) :
    alignApply s n h = offsetNoted s (alignOffset s n h) :=
  (if_neg (not_le.2 hl)).trans (if_neg (not_le.2 hh))

/-- What an alignment leaves of the registers: the offset shown, and its flag. -/
def ShowsOffset (s t : State) (off : Int) : Prop :=
  t.fld Reg.STK_STAT 23 16 = satByte off ∧
  (off < -(s.fld Reg.STK_CATCH 27 16 : Int) ∨ (s.fld Reg.STK_CATCH 27 16 : Int) < off → t.bit Reg.STK_ERR 1 = true) ∧
  (-(s.fld Reg.STK_CATCH 27 16 : Int) ≤ off → off ≤ (s.fld Reg.STK_CATCH 27 16 : Int) → t.rd Reg.STK_ERR = s.rd Reg.STK_ERR)

theorem showsOffset_noted (s : State) (off : Int) : ShowsOffset s (offsetNoted s off) off :=
  ⟨fld_offsetNoted s off, bit_offsetNoted, err_offsetNoted⟩

theorem ShowsOffset.apart {t u : State} {off : Int} {l : List Nat} (k : ShowsOffset s t off) (a : RegsApart t u l)
    (hs : Reg.STK_STAT ∉ l) (he : Reg.STK_ERR ∉ l) : ShowsOffset s u off := by
  obtain ⟨shown, flag, stands⟩ := k
  exact ⟨(a.fld hs 23 16).trans shown, fun hb => (a.bit he 1).trans (flag hb), fun hl hh => (a _ he).trans (stands hl hh)⟩

theorem regsApart_wantSnap (s : State) (u : SnapUse) : RegsApart s (wantSnap s u) [] := fun j _ => by
  rw [wantSnap_frame]
  rfl

theorem showsOffset_alignApply (s : State) (n : Stroke) (h : Nat) :
    ShowsOffset s (alignApply s n h) (alignOffset s n h) := by
  have noted := showsOffset_noted s (alignOffset s n h)
  have moved := noted.apart (u := originMoved (offsetNoted s (alignOffset s n h)) (alignOffset s n h))
    (regsApart_wr64 _ _ _) (by decide) (by decide)
  rcases le_or_gt (alignOffset s n h) (-2) with hb | hb
  · rw [alignApply_behind hb]
    exact moved.apart (regsApart_wantSnap _ _) List.not_mem_nil List.not_mem_nil
  · rcases le_or_gt 2 (alignOffset s n h) with ha | ha
    · rw [alignApply_ahead ha]
      exact moved
    · rw [alignApply_near hb ha]
      exact noted

theorem originCnt_alignApply :
    (alignOffset s n h ≤ -2 ∨ 2 ≤ alignOffset s n h → (alignApply s n h).rd64 Reg.STK_ORIGIN_CNT =
      (originCnt s - BitVec.ofInt 48 (alignOffset s n h)).zeroExtend 64) ∧
    (-2 < alignOffset s n h → alignOffset s n h < 2 →
      (alignApply s n h).rd64 Reg.STK_ORIGIN_CNT = s.rd64 Reg.STK_ORIGIN_CNT) := by
  have moved : (originMoved (offsetNoted s (alignOffset s n h)) (alignOffset s n h)).rd64 Reg.STK_ORIGIN_CNT =
      (originCnt s - BitVec.ofInt 48 (alignOffset s n h)).zeroExtend 64 := by
    rw [originMoved, rd64_wr64_same, originCnt_offsetNoted]
  refine ⟨fun ho => ?_, fun hl hh => ?_⟩
  · rcases ho with hb | ha
    · rw [alignApply_behind hb, (regsApart_wantSnap _ _).rd64 List.not_mem_nil List.not_mem_nil, moved]
    · rw [alignApply_ahead ha, rd64_modStk, moved]
  · rw [alignApply_near hl hh]
    exact rd64_congr (rd_offsetNoted s _ (by decide) (by decide) (by decide) (by decide))
      (rd_offsetNoted s _ (by decide) (by decide) (by decide) (by decide))

/-- Of the schedule an alignment changes the snapshot that is due, and the stretch. -/
theorem alignApply_stk : (alignApply s n h).count = s.count ∧ (alignApply s n h).stk = { s.stk with
    snapDue := (alignApply s n h).stk.snapDue,
    stretchN := if 2 ≤ alignOffset s n h then ((alignOffset s n h).toNat * s.stk.len + 7) / 8 else s.stk.stretchN } := by
  have count : (originMoved (offsetNoted s (alignOffset s n h)) (alignOffset s n h)).count = s.count := by
    rw [originMoved, wr64_count, offsetNoted_count]
  have stk : (originMoved (offsetNoted s (alignOffset s n h)) (alignOffset s n h)).stk = s.stk := by
    rw [originMoved, wr64_stk, offsetNoted_stk]
  rcases le_or_gt (alignOffset s n h) (-2) with hb | hb
  · rw [alignApply_behind hb, wantSnap_frame, modStk_count, stk_modStk, count, stk, if_neg (by omega)]
    exact ⟨rfl, rfl⟩
  · rcases le_or_gt 2 (alignOffset s n h) with ha | ha
    · rw [alignApply_ahead ha, modStk_count, stk_modStk, count, stk, if_pos ha]
      exact ⟨rfl, rfl⟩
    · rw [alignApply_near hb ha, offsetNoted_count, offsetNoted_stk, if_neg (by omega)]
      exact ⟨rfl, rfl⟩

/-- Where the count is behind, a measurement is due. -/
theorem alignApply_measures (ho : alignOffset s n h ≤ -2) (hl : refLegal s = true) :
    (alignApply s n h).stk.snapDue.isSome = true := by
  have rate : (originMoved (offsetNoted s (alignOffset s n h)) (alignOffset s n h)).rd Reg.GLB_REFCNT_HZ =
      s.rd Reg.GLB_REFCNT_HZ :=
    (regsApart_wr64 _ Reg.STK_ORIGIN_CNT _ _ (by decide)).trans
      (rd_offsetNoted s _ (by decide) (by decide) (by decide) (by decide))
  have legal : refLegal (originMoved (offsetNoted s (alignOffset s n h)) (alignOffset s n h)) = true := by
    rw [refLegal, rate]
    exact hl
  rw [alignApply_behind ho, wantSnap, legal]
  generalize originMoved (offsetNoted s (alignOffset s n h)) (alignOffset s n h) = u
  cases hd : u.stk.snapDue <;> simp [modStk, hd]

/-- The ALIGN flit is taken. -/
def alignTaken (s : State) : State := modStk s fun k => { k with alignIn := none }

theorem alignOrder_align (ha : s.stk.alignIn = some (n, h)) (hc : s.stk.commitIn = none) :
    ∃ due, alignOrder s = modStk (alignApply (alignTaken s) n h) fun k => { k with alignDue := due } := by
  obtain ⟨-, stk⟩ := alignApply_stk (s := alignTaken s) (n := n) (h := h)
  have none : (alignApply (alignTaken s) n h).stk.commitIn = none := by
    rw [stk]
    exact hc
  unfold alignOrder
  simp only [ha]
  unfold alignTaken at none ⊢
  simp only [none]
  exact ⟨_, rfl⟩

end

/-- Settles O13: the decision of a lag, the stroke that a boundary opens, and order 8 for a COMMIT and for an ALIGN. -/
theorem lagRules : Obligations.LagRules := by
  unfold Obligations.LagRules
  refine ⟨fun _ => rfl, lagAt_eq, fun per len cat jump _ => ⟨fun lag hl => lagDecision_lead per len cat jump hl,
    fun lag h hj hc => ?_, fun lag h hj => lagDecision_jump per h hj⟩, boundaryTime_spec, fun s n h ha hc => alignOrder_loads ha hc,
    fun s n h ha hc _ => ?_⟩
  · exact ⟨catchUpN lag len cat, lagDecision_catchUp per h hj hc, catchUpN_least h hc⟩
  · obtain ⟨due, ordered⟩ := alignOrder_align ha hc
    obtain ⟨count, stk⟩ := alignApply_stk (s := alignTaken s) (n := n) (h := h)
    obtain ⟨shown, flag, stands⟩ := showsOffset_alignApply (alignTaken s) n h
    obtain ⟨moved, kept⟩ := originCnt_alignApply (s := alignTaken s) (n := n) (h := h)
    have measures := alignApply_measures (s := alignTaken s) (n := n) (h := h)
    dsimp only
    rw [ordered, modStk_count, stk_modStk, fld_modStk, bit_modStk, rd64_modStk]
    exact ⟨count, by rw [stk]; rfl, shown, flag, stands, moved, kept, measures, by rw [stk]; rfl⟩

end Sys2Proof.Machine
end

section
namespace Sys2Proof.Machine

/-! ### Epoch refills (R188) -/

/-- Where all of a table's rows of a key have one value, that value is found. -/
theorem Tbl.find_of_agree {α : Type} {m : Tbl α} {i : Nat} {v : α} (hm : (i, v) ∈ m) (h : ∀ e ∈ m, e.1 = i → e.2 = v) :
    Tbl.find m i = some v := by
  induction m with
  | nil => cases hm
  | cons e r ih =>
    rw [Tbl.find_cons]
    split
    case isTrue first => rw [h e List.mem_cons_self first.symm]
    case isFalse later =>
      refine ih ((List.mem_cons.mp hm).resolve_left fun same => later ?_) fun e he => h e (List.mem_cons_of_mem _ he)
      rw [← same]

/-- The row of a queue in a table with one row to a queue. -/
theorem find_queues (f : Nat → Nat) {qs : List Nat} {q : Nat} (hq : q ∈ qs) :
    Tbl.find (qs.map fun q => (q, f q)) q = some (f q) := by
  apply Tbl.find_of_agree
  · exact List.mem_map_of_mem hq
  · simp only [List.mem_map]
    rintro _ ⟨p, -, rfl⟩ rfl
    rfl

/-- The row of a slice of a queue in a table that numbers at most eight slices of each queue. -/
theorem find_slices (f : Nat → Nat) {n : Nat} (hn : n ≤ 8) {qs : List Nat} {q sl : Nat} (hq : q ∈ qs) (hs : sl < n) :
    Tbl.find (qs.flatMap fun q => (List.range n).map fun sl => (q * 8 + sl, f q)) (q * 8 + sl) = some (f q) := by
  apply Tbl.find_of_agree
  · exact List.mem_flatMap.mpr ⟨q, hq, List.mem_map_of_mem (List.mem_range.mpr hs)⟩
  · simp only [List.mem_flatMap, List.mem_map, List.mem_range]
    rintro _ ⟨p, -, j, hj, rfl⟩ key
    have : p = q := by
      dsimp only at key
      omega
    rw [this]

/-- Budgets, slots and shares at an epoch boundary (R188). -/
theorem epochBoundary_refills {s : State} (h : s.stk.epochDue = true) :
    let t := epochBoundary s
    t = { s with
      stk := { s.stk with epochDue := false }, msg := { s.msg with left := t.msg.left, slots := t.msg.slots },
      pnl := { s.pnl with sht := [] } } ∧
    (∀ q ∈ 0 :: (createdPanels s).map (· + 1), Tbl.find t.msg.left q = some (qBudget s q)) ∧
    ∀ q ∈ 0 :: (createdPanels s).map (· + 1), ∀ sl, sl < s.par.targets / 16 → s.par.targets ≤ 128 →
      Tbl.find t.msg.slots (q * 8 + sl) = some (xltRate s q * 2 ^ s.stk.shift) := by
  unfold epochBoundary
  rw [if_pos h]
  refine ⟨rfl, fun q hq => find_queues _ hq, fun q hq sl hs ht => ?_⟩
  have eight : s.par.targets / 16 ≤ 8 := by omega
  exact find_slices _ eight hq hs

/-! ### The best chunk (07 R166) -/

/-- A chunk without a valid summary, or one that is skipped, is not chosen; where none is left nothing is. -/
theorem bestChunk_none {skip : Nat → Bool} {m : Tbl Sum} (h : bestChunk skip m = none) :
    ∀ p ∈ m, p.2.v = true → skip p.1 ≠ false := by
  induction m with
  | nil => simp
  | cons p r ih =>
    unfold bestChunk at h
    split at h
    case h_1 none =>
      simp at h
      intro q hq hv hs
      rcases List.mem_cons.mp hq with rfl | hq
      · simp_all
      · exact ih none q hq hv hs
    case h_2 => split at h <;> cases h

/-- The chosen chunk is valid and not skipped, and no other such chunk ranks before it. -/
theorem bestChunk_spec {skip : Nat → Bool} {m : Tbl Sum} {k : Nat} {e : Sum} (h : bestChunk skip m = some (k, e)) :
    (k, e) ∈ m ∧ e.v = true ∧ skip k = false ∧
    ∀ p ∈ m, p.2.v = true → skip p.1 = false → e.prio < p.2.prio ∨ (e.prio = p.2.prio ∧ k ≤ p.1) := by
  induction m generalizing k e with
  | nil => cases h
  | cons p r ih =>
    obtain ⟨i, v⟩ := p
    unfold bestChunk at h
    split at h
    case h_1 none =>
      obtain ⟨ok, rfl, rfl⟩ : (v.v = true ∧ skip i = false) ∧ i = k ∧ v = e := by simpa using h
      refine ⟨List.mem_cons_self, ok.1, ok.2, fun p hp hv hs => ?_⟩
      rcases List.mem_cons.mp hp with rfl | hp
      · exact .inr ⟨rfl, Nat.le_refl _⟩
      · exact absurd hs (bestChunk_none none p hp hv)
    case h_2 j w best =>
      obtain ⟨mem, valid, free, least⟩ := ih best
      split at h
      case isTrue ahead =>
        obtain ⟨rfl, rfl⟩ : i = k ∧ v = e := by simpa using h
        obtain ⟨ok, before⟩ : (v.v = true ∧ skip i = false) ∧ (v.prio < w.prio ∨ v.prio = w.prio ∧ i < j) := by simpa using ahead
        refine ⟨List.mem_cons_self, ok.1, ok.2, fun p hp hv hs => ?_⟩
        rcases List.mem_cons.mp hp with rfl | hp
        · exact .inr ⟨rfl, Nat.le_refl _⟩
        · have := least p hp hv hs
          bv_omega
      case isFalse behind =>
        obtain ⟨rfl, rfl⟩ : j = k ∧ w = e := by simpa using h
        refine ⟨List.mem_cons_of_mem _ mem, valid, free, fun p hp hv hs => ?_⟩
        rcases List.mem_cons.mp hp with rfl | hp
        · have : ¬ (v.prio < w.prio ∨ v.prio = w.prio ∧ i < j) := by
            dsimp only at hv hs
            simpa [hv, hs] using behind
          dsimp only at this ⊢
          bv_omega
        · exact least p hp hv hs

/-! ### Comparison with the roots (07 R166, R167) -/

/-- What waits for its sweep once a chunk is to be swept that neither waits nor is being swept (07 R167). -/
theorem mem_waitSweep (w : SweepEng) (k j : Nat) : j ∈ (waitSweep w k).waiting ↔
    j ∈ w.waiting ∨ (j = k ∧ ∀ r, w.run = some r → r.chunk ≠ k) := by
  unfold waitSweep
  split
  case isTrue there =>
    have there : k ∈ w.waiting ∨ ∃ r, w.run = some r ∧ r.chunk = k := by simpa [Option.any_eq_true] using there
    constructor
    · exact .inl
    · rintro (h | ⟨rfl, h⟩)
      · exact h
      · exact there.resolve_right fun ⟨r, hr, e⟩ => h r hr e
  case isFalse new =>
    have idle : ∀ r, w.run = some r → r.chunk ≠ k := by
      intro r hr e
      exact new (by simp [hr, e])
    rw [List.mem_append, List.mem_singleton, and_iff_left idle]

theorem swp_setSwp (x : Tg) (virt : Bool) (w : SweepEng) : (x.setSwp virt w).swp virt = w := by
  cases virt <;> rfl

/-- Order 5 goes on to the chunk that the order of 07 R166 puts first. -/
theorem compareSum_of_best {s : State} {t : Nat} {virt : Bool} {k : Nat} {e : Sum} (ok : refillOk s t virt = true)
    (best : bestChunk (leadChunk (s.tgt t) virt) ((s.tgt t).sums virt) = some (k, e)) : compareSum s t virt =
      if !beatsRoot s t virt e.prio then s
      else if e.leadOk then
        if ((s.tgt t).lead virt).isSome then s
        else (s.setTgt t ((s.tgt t).setLead virt (some (BitVec.ofNat 21 (k * 1024 + e.lead.toNat))))).cnt64 Reg.RNK_LEAD_CNT
      else s.setTgt t ((s.tgt t).setSwp virt (waitSweep ((s.tgt t).swp virt) k)) := by
  simp only [compareSum, ok, best, Bool.not_true, Bool.false_eq_true, if_false]

/-- A chunk whose lead is known has it requested. -/
theorem compareSum_lead {s : State} {t : Nat} {virt : Bool} {k : Nat} {e : Sum} (ok : refillOk s t virt = true)
    (best : bestChunk (leadChunk (s.tgt t) virt) ((s.tgt t).sums virt) = some (k, e)) (beats : beatsRoot s t virt e.prio = true)
    (lead : e.leadOk = true) (free : (s.tgt t).lead virt = none) :
    let u := compareSum s t virt
    u = { s with tg := u.tg, regs := u.regs } ∧
    u.tgt t = (s.tgt t).setLead virt (some (BitVec.ofNat 21 (k * 1024 + e.lead.toNat))) ∧ (∀ j, j ≠ t → u.tgt j = s.tgt j) ∧
    u.rd64 Reg.RNK_LEAD_CNT = s.rd64 Reg.RNK_LEAD_CNT + 1 ∧ RegsApart s u [Reg.RNK_LEAD_CNT, Reg.RNK_LEAD_CNT + 4] := by
  let v := s.setTgt t ((s.tgt t).setLead virt (some (BitVec.ofNat 21 (k * 1024 + e.lead.toNat))))
  have eq : compareSum s t virt = v.cnt64 Reg.RNK_LEAD_CNT := by
    rw [compareSum_of_best ok best, beats, lead, free]
    rfl
  obtain ⟨frame, counts, apart⟩ := counted_cnt64 v (off := Reg.RNK_LEAD_CNT) (by decide) (by decide)
  have tgts (j : Nat) : (v.cnt64 Reg.RNK_LEAD_CNT).tgt j = v.tgt j := by rw [frame]; rfl
  simp only [eq]
  refine ⟨?_, ?_, fun j hj => ?_, counts, apart⟩
  · rw [frame]
    rfl
  · rw [tgts, tgt_setTgt_same]
  · rw [tgts, tgt_setTgt, if_neg hj]

/-- A chunk whose lead is not known waits for its sweep. -/
theorem compareSum_sweep {s : State} {t : Nat} {virt : Bool} {k : Nat} {e : Sum} (ok : refillOk s t virt = true)
    (best : bestChunk (leadChunk (s.tgt t) virt) ((s.tgt t).sums virt) = some (k, e)) (beats : beatsRoot s t virt e.prio = true)
    (lead : e.leadOk = false) :
    let x := s.tgt t
    let u := compareSum s t virt
    u = { s with tg := u.tg } ∧ (∀ j, j ≠ t → u.tgt j = s.tgt j) ∧
    u.tgt t = x.setSwp virt { x.swp virt with waiting := ((u.tgt t).swp virt).waiting } ∧
    (k ∈ ((u.tgt t).swp virt).waiting ∨ ∃ r, (x.swp virt).run = some r ∧ r.chunk = k) ∧
    ∀ j, j ∈ ((u.tgt t).swp virt).waiting ↔ j ∈ (x.swp virt).waiting ∨
      (j = k ∧ ∀ r, (x.swp virt).run = some r → r.chunk ≠ k) := by
  have eq : compareSum s t virt = s.setTgt t ((s.tgt t).setSwp virt (waitSweep ((s.tgt t).swp virt) k)) := by
    rw [compareSum_of_best ok best, beats, lead]
    rfl
  have waiting (w : SweepEng) : waitSweep w k = { w with waiting := (waitSweep w k).waiting } := by
    unfold waitSweep
    split <;> rfl
  dsimp only
  rw [eq, tgt_setTgt_same, swp_setSwp, ← waiting]
  refine ⟨rfl, fun j hj => by rw [tgt_setTgt, if_neg hj], rfl, ?_, mem_waitSweep _ _⟩
  rw [mem_waitSweep]
  by_cases run : ∃ r, ((s.tgt t).swp virt).run = some r ∧ r.chunk = k
  · exact .inr run
  · exact .inl (.inr ⟨rfl, fun r hr e => run ⟨r, hr, e⟩⟩)

/-! ### Waiting AGE operations (07 R156) -/

theorem classSteps_iff (s : State) (x : Tg) (c : BitVec 3) : classSteps s x c = true ↔
    ∃ e ∈ x.entries, e.cls = c ∧
      (effPrio s c e.base e.arr s.count ≠ effPrio s c e.base e.arr (s.count - 1) ∨
       effPrio s c e.base e.arr s.count ≠ e.eff ∨
       ageAt e.arr s.count = 2 ^ 47 - 1 ∨ bitAt s.rnk.classW c.toNat = true) := by
  simp only [classSteps, List.any_eq_true, Bool.and_eq_true, Bool.or_eq_true, decide_eq_true_iff, or_assoc]

theorem mem_classes (c : BitVec 3) : c ∈ (List.range 8).map (BitVec.ofNat 3) :=
  List.mem_map.mpr ⟨c.toNat, List.mem_range.mpr c.isLt, BitVec.ofNat_toNat .. |>.trans (BitVec.setWidth_eq c)⟩

/-- An AGE is queued for a class that steps and of which none waits (07 R156). -/
theorem mem_ageQueue (s : State) (x : Tg) (c : BitVec 3) : c ∈ (ageQueue s x).ages ↔ c ∈ x.ages ∨ (classSteps s x c = true ∧
    ¬ ∃ o ∈ x.skip ++ x.adm ++ x.carry, o.kind = .age ∧ o.attr.cls = c) := by
  have waits : (x.skip ++ x.adm ++ x.carry).any (fun o => o.kind = .age && decide (o.attr.cls = c)) = true ↔
      ∃ o ∈ x.skip ++ x.adm ++ x.carry, o.kind = .age ∧ o.attr.cls = c := by
    simp only [List.any_eq_true, Bool.and_eq_true, decide_eq_true_iff]
  rw [← waits, ageQueue, List.mem_append, List.mem_filter]
  simp only [mem_classes, true_and, Bool.and_eq_true, Bool.not_eq_true', List.contains_eq_mem, decide_eq_false_iff_not,
    Bool.not_eq_true]
  tauto

/-! ### Admission of a tree's operations (07 R157, R158) -/

/-- Operations that no redirect and no absent vPE takes are admitted from the front, and the rest keep their order. -/
theorem admitQ_of_here {s : State} {t : Nat} {l : List TOp} (h : ∀ o ∈ l, redirected s t o = none ∧ offTreeNow s t o = false)
    (n : Nat) : admitQ s t l n = (s, l.take n, l.drop n) := by
  induction l generalizing n with
  | nil => simp [admitQ]
  | cons o r ih =>
    obtain ⟨⟨stays, here⟩, rest⟩ := List.forall_mem_cons.mp h
    cases n with
    | zero => simp [admitQ, stays, here]
    | succ n => simp [admitQ, stays, here, ih rest]

/-- Redirects and the check of 10 R230 do not depend on what a target queues. -/
theorem here_setTgt {s : State} {t : Nat} {x : Tg} (hx : x.sw = (s.tgt t).sw) (o : TOp) :
    redirected (s.setTgt t x) t o = redirected s t o ∧ offTreeNow (s.setTgt t x) t o = offTreeNow s t o := by
  have sw : switchFls (s.setTgt t x) t o = switchFls s t o := by
    rw [switchFls, switchFls, tgt_setTgt_same, hx]
  refine ⟨rfl, ?_⟩
  rw [offTreeNow, offTreeNow, sw]
  rfl

theorem take_append_append {α : Type} (c q b : List α) (n : Nat) :
    (c ++ q ++ b).take n = c.take n ++ q.take (n - c.length) ++ b.take (n - c.length - q.length) := by
  rw [List.take_append, List.take_append, List.length_append, Nat.sub_add_eq]

/-- What a boundary admits of a tree where none of its operations goes elsewhere (07 R157, R158). -/
theorem admitSpills_here (s : State) (l t k : Nat) :
    let x := ageQueue s (s.tgt t)
    let n0 := min 16 (l / 2) - x.urgent.length
    let a := x.ages.take (min n0 ((min 16 (l / 2) + 1) / 2))
    let n1 := n0 - a.length
    let c := x.skip ++ x.adm ++ x.carry
    let q := x.opq.take k
    let left := q.drop (n1 - c.length) ++ x.opq.drop k
    let u := admitSpills s l t k
    (∀ o ∈ c ++ q ++ x.sbuf, redirected s t o = none ∧ offTreeNow s t o = false) →
    u = { s with tg := u.tg } ∧ (∀ j, j ≠ t → u.tgt j = s.tgt j) ∧
    u.tgt t = { x with
      skip := [], adm := a.map ageOp ++ (c ++ q ++ x.sbuf).take n1, carry := c.drop n1,
      opq := left ++ x.src.take (64 - left.length), src := x.src.drop (64 - left.length),
      sbuf := x.sbuf.drop (n1 - c.length - q.length), ages := x.ages.drop a.length, fresh := false, slots := l / 2 } := by
  intro x n0 a n1 c q left u here
  let x' : Tg := { x with skip := [], adm := [], carry := [], opq := x.opq.drop k, sbuf := [], ages := x.ages.drop a.length }
  have admitted {ops : List TOp} (sub : ∀ o ∈ ops, o ∈ c ++ q ++ x.sbuf) (n : Nat) :
      admitQ (s.setTgt t x') t ops n = (s.setTgt t x', ops.take n, ops.drop n) := by
    refine admitQ_of_here (fun o ho => ?_) n
    obtain ⟨redir, off⟩ := here_setTgt (x := x') (s := s) (t := t) rfl o
    exact ⟨redir.trans (here o (sub o ho)).1, off.trans (here o (sub o ho)).2⟩
  have frontOf (ops : List TOp) (n : Nat) : n - (ops.take n).length = n - ops.length := by
    rw [List.length_take, tsub_min]
  unfold u admitSpills admSlots
  extract_lets _ _ _ _ _ carried queued swept
  have carriedIs : carried = (s.setTgt t x', c.take n1, c.drop n1) := admitted (ops := c) (fun o ho => by simp [ho]) n1
  have queuedIs : queued = (s.setTgt t x', q.take (n1 - c.length), q.drop (n1 - c.length)) := by
    rw [← frontOf c]
    show admitQ carried.1 t q (n1 - carried.2.1.length) = _
    rw [carriedIs]
    exact admitted (fun o ho => by simp [ho]) _
  have sweptIs : swept =
      (s.setTgt t x', x.sbuf.take (n1 - c.length - q.length), x.sbuf.drop (n1 - c.length - q.length)) := by
    rw [← frontOf q, ← frontOf c]
    show admitQ queued.1 t x.sbuf (n1 - carried.2.1.length - queued.2.1.length) = _
    rw [queuedIs, carriedIs, frontOf c]
    exact admitted (fun o ho => by simp [ho]) _
  rw [sweptIs, queuedIs, carriedIs]
  refine ⟨rfl, fun j hj => ?_, ?_⟩
  · rw [tgt_modTgt, if_neg hj, tgt_setTgt, if_neg hj]
  · rw [tgt_modTgt, if_pos rfl, tgt_setTgt_same, take_append_append c q]
    simp only [x', left, List.append_nil, List.append_assoc, List.length_append]
    rfl

/-- Settles O11: the refills, the chosen chunk and its comparison, the AGE operations and the admission of a tree. -/
theorem epochRefills : Obligations.EpochRefills := by
  unfold Obligations.EpochRefills
  refine ⟨fun s h => gives_intro rfl (epochBoundary_refills h), fun _ _ => rfl, fun _ _ _ _ => bestChunk_spec,
    fun s t virt k e ok best => ⟨fun behind => ?_, compareSum_lead ok best, compareSum_sweep ok best⟩,
    fun s x c => ⟨rfl, ?_, _, rfl⟩, admitSpills_here⟩
  · rw [compareSum_of_best ok best, behind]
    rfl
  · rw [mem_ageQueue, classSteps_iff]

end Sys2Proof.Machine
end
section
namespace Sys2Proof.Machine

/-! ### An operation reaches its target engine (09 R197, R217) -/

/-- Answering an access changes the port alone. -/
theorem portAnswer_frame (s : State) (n : Nat) (err : Bool) (data : W64) :
    portAnswer s n err data = { s with port := (portAnswer s n err data).port } := portShow_frame _

/-- The port after an answer depends on the port alone. -/
theorem portAnswer_port_congr {s t : State} (h : t.port = s.port) (n : Nat) (err : Bool) (data : W64) :
    (portAnswer t n err data).port = (portAnswer s n err data).port := by
  unfold portAnswer portShow
  simp only [h]
  split <;> rfl

/-- The answer of an operation that is taken and answered changes the port alone. -/
theorem took_answered (s : State) (p : Path) (r : W64) : took s p (some r) = { took s p none with port := (took s p (some r)).port } := by
  unfold took
  split
  · rfl
  · split
    · exact portAnswer_frame _ _ _ _
    · rfl

/-- Taking an operation changes the port and the mark of activity alone. -/
theorem took_frame (s : State) (p : Path) (rsp : Option W64) :
    took s p rsp = { s with port := (took s p rsp).port, pwr := (took s p rsp).pwr } := by
  have taken : took s p none = { s with port := (took s p none).port, pwr := (took s p none).pwr } := by
    unfold took
    split
    · rfl
    · split
      · rw [portTaken_frame]
        rfl
      · rfl
  cases rsp with
  | none => exact taken
  | some r =>
    have answered := took_answered s p r
    generalize took s p (some r) = u at answered ⊢
    generalize took s p none = b at taken answered
    rw [answered, taken]

section
variable (s : State) (p : Path) (rsp : Option W64)

@[simp] theorem took_par : (took s p rsp).par = s.par := by rw [took_frame]
@[simp] theorem took_err : (took s p rsp).err = s.err := by rw [took_frame]
@[simp] theorem took_pnl : (took s p rsp).pnl = s.pnl := by rw [took_frame]
@[simp] theorem took_wft : (took s p rsp).wft = s.wft := by rw [took_frame]
@[simp] theorem took_count : (took s p rsp).count = s.count := by rw [took_frame]
@[simp] theorem took_regs : (took s p rsp).regs = s.regs := by rw [took_frame]
@[simp] theorem took_rd (j : Nat) : (took s p rsp).rd j = s.rd j := by rw [took_frame]; rfl
@[simp] theorem took_tgt (j : Nat) : (took s p rsp).tgt j = s.tgt j := by rw [took_frame]; rfl
@[simp] theorem took_vword (v : BitVec 16) : (took s p rsp).vword v = s.vword v := by rw [took_frame]; rfl
@[simp] theorem took_instId : (took s p rsp).instId = s.instId := by rw [took_frame]; rfl
@[simp] theorem took_locked (i : Nat) : locked (took s p rsp) i = locked s i := by rw [took_frame]; rfl
@[simp] theorem took_icfgAttr (t i : Nat) : icfgAttr (took s p rsp) t i = icfgAttr s t i := by rw [took_frame]; rfl
@[simp] theorem took_vpeInsertable (v : BitVec 16) : vpeInsertable (took s p rsp) v = vpeInsertable s v := by rw [took_frame]; rfl
@[simp] theorem took_refillAttr (t : Nat) (vpe : Option (BitVec 16)) (ev : EventId) :
    refillAttr (took s p rsp) t vpe ev = refillAttr s t vpe ev := by rw [took_frame]; rfl
@[simp] theorem took_present (i : Nat) : present (took s p rsp) i = present s i := by rw [took_frame]; rfl
@[simp] theorem took_targetsOf (i : Nat) : targetsOf (took s p rsp) i = targetsOf s i := by rw [took_frame]; rfl
@[simp] theorem took_iftFree : iftFree (took s p rsp) = iftFree s := by rw [took_frame]; rfl

end

section
variable {s : State} {k : Nat} {p : Path} (h : running s = true) (hk : k < s.par.targets) (ho : Offers s k p)
include h hk ho

/-- While the block runs, a built target's engine takes what it is offered. -/
theorem accepts_offered : accepts (offered p s) k p = true := by
  cases p with
  | chan c =>
    have wait : ((s.tgt k).wait.any fun w => w.src.isNone) = false := by
      cases hw : (s.tgt k).wait with
      | none => rfl
      | some w => simpa [Option.isSome_iff_ne_none] using ho w hw
    have same : offered (.chan c) s = s := wake_running h 5 0
    simp [same, accepts, Path.isFrame, hk, portsOpen_running h, wait]
  | frame sec q a =>
    have same : offered (.frame sec q a) s = if q = .port then portTaken s a.taken else s := rfl
    have answers : ∀ u : State, running u = true → k < u.par.targets → accepts u k (.frame sec q a) = true := fun u hu hb => by
      simp [accepts, Path.isFrame, hb, regPortOpen_running hu]
    rw [same]
    split
    · rw [portTaken_frame]
      exact answers _ h hk
    · exact answers _ h hk

/-- The operation acts on the state that has taken it; a write at the register port is then answered. -/
theorem chanOp_taken (act : State → State) (read : Bool) : chanOp act k p s read =
    if !read && p.isFrame && decide (p.src = .port) then portAnswer (act (took s p none)) (portLast (took s p none)) false 0
    else act (took s p none) := by
  unfold chanOp
  rw [if_neg (by simp [accepts_offered h hk ho])]
  cases p with
  | chan c =>
    show act (activity (wake s 5 0)) = _
    rw [wake_running h, activity_running h]
    simp [Path.isFrame, took]
  | frame sec q a =>
    obtain ⟨priv, room⟩ := ho
    by_cases hq : q = .port
    · have hr : running (portTaken s a.taken) = true := by rw [portTaken_frame]; exact h
      have hs : offered (.frame sec q a) s = portTaken s a.taken := by simp [offered, Path.isFrame, Path.src, Path.acc, hq]
      rw [hs]
      simp only [frameOp, took, Path.src, Path.isFrame, Path.acc, hq, priv, room hq, ne_eq, not_true_eq_false, if_false, if_true,
        Bool.not_true, Bool.false_eq_true, activity_running hr, Bool.and_true, decide_true, Bool.not_eq_true']
      rw [wake_running (s := begun (portTaken s a.taken)) hr]
      cases read <;> rfl
    · simp [offered, frameOp, took, Path.src, Path.isFrame, Path.acc, hq, priv, wake_running h]

/-- A read that acts on the port itself. -/
theorem chanOp_read (act : State → State) : chanOp act k p s true = act (took s p none) := chanOp_taken h hk ho act true

/-- A write leaves what it has made, answered at the register port. -/
theorem chanOp_write {act : State → State} (hact : (act (took s p none)).port = (took s p none).port) :
    chanOp act k p s = { act (took s p none) with port := (took s p (some 0)).port } := by
  rw [chanOp_taken h hk ho]
  cases p with
  | chan c =>
    rw [if_neg (by simp [Path.isFrame]), show took s (.chan c) (some 0) = took s (.chan c) none from rfl, ← hact]
  | frame sec q a =>
    by_cases hq : q = .port
    · rw [if_pos (by simp [Path.isFrame, Path.src, hq]), portAnswer_frame, portAnswer_port_congr hact]
      simp [took, Path.isFrame, Path.src, hq]
    · have same : took s (.frame sec q a) (some 0) = took s (.frame sec q a) none := by simp [took, Path.isFrame, Path.src, hq]
      rw [if_neg (by simp [Path.src, hq]), same, ← hact]

end

end Sys2Proof.Machine
end
section
namespace Sys2Proof.Machine

/-! ### The bound on the lines that a claim lacks (O26)

WIRED is at most 4,096 (01 R20), and no hypothesis of O26 keeps `par.wired` there. The latch of line 4096, which a claim of
its event clears, is bit 31 of a word of ring 0, which is in the proofed set (16 R395): the claim sets HOLD with it (16 R398).
O26 says that the proof stands. -/

/-- The entry of line 4096's event. -/
def entryBeyondWin : Entry := { ev := 4128, virt := false, group := true, base := 0x40, arr := 0, eff := 0x40, cls := 0 }

/-- The block with 4,097 lines, the proof not held: the event of the last is resident and eligible on target 0, and what stands
as the line's latch is set. -/
def latchBeyondWin : State :=
  { linesBeyondWin with
    regs := [(winOff 4096 Reg.WIN_CTL, 0x200), (winOff 4096 Reg.WIN_XSTAT, 0x80000000)]
    tg := [(0, { Tg.empty with entries := [entryBeyondWin], phys := { Ctx.empty with pmask := 0xFF } })] }

theorem running_latchBeyondWin : running latchBeyondWin = true := by decide +kernel

theorem claimPick_latchBeyondWin : claimPick latchBeyondWin 0 0 = some entryBeyondWin := by decide +kernel

/-- The claim sets HOLD. -/
theorem claim_holds_proof : (claimDo (took latchBeyondWin (.chan 0) none) 0 (.chan 0)).prf.hold = true := by decide +kernel

/-- Refutes O26: with more lines than the WIN region has entries, a claim that clears a line's latch writes a word of the
proofed set and sets HOLD, but the clause on an accepted claim says that the proof stands. -/
theorem not_claimsAndCompletions : ¬ Obligations.ClaimsAndCompletions := by
  unfold Obligations.ClaimsAndCompletions
  intro h
  obtain ⟨claims, -⟩ := h
  have offers : Offers latchBeyondWin 0 (.chan 0) := fun w hw => nomatch hw
  obtain ⟨accepted, -⟩ := claims latchBeyondWin 0 (.chan 0) running_latchBeyondWin (by decide) offers (by decide)
  obtain ⟨t, ht, frame, -⟩ := accepted entryBeyondWin rfl claimPick_latchBeyondWin
  have made : claimDo (took latchBeyondWin (.chan 0) none) 0 (.chan 0) = t := by
    rw [← chanOp_read running_latchBeyondWin (by decide) offers fun s => claimDo s 0 (.chan 0)]
    exact Host.Outcome.next.inj ht
  have stands : t.prf = latchBeyondWin.prf := by rw [frame]; rfl
  exact absurd (claim_holds_proof.symm.trans (congrArg Prf.hold (made ▸ stands))) (by decide)

end Sys2Proof.Machine
end
section
namespace Sys2Proof.Machine

/-! ### An operation ends with a status (09 R200, R217) -/

/-- The words of a frame below TGT_ICFG are outside the proofed set (16 R395). -/
theorem proofMask_tgtOff {k r : Nat} (hk : k < 128) (hr : r < 0x100) : proofMask (tgtOff k r) = 0 := by
  have frame : isWinOff (tgtOff k r) = false ∧ isTgtOff (tgtOff k r) = true := by
    unfold isWinOff isTgtOff tgtOff
    exact ⟨by rw [decide_eq_false (p := _ < 0x20000) (by omega), Bool.and_false], by simp; omega⟩
  have word : tgtOff k r % 0x1000 = r := by
    unfold tgtOff
    omega
  rw [proofMask, if_neg (by simp [frame.1]), if_pos frame.2, word, if_neg (by omega)]

theorem tgt_wr (s : State) (off : Nat) (v : W32) (j : Nat) : (s.wr off v).tgt j = s.tgt j := congrArg (Tbl.get _ · j) (wr_tg s off v)

theorem tgt_answer (m : State) (k : Nat) (p : Path) (st : Nat) (ign : Bool) (j : Nat) : (answer m k p st ign).tgt j =
    if j = k then shows (m.tgt j) p (statusWord st ign) else m.tgt j := by
  unfold answer shows
  split
  · rw [tgt_wr, ite_self]
  · rw [tgt_modTgt]
    split
    · subst_vars; rfl
    · rfl

theorem rd_answer (m : State) (k : Nat) (p : Path) (st : Nat) (ign : Bool) (j : Nat) : (answer m k p st ign).rd j =
    if p.isFrame = true ∧ j = tgtOff k Reg.TGT_OPSTAT then statusWord st ign else m.rd j := by
  unfold answer
  split
  · simp [rd_wr, *]
  · rw [if_neg (by simp [*])]
    rfl

theorem answer_frame {k : Nat} (hk : k < 128) (m : State) (p : Path) (st : Nat) (ign : Bool) : answer m k p st ign =
    { m with tg := (answer m k p st ign).tg, regs := (answer m k p st ign).regs } := by
  unfold answer
  split
  · obtain ⟨only, -⟩ := regsIn_wr m (statusWord st ign) (proofMask_tgtOff hk (r := Reg.TGT_OPSTAT) (by decide))
    exact only.trans (by rw [wr_tg])
  · rfl

theorem answer_chan {p : Path} (h : p.isFrame = false) (m : State) (k st : Nat) (ign : Bool) : (answer m k p st ign).regs = m.regs := by
  rw [answer, if_neg (by simp [h])]
  rfl

/-- m is s once an operation on path p has been taken and has acted: targets as f, and no register word outside l written. -/
structure Made (s : State) (p : Path) (m : State) (l : List Nat) (f : Nat → Tg) : Prop where
  frame : m = { took s p none with tg := m.tg, regs := m.regs, err := m.err, pnl := m.pnl, wft := m.wft }
  apart : RegsApart s m l
  tgt : ∀ j, m.tgt j = f j

/-- t is s once an operation of target k on path p, which has made m, has ended with a status. -/
structure Ended (s m t : State) (k : Nat) (p : Path) (st : Nat) (ign : Bool) (l : List Nat) (f : Nat → Tg) : Prop where
  frame : t = { took s p (some 0) with tg := t.tg, regs := t.regs, err := m.err, pnl := m.pnl, wft := m.wft }
  status : Status s t k p st ign l
  tgt : ∀ j, t.tgt j = if j = k then shows (f j) p (statusWord st ign) else f j
  rd : ∀ j, j ≠ tgtOff k Reg.TGT_OPSTAT → t.rd j = m.rd j
  chan : p.isFrame = false → t.regs = m.regs

section
variable {s m t : State} {k : Nat} {p : Path} {st : Nat} {ign : Bool} {l : List Nat} {f : Nat → Tg} (e : Ended s m t k p st ign l f)
include e

theorem Ended.tgt_self : t.tgt k = shows (f k) p (statusWord st ign) := by simp [e.tgt]

theorem Ended.tgt_other {j : Nat} (h : j ≠ k) : t.tgt j = f j := by simp [e.tgt, h]

/-- A flag that the operation has set stands at its end. -/
theorem Ended.flagged {src off i unit : Nat} {fresh : Bool} (ho : off ≠ tgtOff k Reg.TGT_OPSTAT)
    (h : Flagged s m src off i unit fresh) : Flagged s t src off i unit fresh := by
  obtain ⟨set, queue⟩ := h
  have err : t.err = m.err := by rw [e.frame]
  exact ⟨by rw [State.bit, e.rd off ho]; exact set, err.trans queue⟩

/-- Over the channel the status is no register's. -/
theorem Ended.apart_chan (hf : p.isFrame = false) : RegsApart s t l := fun j hj => by
  obtain ⟨own, other⟩ := e.status
  by_cases hs : j = tgtOff k Reg.TGT_OPSTAT
  · subst hs
    exact own.trans (if_neg (by simp [hf]))
  · exact other j (by simp [hs, hj])

/-- No more has changed where the operation leaves the rest alone. -/
theorem Ended.shape {err : Err} {pnl : Pnl} {wft : Wft} (herr : m.err = err) (hpnl : m.pnl = pnl) (hwft : m.wft = wft) :
    t = { took s p (some 0) with tg := t.tg, regs := t.regs, err := err, pnl := pnl, wft := wft } := by
  subst herr hpnl hwft
  exact e.frame

theorem Ended.shape_chan (hf : p.isFrame = false) (hr : m.regs = s.regs) {err : Err} {pnl : Pnl} {wft : Wft} (herr : m.err = err)
    (hpnl : m.pnl = pnl) (hwft : m.wft = wft) : t = { took s p (some 0) with tg := t.tg, err := err, pnl := pnl, wft := wft } := by
  have regs : t.regs = (took s p (some 0)).regs := (e.chan hf).trans (hr.trans (took_regs ..).symm)
  have shape := e.shape herr hpnl hwft
  rwa [regs] at shape

/-- Targets alone have changed. -/
theorem Ended.guest (hf : p.isFrame = false) (hr : m.regs = s.regs) (herr : m.err = s.err) (hpnl : m.pnl = s.pnl) (hwft : m.wft = s.wft) :
    t = { took s p (some 0) with tg := t.tg } :=
  e.shape_chan hf hr (herr.trans (took_err ..).symm) (hpnl.trans (took_pnl ..).symm) (hwft.trans (took_wft ..).symm)

/-- Targets and registers alone have changed. -/
theorem Ended.plain (herr : m.err = s.err) (hpnl : m.pnl = s.pnl) (hwft : m.wft = s.wft) :
    t = { took s p (some 0) with tg := t.tg, regs := t.regs } :=
  e.shape (herr.trans (took_err ..).symm) (hpnl.trans (took_pnl ..).symm) (hwft.trans (took_wft ..).symm)

/-- Targets, registers and errors alone have changed. -/
theorem Ended.flags (hpnl : m.pnl = s.pnl) (hwft : m.wft = s.wft) :
    t = { took s p (some 0) with tg := t.tg, regs := t.regs, err := t.err } := by
  have err : t.err = m.err := by rw [e.frame]
  rw [err]
  exact e.shape rfl (hpnl.trans (took_pnl ..).symm) (hwft.trans (took_wft ..).symm)

end

/-- An operation that leaves every target as it was shows its status alone. -/
theorem Ended.tgt_same {s m t : State} {k : Nat} {p : Path} {st : Nat} {ign : Bool} {l : List Nat} (e : Ended s m t k p st ign l s.tgt) (j : Nat) :
    t.tgt j = if j = k then shows (s.tgt k) p (statusWord st ign) else s.tgt j := by
  rw [e.tgt]
  split
  · subst_vars; rfl
  · rfl

theorem ended_answer {s m : State} {k : Nat} {p : Path} {l : List Nat} {f : Nat → Tg} (hk : k < 128) (hm : Made s p m l f)
    (hl : tgtOff k Reg.TGT_OPSTAT ∉ l) (st : Nat) (ign : Bool) :
    Ended s m { answer m k p st ign with port := (took s p (some 0)).port } k p st ign l f where
  frame := by
    have answered := took_answered s p 0
    have made := hm.frame
    rw [answer_frame hk]
    generalize took s p none = b at answered made
    generalize took s p (some 0) = a at answered ⊢
    rw [answered]
    generalize (answer m k p st ign).tg = g, (answer m k p st ign).regs = r
    rw [made]
  status := by
    have rd := rd_answer m k p st ign
    refine ⟨(rd _).trans ?_, fun j hj => (rd j).trans ?_⟩
    · rw [hm.apart _ hl]
      simp
    · rw [List.mem_cons, not_or] at hj
      rw [if_neg (by simp [hj.1]), hm.apart j hj.2]
  tgt j := (tgt_answer m k p st ign j).trans (by rw [hm.tgt])
  rd j hj := (rd_answer m k p st ign j).trans (if_neg (by simp [hj]))
  chan h := answer_chan h m k st ign

/-- A command that is an operation of a built target's engine, taken there, which acts and ends with a status. -/
theorem gives_ended {s m : State} {k : BitVec 7} {p : Path} {i : Instr} {act : State → State} {st : Nat} {ign : Bool} {l : List Nat}
    {f : Nat → Tg} {P : State → Prop} (h : running s = true) (hk : k.toNat < s.par.targets) (ho : Offers s k.toNat p)
    (hx : exec i s = .next (chanOp act k.toNat p s)) (ha : act (took s p none) = answer m k.toNat p st ign) (hm : Made s p m l f)
    (hl : tgtOff k.toNat Reg.TGT_OPSTAT ∉ l) (hP : ∀ t, Ended s m t k.toNat p st ign l f → P t) : Gives i s P := by
  have hb : k.toNat < 128 := k.isLt
  have port : (act (took s p none)).port = (took s p none).port := by rw [ha, answer_frame hb, hm.frame]
  refine gives_intro hx ?_
  rw [chanOp_write h hk ho port, ha]
  exact hP _ (ended_answer hb hm hl st ign)

end Sys2Proof.Machine
end
section
namespace Sys2Proof.Machine

/-! ### The fields of an operation's argument (09 R208) -/

section
variable {arg : W32}

theorem field_lt (w : W32) (hi lo : Nat) : field w hi lo < 2 ^ (hi + 1 - lo) := Nat.mod_lt _ (Nat.two_pow_pos _)

theorem bitAt_field (w : W32) (i : Nat) : bitAt w i = decide (field w i i = 1) := by
  rw [bitAt, BitVec.getLsbD, Nat.testBit_eq_decide_div_mod_eq, field, Nat.shiftRight_eq_div_pow, Nat.add_sub_cancel_left, Nat.pow_one]

/-- The number of a target among all is made of its block's and its own. -/
theorem field_target (w : W32) : field w 17 4 / 128 = field w 17 11 ∧ field w 17 4 % 128 = field w 10 4 := by
  simp only [field, Nat.shiftRight_eq_div_pow]
  omega

/-- The upper bits being 0, the form and the reserved bits are. -/
theorem field_form (h : field arg 31 18 = 0) : field arg 31 20 = 0 ∧ field arg 19 18 = 0 := by
  simp only [field, Nat.shiftRight_eq_div_pow] at h ⊢
  omega

theorem field_guest (h : field arg 31 20 = 0) : field arg 31 21 = 0 ∧ bitAt arg 20 = false := by
  simp only [bitAt_field, field, Nat.shiftRight_eq_div_pow, decide_eq_false_iff_not] at h ⊢
  omega

/-- The block that a SEND names. -/
theorem toNat_field7 (w : W32) : (BitVec.ofNat 7 (field w 17 11)).toNat = field w 17 11 :=
  Nat.mod_eq_of_lt (field_lt w 17 11)

end

/-- No target's flags are a target's TGT_OPSTAT. -/
theorem opstat_ne (k u : Nat) : tgtOff u Reg.TGT_ERR ≠ tgtOff k Reg.TGT_OPSTAT := by
  unfold tgtOff Reg.TGT_OPSTAT Reg.TGT_ERR
  omega

theorem opstat_notMem (k u : Nat) : tgtOff k Reg.TGT_OPSTAT ∉ [tgtOff u Reg.TGT_ERR] := by
  simpa using (opstat_ne k u).symm

/-! ### What an operation that has acted has made -/

section
variable {s : State} {p : Path}

theorem made_took (s : State) (p : Path) : Made s p (took s p none) [] s.tgt := ⟨rfl, fun _ _ => took_rd .., took_tgt s p none⟩

theorem withOp_tgt (s : State) (k : Nat) (o : TOp) (j : Nat) :
    (withOp s k o).tgt j = { s.tgt j with opq := (s.tgt j).opq ++ if j = k then [o] else [] } := by
  rw [withOp, tgt_setTgt]
  split
  · subst_vars; rfl
  · simp

/-- An operation has joined a queue. -/
theorem made_withOp (s : State) (p : Path) (u : Nat) (o : TOp) : Made s p (withOp (took s p none) u o) []
    fun j => { s.tgt j with opq := (s.tgt j).opq ++ if j = u then [o] else [] } where
  frame := rfl
  apart _ _ := took_rd ..
  tgt j := by rw [withOp_tgt, took_tgt]

/-- A flag of a target has been set. -/
theorem made_tgtFlag {u i : Nat} (p : Path) (hu : u < 128) (hi : i < 32) (hq : s.err.queue.length < 16) :
    let m := tgtFlag (took s p none) u i
    Made s p m [tgtOff u Reg.TGT_ERR] s.tgt ∧ Flagged s m 5 (tgtOff u Reg.TGT_ERR) i u false := by
  obtain ⟨flag, frame, apart⟩ := setFlag_spec (s := took s p none) (off := tgtOff u Reg.TGT_ERR) (i := i) 5 u false (by simpa using hq)
    (proofMask_tgtOff hu (by decide)) hi
  have tgt : ∀ j, (tgtFlag (took s p none) u i).tgt j = s.tgt j := fun j => by
    rw [tgtFlag, frame]
    exact took_tgt s p none j
  refine ⟨⟨?_, fun j hj => (apart j hj).trans (took_rd ..), tgt⟩, flag.congr (took_err ..) (took_count ..) (took_rd ..)⟩
  rw [tgtFlag, frame]

end

/-! ### SEND on the physical side (09 R207, R208) -/

section
variable {s : State} {k : Nat} {p : Path} {arg : W32}

/-- A host's SEND with its reserved bits clear goes by its form. -/
theorem sendDo_host (hc : p.ctx = 0 ∨ p.ctx = 1) (hr : field arg 31 20 = 0) (hf : field arg 19 18 ≠ 3) :
    sendDo s k p arg = sendPhys s k p arg := by
  have guest : p.ctx ≠ 2#2 ∧ p.ctx ≠ 3#2 := by
    obtain hc | hc := hc <;> simp [hc]
  simp [sendDo, checked, sendRsv, guest, hr, hf]

/-- A SEND to one target, by the block and the number of the target. -/
theorem sendPhys_one (hf : field arg 19 18 = 0) :
    let i := field arg 17 11
    let u := field arg 10 4
    sendPhys s k p arg =
      if present s i = false then answer s k p stAbsent false
      else if targetsOf s i ≤ u then answer s k p stBadRange false
      else if i = s.instId.toNat then answer (sendTo s u (field arg 3 0) (decide (p.ctx = 1)) s.count) k p stOk false
      else answer (remoteSend s i u (field arg 3 0) p.ctx false) k p stOk false := by
  obtain ⟨inst, own⟩ := field_target arg
  simp [sendPhys, hf, inst, own]

theorem sendDo_one (hc : p.ctx = 0 ∨ p.ctx = 1) (hf : field arg 31 18 = 0) :
    let i := field arg 17 11
    let u := field arg 10 4
    sendDo s k p arg =
      if present s i = false then answer s k p stAbsent false
      else if targetsOf s i ≤ u then answer s k p stBadRange false
      else if i = s.instId.toNat then answer (sendTo s u (field arg 3 0) (decide (p.ctx = 1)) s.count) k p stOk false
      else answer (remoteSend s i u (field arg 3 0) p.ctx false) k p stOk false := by
  obtain ⟨rsv, form⟩ := field_form hf
  exact (sendDo_host hc rsv (by simp [form])).trans (sendPhys_one form)

/-- The insert that a SEND makes at target u. -/
def sentOp (s : State) (id u : Nat) : TOp := mkOp .ins false (BitVec.ofNat 21 id) (icfgAttr s u id) s.count

/-- Under the group rule, and with room, the insert joins the target's queue. -/
theorem sendTo_room {u id : Nat} {nonsec : Bool} (hg : nonsec = false ∨ (icfgAttr s u id).group = true) (room : (s.tgt u).opq.length < 64) :
    sendTo s u id nonsec s.count = withOp s u (sentOp s id u) := by
  have taken : (nonsec && !(icfgAttr s u id).group) = false := by
    obtain hg | hg := hg <;> simp [hg]
  rw [sendTo, sendRaise, if_neg (by simp [taken])]
  exact if_pos ⟨room, .inr rfl⟩

theorem sendTo_took {u id : Nat} {nonsec : Bool} (hg : nonsec = false ∨ (icfgAttr s u id).group = true)
    (room : (s.tgt u).opq.length < 64) :
    sendTo (took s p none) u id nonsec s.count = withOp (took s p none) u (sentOp s id u) := by
  have joins := sendTo_room (s := took s p none) (u := u) (id := id) (nonsec := nonsec) (by simpa using hg) (by simpa using room)
  simpa [sentOp] using joins

theorem sendTo_refused {u id : Nat} {arr : Stroke} (hg : (icfgAttr s u id).group = false) : sendTo s u id true arr = tgtFlag s u 3 := by
  simp [sendTo, sendRaise, hg, tgtFlag]

/-- Each target of the list gets its insert, and nothing else changes. -/
theorem foldl_sendTo {id : Nat} {nonsec : Bool} (l : List Nat) (hn : l.Nodup) : ∀ s : State,
    (∀ u ∈ l, (nonsec = false ∨ (icfgAttr s u id).group = true) ∧ (s.tgt u).opq.length < 64) →
    let t := l.foldl (fun s u => sendTo s u id nonsec s.count) s
    t = { s with tg := t.tg } ∧
      ∀ j, t.tgt j = { s.tgt j with opq := (s.tgt j).opq ++ if j ∈ l then [sentOp s id j] else [] } := by
  induction l with
  | nil => exact fun s _ => ⟨rfl, fun j => by simp⟩
  | cons u l ih =>
    intro s hs
    obtain ⟨hu, hl⟩ := List.nodup_cons.mp hn
    obtain ⟨group, room⟩ := hs u List.mem_cons_self
    have tgt := withOp_tgt s u (sentOp s id u)
    obtain ⟨frame, each⟩ := ih hl (withOp s u (sentOp s id u)) fun j hj => by
      have other : j ≠ u := fun e => hu (e ▸ hj)
      obtain ⟨g, r⟩ := hs j (List.mem_cons_of_mem _ hj)
      exact ⟨g, by simpa [tgt, other] using r⟩
    simp only [List.foldl_cons, sendTo_room group room]
    refine ⟨frame, fun j => (each j).trans ?_⟩
    rw [tgt]
    by_cases h : j = u
    · subst h
      simp [hu]
    · simp only [h, if_false, List.append_nil, List.mem_cons, false_or]
      rfl

/-- Every built target but the sender gets its insert. -/
theorem sendAllLocal_room {id : Nat} {nonsec : Bool}
    (hs : ∀ j, j < s.par.targets → j ≠ k → (nonsec = false ∨ (icfgAttr s j id).group = true) ∧ (s.tgt j).opq.length < 64) :
    let t := sendAllLocal s k id nonsec
    t = { s with tg := t.tg } ∧
      ∀ j, t.tgt j = { s.tgt j with opq := (s.tgt j).opq ++ if j < s.par.targets ∧ j ≠ k then [sentOp s id j] else [] } := by
  have := foldl_sendTo (id := id) (nonsec := nonsec) _ (List.nodup_range.filter (fun j => decide (j ≠ k)) (l := List.range s.par.targets)) s
    fun j hj => by
      simp only [List.mem_filter, List.mem_range, decide_eq_true_eq] at hj
      exact hs j hj.1 hj.2
  simpa [sendAllLocal] using this

end

/-! ### SEND to another block (09 R208, 12 R283, R296) -/

/-- The RAISE of a SEND, in flight as number n. -/
def sentPay (s : State) (id u : Nat) (c : BitVec 2) (lineNo n : Nat) : BitVec 160 :=
  raisePay (BitVec.ofNat 21 id) u { prio := 0, group := false, cls := 0 } 2 c.toNat 0 false s.count lineNo 0 ||| BitVec.ofNat 160 (n * 2 ^ 44)

theorem iftFree_some {s : State} {n : Nat} (h : iftFree s = some n) : n < 512 ∧ Tbl.find s.wft.ift n = none := by
  rw [iftFree, List.find?_eq_some_iff_append] at h
  obtain ⟨free, before, after, range, -⟩ := h
  refine ⟨List.mem_range.mp ?_, Option.isNone_iff_eq_none.mp free⟩
  rw [range]
  exact List.mem_append_right _ List.mem_cons_self

theorem Tbl.length_del {α : Type} (m : Tbl α) (i : Nat) : (Tbl.del m i).length ≤ m.length := by
  induction m with
  | nil => exact Nat.le_refl _
  | cons e r ih =>
    unfold Tbl.del
    split
    · exact Nat.le_succ_of_le ih
    · exact Nat.succ_le_succ ih

theorem Tbl.find_isSome_mem {α : Type} {m : Tbl α} {i : Nat} (h : (Tbl.find m i).isSome = true) : i ∈ m.map Prod.fst := by
  obtain ⟨v, hv⟩ := Option.isSome_iff_exists.mp h
  exact List.mem_map.mpr ⟨_, Tbl.mem_of_find hv, rfl⟩

/-- With fewer than 512 RAISEs in flight a number is free. -/
theorem iftFree_of_length {s : State} (h : s.wft.ift.length < 512) : ∃ n, iftFree s = some n := by
  refine Option.ne_none_iff_exists'.mp fun none => ?_
  have taken : List.range 512 ⊆ s.wft.ift.map Prod.fst := fun i hi => by
    rw [iftFree, List.find?_eq_none] at none
    exact Tbl.find_isSome_mem (Option.isSome_iff_ne_none.mpr (by simpa using none i hi))
  have fits := (List.subperm_of_subset List.nodup_range taken).length_le
  simp only [List.length_range, List.length_map] at fits
  omega

/-- A number being free, a RAISE that frees no tracker entry goes out at once. -/
theorem iftSend_free {s : State} {n : Nat} {e : Ift} (hn : iftFree s = some n) (hw : e.wid = none) :
    let pay := e.pay ||| BitVec.ofNat 160 (n * 2 ^ 44)
    iftSend s e = { s with wft := { s.wft with
      ift := Tbl.put s.wft.ift n { e with pay := pay }, outq := s.wft.outq ++ [byRoute s 0x10 e.dst pay] } } := by
  unfold iftSend
  generalize iftFree s = free at hn
  subst hn
  rw [hw]
  rfl

theorem remoteSend_free {s : State} {i u n : Nat} (hn : iftFree s = some n) (hi : i < 128) (hu : u < 128) (id : Nat) (c : BitVec 2)
    (all : Bool) :
    let pay := sentPay s id u c (if all then 0xFFF else 0) n
    remoteSend s i u id c all = { s with wft := { s.wft with
      ift := Tbl.put s.wft.ift n { dst := BitVec.ofNat 7 i, pay := pay, q := 0 },
      outq := s.wft.outq ++ [byRoute s 0x10 (BitVec.ofNat 7 i) pay] } } := by
  have own : (BitVec.ofNat 14 (i * 128 + u)).toNat = i * 128 + u := by
    simp only [BitVec.toNat_ofNat]
    omega
  have inst : (i * 128 + u) / 128 = i := by omega
  have tgt : (i * 128 + u) % 128 = u := by omega
  rw [remoteSend, remoteRaise, iftSend_free hn rfl, own, inst, tgt]
  rfl

/-- A RAISE of a SEND to every target of block i is in flight, and lies in the link's queue. -/
def SentAll (s t : State) (id : Nat) (c : BitVec 2) (i : BitVec 7) : Prop :=
  ∃ n e, n < 512 ∧ Tbl.find t.wft.ift n = some e ∧ e.dst = i ∧ e.pay = sentPay s id 0 c 0xFFF n ∧ byRoute s 0x10 i e.pay ∈ t.wft.outq

/-- From s to t RAISEs have been sent, and nothing else has changed. -/
structure Raised (s t : State) : Prop where
  frame : t = { s with wft := t.wft }
  flying : ∀ n e, Tbl.find s.wft.ift n = some e → Tbl.find t.wft.ift n = some e
  queued : ∀ o ∈ s.wft.outq, o ∈ t.wft.outq

section
variable {s t : State} {id : Nat} {c : BitVec 2} {i : BitVec 7}

/-- What has been sent stays in flight as others follow. -/
theorem SentAll.raised {r : State} (h : SentAll r s id c i) (ht : Raised s t) : SentAll r t id c i := by
  obtain ⟨n, e, hn, he, dst, pay, out⟩ := h
  exact ⟨n, e, hn, ht.flying n e he, dst, pay, ht.queued _ out⟩

theorem raised_remoteSend (h : s.wft.ift.length < 512) {j : Nat} (hj : j < 128) :
    let t := remoteSend s j 0 id c true
    Raised s t ∧ SentAll s t id c (BitVec.ofNat 7 j) ∧ t.wft.ift.length ≤ s.wft.ift.length + 1 := by
  obtain ⟨n, hn⟩ := iftFree_of_length h
  obtain ⟨small, free⟩ := iftFree_some hn
  rw [remoteSend_free hn hj (by decide) id c true]
  refine ⟨⟨rfl, fun m e he => ?_, fun o ho => List.mem_append_left _ ho⟩, ⟨n, _, small, Tbl.find_put_same .., rfl, rfl, ?_⟩,
    Nat.succ_le_succ (Tbl.length_del ..)⟩
  · have other : m ≠ n := fun same => by simp [same, free] at he
    rw [Tbl.find_put, if_neg other, he]
  · exact List.mem_append_right _ List.mem_cons_self

/-- With numbers enough every block of the list is sent its RAISE. -/
theorem foldl_remoteSend (l : List Nat) : ∀ s : State, s.wft.ift.length + l.length ≤ 512 → (∀ j ∈ l, j < 128) →
    let t := l.foldl (fun s j => remoteSend s j 0 id c true) s
    Raised s t ∧ ∀ j ∈ l, SentAll s t id c (BitVec.ofNat 7 j) := by
  induction l with
  | nil => exact fun s _ _ => ⟨⟨rfl, fun _ _ h => h, fun _ h => h⟩, by simp⟩
  | cons j l ih =>
    intro s room small
    simp only [List.length_cons] at room
    obtain ⟨first, out, length⟩ := raised_remoteSend (s := s) (id := id) (c := c) (by omega) (small j List.mem_cons_self)
    obtain ⟨rest, outs⟩ := ih (remoteSend s j 0 id c true) (by omega) fun i hi => small i (List.mem_cons_of_mem _ hi)
    simp only [List.foldl_cons]
    generalize l.foldl (fun s j => remoteSend s j 0 id c true) (remoteSend s j 0 id c true) = t at rest outs
    generalize remoteSend s j 0 id c true = r at first out rest outs
    refine ⟨⟨?_, fun n e he => rest.flying n e (first.flying n e he), fun o ho => rest.queued o (first.queued o ho)⟩,
      fun i hi => ?_⟩
    · rw [rest.frame, first.frame]
    · obtain rfl | hi := List.mem_cons.mp hi
      · exact out.raised rest
      · have later := outs i hi
        rw [first.frame] at later
        exact later

end

/-! ### The forms of a host's SEND (09 R208, R209) -/

section
variable {s : State} {k : BitVec 7} {p : Path} {arg : W32} (h : running s = true) (hk : k.toNat < s.par.targets) (ho : Offers s k.toNat p)

section
variable (hc : p.ctx = 0 ∨ p.ctx = 1) (hf : field arg 31 18 = 0)
include hc hf

section
variable (hi : field arg 17 11 = s.instId.toNat) (hu : field arg 10 4 < s.par.targets)
include hi hu

/-- The SEND to a built target of this block acts there. -/
theorem sendDo_here : sendDo (took s p none) k.toNat p arg =
    answer (sendTo (took s p none) (field arg 10 4) (field arg 3 0) (decide (p.ctx = 1)) s.count) k.toNat p stOk false := by
  rw [sendDo_one hc hf]
  simp [hi, present_self, targetsOf_self, hu]

include h hk ho

theorem send_here (hg : p.ctx = 0 ∨ (icfgAttr s (field arg 10 4) (field arg 3 0)).group = true)
    (room : (s.tgt (field arg 10 4)).opq.length < 64) : Gives (.send k p arg) s fun t =>
      t = { took s p (some 0) with tg := t.tg, regs := t.regs } ∧ Status s t k.toNat p 0 false [] ∧
      ∀ j, t.tgt j =
        let z := { s.tgt j with opq := (s.tgt j).opq ++ if j = field arg 10 4 then [sentOp s (field arg 3 0) (field arg 10 4)] else [] }
        if j = k.toNat then shows z p (statusWord 0 false) else z := by
  have group : decide (p.ctx = 1) = false ∨ (icfgAttr s (field arg 10 4) (field arg 3 0)).group = true :=
    hg.imp_left fun h0 => by simp [h0]
  refine gives_ended h hk ho rfl ((sendDo_here hc hf hi hu).trans (by rw [sendTo_took group room])) (made_withOp ..) List.not_mem_nil
    fun t e => ⟨e.plain (took_err ..) (took_pnl ..) (took_wft ..), e.status, e.tgt⟩

theorem send_secure (hn : p.ctx = 1) (hg : (icfgAttr s (field arg 10 4) (field arg 3 0)).group = false) (hq : s.err.queue.length < 16) :
    Gives (.send k p arg) s fun t =>
      t = { took s p (some 0) with tg := t.tg, regs := t.regs, err := t.err } ∧
      Flagged s t 5 (tgtOff (field arg 10 4) Reg.TGT_ERR) 3 (field arg 10 4) false ∧
      Status s t k.toNat p 0 false [tgtOff (field arg 10 4) Reg.TGT_ERR] ∧
      ∀ j, t.tgt j = if j = k.toNat then shows (s.tgt k.toNat) p (statusWord 0 false) else s.tgt j := by
  obtain ⟨made, flag⟩ := made_tgtFlag p (i := 3) (field_lt arg 10 4) (by decide) hq
  have acts : sendTo (took s p none) (field arg 10 4) (field arg 3 0) (decide (p.ctx = 1)) s.count =
      tgtFlag (took s p none) (field arg 10 4) 3 := by
    rw [decide_eq_true hn]
    exact sendTo_refused (by simpa using hg)
  refine gives_ended h hk ho rfl ((sendDo_here hc hf hi hu).trans (by rw [acts])) made (opstat_notMem _ _) fun t e =>
    ⟨e.flags ((setFlag_pnl ..).trans (took_pnl ..)) ((setFlag_wft ..).trans (took_wft ..)), e.flagged (opstat_ne _ _) flag, e.status, e.tgt_same⟩

end

theorem sendDo_absent (ha : present s (field arg 17 11) = false) :
    sendDo (took s p none) k.toNat p arg = answer (took s p none) k.toNat p stAbsent false := by
  rw [sendDo_one hc hf]
  exact if_pos ((took_present ..).trans ha)

theorem sendDo_range (ha : present s (field arg 17 11) = true) (hu : targetsOf s (field arg 17 11) ≤ field arg 10 4) :
    sendDo (took s p none) k.toNat p arg = answer (took s p none) k.toNat p stBadRange false := by
  rw [sendDo_one hc hf]
  simp [ha, hu]

/-- The SEND to a target of another block takes a number, and its RAISE goes out. -/
theorem sendDo_remote {n : Nat} (ha : present s (field arg 17 11) = true) (hi : field arg 17 11 ≠ s.instId.toNat)
    (hu : field arg 10 4 < targetsOf s (field arg 17 11)) (hn : iftFree s = some n) :
    let pay := sentPay s (field arg 3 0) (field arg 10 4) p.ctx 0 n
    sendDo (took s p none) k.toNat p arg = answer { took s p none with wft := { s.wft with
      ift := Tbl.put s.wft.ift n { dst := BitVec.ofNat 7 (field arg 17 11), pay := pay, q := 0 },
      outq := s.wft.outq ++ [byRoute s 0x10 (BitVec.ofNat 7 (field arg 17 11)) pay] } } k.toNat p stOk false := by
  rw [sendDo_one hc hf]
  simp only [took_present, took_targetsOf, took_instId, ha, Nat.not_le_of_lt hu, hi, if_false, Bool.true_eq_false]
  rw [remoteSend_free ((took_iftFree ..).trans hn) (field_lt arg 17 11) (field_lt arg 10 4)]
  simp [sentPay, byRoute]

end

/-- What a SEND to every target of this block has made. -/
theorem sendAllLocal_took (hs : ∀ j, j < s.par.targets → j ≠ k.toNat →
    (p.ctx = 0 ∨ (icfgAttr s j (field arg 3 0)).group = true) ∧ (s.tgt j).opq.length < 64) :
    let m := sendAllLocal (took s p none) k.toNat (field arg 3 0) (decide (p.ctx = 1))
    m = { took s p none with tg := m.tg } ∧ ∀ j, m.tgt j =
      { s.tgt j with opq := (s.tgt j).opq ++ if j < s.par.targets ∧ j ≠ k.toNat then [sentOp s (field arg 3 0) j] else [] } := by
  have room := sendAllLocal_room (s := took s p none) (k := k.toNat) (id := field arg 3 0) (nonsec := decide (p.ctx = 1))
    fun j hj hne => by
      rw [took_par] at hj
      rw [took_icfgAttr, took_tgt]
      obtain ⟨group, free⟩ := hs j hj hne
      exact ⟨group.imp_left fun h0 => by simp [h0], free⟩
  simpa [sentOp] using room

/-- The blocks beside this one that are present. -/
def othersPresent (s : State) : List Nat := (List.range 128).filter fun i => i ≠ s.instId.toNat && present s i

theorem length_othersPresent (s : State) : (othersPresent s).length ≤ 128 :=
  (List.length_filter_le ..).trans_eq List.length_range

theorem mem_othersPresent {i : BitVec 7} (hi : i ≠ s.instId) (hp : present s i.toNat = true) : i.toNat ∈ othersPresent s := by
  have other : i.toNat ≠ s.instId.toNat := fun e => hi (BitVec.eq_of_toNat_eq e)
  have small : i.toNat < 128 := i.isLt
  simp [othersPresent, other, hp, small]

section
variable (hc : p.ctx = 0 ∨ p.ctx = 1) (hr : field arg 31 20 = 0)
include hc hr

theorem sendDo_all (hl : field arg 19 18 = 1) : sendDo s k.toNat p arg =
    answer (sendAllLocal s k.toNat (field arg 3 0) (decide (p.ctx = 1))) k.toNat p stOk false := by
  rw [sendDo_host hc hr (by simp [hl])]
  simp [sendPhys, hl]

theorem sendDo_everywhere (hl : field arg 19 18 = 2) : sendDo s k.toNat p arg =
    answer ((othersPresent s).foldl (fun s i => remoteSend s i 0 (field arg 3 0) p.ctx true)
      (sendAllLocal s k.toNat (field arg 3 0) (decide (p.ctx = 1)))) k.toNat p stOk false := by
  rw [sendDo_host hc hr (by simp [hl])]
  simp [sendPhys, hl, othersPresent]

end

section
variable (hs : ∀ j, j < s.par.targets → j ≠ k.toNat →
  (p.ctx = 0 ∨ (icfgAttr s j (field arg 3 0)).group = true) ∧ (s.tgt j).opq.length < 64)
include hs

/-- A SEND to every target of this block, and RAISEs to others, have made this. -/
theorem made_sendAll {m : State} (hm : Raised (sendAllLocal (took s p none) k.toNat (field arg 3 0) (decide (p.ctx = 1))) m) :
    Made s p m [] fun j =>
      { s.tgt j with opq := (s.tgt j).opq ++ if j < s.par.targets ∧ j ≠ k.toNat then [sentOp s (field arg 3 0) j] else [] } := by
  obtain ⟨frame, tgt⟩ := sendAllLocal_took hs
  have rest := hm.frame
  generalize sendAllLocal (took s p none) k.toNat (field arg 3 0) (decide (p.ctx = 1)) = l at frame tgt rest
  refine ⟨?_, fun j _ => ?_, fun j => ?_⟩
  · rw [rest, frame]
  · rw [rest, frame]
    exact took_rd ..
  · rw [rest]
    exact tgt j

end

section
variable (h : running s = true) (hk : k.toNat < s.par.targets) (ho : Offers s k.toNat p) (hc : p.ctx = 0 ∨ p.ctx = 1)
include h hk ho hc

section
variable (hf : field arg 31 18 = 0)
include hf

theorem send_absent (ha : present s (field arg 17 11) = false) : Gives (.send k p arg) s fun t =>
    t = { took s p (some 0) with tg := t.tg, regs := t.regs } ∧ Status s t k.toNat p 9 false [] ∧
    ∀ j, t.tgt j = if j = k.toNat then shows (s.tgt k.toNat) p (statusWord 9 false) else s.tgt j :=
  gives_ended h hk ho rfl (sendDo_absent hc hf ha) (made_took s p) List.not_mem_nil fun _ e =>
    ⟨e.plain (took_err ..) (took_pnl ..) (took_wft ..), e.status, e.tgt_same⟩

theorem send_range (ha : present s (field arg 17 11) = true) (hu : targetsOf s (field arg 17 11) ≤ field arg 10 4) :
    Gives (.send k p arg) s fun t =>
    t = { took s p (some 0) with tg := t.tg, regs := t.regs } ∧ Status s t k.toNat p 4 false [] ∧
    ∀ j, t.tgt j = if j = k.toNat then shows (s.tgt k.toNat) p (statusWord 4 false) else s.tgt j :=
  gives_ended h hk ho rfl (sendDo_range hc hf ha hu) (made_took s p) List.not_mem_nil fun _ e =>
    ⟨e.plain (took_err ..) (took_pnl ..) (took_wft ..), e.status, e.tgt_same⟩

theorem send_remote {n : Nat} (ha : present s (field arg 17 11) = true) (hi : field arg 17 11 ≠ s.instId.toNat)
    (hu : field arg 10 4 < targetsOf s (field arg 17 11)) (hn : iftFree s = some n) : Gives (.send k p arg) s fun t =>
    let inst := BitVec.ofNat 7 (field arg 17 11)
    let pay := sentPay s (field arg 3 0) (field arg 10 4) p.ctx 0 n
    t = { took s p (some 0) with tg := t.tg, regs := t.regs, wft := { s.wft with
      ift := Tbl.put s.wft.ift n { dst := inst, pay := pay, q := 0 }, outq := s.wft.outq ++ [byRoute s 0x10 inst pay] } } ∧
    Status s t k.toNat p 0 false [] ∧
    ∀ j, t.tgt j = if j = k.toNat then shows (s.tgt k.toNat) p (statusWord 0 false) else s.tgt j :=
  gives_ended h hk ho rfl (sendDo_remote hc hf ha hi hu hn) ⟨rfl, fun _ _ => took_rd .., took_tgt s p none⟩ List.not_mem_nil fun _ e =>
    ⟨e.shape ((took_err ..).trans (took_err ..).symm) ((took_pnl ..).trans (took_pnl ..).symm) rfl, e.status, e.tgt_same⟩

end

section
variable (hr : field arg 31 20 = 0) (hs : ∀ j, j < s.par.targets → j ≠ k.toNat →
  (p.ctx = 0 ∨ (icfgAttr s j (field arg 3 0)).group = true) ∧ (s.tgt j).opq.length < 64)
include hr hs

/-- A SEND to every target, here alone or everywhere: this block's targets, and the RAISEs to the others. -/
theorem send_all (hl : field arg 19 18 = 1 ∨ field arg 19 18 = 2 ∧ s.wft.ift = []) : Gives (.send k p arg) s fun t =>
    t = { took s p (some 0) with tg := t.tg, regs := t.regs, wft := t.wft } ∧ Status s t k.toNat p 0 false [] ∧
    (∀ j, t.tgt j =
      let z := { s.tgt j with opq := (s.tgt j).opq ++ if j < s.par.targets ∧ j ≠ k.toNat then [sentOp s (field arg 3 0) j] else [] }
      if j = k.toNat then shows z p (statusWord 0 false) else z) ∧
    (field arg 19 18 = 1 → t.wft = s.wft) ∧
    (field arg 19 18 = 2 → ∀ i : BitVec 7, i ≠ s.instId → present s i.toNat = true → SentAll s t (field arg 3 0) p.ctx i) := by
  obtain ⟨frame, -⟩ := sendAllLocal_took hs
  have made := fun m => made_sendAll (m := m) hs
  have here := fun hl => sendDo_all (s := took s p none) (k := k) hc hr hl
  have wide := fun hl => sendDo_everywhere (s := took s p none) (k := k) hc hr hl
  generalize sendAllLocal (took s p none) k.toNat (field arg 3 0) (decide (p.ctx = 1)) = l at frame made here wide
  have weft : l.wft = s.wft := by rw [frame]; exact took_wft ..
  have err : l.err = s.err := by rw [frame]; exact took_err ..
  have pnl : l.pnl = s.pnl := by rw [frame]; exact took_pnl ..
  obtain hl | ⟨hl, hn⟩ := hl
  · refine gives_ended h hk ho rfl (here hl) (made l ⟨rfl, fun _ _ h => h, fun _ h => h⟩) List.not_mem_nil fun t e => ?_
    have same : t.wft = l.wft := by rw [e.frame]
    exact ⟨by rw [same]; exact e.shape (err.trans (took_err ..).symm) (pnl.trans (took_pnl ..).symm) rfl, e.status, e.tgt,
      fun _ => same.trans weft, fun h2 => absurd (hl.symm.trans h2) (by decide)⟩
  · have small : ∀ j ∈ othersPresent (took s p none), j < 128 := fun j hj => List.mem_range.mp (List.mem_filter.mp hj).1
    have room : l.wft.ift.length + (othersPresent (took s p none)).length ≤ 512 := by
      have := length_othersPresent (took s p none)
      rw [weft, hn, List.length_nil]
      omega
    obtain ⟨raised, out⟩ := foldl_remoteSend (id := field arg 3 0) (c := p.ctx) _ l room small
    refine gives_ended h hk ho rfl (wide hl) (made _ raised) List.not_mem_nil fun t e => ?_
    generalize (othersPresent (took s p none)).foldl (fun s i => remoteSend s i 0 (field arg 3 0) p.ctx true) l = m at e raised out
    have same : t.wft = m.wft := by rw [e.frame]
    have err' : m.err = s.err := by rw [raised.frame]; exact err
    have pnl' : m.pnl = s.pnl := by rw [raised.frame]; exact pnl
    refine ⟨by rw [same]; exact e.shape (err'.trans (took_err ..).symm) (pnl'.trans (took_pnl ..).symm) rfl, e.status, e.tgt,
      fun h1 => absurd (hl.symm.trans h1) (by decide), fun _ i hi hp => ?_⟩
    have mem : i.toNat ∈ othersPresent (took s p none) := mem_othersPresent (by simpa using hi) (by simpa using hp)
    have sent := out _ mem
    have count : l.count = s.count := by rw [frame]; exact took_count ..
    have inst : l.instId = s.instId := by rw [frame]; exact took_instId ..
    simpa [SentAll, sentPay, byRoute, count, inst, same] using sent

end

end

end

end Sys2Proof.Machine
end
section
namespace Sys2Proof.Machine

/-! ### The checks before an operation (09 R199, R212) -/

section
variable {s : State} {k : Nat} {p : Path} {arg : W32}

/-- An operation that passes the checks acts. -/
theorem checked_passes {rsv : Bool} {act : State → State} (h3 : p.ctx ≠ 3) (hr : rsv = false) (hg : p.ctx = 2 → guestOn (s.tgt k) = true) :
    checked s k p rsv act = act s := by
  have on : ¬ (p.ctx = 2 ∧ guestOn (s.tgt k) = false) := fun ⟨h2, off⟩ => by simp [hg h2] at off
  rw [checked, if_neg h3, if_neg (by simp [hr]), if_neg on]

theorem ctx_cases {c : BitVec 2} (h : c ≠ 3) : c = 0 ∨ c = 1 ∨ c = 2 := by
  revert c
  decide

/-- A guest operates over the channel. -/
theorem isFrame_guest (h : p.ctx = 2) : p.isFrame = false := by
  cases p with
  | chan => rfl
  | frame sec q a => cases sec <;> simp [Path.ctx] at h

/-! ### A guest's SEND (09 R209) -/

/-- The Panel of the sender has the vPE that the SEND names. -/
def sendsHere (s : State) (k : Nat) (q : BitVec 16) : Prop :=
  q.toNat < s.par.vpes ∧ (s.vword q).v = true ∧ (s.vword q).panel = (s.vword (s.tgt k).vpe).panel

section
variable (hc : p.ctx = 2) (hg : guestOn (s.tgt k) = true) (hr : field arg 31 20 = 0)
include hc hg hr

theorem sendDo_guest : sendDo s k p arg = sendGuest s k p arg := by
  obtain ⟨high, all⟩ := field_guest hr
  rw [sendDo, checked_passes (by simp [hc]) (by simp [sendRsv, hc, high, all]) fun _ => hg, if_pos hc]

theorem sendDo_guest_here (hq : sendsHere s k (BitVec.ofNat 16 (field arg 19 4))) :
    sendDo s k p arg = answer (virtSend s (BitVec.ofNat 16 (field arg 19 4)) (field arg 3 0)) k p stOk false := by
  obtain ⟨-, all⟩ := field_guest hr
  obtain ⟨range, live, panel⟩ := hq
  rw [sendDo_guest hc hg hr, sendGuest, if_neg (by simp [all]), if_neg]
  rintro (out | dead | other)
  · exact Nat.not_le_of_lt range out
  · simp [live] at dead
  · exact other panel

theorem sendDo_guest_range (hq : ¬ sendsHere s k (BitVec.ofNat 16 (field arg 19 4))) : sendDo s k p arg = answer s k p stBadRange false := by
  obtain ⟨-, all⟩ := field_guest hr
  rw [sendDo_guest hc hg hr, sendGuest, if_neg (by simp [all]), if_pos]
  simpa only [sendsHere, not_and_or, Nat.not_lt, Bool.not_eq_true] using hq

end

theorem virtSend_room {q : BitVec 16} {id : Nat} (hv : vpeInsertable s q = true) (room : (s.tgt (s.vword q).target).opq.length < 64) :
    virtSend s q id = withOp s (s.vword q).target
      (virtOp q (BitVec.ofNat 21 id) (refillAttr s 0 (some q) (BitVec.ofNat 21 id)) s.count none) := by
  rw [virtSend, virtRaise, if_pos hv]
  exact treeEnq_room room (.inr rfl)

theorem virtSend_parks {q : BitVec 16} {id : Nat} (hv : vpeInsertable s q = false) :
    virtSend s q id = parkReq s q (BitVec.ofNat 21 id) (refillAttr s 0 (some q) (BitVec.ofNat 21 id)).prio none := by
  rw [virtSend, virtRaise, if_neg (by simp [hv])]

theorem sendsHere_took {q : BitVec 16} : sendsHere (took s p none) k q ↔ sendsHere s k q := by
  simp [sendsHere]

end

section
variable {s : State} {k : BitVec 7} {p : Path} {arg : W32} (h : running s = true) (hk : k.toNat < s.par.targets) (ho : Offers s k.toNat p)
  (hc : p.ctx = 2) (hg : guestOn (s.tgt k.toNat) = true) (hr : field arg 31 20 = 0)
include h hk ho hc hg hr

section
variable (hq : sendsHere s k.toNat (BitVec.ofNat 16 (field arg 19 4)))
include hq

/-- The event joins the tree of the target where the vPE is resident. -/
theorem send_guest_inserts (hv : vpeInsertable s (BitVec.ofNat 16 (field arg 19 4)) = true)
    (room : (s.tgt (s.vword (BitVec.ofNat 16 (field arg 19 4))).target).opq.length < 64) : Gives (.send k p arg) s fun t =>
    let q := BitVec.ofNat 16 (field arg 19 4)
    let ev := BitVec.ofNat 21 (field arg 3 0)
    t = { took s p (some 0) with tg := t.tg } ∧
    ∀ j, t.tgt j =
      let z := { s.tgt j with opq := (s.tgt j).opq ++
        if j = (s.vword q).target then [virtOp q ev (refillAttr s 0 (some q) ev) s.count none] else [] }
      if j = k.toNat then shows z p (statusWord 0 false) else z := by
  have acts := sendDo_guest_here (s := took s p none) (k := k.toNat) hc (by simpa using hg) hr (sendsHere_took.mpr hq)
  rw [virtSend_room (by simpa using hv) (by simpa using room)] at acts
  simp only [took_vword, took_refillAttr, took_count] at acts
  exact gives_ended h hk ho rfl acts (made_withOp ..) List.not_mem_nil fun t e =>
    ⟨e.guest (isFrame_guest hc) (took_regs ..) (took_err ..) (took_pnl ..) (took_wft ..), e.tgt⟩

/-- The vPE taking no insert, the event is parked. -/
theorem send_guest_parks (hv : vpeInsertable s (BitVec.ofNat 16 (field arg 19 4)) = false) : Gives (.send k p arg) s fun t =>
    let q := BitVec.ofNat 16 (field arg 19 4)
    let ev := BitVec.ofNat 21 (field arg 3 0)
    t = { took s p (some 0) with tg := t.tg, pnl := { s.pnl with parkQ := s.pnl.parkQ ++
      [{ v := q, ev := ev, prio := (refillAttr s 0 (some q) ev).prio, wid := none }] } } ∧
    ∀ j, t.tgt j = if j = k.toNat then shows (s.tgt k.toNat) p (statusWord 0 false) else s.tgt j := by
  have acts := sendDo_guest_here (s := took s p none) (k := k.toNat) hc (by simpa using hg) hr (sendsHere_took.mpr hq)
  rw [virtSend_parks (by simpa using hv)] at acts
  refine gives_ended h hk ho rfl acts ⟨rfl, fun _ _ => took_rd .., took_tgt s p none⟩ List.not_mem_nil fun t e => ⟨?_, e.tgt_same⟩
  exact e.shape_chan (isFrame_guest hc) (took_regs ..) ((took_err ..).trans (took_err ..).symm) (by simp [parkReq])
    ((took_wft ..).trans (took_wft ..).symm)

end

theorem send_guest_range (hq : ¬ sendsHere s k.toNat (BitVec.ofNat 16 (field arg 19 4))) : Gives (.send k p arg) s fun t =>
    t = { took s p (some 0) with tg := t.tg } ∧
    ∀ j, t.tgt j = if j = k.toNat then shows (s.tgt k.toNat) p (statusWord 4 false) else s.tgt j :=
  gives_ended h hk ho rfl (sendDo_guest_range hc (by simpa using hg) hr fun here => hq (sendsHere_took.mp here)) (made_took s p)
    List.not_mem_nil fun t e => ⟨e.guest (isFrame_guest hc) (took_regs ..) (took_err ..) (took_pnl ..) (took_wft ..), e.tgt_same⟩

end

/-! ### SET_PMASK and SET_SPLIT (09 R210, 03 R69) -/

/-- The engine once SET_PMASK has set what its context may set. -/
def masked (x : Tg) (p : Path) (arg : W32) : Tg :=
  let v : Byte := arg.truncate 8
  if p.ctx = 2 then { x with virt := { x.virt with pmask := v } }
  else if p.ctx = 1 then { x with phys := { x.phys with pmask := if v < x.nsfloor then x.nsfloor else v } }
  else { x with phys := { x.phys with pmask := v }, nsfloor := bif p.isFrame then (arg >>> 8).truncate 8 else x.nsfloor }

/-- The engine once SET_SPLIT has set what its context may set. -/
def splitAs (x : Tg) (p : Path) (arg : W32) : Tg :=
  let sp : BitVec 3 := arg.truncate 3
  let on := arg.getLsbD 3
  if p.ctx = 2 then { x with virt := { x.virt with split1 := sp, splitc1 := on } }
  else if p.ctx = 1 then { x with phys := { x.phys with split1 := sp, splitc1 := on } }
  else { x with phys := { x.phys with split1 := sp, splitc1 := on, split0 := (arg >>> 4).truncate 3, splitc0 := arg.getLsbD 7 } }

theorem ofNat_field8 (w : W32) : BitVec.ofNat 8 (field w 15 8) = (w >>> 8).truncate 8 := by
  apply BitVec.eq_of_toNat_eq
  simp [field]

theorem ofNat_field3 (w : W32) : BitVec.ofNat 3 (field w 6 4) = (w >>> 4).truncate 3 := by
  apply BitVec.eq_of_toNat_eq
  simp [field]

/-- From s to m target k has become y, and nothing else has changed. -/
structure OneTgt (s m : State) (k : Nat) (y : Tg) : Prop where
  frame : m = { s with tg := m.tg }
  tgt : ∀ j, m.tgt j = if j = k then y else s.tgt j

theorem oneTgt_setTgt (s : State) (k : Nat) (y : Tg) : OneTgt s (s.setTgt k y) k y := ⟨rfl, fun _ => tgt_setTgt ..⟩

theorem OneTgt.modTgt {s m : State} {k : Nat} {y : Tg} (h : OneTgt s m k y) (f : Tg → Tg) : OneTgt s (m.modTgt k f) k (f y) where
  frame := by rw [State.modTgt, State.setTgt, h.frame]
  tgt j := by
    rw [tgt_modTgt, h.tgt, h.tgt, if_pos rfl]
    split <;> rfl

theorem setPmaskDo_spec {s : State} {k : Nat} {p : Path} {arg : W32} (hr : field arg 31 (if p.isFrame then 16 else 8) = 0)
    (h3 : p.ctx ≠ 3) (hg : p.ctx = 2 → guestOn (s.tgt k) = true) (hl : p.isFrame = true → p.ctx = 0 → locked s 0 = false) :
    ∃ m, setPmaskDo s k p arg = answer m k p stOk false ∧ OneTgt s m k (masked (s.tgt k) p arg) := by
  have rsv : ¬ (if p.isFrame then field arg 31 16 ≠ 0 else field arg 31 8 ≠ 0) := by
    split at hr <;> simp [*]
  rw [setPmaskDo, checked_passes h3 (decide_eq_false rsv) hg, masked]
  obtain hc | hc | hc := ctx_cases h3
  · cases hf : p.isFrame with
    | true =>
      simp only [hc, BitVec.reduceEq, Bool.not_true, Bool.false_eq_true, if_false]
      rw [if_neg (by simp [hl hf hc]), ofNat_field8]
      exact ⟨_, rfl, (oneTgt_setTgt ..).modTgt _⟩
    | false =>
      simp only [hc, BitVec.reduceEq, Bool.not_false, if_true, if_false]
      exact ⟨_, rfl, oneTgt_setTgt ..⟩
  · simp only [hc, BitVec.reduceEq, if_true, if_false]
    exact ⟨_, rfl, oneTgt_setTgt ..⟩
  · simp only [hc, if_true]
    exact ⟨_, rfl, oneTgt_setTgt ..⟩

theorem setSplitDo_spec {s : State} {k : Nat} {p : Path} {arg : W32} (hr : field arg 31 8 = 0)
    (h3 : p.ctx ≠ 3) (hg : p.ctx = 2 → guestOn (s.tgt k) = true ∧ field arg 7 4 = 0) (hl : p.ctx = 0 → locked s 0 = false) :
    ∃ m, setSplitDo s k p arg = answer m k p stOk false ∧ OneTgt s m k (splitAs (s.tgt k) p arg) := by
  have rsv : (decide (field arg 31 8 ≠ 0) || (decide (p.ctx = 2) && decide (field arg 7 4 ≠ 0))) = false := by
    simp only [hr, ne_eq, not_true_eq_false, decide_false, Bool.false_or, Bool.and_eq_false_iff, decide_eq_false_iff_not, not_not]
    exact Decidable.or_iff_not_imp_left.mpr fun h2 => (hg (not_not.mp h2)).2
  rw [setSplitDo, checked_passes h3 rsv fun h2 => (hg h2).1, splitAs]
  obtain hc | hc | hc := ctx_cases h3
  · simp only [hc, BitVec.reduceEq, if_false]
    rw [if_neg (by simp [hl hc]), ofNat_field3]
    exact ⟨_, rfl, (oneTgt_setTgt ..).modTgt _⟩
  · simp only [hc, BitVec.reduceEq, if_true, if_false]
    exact ⟨_, rfl, oneTgt_setTgt ..⟩
  · simp only [hc, if_true]
    exact ⟨_, rfl, oneTgt_setTgt ..⟩

/-- An operation that has changed its own target's engine alone, and answers OK. -/
theorem gives_oneTgt {s m : State} {k : BitVec 7} {p : Path} {i : Instr} {act : State → State} {y : Tg} (h : running s = true)
    (hk : k.toNat < s.par.targets) (ho : Offers s k.toNat p) (hx : exec i s = .next (chanOp act k.toNat p s))
    (ha : act (took s p none) = answer m k.toNat p stOk false) (hm : OneTgt (took s p none) m k.toNat y) : Gives i s fun t =>
      t = { took s p (some 0) with tg := t.tg, regs := t.regs } ∧ Status s t k.toNat p 0 false [] ∧
      t.tgt k.toNat = shows y p (statusWord 0 false) ∧ ∀ j, j ≠ k.toNat → t.tgt j = s.tgt j := by
  have made : Made s p m [] fun j => if j = k.toNat then y else s.tgt j := by
    refine ⟨?_, fun j _ => ?_, fun j => ?_⟩
    · rw [hm.frame]
    · rw [hm.frame]
      exact took_rd ..
    · rw [hm.tgt, took_tgt]
  have err : m.err = s.err := by rw [hm.frame]; exact took_err ..
  have pnl : m.pnl = s.pnl := by rw [hm.frame]; exact took_pnl ..
  have wft : m.wft = s.wft := by rw [hm.frame]; exact took_wft ..
  exact gives_ended h hk ho hx ha made List.not_mem_nil fun t e =>
    ⟨e.plain err pnl wft, e.status, e.tgt_self.trans (by rw [if_pos rfl]), fun j hj => (e.tgt_other hj).trans (if_neg hj)⟩

/-! ### A residency switch begins (09 R211, 10 R235) -/

section
variable {s : State}

theorem vword_setVword (s : State) (v u : BitVec 16) (w : VWord) : (s.setVword v w).vword u = if u = v then w else s.vword u := by
  unfold State.vword State.setVword
  rw [Tbl.get_put]
  by_cases hu : u = v
  · simp [hu]
  · rw [if_neg hu, if_neg fun e => hu (BitVec.eq_of_toNat_eq e)]

/-- Parking changes the queue of the parks alone. -/
theorem foldl_parkReq_frame (l : List TOp) : ∀ s : State,
    let t := l.foldl (fun s o => parkReq s o.vpe o.ev o.attr.prio o.wid) s
    t = { s with pnl := { s.pnl with parkQ := t.pnl.parkQ } } := by
  induction l with
  | nil => exact fun _ => rfl
  | cons o l ih =>
    intro s
    simp only [List.foldl_cons]
    rw [ih]
    rfl

/-- The engine once every entry that p takes has an FLS waiting. -/
def flsQueued (x : Tg) (p : Entry → Bool) : Tg :=
  let has := fun (e : Entry) => x.ops.any fun o => o.kind = .fls && o.virt = e.virt && decide (o.ev = e.ev)
  let new := (x.entries.filter fun e => p e && !has e).map fun e =>
    { mkOp .fls e.virt e.ev { prio := e.base, group := e.group, cls := e.cls } e.arr with vpe := x.vpe }
  let room := if x.src.isEmpty then 64 - x.opq.length else 0
  { x with opq := x.opq ++ new.take room, src := x.src ++ new.drop room }

theorem queueFls_eq (s : State) (k : Nat) (p : Entry → Bool) : queueFls s k p = s.modTgt k (flsQueued · p) := rfl

/-- What waits goes on waiting as other operations join the queue and the source. -/
theorem mem_ops_append {x : Tg} {l m : List TOp} {o : TOp} (h : o ∈ x.ops ∨ o ∈ l ∨ o ∈ m) :
    o ∈ Tg.ops { x with opq := x.opq ++ l, src := x.src ++ m } := by
  simp only [Tg.ops, List.mem_append] at h ⊢
  tauto

theorem exists_fls_of_flsQueued {x : Tg} {p : Entry → Bool} {e : Entry} (he : e ∈ x.entries) (hp : p e = true) :
    ∃ o ∈ (flsQueued x p).ops, o.kind = .fls ∧ o.virt = e.virt ∧ o.ev = e.ev := by
  unfold flsQueued
  by_cases has : (x.ops.any fun o => o.kind = .fls && o.virt = e.virt && decide (o.ev = e.ev)) = true
  · obtain ⟨o, mem, same⟩ := List.any_eq_true.mp has
    exact ⟨o, mem_ops_append (.inl mem), by simpa [and_assoc] using same⟩
  · refine ⟨{ mkOp .fls e.virt e.ev { prio := e.base, group := e.group, cls := e.cls } e.arr with vpe := x.vpe },
      mem_ops_append (.inr ?_), rfl, rfl, rfl⟩
    rw [← List.mem_append, List.take_append_drop]
    exact List.mem_map.mpr ⟨e, List.mem_filter.mpr ⟨he, by simp [hp, has]⟩, rfl⟩

/-- The vPE that a switch of target k takes away. -/
def leaving (x : Tg) : Option (BitVec 16) := if x.vpeV then some x.vpe else none

/-- s once the leaving and the arriving vPE of a switch are marked. -/
def switchMarked (s : State) (k : Nat) (new : Option (BitVec 16)) : State :=
  let left := match leaving (s.tgt k) with
    | some o => s.setVword o { s.vword o with switching := true, dbarm := true }
    | none => s
  match new with
    | some n => left.setVword n { left.vword n with switching := true }
    | none => left

/-- The engine at the first step of a switch. -/
def switchTg (x : Tg) (new : Option (BitVec 16)) : Tg :=
  { x with sw := some { step := .s2, old := leaving x, new := new }, leadV := none, urgent := x.urgent.filter (fun o => !o.virt),
           swpV := SweepEng.empty, sbuf := x.buf false }

theorem startSwitch_eq (s : State) (k : Nat) (new : Option (BitVec 16)) : startSwitch s k new =
    queueFls (((s.tgt k).urgent.filter (·.virt) ++ (s.tgt k).buf true).foldl (fun s o => parkReq s o.vpe o.ev o.attr.prio o.wid)
      ((switchMarked s k new).setTgt k (switchTg (s.tgt k) new))) k (·.virt) := rfl

theorem switchMarked_frame (s : State) (k : Nat) (new : Option (BitVec 16)) :
    switchMarked s k new = { s with pnl := (switchMarked s k new).pnl } := by
  unfold switchMarked
  split <;> split <;> rfl

/-- The arriving vPE, which is not the leaving one, switches. -/
theorem switchMarked_arriving {k : Nat} {q : BitVec 16} (hq : (s.tgt k).vpe ≠ q) :
    (switchMarked s k (some q)).vword q = { s.vword q with switching := true } := by
  unfold switchMarked leaving
  cases (s.tgt k).vpeV <;> simp [vword_setVword, Ne.symm hq]

/-- The leaving vPE switches, and its doorbell is armed. -/
theorem switchMarked_leaving {k : Nat} {new : Option (BitVec 16)} (hv : (s.tgt k).vpeV = true)
    (hn : ∀ q, new = some q → (s.tgt k).vpe ≠ q) :
    (switchMarked s k new).vword (s.tgt k).vpe = { s.vword (s.tgt k).vpe with switching := true, dbarm := true } := by
  unfold switchMarked leaving
  cases new with
  | none => simp [vword_setVword, hv]
  | some q => simp [vword_setVword, hv, hn q rfl]

/-- Where a switch begins its target's engine has every virtual entry queued to be flushed; beside it the vPEs are marked and
what had been formed for the leaving one is parked. -/
theorem startSwitch_spec (s : State) (k : Nat) (new : Option (BitVec 16)) :
    let t := startSwitch s k new
    t = { s with tg := t.tg, pnl := t.pnl } ∧
    (∀ j, t.tgt j = if j = k then flsQueued (switchTg (s.tgt k) new) (·.virt) else s.tgt j) ∧
    ∀ v, t.vword v = (switchMarked s k new).vword v := by
  have marked := switchMarked_frame s k new
  rw [startSwitch_eq, queueFls_eq]
  have parked := foldl_parkReq_frame ((s.tgt k).urgent.filter (·.virt) ++ (s.tgt k).buf true)
    ((switchMarked s k new).setTgt k (switchTg (s.tgt k) new))
  generalize List.foldl _ _ _ = u at parked
  have tgt : ∀ j, u.tgt j = if j = k then switchTg (s.tgt k) new else s.tgt j := fun j => by
    rw [parked, marked]
    exact tgt_setTgt ..
  refine ⟨?_, fun j => ?_, fun v => ?_⟩
  · rw [parked, marked]
    rfl
  · rw [tgt_modTgt, tgt, tgt, if_pos rfl]
    split <;> rfl
  · rw [parked]
    rfl

end

/-! ### SET_VPE (09 R211) -/

section
variable (x : Tg) (p : Path) (w : W32)

theorem shows_sw : (shows x p w).sw = x.sw := by unfold shows; split <;> rfl
theorem shows_entries : (shows x p w).entries = x.entries := by unfold shows; split <;> rfl
theorem shows_ops : (shows x p w).ops = x.ops := by unfold shows; split <;> rfl
theorem shows_rsp : (shows x p w).rsp = if p.isFrame then x.rsp else w := by unfold shows; split <;> rfl

end

/-- SET_VPE names no vPE, or one that is nowhere resident and may arrive. -/
def MayArrive (s : State) (x : Tg) (arg : W32) (new : Option (BitVec 16)) : Prop :=
  new = none ∧ field arg 31 16 = 0 ∨ ∃ q, new = some q ∧ field arg 31 16 = 1 ∧ q = arg.truncate 16 ∧
    q.toNat < s.par.vpes ∧ (s.vword q).v = true ∧ (s.vword q).switching = false ∧ (s.vword q).res = false ∧ x.vpe ≠ q

theorem field_vpe {w : W32} {b : Bool} (h : field w 31 16 = b.toNat) : field w 31 17 = 0 ∧ bitAt w 16 = b := by
  rw [bitAt_field]
  simp only [field, Nat.shiftRight_eq_div_pow] at h ⊢
  cases b
  · simp only [Bool.toNat_false] at h
    exact ⟨by omega, decide_eq_false (by omega)⟩
  · simp only [Bool.toNat_true] at h
    exact ⟨by omega, decide_eq_true (by omega)⟩

theorem setVpeDo_switches {s : State} {k : Nat} {p : Path} {arg : W32} {new : Option (BitVec 16)} (hc : p.ctx = 0 ∨ p.ctx = 1)
    (hw : (s.tgt k).sw = none) (hn : MayArrive s (s.tgt k) arg new) :
    setVpeDo s k p arg = answer (startSwitch s k new) k p stOk false := by
  have host : ¬ (p.ctx = 3 ∨ p.ctx = 2) := by
    obtain hc | hc := hc <;> simp [hc]
  obtain ⟨rfl, none'⟩ | ⟨q, rfl, one, rfl, range, live, still, away, other⟩ := hn
  · obtain ⟨rsv, on⟩ := field_vpe (b := false) none'
    have check : setVpeCheck s k (arg.truncate 16) false = stOk := by simp [setVpeCheck, hw]
    simp only [setVpeDo, if_neg host, rsv, on, check, Bool.false_and, Bool.false_eq_true, ne_eq, not_true_eq_false, if_false]
  · obtain ⟨rsv, on⟩ := field_vpe (b := true) one
    have check : setVpeCheck s k (arg.truncate 16) true = stOk := by
      simp only [setVpeCheck, hw, live, still, away, Nat.not_le_of_lt range, decide_false, Bool.and_false, Bool.not_true,
        Bool.or_false, Bool.false_and, Bool.false_eq_true, Option.isSome_none, if_false]
    simp only [setVpeDo, if_neg host, rsv, on, check, ne_eq, not_true_eq_false, if_false, other, decide_false, Bool.and_false,
      Bool.false_eq_true, if_true]

theorem MayArrive.took {s : State} {p : Path} {x : Tg} {arg : W32} {new : Option (BitVec 16)} (h : MayArrive s x arg new) :
    MayArrive (took s p none) x arg new := by
  simpa only [MayArrive, took_par, took_vword] using h

theorem switchMarked_took (s : State) (p : Path) (k : Nat) (new : Option (BitVec 16)) (v : BitVec 16) :
    (switchMarked (took s p none) k new).vword v = (switchMarked s k new).vword v := by
  unfold switchMarked
  rw [took_tgt]
  cases leaving (s.tgt k) <;> cases new <;> simp [vword_setVword]

theorem offers_chan {s : State} {k : BitVec 7} {c : BitVec 2} (hw : (s.tgt k.toNat).wait = none) : Offers s k.toNat (.chan c) := fun w h => by
  simp [hw] at h

section
variable {s : State} {k : BitVec 7} {p : Path} {arg : W32} (h : running s = true) (hk : k.toNat < s.par.targets)
theorem exec_setVpe {s : State} {k : BitVec 7} {p : Path} {arg : W32} (he : (s.tgt k.toNat).ext = none) :
    exec (.setVpe k p arg) s = .next (chanOp (fun s => setVpeDo s k.toNat p arg) k.toNat p s) :=
  congrArg Host.Outcome.next (if_neg (by simp [setVpeWaits, he]))

include h hk

theorem setVpe_switches (ho : Offers s k.toNat p) {new : Option (BitVec 16)} (hc : p.ctx = 0 ∨ p.ctx = 1)
    (hw : (s.tgt k.toNat).sw = none) (he : (s.tgt k.toNat).ext = none) (hn : MayArrive s (s.tgt k.toNat) arg new) :
    Gives (.setVpe k p arg) s fun t =>
      let x := s.tgt k.toNat
      t = { took s p (some 0) with tg := t.tg, pnl := t.pnl, regs := t.regs } ∧ Status s t k.toNat p 0 false [] ∧
      t.tgt k.toNat = shows (flsQueued (switchTg x new) (·.virt)) p (statusWord 0 false) ∧
      (∀ v, t.vword v = (switchMarked s k.toNat new).vword v) ∧ ∀ j, j ≠ k.toNat → t.tgt j = s.tgt j := by
  obtain ⟨frame, tgt, vword⟩ := startSwitch_spec (took s p none) k.toNat new
  have acts := setVpeDo_switches (s := took s p none) (k := k.toNat) hc (by simpa using hw) (by simpa using hn.took)
  simp only [took_tgt, switchMarked_took] at tgt vword
  generalize startSwitch (took s p none) k.toNat new = m at frame tgt vword acts
  have made : Made s p m [] fun j => if j = k.toNat then flsQueued (switchTg (s.tgt k.toNat) new) (·.virt) else s.tgt j := by
    refine ⟨?_, fun j _ => ?_, tgt⟩
    · rw [frame]
    · rw [frame]
      exact took_rd ..
  have err : m.err = s.err := by rw [frame]; exact took_err ..
  have wft : m.wft = s.wft := by rw [frame]; exact took_wft ..
  refine gives_ended h hk ho (exec_setVpe he) acts made List.not_mem_nil fun t e => ?_
  have pnl : t.pnl = m.pnl := by rw [e.frame]
  refine ⟨?_, e.status, e.tgt_self.trans (by rw [if_pos rfl]), fun v => ?_, fun j hj => (e.tgt_other hj).trans (if_neg hj)⟩
  · rw [pnl]
    exact e.shape (err.trans (took_err ..).symm) rfl (wft.trans (took_wft ..).symm)
  · rw [← vword, State.vword, pnl]
    rfl

/-! ### Operations that are answered BAD_OP (09 R199, R211) -/

theorem gives_badOp {i : Instr} {c : BitVec 2} {act : State → State} (hw : (s.tgt k.toNat).wait = none)
    (hx : exec i s = .next (chanOp act k.toNat (.chan c) s))
    (ha : act (took s (.chan c) none) = badOp (took s (.chan c) none) k.toNat (.chan c)) (hq : s.err.queue.length < 16) :
    Gives i s fun t =>
      t = { begun s with tg := t.tg, regs := t.regs, err := t.err } ∧
      Flagged s t 5 (tgtOff k.toNat Reg.TGT_ERR) 1 k.toNat false ∧ RegsApart s t [tgtOff k.toNat Reg.TGT_ERR] ∧
      t.tgt k.toNat = { s.tgt k.toNat with rsp := statusWord 2 false } ∧ ∀ j, j ≠ k.toNat → t.tgt j = s.tgt j := by
  obtain ⟨made, flag⟩ := made_tgtFlag (.chan c) (i := 1) k.isLt (by decide) hq
  refine gives_ended h hk (offers_chan hw) hx ha made (opstat_notMem _ _) fun t e =>
    ⟨e.flags ((setFlag_pnl ..).trans (took_pnl ..)) ((setFlag_wft ..).trans (took_wft ..)), e.flagged (opstat_ne _ _) flag,
      e.apart_chan rfl, e.tgt_self, fun _ => e.tgt_other⟩

end

/-- On the channel a command's operation does not ask whether it reads. -/
theorem chanOp_chan (act : State → State) (k : Nat) (c : BitVec 2) (s : State) (read : Bool) :
    chanOp act k (.chan c) s read = chanOp act k (.chan c) s := rfl

/-- Opcodes 0x0 to 0x7 name the operations of the other rows. -/
theorem exec_opcode {s : State} {k : BitVec 7} {c : BitVec 2} {arg : W32} (hw : (s.tgt k.toNat).wait = none) :
    ∀ i ∈ [(0, Instr.claim k (.chan c)), (1, .complete k (.chan c) arg), (2, .deactivate k (.chan c) arg),
        (3, .send k (.chan c) arg), (4, .setPmask k (.chan c) arg), (5, .setSplit k (.chan c) arg),
        (6, .setVpe k (.chan c) arg), (7, .peek k (.chan c))], exec (.undefinedOp k i.1 c arg) s = exec i.2 s := by
  intro i hi
  simp only [List.mem_cons, List.not_mem_nil, or_false] at hi
  obtain rfl | rfl | rfl | rfl | rfl | rfl | rfl | rfl := hi
  · show execUndefinedOp .. = execClaim ..
    simp [execUndefinedOp, execClaim, hw, chanOp_chan _ _ _ _ true]
    rfl
  · rfl
  · rfl
  · rfl
  · rfl
  · rfl
  · show execUndefinedOp .. = execSetVpe ..
    simp [execUndefinedOp, execSetVpe]
    rfl
  · rfl

theorem chanOpDo_undefined {op : BitVec 4} (ho : 8 ≤ op.toNat) (s : State) (k : Nat) (c : BitVec 2) (arg : W32) :
    chanOpDo s k op c arg = badOp s k (.chan c) := by
  unfold chanOpDo
  split
  case h_9 => rfl
  all_goals omega

theorem exec_undefinedOp {s : State} {k : BitVec 7} {op : BitVec 4} {c : BitVec 2} {arg : W32} (ho : 8 ≤ op.toNat) :
    exec (.undefinedOp k op c arg) s = .next (chanOp (fun s => undefinedOpDo s k.toNat op c arg) k.toNat (.chan c) s) := by
  have named : ¬ ((op = 6 ∧ setVpeWaits s k.toNat = true) ∨ (op = 0 ∧ (s.tgt k.toNat).wait.isSome = true)) := by
    rintro (⟨rfl, -⟩ | ⟨rfl, -⟩) <;> exact absurd ho (by decide)
  exact congrArg Host.Outcome.next (if_neg named)

theorem setVpeDo_guest {c : BitVec 2} (hc : 2 ≤ c.toNat) (s : State) (k : Nat) (arg : W32) :
    setVpeDo s k (.chan c) arg = badOp s k (.chan c) := by
  have guest : c = 3 ∨ c = 2 := by
    revert c
    decide
  exact if_pos guest

/-- Settles O27: each operation, taken by its target's engine, makes its part and ends with a status. -/
theorem sendsAndSettings : Obligations.SendsAndSettings := by
  unfold Obligations.SendsAndSettings
  refine ⟨fun s k p arg h hk ho => ⟨fun hc hf hi hu => ?_, fun hc hr hl hs => send_all h hk ho hc hr hs hl, fun hc hf => ?_,
    fun hc hg hr => ⟨send_guest_inserts h hk ho hc hg hr, send_guest_parks h hk ho hc hg hr, send_guest_range h hk ho hc hg hr⟩,
    fun hr h3 hg hl => ?_, fun hr h3 hg hl => ?_, fun new hc hw he hn => ?_⟩, fun s k c arg h hk hw => ⟨exec_opcode hw, ?_⟩⟩
  · have own : field arg 17 11 = s.instId.toNat := by rw [← hi, toNat_field7]
    exact ⟨send_here h hk ho hc hf own hu, send_secure h hk ho hc hf own hu⟩
  · rw [toNat_field7]
    refine ⟨send_absent h hk ho hc hf, send_range h hk ho hc hf, fun n ha hi hu hn => send_remote h hk ho hc hf ha ?_ hu hn⟩
    exact fun own => hi (BitVec.eq_of_toNat_eq ((toNat_field7 arg).trans own))
  · obtain ⟨m, acts, made⟩ := setPmaskDo_spec (s := took s p none) hr h3 (by simpa using hg) (by simpa using hl)
    refine gives_mono (gives_oneTgt h hk ho rfl acts made) fun t ⟨frame, status, own, other⟩ => ?_
    rw [took_tgt] at own
    exact ⟨frame, status, fun hc => by simp [own, masked, hc], fun hc => by simp [own, masked, hc],
      fun hc => by simp [own, masked, hc], other⟩
  · obtain ⟨m, acts, made⟩ := setSplitDo_spec (s := took s p none) hr h3 (by simpa using hg) (by simpa using hl)
    refine gives_mono (gives_oneTgt h hk ho rfl acts made) fun t ⟨frame, status, own, other⟩ => ?_
    rw [took_tgt] at own
    exact ⟨frame, status, fun hc => by simp [own, splitAs, hc], fun hc => by simp [own, splitAs, hc],
      fun hc => by simp [own, splitAs, hc], other⟩
  · refine gives_mono (setVpe_switches h hk ho hc hw he hn) fun t ⟨frame, status, own, vword, other⟩ => ?_
    have apart : ∀ q, new = some q → (s.tgt k.toNat).vpe ≠ q := fun q hq => by
      obtain ⟨none', -⟩ | ⟨r, some', -, -, -, -, -, -, ne⟩ := hn
      · simp [none'] at hq
      · obtain rfl := Option.some.inj (some'.symm.trans hq)
        exact ne
    refine ⟨frame, status, ?_, ?_, ?_, fun q hq => ?_, fun hv => ?_, fun e he hv => ?_, other⟩
    · rw [own, shows_sw]
      rfl
    · rw [own, shows_entries]
      rfl
    · rw [own, shows_rsp, shows_rsp]
      rfl
    · subst hq
      rw [vword, switchMarked_arriving (apart q rfl)]
    · rw [vword, switchMarked_leaving hv apart]
    · have flushed := exists_fls_of_flsQueued (x := switchTg (s.tgt k.toNat) new) (p := (·.virt)) he hv
      rwa [own, shows_ops, ← hv]
  · rintro i (⟨op, hop, rfl⟩ | ⟨hc, he, rfl⟩) hq
    · exact gives_badOp h hk hw (exec_undefinedOp hop) (chanOpDo_undefined hop ..) hq
    · exact gives_badOp h hk hw (exec_setVpe he) (setVpeDo_guest hc ..) hq

end Sys2Proof.Machine
end
section
namespace Sys2Proof.Machine

/-! ### A local input changes (09 R216) -/

/-- s with line n of target k at the level given. -/
def pinned (s : State) (k n : Nat) (lvl : Bool) : State :=
  let w : BitVec 16 := Tbl.get 0 s.localPins k
  let m : BitVec 16 := 1#16 <<< n
  { s with localPins := Tbl.put s.localPins k (if lvl then w ||| m else w &&& ~~~m) }

theorem localPin_pinned (s : State) (k : Nat) {n : Nat} (hn : n < 16) (lvl : Bool) (k' n' : Nat) :
    localPin (pinned s k n lvl) k' n' = if k' = k ∧ n' = n then lvl else localPin s k' n' := by
  unfold localPin pinned
  rw [Tbl.get_put]
  by_cases hk : k' = k
  · subst hk
    have mask : (1#16 <<< n).getLsbD n' = decide (n' = n) := by
      rw [← BitVec.twoPow_eq, BitVec.getLsbD_twoPow]
      by_cases h : n' = n <;> simp [h, hn, Ne.symm]
    by_cases h : n' = n
    · subst h
      cases lvl <;> simp [mask]
    · cases lvl <;> simp [mask, h]
      exact fun hg => BitVec.lt_of_getLsbD hg
  · simp [hk]

/-- While the block runs the engine takes the change as it comes. -/
theorem localChange_running {s : State} (h : running s = true) (k : Nat) (n : BitVec 4) (lvl : Bool) :
    localChange s k n.toNat lvl = localInput (pinned s k n.toNat lvl) k n lvl := by
  obtain ⟨hr, hs, hp, -⟩ := (running_iff (pinned s k n.toNat lvl)).mp h
  have live : (liveOn (pinned s k n.toNat lvl) 1 && decide ((pinned s k n.toNat lvl).rst.phase = .run)) = true := by
    simp [liveOn, grpOn, hr, hp]
  have pin := localPin_pinned s k n.isLt lvl k n.toNat
  rw [if_pos ⟨rfl, rfl⟩] at pin
  have same : BitVec.ofNat 4 n.toNat = n := by simp
  calc
    localChange s k n.toNat lvl = localSync (pinned s k n.toNat lvl) k n.toNat := if_pos live
    _ = localInput (pinned s k n.toNat lvl) k n lvl := by rw [localSync, pin, same]

theorem icfgAttr_congr {s t : State} {k i : Nat} (h : t.rd (icfgOff k i) = s.rd (icfgOff k i)) : icfgAttr t k i = icfgAttr s k i := by
  rw [icfgAttr, icfgAttr, h]

/-- What the event of the input has as priority, group and class does not depend on LINE. -/
theorem icfgAttr_setLine {s t : State} {k i : Nat} {b : Bool} (h : t.rd (icfgOff k i) = setBit (s.rd (icfgOff k i)) 13 b) :
    icfgAttr t k i = icfgAttr s k i := by
  have bits : ∀ j, j < 13 → (t.rd (icfgOff k i)).getLsbD j = (s.rd (icfgOff k i)).getLsbD j := fun j hj => by
    rw [h, getLsbD_setBit _ _ _ _ (by decide), if_neg (by omega)]
  simp only [icfgAttr, bitAt, bits 8 (by decide), field_congr fun j _ hj => bits j (Nat.lt_of_le_of_lt hj (by decide : 7 < 13)),
    field_congr fun j _ hj => bits j (Nat.lt_of_le_of_lt hj (by decide : 11 < 13))]

section
variable {s : State} {k : Nat} {n : BitVec 4} {lvl : Bool} (h : running s = true) (hk : k < s.par.targets)
  (hl : s.bit (icfgOff k (16 + n.toNat)) 13 ≠ lvl)
include hk hl

/-- A disabled input shows its level in LINE alone. -/
theorem localInput_disabled (he : s.bit (icfgOff k (16 + n.toNat)) 12 = false) :
    localInput s k n lvl = s.setBitR (icfgOff k (16 + n.toNat)) 13 lvl := by
  rw [localInput, if_neg (by simp [hl]; omega)]
  exact if_pos (by simp [he])

include h

/-- The event of an enabled input joins its target's queue. -/
theorem localInput_enabled (he : s.bit (icfgOff k (16 + n.toNat)) 12 = true) (room : (s.tgt k).opq.length < 64)
    (hs : lvl = true ∨ (s.tgt k).src = []) :
    let i := 16 + n.toNat
    localInput s k n lvl = withOp (begun (s.setBitR (icfgOff k i) 13 lvl)) k
      (if lvl then { mkOp .ins false (BitVec.ofNat 21 i) (icfgAttr s k i) s.count with level := true }
       else mkOp .drop false (BitVec.ofNat 21 i) (icfgAttr s k i) s.count) := by
  intro i
  have seen : running (s.setBitR (icfgOff k i) 13 lvl) = true := by
    have apart : Reg.PWR_STAT ≠ icfgOff k i := by
      unfold icfgOff Reg.PWR_STAT
      omega
    rw [running_congr (s := s) (by simp) (by simp) ((rd_setBitR ..).trans (if_neg apart)), h]
  have attr : icfgAttr (begun (s.setBitR (icfgOff k i) 13 lvl)) k i = icfgAttr s k i :=
    icfgAttr_setLine ((rd_setBitR s (icfgOff k i) 13 (icfgOff k i) lvl).trans (if_pos rfl))
  have tgt : (begun (s.setBitR (icfgOff k i) 13 lvl)).tgt k = s.tgt k := congrArg (Tbl.get Tg.empty · k) (by simp [begun])
  have count : (begun (s.setBitR (icfgOff k i) 13 lvl)).count = s.count := by simp [begun]
  have acts : localInput s k n lvl =
      let u := begun (s.setBitR (icfgOff k i) 13 lvl)
      if lvl then localRaise u k i else localDrop u k i := by
    rw [localInput, if_neg (by simp [hl]; omega)]
    refine (if_neg (by simp [he])).trans ?_
    rw [activity_running seen, wake_running (show running (begun _) = true from seen)]
  rw [acts]
  cases lvl with
  | true =>
    simp only [if_true]
    refine (treeEnq_room (by rw [tgt]; exact room) (.inr rfl)).trans ?_
    rw [attr, count]
  | false =>
    simp only [Bool.false_eq_true, if_false]
    refine (treeEnq_room (by rw [tgt]; exact room) (.inl (by rw [tgt]; exact hs.resolve_left (by decide)))).trans ?_
    rw [attr, count]

end

theorem setBitR_frame (s : State) (off i : Nat) (b : Bool) :
    s.setBitR off i b = { s with regs := (s.setBitR off i b).regs, prf := (s.setBitR off i b).prf } := by
  apply State.ext <;> simp

theorem rd_withOp (s : State) (k : Nat) (o : TOp) (j : Nat) : (withOp s k o).rd j = s.rd j := rfl

theorem rd_begun (s : State) (j : Nat) : (begun s).rd j = s.rd j := rfl

section
variable {s : State} {k : BitVec 7} {n : BitVec 4} {lvl : Bool} (h : running s = true) (hk : k.toNat < s.par.targets)
  (hl : s.bit (icfgOff k.toNat (16 + n.toNat)) 13 ≠ lvl)
include h hk hl

theorem gives_localInput_disabled (he : s.bit (icfgOff k.toNat (16 + n.toNat)) 12 = false) :
    let o := icfgOff k.toNat (16 + n.toNat)
    Gives (.localInputChange k n lvl) s fun u =>
      u = { s with regs := u.regs, prf := u.prf, localPins := u.localPins } ∧
      (∀ t' n', localPin u t' n' = if t' = k.toNat ∧ n' = n.toNat then lvl else localPin s t' n') ∧
      u.rd o = setBit (s.rd o) 13 lvl ∧ ∀ off, off ≠ o → u.rd off = s.rd off := by
  intro o
  have acts : localChange s k.toNat n.toNat lvl = (pinned s k.toNat n.toNat lvl).setBitR o 13 lvl :=
    (localChange_running h k.toNat n lvl).trans (localInput_disabled hk hl he)
  have rd := rd_setBitR (pinned s k.toNat n.toNat lvl) o 13
  refine gives_intro (congrArg Host.Outcome.next acts) ⟨?_, fun t' n' => ?_, (rd o lvl).trans (if_pos rfl),
    fun j hj => (rd j lvl).trans (if_neg hj)⟩
  · rw [setBitR_frame]
    rfl
  · rw [setBitR_frame]
    exact localPin_pinned s k.toNat n.isLt lvl t' n'

theorem gives_localInput_enabled (he : s.bit (icfgOff k.toNat (16 + n.toNat)) 12 = true) (room : (s.tgt k.toNat).opq.length < 64)
    (hs : lvl = true ∨ (s.tgt k.toNat).src = []) :
    let i := 16 + n.toNat
    let o := icfgOff k.toNat i
    Gives (.localInputChange k n lvl) s fun u =>
      u.rd o = setBit (s.rd o) 13 lvl ∧
      (∀ t' n', localPin u t' n' = if t' = k.toNat ∧ n' = n.toNat then lvl else localPin s t' n') ∧
      (∀ off, off ≠ o → u.rd off = s.rd off) ∧
      u.tgt k.toNat = { s.tgt k.toNat with opq := (s.tgt k.toNat).opq ++
        [if lvl then { mkOp .ins false (BitVec.ofNat 21 i) (icfgAttr s k.toNat i) s.count with level := true }
         else mkOp .drop false (BitVec.ofNat 21 i) (icfgAttr s k.toNat i) s.count] } ∧
      ∀ j, j ≠ k.toNat → u.tgt j = s.tgt j := by
  intro i o
  have acts := (localChange_running h k.toNat n lvl).trans
    (localInput_enabled (s := pinned s k.toNat n.toNat lvl) h hk hl he room hs)
  have rd := rd_setBitR (pinned s k.toNat n.toNat lvl) o 13
  have frame := setBitR_frame (pinned s k.toNat n.toNat lvl) o 13 lvl
  refine gives_intro (congrArg Host.Outcome.next acts) ⟨?_, fun t' n' => ?_, fun j hj => ?_, ?_, fun j hj => ?_⟩
  · rw [rd_withOp, rd_begun]
    exact (rd o lvl).trans (if_pos rfl)
  · rw [frame]
    exact localPin_pinned s k.toNat n.isLt lvl t' n'
  · rw [rd_withOp, rd_begun]
    exact (rd j lvl).trans (if_neg hj)
  · rw [withOp_tgt, if_pos rfl, frame]
    rfl
  · rw [withOp_tgt, if_neg hj, frame, List.append_nil]
    rfl

end

/-! ### A write of TGT_ICFG (09 R216, R220) -/

/-- The bits of TGT_ICFG that a write takes: EN of IDs 0 to 15 is fixed. -/
def icfgMask (i : Nat) : W32 := if 16 ≤ i then 0x1FFF else 0xFFF

theorem and_icfgMask (i : Nat) : 0x1FFF &&& icfgMask i = icfgMask i := by
  unfold icfgMask
  split <;> decide

/-- The word once it has been written. -/
def icfgWord (cur d : W32) (i : Nat) : W32 := (cur &&& ~~~icfgMask i) ||| (d &&& icfgMask i)

theorem icfgWord_eq (cur d : W32) (i : Nat) :
    icfgWord cur d i = (cur &&& 0xFFFFE000) ||| (d &&& 0xFFF) ||| ((if 16 ≤ i then d else cur) &&& 0x1000) := by
  unfold icfgWord icfgMask
  split
  · have split' : (0x1FFF : W32) = 0xFFF ||| 0x1000 := by decide
    have rest : ~~~(0xFFF ||| 0x1000 : W32) = 0xFFFFE000 := by decide
    rw [split', rest, BitVec.and_or_distrib_left, BitVec.or_assoc]
  · have rest : ~~~(0xFFF : W32) = 0xFFFFE000 ||| 0x1000 := by decide
    rw [rest, BitVec.and_or_distrib_left, BitVec.or_assoc, BitVec.or_assoc, BitVec.or_comm (cur &&& 0x1000)]

theorem icfgOff_word {i : Nat} (hi : i < 32) (k : Nat) : (icfgOff k i % 0x1000 - 0x100) / 4 = i := by
  unfold icfgOff
  omega

section
variable {k i : Nat} (hk : k < 128) (hi : i < 32)
include hk hi

theorem icfgOff_place : isWinOff (icfgOff k i) = false ∧ isTgtOff (icfgOff k i) = true ∧ isIcfgOff (icfgOff k i) = true ∧
    icfgOff k i % 4 = 0 ∧ icfgOff k i % 0x1000 = 0x100 + 4 * i ∧ (icfgOff k i - 0x100000) / 0x1000 = k := by
  have place : icfgOff k i % 0x1000 = 0x100 + 4 * i := by
    unfold icfgOff
    omega
  have frame : isTgtOff (icfgOff k i) = true := by
    unfold isTgtOff icfgOff
    simp
    omega
  refine ⟨?_, frame, ?_, ?_, place, ?_⟩
  · unfold isWinOff icfgOff
    simp
    omega
  · rw [isIcfgOff, frame, place]
    simp
  · unfold icfgOff
    omega
  · unfold icfgOff
    omega

theorem regRow_icfgOff {p : Par} (hp : k < p.targets) : regRow p (icfgOff k i) = some (regRowIcfg (icfgOff k i)) := by
  obtain ⟨win, frame, -, align, place, own⟩ := icfgOff_place hk hi
  have ring : isRingOff (icfgOff k i) = false := by
    unfold isRingOff icfgOff
    simp
    omega
  have range : 0x100 ≤ 0x100 + 4 * i ∧ 0x100 + 4 * i < 0x180 := by omega
  simp only [regRow, align, win, ring, frame, own, place, hp, range, ne_eq, not_true_eq_false, Bool.false_eq_true, if_false, if_true,
    and_self]

/-- A privileged and secure write takes the bits that are not fixed, with no flag. -/
theorem wordPlan_icfg {s : State} (hl : locked s 0 = false) (d : W32) :
    wordPlan s (icfgOff k i) (regRowIcfg (icfgOff k i)) d true true =
      { off := icfgOff k i, row := regRowIcfg (icfgOff k i), v := d, m := icfgMask i, kinds := [] } := by
  obtain ⟨win, frame, icfg, -, place, -⟩ := icfgOff_place hk hi
  have fixed : (0x1FFF : W32) &&& ~~~fixedBits (icfgOff k i) = icfgMask i := by
    unfold fixedBits icfgMask
    rw [icfg, place]
    by_cases h16 : 16 ≤ i
    · rw [if_pos h16, if_neg (by simp; omega)]
      decide
    · rw [if_neg h16, if_pos (by simp; omega)]
      decide
  have value : (s.rd (icfgOff k i) &&& ~~~0xFFFFFFFF) ||| (d &&& 0xFFFFFFFF) = d := by
    rw [and_ones]
    simp
  have reach : ((regRowIcfg (icfgOff k i)).rw ||| (regRowIcfg (icfgOff k i)).w1c ||| (regRowIcfg (icfgOff k i)).w1s |||
      (regRowIcfg (icfgOff k i)).wo) &&& accMask s (icfgOff k i) (regRowIcfg (icfgOff k i)) true true &&& 0xFFFFFFFF = 0x1FFF := by
    simp only [accMask, if_true, and_ones]
    exact (by decide : (0x1FFF ||| 0 ||| 0 ||| 0 : W32) = 0x1FFF)
  simp only [wordPlan, planWord, value, reach, fixed, fieldChecks, win, frame, icfg, hl, Bool.false_eq_true, if_false, if_true, runChecks_free]

end

/-- From s to t operations have joined the end of target k's queue, and nothing else has changed. -/
def Joined (s t : State) (k : Nat) (l : List TOp) : Prop :=
  t = { s with tg := t.tg } ∧ t.tgt k = { s.tgt k with opq := (s.tgt k).opq ++ l } ∧ ∀ j, j ≠ k → t.tgt j = s.tgt j

theorem joined_nil (s : State) (k : Nat) : Joined s s k [] := ⟨rfl, by simp, fun _ _ => rfl⟩

theorem Joined.withOp {s t : State} {k : Nat} {l : List TOp} (h : Joined s t k l) (o : TOp) : Joined s (withOp t k o) k (l ++ [o]) := by
  obtain ⟨frame, own, other⟩ := h
  refine ⟨?_, ?_, fun j hj => ?_⟩
  · rw [Machine.withOp, State.setTgt, frame]
  · rw [withOp_tgt, if_pos rfl, own, List.append_assoc]
  · rw [withOp_tgt, if_neg hj, List.append_nil, other j hj]

/-- The re-prioritise that a write of TGT_ICFG queues. -/
def rprOp (s : State) (k i : Nat) : TOp := mkOp .rpr false (BitVec.ofNat 21 i) (icfgAttr s k i) s.count

section
variable {s w : State} {k i : Nat} {p : WPlan} (hk : k < 128) (hi : i < 32) (hp : p.off = icfgOff k i)
  (hw : s.wr (icfgOff k i) (p.value (s.rd (icfgOff k i))) = w)
include hk hi hp hw

/-- Behind the re-prioritise a change of EN raises the event, or drops it. -/
theorem applyIcfg_cases :
    let u := treeEnq w k (rprOp w k i)
    applyIcfg s p = u ∨ applyIcfg s p = localRaise u k i ∨ applyIcfg s p = localDrop u k i := by
  obtain ⟨-, -, -, -, -, own⟩ := icfgOff_place hk hi
  simp only [applyIcfg, hp, own, icfgOff_word hi k, hw]
  split
  · split
    · exact .inr (.inl rfl)
    · exact .inl rfl
  · split
    · exact .inr (.inr rfl)
    · exact .inl rfl

/-- The write takes the word, and the re-prioritise is the first to join the queue. -/
theorem applyIcfg_spec (room : (s.tgt k).opq.length < 62) (hs : (s.tgt k).src = []) :
    ∃ l, Joined w (applyIcfg s p) k (rprOp w k i :: l) := by
  have tgt : w.tgt k = s.tgt k := by rw [← hw, tgt_wr]
  have first : treeEnq w k (rprOp w k i) = withOp w k (rprOp w k i) :=
    treeEnq_room (by rw [tgt]; omega) (.inl (by rw [tgt, hs]))
  have joined : Joined w (withOp w k (rprOp w k i)) k [rprOp w k i] := (joined_nil w k).withOp _
  have queue : (withOp w k (rprOp w k i)).tgt k = { s.tgt k with opq := (s.tgt k).opq ++ [rprOp w k i] } := by
    rw [withOp_tgt, if_pos rfl, tgt]
  have next : ∀ o, treeEnq (withOp w k (rprOp w k i)) k o = withOp (withOp w k (rprOp w k i)) k o := fun o => by
    refine treeEnq_room ?_ (.inl ?_)
    · rw [queue, List.length_append, List.length_singleton]
      omega
    · rw [queue]
      exact hs
  obtain e | e | e := applyIcfg_cases hk hi hp hw
  · exact ⟨[], by rwa [e, first]⟩
  · exact ⟨_, by rw [e, first, localRaise, next]; exact joined.withOp _⟩
  · exact ⟨_, by rw [e, first, localDrop, next]; exact joined.withOp _⟩

end

theorem accessed_tgt (s : State) (acc : RegAcc) (off j : Nat) : (accessed s acc off).tgt j = s.tgt j := by
  rw [accessed_frame]
  rfl

/-- The write of a built target's TGT_ICFG, admitted, is that of the word. -/
theorem regWrite_icfg {s : State} {k i : Nat} {acc : RegAcc} (h : running s = true) (ha : Admits s acc) (hp : acc.priv = true)
    (hs : acc.sec = true) (hk : k < 128) (hi : i < 32) (hb : k < s.par.targets) (hl : locked s 0 = false) :
    let o := icfgOff k i
    regWrite s o acc = replied s acc
      (applyIcfg (accessed s acc o) { off := o, row := regRowIcfg o, v := acc.data, m := icfgMask i, kinds := [] }) false 0 := by
  intro o
  obtain ⟨win, frame, icfg, align, place, -⟩ := icfgOff_place hk hi
  have high : 0x100000 ≤ o ∧ o < 2 ^ 24 := by
    unfold o icfgOff
    omega
  have off : (BitVec.ofNat 24 o).toNat = o := by
    rw [BitVec.toNat_ofNat]
    exact Nat.mod_eq_of_lt high.2
  have free : portHeld s (wordAccess o acc) = false := by
    have other : o % 0x1000 / 8 ≠ 5 := by
      rw [place]
      omega
    simp [portHeld, vpeWaits, wordAccess, off, other]
  have plan := wordPlan_icfg hk hi (s := accessed s acc o) ((bit_accessed ..).trans hl) acc.data
  have taken : icfgMask i ≠ 0 := by
    unfold icfgMask
    split <;> decide
  rw [regWrite_eq, srcWrite_admitted (a := wordAccess o acc) h ha (fun _ => free) rfl]
  · rfl
  · rw [show (wordAccess o acc).off.toNat = o from off]
    refine (busWrite_word align ((congrArg (regRow · o) (accessed_par ..)).trans (regRow_icfgOff hk hi hb)) (.inr (by omega)) ..).trans ?_
    have lane : laneOf (wordAccess o acc).data o = acc.data := laneOf_regWrite acc.data o
    rw [lane, show (wordAccess o acc).priv = true from hp, show (wordAccess o acc).sec = true from hs]
    have plan' : wordPlan (accessed s (attrsOf (wordAccess o acc)) o) o (regRowIcfg o) acc.data true true = _ := plan
    rw [plan']
    simp only [flagPlans_none, applyWord, taken, win, frame, icfg, if_false, if_true, Bool.false_eq_true]
    rfl

/-- A write of TGT_ICFG: the word, the re-prioritise, and nothing of another target. -/
theorem gives_tgtIcfgWrite {s : State} {k : BitVec 7} {i : BitVec 5} {acc : RegAcc} (h : running s = true) (ha : Admits s acc)
    (hp : acc.priv = true) (hs : acc.sec = true) (hb : k.toNat < s.par.targets) (hl : locked s 0 = false)
    (room : (s.tgt k.toNat).opq.length < 62) (src : (s.tgt k.toNat).src = []) :
    let o := icfgOff k.toNat i.toNat
    Gives (.tgtIcfgWrite k i acc) s fun u =>
      u.rd o = icfgWord (s.rd o) acc.data i.toNat ∧ (∀ off, off ≠ o → u.rd off = s.rd off) ∧
      (∀ j, j ≠ k.toNat → u.tgt j = s.tgt j) ∧
      (u.tgt k.toNat).opq.take ((s.tgt k.toNat).opq.length + 1) = (s.tgt k.toNat).opq ++
        [mkOp .rpr false (BitVec.ofNat 21 i.toNat) (icfgAttr u k.toNat i.toNat) s.count] := by
  intro o
  have base := accessed_tgt s acc o
  have value : ({ off := o, row := regRowIcfg o, v := acc.data, m := icfgMask i.toNat, kinds := [] } : WPlan).value
      ((accessed s acc o).rd o) = icfgWord (s.rd o) acc.data i.toNat := by
    rw [rd_accessed]
    exact value_rw rfl (and_icfgMask _) _
  obtain ⟨l, frame, own, other⟩ := applyIcfg_spec (s := accessed s acc o)
    (p := { off := o, row := regRowIcfg o, v := acc.data, m := icfgMask i.toNat, kinds := [] }) k.isLt i.isLt rfl rfl
    (by rw [base]; exact room) (by rw [base]; exact src)
  have acts := regWrite_icfg h ha hp hs k.isLt i.isLt hb hl
  simp only [show icfgOff k.toNat i.toNat = o from rfl, value] at frame own other acts
  generalize applyIcfg _ _ = t at frame own other acts
  have rd : ∀ j, (replied s acc t false 0).rd j = if j = o then icfgWord (s.rd o) acc.data i.toNat else s.rd j := fun j => by
    rw [rd_replied, frame]
    refine (rd_wr ..).trans ?_
    rw [rd_accessed]
  have tgt : ∀ j, (replied s acc t false 0).tgt j = t.tgt j := fun j => by
    rw [replied_frame]
    rfl
  refine gives_intro (congrArg Host.Outcome.next acts) ⟨(rd o).trans (if_pos rfl), fun j hj => (rd j).trans (if_neg hj),
    fun j hj => ?_, ?_⟩
  · rw [tgt, other j hj, tgt_wr, base]
  · have attr : icfgAttr (replied s acc t false 0) k.toNat i.toNat =
        icfgAttr ((accessed s acc o).wr o (icfgWord (s.rd o) acc.data i.toNat)) k.toNat i.toNat :=
      icfgAttr_congr (((rd o).trans (if_pos rfl)).trans (rd_wr_same ..).symm)
    rw [tgt, own, attr, tgt_wr, base, rprOp, wr_count, accessed_count, List.append_cons, ← List.length_singleton, ← List.length_append]
    exact List.take_left

/-- Settles O18: the line and its event, and the write of the input's word. -/
theorem localInputs : Obligations.LocalInputs := by
  unfold Obligations.LocalInputs
  refine ⟨fun s k n lvl h hk => ?_, fun s k i acc h ha hp hs hb hl room src => ?_⟩
  · intro i o hl pins
    exact ⟨gives_localInput_disabled h hk hl, gives_localInput_enabled h hk hl⟩
  · refine gives_mono (gives_tgtIcfgWrite h ha hp hs hb hl room src) fun u ⟨word, rest⟩ => ⟨?_, rest⟩
    rw [word, icfgWord_eq]

end Sys2Proof.Machine
end
